-- ==== Sys2Proof/Ids.lean ====
section
/-! DEFINITION. Names of the module's parts, as commands and state spell them (R6, R297, R309, R343). -/

namespace Sys2Proof

/-- Host port A or B. -/
inductive HostPort where
  | A | B
deriving DecidableEq, Repr

/-- A core site (x, y) (R6). -/
structure CoreId where
  x : Fin 512
  y : Fin 448
deriving DecidableEq, Repr

/-- A cluster (cx, cy) (R6). -/
structure ClusterId where
  cx : Fin 64
  cy : Fin 56
deriving DecidableEq, Repr

/-- A frame (fx, fy) (R6). -/
structure FrameId where
  fx : Fin 8
  fy : Fin 7
deriving DecidableEq, Repr

/-- An edge port (R343). -/
abbrev EdgePort := Fin 120

/-- A frame seam (R309). -/
abbrev SeamId := Fin 97

/-- A slate number. -/
abbrev SlateId := Fin 4096

/-- A sideband pin SB0 to SB7 (R581). -/
abbrev SbPin := Fin 8

/-- A mesh plane (R297). -/
abbrev Plane := Fin 2

/-- A scene: storyboard number and scene index (R272, R275). -/
structure SceneId where
  sbn : Fin 256
  idx : Fin 1024
deriving DecidableEq, Repr

/-- Router ports, numbered as in R321: 0 LOCAL, 1 W, 2 S, 3 E, 4 N. -/
inductive PortDir where
  | loc | w | s | e | n
deriving DecidableEq, Repr

/-- Virtual channels (R298). -/
inductive Chan where
  | ctl | req | rsp | bulk
deriving DecidableEq, Repr

/-- Why a splice link was lost (R321). -/
inductive LockCause where
  | lock | deskew
deriving DecidableEq, Repr

/-- A record of the command ring (R416). `buffer` is what a read of
DATA_LEN bytes at DATA_ADDR returns, `none` when the host completes that read with an error. -/
structure CmdRec where
  hdrType : BitVec 16
  len : BitVec 16
  seq : BitVec 32
  opcode : BitVec 16
  slate : BitVec 12
  modul : Bool
  scopeRsv : BitVec 3
  cseq : BitVec 32
  ifMinor : BitVec 8
  ifMajor : BitVec 8
  rsv : BitVec 48
  dataAddr : BitVec 64
  dataLen : BitVec 32
  param : BitVec 224
  buffer : Option (List Byte)
deriving DecidableEq, Repr

end Sys2Proof
end

