-- ==== Sys2Proof/Operands.lean ====
section
/-! DEFINITION. Operand types of the commands that are neither names of parts nor numbers. -/

namespace Sys2Proof

/-- A 16-bit value. -/
abbrev Word16 := BitVec 16

/-- Rings of a host port (R411). -/
inductive RingKind where
  | cmd | cpl | evt
deriving DecidableEq, Repr

/-- Why a host link is lost (R430). -/
inductive LinkCause where
  | perst | linkDown | busMaster
deriving DecidableEq, Repr

/-- Rate at which a PCIe link settles (R403, R404): 2.5 to 128 GT/s. -/
inductive LinkRate where
  | g2 | g5 | g8 | g16 | g32 | g64 | g128
deriving DecidableEq, Repr

/-- A clock unit that qualifies by its own cycles (R502, R516). -/
inductive ClockUnit where
  | node (k : ClusterId)
  | island (k : ClusterId)
  | frame (f : FrameId)
  | inject (k : ClusterId)
  | refrec
  | refloc
deriving DecidableEq, Repr

/-- Why the selected reference is lost (R507, R516). -/
inductive RefCause where
  | edges | cdr | link
deriving DecidableEq, Repr

/-- Data classes of Vexaz Link: 0 reel, 1 fabric bulk, 2 fabric requests (R349). -/
abbrev VClass := Fin 3

/-- What BIST and splice training find (R547 step 8, R557): cores, splice links of each seam, vaults, ports. -/
structure BistResult where
  badCores : List CoreId
  deadLinks : List (SeamId × Byte × Byte)
  badVaults : List ClusterId
  badPorts : List EdgePort
deriving DecidableEq, Repr

/-- What the coupling block measures (R544): flow in 0.1 L/min, temperatures in °C. -/
structure CoolantSample where
  flow : BitVec 16
  tIn : Byte
  tOut : Byte
deriving DecidableEq, Repr

/-- A control-block or BAR0 register (R9, R607): the block it stands in and its byte offset. -/
inductive RegLoc where
  | bar0 (p : HostPort) (off : Nat)
  | core (c : CoreId) (off : Nat)
  | cluster (k : ClusterId) (off : Nat)
  | frame (f : FrameId) (off : Nat)
  | port (e : EdgePort) (off : Nat)
  | fabric (off : Nat)
  | clock (off : Nat)
  | power (off : Nat)
deriving DecidableEq, Repr

end Sys2Proof
end

