-- ==== Sys2Proof/Syntax.lean ====
section
/-! DEFINITION. The commands of the module: one constructor for each row of spec/opcode_table.json, in its order. -/

namespace Sys2Proof

/-- The commands. -/
inductive Instr where
  /-- HELLO (R420). -/
  | hello (p : HostPort) (r : CmdRec)
  /-- CLAIM_AUTHORITY (R426). -/
  | claimAuthority (p : HostPort) (r : CmdRec)
  /-- RELEASE_AUTHORITY (R426). -/
  | releaseAuthority (p : HostPort) (r : CmdRec)
  /-- FW_LOAD (R550). -/
  | fwLoad (p : HostPort) (r : CmdRec)
  /-- FW_HANDOVER (R552). -/
  | fwHandover (p : HostPort) (image : List Byte)
  /-- CAL_LOAD (R561). -/
  | calLoad (p : HostPort) (r : CmdRec)
  /-- FLOORPLAN_READ (R559). -/
  | floorplanRead (p : HostPort) (r : CmdRec)
  /-- SLATE_OPEN (R439). -/
  | slateOpen (p : HostPort) (r : CmdRec)
  /-- SLATE_CUT (R458). -/
  | slateCut (p : HostPort) (r : CmdRec)
  /-- SLATE_STATUS (R466). -/
  | slateStatus (p : HostPort) (r : CmdRec)
  /-- SLATE_RELEASE (R465). -/
  | slateRelease (p : HostPort) (r : CmdRec)
  /-- STORYBOARD_LOAD (R276). -/
  | storyboardLoad (p : HostPort) (r : CmdRec)
  /-- SCENE_RUN (R278). -/
  | sceneRun (p : HostPort) (r : CmdRec)
  /-- SCENE_RUN_RESUME (R281). -/
  | sceneRunResume (p : HostPort) (r : CmdRec)
  /-- SCENE_HALT (R603). -/
  | sceneHalt (p : HostPort) (r : CmdRec)
  /-- KEYFRAME_TAKE (R292). -/
  | keyframeTake (p : HostPort) (r : CmdRec)
  /-- REPLAY (R456). -/
  | replay (p : HostPort) (r : CmdRec)
  /-- REMAP (R477). -/
  | remap (p : HostPort) (r : CmdRec)
  /-- KEYFRAME_RELEASE (R293). -/
  | keyframeRelease (p : HostPort) (r : CmdRec)
  /-- PORT_CONFIG (R355). -/
  | portConfig (p : HostPort) (r : CmdRec)
  /-- PORT_CONFIG_FABRIC_FORM (R601). -/
  | portConfigFabricForm (p : HostPort) (r : CmdRec)
  /-- ROUTE_TABLE_WRITE (R385). -/
  | routeTableWrite (p : HostPort) (r : CmdRec)
  /-- PROBE (R380). -/
  | probe (p : HostPort) (r : CmdRec)
  /-- ASSIGN (R380). -/
  | assign (p : HostPort) (r : CmdRec)
  /-- SET_LOCAL (R382). -/
  | setLocal (p : HostPort) (r : CmdRec)
  /-- CLEAR_LOCAL (R382). -/
  | clearLocal (p : HostPort) (r : CmdRec)
  /-- DISCOVERY_TIMEOUT (R380). -/
  | discoveryTimeout (p : HostPort)
  /-- WINDOW_OPEN (R393). -/
  | windowOpen (p : HostPort) (r : CmdRec)
  /-- WINDOW_CLOSE (R396). -/
  | windowClose (p : HostPort) (r : CmdRec)
  /-- WINDOW_CLOSE_DONE (R396). -/
  | windowCloseDone (win : Fin 16384)
  /-- MAP_APERTURE (R408). -/
  | mapAperture (p : HostPort) (r : CmdRec)
  /-- POWER_BUDGET_SET (R524). -/
  | powerBudgetSet (p : HostPort) (r : CmdRec)
  /-- FADE (R535). -/
  | fade (p : HostPort) (r : CmdRec)
  /-- FADE_COMPLETE (R536). -/
  | fadeComplete
  /-- UNFADE (R537). -/
  | unfade (p : HostPort) (r : CmdRec)
  /-- UNFADE_COMPLETE (R538). -/
  | unfadeComplete
  /-- STOP_LIMIT_SET (R523). -/
  | stopLimitSet (p : HostPort) (r : CmdRec)
  /-- ENERGY_READ (R542). -/
  | energyRead (p : HostPort) (r : CmdRec)
  /-- POLICY_SET (R472). -/
  | policySet (p : HostPort) (r : CmdRec)
  /-- FENCE_CORE (R602). -/
  | fenceCore (p : HostPort) (r : CmdRec)
  /-- UNFENCE_CORE (R602). -/
  | unfenceCore (p : HostPort) (r : CmdRec)
  /-- DAILIES_COLLECT (R486). -/
  | dailiesCollect (p : HostPort) (r : CmdRec)
  /-- DAILIES_WRITTEN (R487). -/
  | dailiesWritten
  /-- RESET (R489). -/
  | reset (p : HostPort) (r : CmdRec)
  /-- RESET_DONE (R489). -/
  | resetDone
  /-- SB_ASSIGN (R582). -/
  | sbAssign (p : HostPort) (r : CmdRec)
  /-- CLOCK_SOURCE_SELECT (R505). -/
  | clockSourceSelect (p : HostPort) (r : CmdRec)
  /-- CLOCK_SELECT_TIMEOUT (R505). -/
  | clockSelectTimeout
  /-- DEBUG_UNLOCK_NONCE (R565). -/
  | debugUnlockNonce (p : HostPort) (r : CmdRec)
  /-- DEBUG_UNLOCK_GRANT (R565). -/
  | debugUnlockGrant (p : HostPort) (r : CmdRec)
  /-- SCENE_ADMISSION (R279). -/
  | sceneAdmission (sc : SceneId)
  /-- ADMISSION_COPY_DONE (R279). -/
  | admissionCopyDone (sc : SceneId)
  /-- ADMISSION_COPY_FAILED (R280). -/
  | admissionCopyFailed (sc : SceneId) (status : Word16)
  /-- CORE_SCENE_START (R279). -/
  | coreSceneStart (c : CoreId)
  /-- CUT_DRAIN_DONE (R458). -/
  | cutDrainDone (slate : SlateId)
  /-- CUT_DEADLINE (R458). -/
  | cutDeadline (slate : SlateId)
  /-- CUT_RETIRE (R458). -/
  | cutRetire (slate : SlateId)
  /-- SCRUB_DONE (R461). -/
  | scrubDone (slate : SlateId) (us : Word)
  /-- FAULT_HALT (R475). -/
  | faultHalt
  /-- HANG_PROGRESS_REPORT (R483). -/
  | hangProgressReport
  /-- HANG_DECLARED (R483). -/
  | hangDeclared (sc : SceneId)
  /-- HANG_CORE_RESET_TIMEOUT (R484). -/
  | hangCoreResetTimeout (c : CoreId)
  /-- HANG_SUSPECT_ENDED (R485). -/
  | hangSuspectEnded (slate : SlateId)
  /-- HEARTBEAT (R493). -/
  | heartbeat
  /-- CONTROLLER_WATCHDOG (R494). -/
  | controllerWatchdog
  /-- NOP (R175). -/
  | nop (c : CoreId)
  /-- ADD (R175). -/
  | add (c : CoreId)
  /-- SUB (R175). -/
  | sub (c : CoreId)
  /-- AND (R175). -/
  | and (c : CoreId)
  /-- OR (R175). -/
  | or (c : CoreId)
  /-- XOR (R175). -/
  | xor (c : CoreId)
  /-- SHL (R175). -/
  | shl (c : CoreId)
  /-- SHR (R175). -/
  | shr (c : CoreId)
  /-- SRA (R175). -/
  | sra (c : CoreId)
  /-- MUL (R175). -/
  | mul (c : CoreId)
  /-- SLT (R175). -/
  | slt (c : CoreId)
  /-- SLTU (R175). -/
  | sltu (c : CoreId)
  /-- MIN (R175). -/
  | min (c : CoreId)
  /-- MAX (R175). -/
  | max (c : CoreId)
  /-- ADDI (R175). -/
  | addi (c : CoreId)
  /-- ANDI (R175). -/
  | andi (c : CoreId)
  /-- ORI (R175). -/
  | ori (c : CoreId)
  /-- XORI (R175). -/
  | xori (c : CoreId)
  /-- SHLI (R175). -/
  | shli (c : CoreId)
  /-- SHRI (R175). -/
  | shri (c : CoreId)
  /-- SRAI (R175). -/
  | srai (c : CoreId)
  /-- LUI (R175). -/
  | lui (c : CoreId)
  /-- SLTI (R175). -/
  | slti (c : CoreId)
  /-- MOVS (R175). -/
  | movs (c : CoreId)
  /-- RDCCB (R181). -/
  | rdccb (c : CoreId)
  /-- RDCTR (R175). -/
  | rdctr (c : CoreId)
  /-- LD (R209). -/
  | ld (c : CoreId)
  /-- ST (R209). -/
  | st (c : CoreId)
  /-- CSET (R180). -/
  | cset (c : CoreId)
  /-- CSETI (R180). -/
  | cseti (c : CoreId)
  /-- CADD (R180). -/
  | cadd (c : CoreId)
  /-- CWAIT (R180). -/
  | cwait (c : CoreId)
  /-- CWAITI (R180). -/
  | cwaiti (c : CoreId)
  /-- CWAITT (R180). -/
  | cwaitt (c : CoreId)
  /-- CWAIT_SATISFIED (R180). -/
  | cwaitSatisfied (c : CoreId)
  /-- CWAITT_DEADLINE (R180). -/
  | cwaittDeadline (c : CoreId)
  /-- ISSUE_MX (R182). -/
  | issueMx (c : CoreId)
  /-- ISSUE_VX (R182). -/
  | issueVx (c : CoreId)
  /-- ISSUE_DMA (R182). -/
  | issueDma (c : CoreId)
  /-- ISSUE_SLOT_FREE (R182). -/
  | issueSlotFree (c : CoreId)
  /-- SCOREBOARD_WAIT_END (R213). -/
  | scoreboardWaitEnd (c : CoreId)
  /-- SEND (R185). -/
  | send (c : CoreId)
  /-- SENDB (R185). -/
  | sendb (c : CoreId)
  /-- RECV (R240). -/
  | recv (c : CoreId)
  /-- RECVB (R185). -/
  | recvb (c : CoreId)
  /-- QSTAT (R175). -/
  | qstat (c : CoreId)
  /-- ARRIVE (R189). -/
  | arrive (c : CoreId)
  /-- CLWAIT (R190). -/
  | clwait (c : CoreId)
  /-- BR (R176). -/
  | br (c : CoreId)
  /-- JMP (R175). -/
  | jmp (c : CoreId)
  /-- LOOP (R175). -/
  | loop (c : CoreId)
  /-- HALT (R196). -/
  | halt (c : CoreId)
  /-- HALT_COMPLETE (R196). -/
  | haltComplete (c : CoreId)
  /-- EVENT (R200). -/
  | event (c : CoreId)
  /-- FENCE (R184). -/
  | fence (c : CoreId)
  /-- FENCE_COMPLETE (R184). -/
  | fenceComplete (c : CoreId)
  /-- NO_PROGRESS (R199). -/
  | noProgress (c : CoreId)
  /-- CORE_HOLD_ORDER (R20). -/
  | coreHoldOrder (c : CoreId)
  /-- WEIGHT_TILE_LOAD_START (R74). -/
  | weightTileLoadStart (c : CoreId)
  /-- WEIGHT_TILE_RESIDENT (R77). -/
  | weightTileResident (c : CoreId)
  /-- MX_TILE_VIOLATION (R131). -/
  | mxTileViolation (c : CoreId)
  /-- MX_PASS (R79). -/
  | mxPass (c : CoreId)
  /-- MX_RETAKE (R98). -/
  | mxRetake (c : CoreId) (cols : BitVec 128) (again : BitVec 128)
  /-- MX_ROW_EXPORT (R86). -/
  | mxRowExport (c : CoreId)
  /-- MX_DESCRIPTOR_COMPLETE (R96). -/
  | mxDescriptorComplete (c : CoreId)
  /-- GATHER_ROW_DISPATCH (R125). -/
  | gatherRowDispatch (c : CoreId)
  /-- GATHER_RETAKE (R126). -/
  | gatherRetake (c : CoreId) (cols : BitVec 128) (again : BitVec 128)
  /-- FUSED_VXD_START (R163). -/
  | fusedVxdStart (c : CoreId)
  /-- VX_CHUNK (R167). -/
  | vxChunk (c : CoreId)
  /-- VX_DESCRIPTOR_COMPLETE (R162). -/
  | vxDescriptorComplete (c : CoreId)
  /-- VX_TILE_VIOLATION (R165). -/
  | vxTileViolation (c : CoreId)
  /-- DMA_ROW (R229). -/
  | dmaRow (c : CoreId)
  /-- DMA_DESCRIPTOR_COMPLETE (R231). -/
  | dmaDescriptorComplete (c : CoreId)
  /-- DMA_DEADLINE (R233). -/
  | dmaDeadline (c : CoreId)
  /-- ROUTER_FORWARD (R304). -/
  | routerForward (k : ClusterId) (pl : Plane) (d : PortDir) (vc : Chan)
  /-- QUEUE (R245). -/
  | queue (k : ClusterId) (pl : Plane) (hd : BitVec 128) (td : Word)
  /-- END_MARK (R284). -/
  | endMark (k : ClusterId) (pl : Plane) (hd : BitVec 128) (td : Word)
  /-- CREDIT (R250). -/
  | credit (k : ClusterId) (pl : Plane) (hd : BitVec 128) (td : Word)
  /-- REFUSE (R246). -/
  | refuse (k : ClusterId) (pl : Plane) (hd : BitVec 128) (td : Word)
  /-- DARK_RET (R312). -/
  | darkRet (k : ClusterId) (pl : Plane) (hd : BitVec 128) (td : Word)
  /-- FREEZE (R247). -/
  | freeze (k : ClusterId) (pl : Plane) (hd : BitVec 128) (td : Word)
  /-- CLAP_ARRIVE (R189). -/
  | clapArrive (k : ClusterId) (pl : Plane) (hd : BitVec 128) (td : Word)
  /-- RESUME_POINT_COPY_DONE (R294). -/
  | resumePointCopyDone (sc : SceneId)
  /-- CLAP_REPLY (R189). -/
  | clapReply (k : ClusterId) (pl : Plane) (hd : BitVec 128) (td : Word)
  /-- CLAP_NOTIFY (R190). -/
  | clapNotify (k : ClusterId) (pl : Plane) (hd : BitVec 128) (td : Word)
  /-- MEM_RD (R225). -/
  | memRd (k : ClusterId) (pl : Plane) (hd : BitVec 128) (td : Word)
  /-- MEM_RD_DATA (R299). -/
  | memRdData (k : ClusterId) (pl : Plane) (hd : BitVec 128) (td : Word)
  /-- MEM_WR (R225). -/
  | memWr (k : ClusterId) (pl : Plane) (hd : BitVec 128) (td : Word)
  /-- MEM_WR_ACK (R299). -/
  | memWrAck (k : ClusterId) (pl : Plane) (hd : BitVec 128) (td : Word)
  /-- RING_RECORD_CONSUME (R267). -/
  | ringRecordConsume (k : ClusterId) (ctl : Fin 1048576)
  /-- SPLICE_LOCK_LOSS (R311). -/
  | spliceLockLoss (sm : SeamId) (l0 : Byte) (l1 : Byte) (cause : LockCause)
  /-- VAULT_PORT_REQUEST (R325). -/
  | vaultPortRequest (k : ClusterId)
  /-- VAULT_REFETCH_DONE (R334). -/
  | vaultRefetchDone (k : ClusterId) (data : List Byte)
  /-- VAULT_REFETCH_TIMEOUT (R334). -/
  | vaultRefetchTimeout (k : ClusterId)
  /-- VAULT_PATROL (R337). -/
  | vaultPatrol (k : ClusterId)
  /-- VAULT_TEMP_SAMPLE (R329). -/
  | vaultTempSample (k : ClusterId) (t : Word16)
  /-- ETH_FRAME_RECEIVE (R347). -/
  | ethFrameReceive (e : EdgePort) (fcsOk : Bool) (frame : List Byte)
  /-- PFC_FRAME (R349). -/
  | pfcFrame (e : EdgePort) (mask : Byte) (quanta : List Word16)
  /-- PFC_REPEAT (R356). -/
  | pfcRepeat (e : EdgePort)
  /-- PCS_LOCK (R352). -/
  | pcsLock (e : EdgePort)
  /-- INIT_REPEAT (R352). -/
  | initRepeat (e : EdgePort)
  /-- INIT (R352). -/
  | init (e : EdgePort)
  /-- INIT_ACK (R352). -/
  | initAck (e : EdgePort)
  /-- VEXAZ_DATA (R351). -/
  | vexazData (e : EdgePort)
  /-- ACK (R351). -/
  | ack (e : EdgePort)
  /-- NAK (R351). -/
  | nak (e : EdgePort)
  /-- IDLE (R351). -/
  | idle (e : EdgePort)
  /-- ACK_DUE (R351). -/
  | ackDue (e : EdgePort)
  /-- IDLE_DUE (R351). -/
  | idleDue (e : EdgePort)
  /-- RETRY_TIMEOUT (R351). -/
  | retryTimeout (e : EdgePort) (vcl : VClass)
  /-- LINK_DOWN (R353). -/
  | linkDown (e : EdgePort)
  /-- RHELLO_ACK (R362). -/
  | rhelloAck (e : EdgePort)
  /-- OPEN_ACK (R363). -/
  | openAck (e : EdgePort)
  /-- REEL_DATA (R364). -/
  | reelData (e : EdgePort)
  /-- ERROR (R367). -/
  | error (e : EdgePort)
  /-- PUT_ACK (R366). -/
  | putAck (e : EdgePort)
  /-- REEL_READ (R358). -/
  | reelRead (e : EdgePort)
  /-- REEL_WRITE (R366). -/
  | reelWrite (e : EdgePort)
  /-- PUT_FLUSH (R366). -/
  | putFlush (e : EdgePort)
  /-- STREAM_PAUSE_IN (R356). -/
  | streamPauseIn (pin : SbPin)
  /-- FHELLO (R379). -/
  | fhello (e : EdgePort)
  /-- FHELLO_REPEAT (R379). -/
  | fhelloRepeat (e : EdgePort)
  /-- DISC_REQ (R380). -/
  | discReq (e : EdgePort)
  /-- DISC_RSP (R380). -/
  | discRsp (e : EdgePort)
  /-- ID_ASSIGN (R381). -/
  | idAssign (e : EdgePort)
  /-- ID_ASSIGN_ACK (R380). -/
  | idAssignAck (e : EdgePort)
  /-- ORIGIN_WRITE (R390). -/
  | originWrite (e : EdgePort)
  /-- WWRITE (R394). -/
  | wwrite (e : EdgePort)
  /-- WACK (R390). -/
  | wack (e : EdgePort)
  /-- FABRIC_TIMEOUT (R391). -/
  | fabricTimeout (e : EdgePort) (seq : Word)
  /-- CMD_DOORBELL (R411). -/
  | cmdDoorbell (p : HostPort) (v : Word)
  /-- CPL_TAIL (R428). -/
  | cplTail (p : HostPort) (v : Word)
  /-- EVT_TAIL (R428). -/
  | evtTail (p : HostPort) (v : Word)
  /-- RING_ENABLE (R412). -/
  | ringEnable (p : HostPort) (v : Word)
  /-- RING_DISABLE (R412). -/
  | ringDisable (p : HostPort) (v : Word)
  /-- REGISTER_WRITE (R9). -/
  | registerWrite (loc : RegLoc) (v : DWord)
  /-- RC_REGISTER_READ (R9). -/
  | rcRegisterRead (loc : RegLoc)
  /-- APERTURE_READ (R409). -/
  | apertureRead (p : HostPort) (off : Nat)
  /-- APERTURE_WRITE (R409). -/
  | apertureWrite (p : HostPort) (off : Nat) (be : BitVec 4) (v : Word)
  /-- IRQ_MOD_TIMEOUT (R415). -/
  | irqModTimeout (p : HostPort) (ring : RingKind)
  /-- HOLDING_BUFFER_FLUSH (R419). -/
  | holdingBufferFlush (p : HostPort)
  /-- HOST_LINK_LOSS (R430). -/
  | hostLinkLoss (p : HostPort) (cause : LinkCause)
  /-- HOST_LINK_UP (R404). -/
  | hostLinkUp (p : HostPort) (rate : LinkRate) (width : Fin 5)
  /-- GET_VERSION (R405). -/
  | getVersion (p : HostPort) (m : List Byte)
  /-- GET_CAPABILITIES (R405). -/
  | getCapabilities (p : HostPort) (m : List Byte)
  /-- NEGOTIATE_ALGORITHMS (R405). -/
  | negotiateAlgorithms (p : HostPort) (m : List Byte)
  /-- GET_DIGESTS (R405). -/
  | getDigests (p : HostPort) (m : List Byte)
  /-- GET_CERTIFICATE (R563). -/
  | getCertificate (p : HostPort) (m : List Byte)
  /-- CHALLENGE (R564). -/
  | challenge (p : HostPort) (m : List Byte)
  /-- GET_MEASUREMENTS (R554). -/
  | getMeasurements (p : HostPort) (m : List Byte)
  /-- KEY_EXCHANGE (R405). -/
  | keyExchange (p : HostPort) (m : List Byte)
  /-- FINISH (R405). -/
  | finish (p : HostPort) (m : List Byte)
  /-- SPDM_HEARTBEAT (R405). -/
  | spdmHeartbeat (p : HostPort) (m : List Byte)
  /-- KEY_UPDATE (R405). -/
  | keyUpdate (p : HostPort) (m : List Byte)
  /-- END_SESSION (R405). -/
  | endSession (p : HostPort) (m : List Byte)
  /-- VENDOR_DEFINED_REQUEST (R405). -/
  | vendorDefinedRequest (p : HostPort) (m : List Byte)
  /-- OSC_QUALIFIED (R502). -/
  | oscQualified (u : ClockUnit)
  /-- OSC_NOT_STABLE (R502). -/
  | oscNotStable (u : ClockUnit)
  /-- REF_LOST (R508). -/
  | refLost (cause : RefCause)
  /-- REF_RETURN (R510). -/
  | refReturn
  /-- MESH_LOCK (R511). -/
  | meshLock
  /-- REFLOC_FAILED (R512). -/
  | reflocFailed
  /-- TIME_PULSE_OUT (R582). -/
  | timePulseOut (pin : SbPin)
  /-- TIME_PULSE_IN (R582). -/
  | timePulseIn (pin : SbPin)
  /-- FADE_REQ_IN_ASSERT (R584). -/
  | fadeReqInAssert (pin : SbPin)
  /-- FADE_REQ_IN_RELEASE (R584). -/
  | fadeReqInRelease (pin : SbPin)
  /-- INLET_EN_CLOSE (R570). -/
  | inletEnClose
  /-- INLET_EN_OPEN (R570). -/
  | inletEnOpen
  /-- HOT_SWAP_RAMP_DONE (R547). -/
  | hotSwapRampDone
  /-- INLET_RANGE (R519). -/
  | inletRange (mv : Word)
  /-- INLET_DISCONNECT (R519). -/
  | inletDisconnect (mv : Word)
  /-- CAL_WAIT_EXPIRY (R550). -/
  | calWaitExpiry
  /-- BIST_COMPLETE (R558). -/
  | bistComplete (bist : BistResult)
  /-- FAST_PATH_DONE (R555). -/
  | fastPathDone
  /-- FRAME_CORRECTION (R529). -/
  | frameCorrection (f : FrameId) (mw : Word)
  /-- LEASE_EXPIRED (R526). -/
  | leaseExpired
  /-- BUDGET_UNMET (R530). -/
  | budgetUnmet (mw : Word)
  /-- DROOP_DETECT (R531). -/
  | droopDetect (f : FrameId) (mv : Word16)
  /-- DROOP_END (R531). -/
  | droopEnd (f : FrameId)
  /-- LOGIC_SENSOR_SAMPLE (R532). -/
  | logicSensorSample (k : ClusterId) (t : Word16)
  /-- COOLANT_SAMPLE (R544). -/
  | coolantSample (cs : CoolantSample)
  /-- MON_FAULT_WRITE (R579). -/
  | monFaultWrite (v : Byte)
  /-- SETDASA (R578). -/
  | setdasa (addr : BitVec 7)
  /-- RSTDAA (R578). -/
  | rstdaa
  /-- JTAG_INSTRUCTION (R580). -/
  | jtagInstruction (ir : Byte)
  /-- STORYBOARD_LOAD_DONE (R276). -/
  | storyboardLoadDone (slate : SlateId) (words : Option (List Word))
  /-- KEYFRAME_TAKE_DONE (R292). -/
  | keyframeTakeDone (sc : SceneId) (status : Word16)
  /-- KEYFRAME_RESTORE_DONE (R456). -/
  | keyframeRestoreDone (sc : SceneId) (status : Word16)
  /-- STREAM_PAUSE_IN_RELEASE (R356). -/
  | streamPauseInRelease (pin : SbPin)
  /-- PFC_QUANTA_EXPIRY (R349). -/
  | pfcQuantaExpiry (e : EdgePort) (prio : Fin 8)
deriving DecidableEq, Repr

end Sys2Proof
end

