-- ==== Sys2Proof/Machine/Crc.lean ====
section
/-! DEFINITION. The check codes the spec names by their published parameters: CRC-32C (R271, R347, R361, R527), the
IEEE 802.3 CRC-32 (R323, R347) and the CRC-24 of RFC 4880 (R298). -/

namespace Sys2Proof.Machine

/-- Eight steps of a reflected CRC register with polynomial `poly`. -/
def crcReflSteps (poly : Nat) : Nat → Nat → Nat
  | 0, c => c
  | n + 1, c => crcReflSteps poly n (if c % 2 = 1 then (c / 2) ^^^ poly else c / 2)

/-- A reflected 32-bit CRC, initial value and final XOR 0xFFFF_FFFF. -/
def crcRefl (poly : Nat) (bs : List Byte) : Nat :=
  bs.foldl (fun c b => crcReflSteps poly 8 (c ^^^ b.toNat)) 0xFFFFFFFF ^^^ 0xFFFFFFFF

/-- CRC-32C (Castagnoli), reflected polynomial 0x82F6_3B78 (R347). -/
def crc32c (bs : List Byte) : Nat := crcRefl 0x82F63B78 bs

/-- IEEE 802.3 CRC-32, reflected polynomial 0xEDB8_8320 (R323). -/
def crc32 (bs : List Byte) : Nat := crcRefl 0xEDB88320 bs

/-- Eight steps of the CRC-24 register (R298). -/
def crc24Steps : Nat → Nat → Nat
  | 0, c => c
  | n + 1, c => crc24Steps n (if c / 2 ^ 23 % 2 = 1 then (c * 2 ^^^ 0x1864CFB) % 2 ^ 24 else c * 2 % 2 ^ 24)

/-- CRC-24 of RFC 4880: polynomial 0x86_4CFB, initial value 0xB7_04CE (R298). -/
def crc24 (bs : List Byte) : Nat :=
  bs.foldl (fun c b => crc24Steps 8 (c ^^^ (b.toNat * 2 ^ 16))) 0xB704CE

end Sys2Proof.Machine
end

