-- ==== Sys2Proof/Config.lean ====
section
/-! DEFINITION. What the spec leaves open: free values, and the functions of published standards that the model does not
compute. None has a body, so no statement can rest on a value of one. -/

namespace Sys2Proof

/-- The n-th free value of the run, `w` bits wide (log entry 8). -/
opaque Config.freeValue {w : Nat} : Nat → BitVec w

/-- SHA-512 of a message (R551, R405): a published standard. Log entry 9. -/
opaque Config.sha512 : List Byte → List Byte

/-- Ed25519 verification of a signature over a message by a public key (R551, R565). Log entry 9. -/
opaque Config.ed25519Verify : List Byte → List Byte → List Byte → Bool

/-- Signature of the device key over a message (R405, R564). Log entry 9. -/
opaque Config.deviceSign : List Byte → List Byte

/-- The n-th nonce or key share the module draws (R405, R565). Log entry 9. -/
opaque Config.nonce : Nat → List Byte

/-- SHA-512 of the boot ROM (R554): the spec gives no byte of it. Log entry 9. -/
opaque Config.romDigest : List Byte

/-- SHA-512 of the variant fuses, the anti-rollback counter and the factory OTP (R554), by the counter. Log entry 9. -/
opaque Config.fuseDigest : Nat → List Byte

/-- Public keys of firmware key slot 0 and of the debug slot (R553), the device's public key and its certificate chain
(R563): factory data the spec gives no byte of. Log entry 4. -/
opaque Config.fwKey : List Byte

opaque Config.debugKey : List Byte

opaque Config.devicePublic : List Byte

opaque Config.certChain : List Byte

/-- Trims of a node's four coupling weights (R498, R560), by cluster: factory data. Log entry 4. -/
opaque Config.trim : Nat → BitVec 16

/-- The HMAC of a session's messages under its finished key (R405), by session and sender (0 module, 1 host). Log entry 9. -/
opaque Config.sessionMac : Nat → Nat → List Byte → List Byte

/-- DMTF value type of each measurement block (R554): the spec gives none. Log entry 9. -/
opaque Config.measType : Nat → BitVec 8

/-- What a JTAG instruction code selects (R580): the codes are not given. Log entry 4. -/
opaque Config.jtagKind : BitVec 8 → Nat

/-- The instruction code of IDCODE (R580), which IEEE 1149.1 loads at reset. Log entry 76. -/
opaque Config.jtagIdcode : BitVec 8

/-- Lorennum's manufacturer identity in IDCODE (R580). Log entry 4. -/
opaque Config.jtagMaker : BitVec 11

/-- Which of several shortest detours the route entries give (R305), by plane, source and destination cluster.
Log entry 22. -/
opaque Config.routePick : Nat → Nat → Nat → Nat

end Sys2Proof
end

