-- ==== Sys2Proof/Machine/Numeric.lean ====
section
/-! DEFINITION. Number formats and integer arithmetic (R29 to R68): exact values, rounding, A48, products,
normalisation, accumulation, quantisation and the stochastic generator. -/

namespace Sys2Proof.Machine

/-- A number in exact form. `fin m x` stands for `m * 2^(x - 24)` (R39); the other three are the special classes
of R40. -/
inductive Num where
  | fin (m x : Int)
  | inf (neg : Bool)
  | nan
deriving DecidableEq, Repr

/-- round_rne of `n / d`: nearest integer, a tie to the even one (R54). -/
def rneDiv (n : Int) (d : Nat) : Int :=
  let q := n / (d : Int)
  let r := n - q * d
  if 2 * r < d then q
  else if 2 * r > d then q + 1
  else if q % 2 = 0 then q else q + 1

/-- round_rne of `n * 2^e`. -/
def rneScale (n e : Int) : Int :=
  if 0 ≤ e then n * (2 ^ e.toNat : Nat) else rneDiv n (2 ^ (-e).toNat)

/-- floor of `n * 2^e`. -/
def floorScale (n e : Int) : Int :=
  if 0 ≤ e then n * (2 ^ e.toNat : Nat) else n / (2 ^ (-e).toNat : Nat)

/-- Zero as every unit writes it: M = 0 with EA = 0x00 (R54, R59). -/
def numZero : Num := .fin 0 (-127)

/-- The value is a finite zero (R40). -/
def numIsZero : Num → Bool
  | .fin m _ => m == 0
  | _ => false

/-- Mantissa range of A48 (R54). -/
def inMantissa (m : Int) : Bool := decide (-(2 ^ 47) ≤ m) && decide (m ≤ 2 ^ 47 - 1)

/-- First shift from `s` upwards, of `fuel` tries, whose rounded mantissa is in range. -/
def normShift (t : Int) : Nat → Nat → Nat
  | 0, s => s
  | fuel + 1, s => if inMantissa (rneDiv t (2 ^ s)) then s else normShift t fuel (s + 1)

/-- Normalisation N(T, X) (R54). -/
def norm (t x : Int) : Num :=
  if t = 0 then numZero
  else
    let s0 := max 0 (-127 - x).toNat
    let s := normShift t 4 (max s0 (t.natAbs.log2 - 47))
    let m := rneDiv t (2 ^ s)
    if m = 0 then numZero
    else if x + s > 127 then .inf (decide (t < 0))
    else .fin m (x + s)

/-- The 56-bit code of a value (R39, R40). -/
def a48Code : Num → BitVec 56
  | .fin m x => BitVec.ofNat 56 (codeOf 48 m + (x + 127).toNat * 2 ^ 48)
  | .inf false => 0xFF000000000001#56
  | .inf true => 0xFF800000000001#56
  | .nan => 0xFF000000000002#56

/-- The value of a 56-bit code; a malformed pattern is NaN (R39, R40). -/
def a48Value (c : BitVec 56) : Num :=
  let ea := bits c.toNat 48 8
  if ea = 0xFF then
    if c = 0xFF000000000001#56 then .inf false
    else if c = 0xFF800000000001#56 then .inf true
    else .nan
  else .fin (signedOf 48 (bits c.toNat 0 48)) ((ea : Int) - 127)

/-- The value of a stored doubleword: non-zero bits [63:56] make it malformed, hence NaN (R41, R142, R258). -/
def a48OfStored (d : Nat) : Num :=
  if bits d 56 8 = 0 then a48Value (BitVec.ofNat 56 d) else .nan

/-- The sum of two values: classes by R45, finite values by R57. The first operand is the accumulator, which is
kept as it is when the other value is zero. -/
def numAdd : Num → Num → Num
  | .nan, _ => .nan
  | _, .nan => .nan
  | .inf a, .inf b => if a = b then .inf a else .nan
  | .inf a, .fin _ _ => .inf a
  | .fin _ _, .inf b => .inf b
  | .fin m1 x1, .fin m2 x2 =>
    if m2 = 0 then .fin m1 x1
    else if m1 = 0 then .fin m2 x2
    else if x1 ≤ x2 then norm (rneDiv m1 (2 ^ (x2 - x1).toNat) + m2) x2
    else norm (m1 + rneDiv m2 (2 ^ (x1 - x2).toNat)) x1

/-- The product class of two values (R44); a finite product is given as zero here, since the numeric path forms it. -/
def specialProduct : Num → Num → Num
  | .nan, _ => .nan
  | _, .nan => .nan
  | .inf a, .inf b => .inf (a != b)
  | .inf a, .fin m _ => if m = 0 then .nan else .inf (a != decide (m < 0))
  | .fin m _, .inf b => if m = 0 then .nan else .inf (b != decide (m < 0))
  | .fin _ _, .fin _ _ => numZero

/-- Exact comparison of `m1 * 2^e1` with `m2 * 2^e2`. -/
def cmpScaled (m1 e1 m2 e2 : Int) : Ordering :=
  if e1 ≤ e2 then compare m1 (m2 * (2 ^ (e2 - e1).toNat : Nat))
  else compare (m1 * (2 ^ (e1 - e2).toNat : Nat)) m2

/-- Order by value; `none` when either is NaN (R49). -/
def numCompare : Num → Num → Option Ordering
  | .nan, _ => none
  | _, .nan => none
  | .inf a, .inf b => some (if a = b then .eq else if a then .lt else .gt)
  | .inf a, .fin _ _ => some (if a then .lt else .gt)
  | .fin _ _, .inf b => some (if b then .gt else .lt)
  | .fin m1 x1, .fin m2 x2 => some (cmpScaled m1 x1 m2 x2)

/-! ### QB formats -/

/-- A QB format: element width in bits, signedness (R29, R35). -/
structure Qb where
  w : Nat
  signed : Bool
deriving DecidableEq, Repr

/-- Largest finite magnitude Q of a format. -/
def qbMax (f : Qb) : Nat := if f.signed then 2 ^ (f.w - 1) - 2 else 2 ^ f.w - 3

/-- Element code as a class and a finite code value (R35, R36): `fin c 24` stands for the integer `c`. -/
def qbElement (f : Qb) (code : Nat) : Num :=
  let c := code % 2 ^ f.w
  if f.signed then
    if c = 2 ^ (f.w - 1) then .nan
    else if c = 2 ^ (f.w - 1) - 1 then .inf false
    else if c = 2 ^ (f.w - 1) + 1 then .inf true
    else .fin (signedOf f.w c) 24
  else
    if c = 2 ^ f.w - 1 then .nan
    else if c = 2 ^ f.w - 2 then .inf false
    else .fin (c : Int) 24

/-- Value of an element of a block of scale byte `e` (R30): every element of a 0xFF block is NaN. The exact widening
of R60 has M = c * 2^24 and X = E - 127. -/
def qbValue (f : Qb) (e code : Nat) : Num :=
  if e = 0xFF then .nan
  else match qbElement f code with
    | .fin c _ => .fin (c * 2 ^ 24) ((e : Int) - 127)
    | n => n

/-- Code of an infinity or a NaN in a format; an unsigned format writes NaN for minus infinity (R35, R64). -/
def qbSpecial (f : Qb) : Num → Nat
  | .inf false => if f.signed then 2 ^ (f.w - 1) - 1 else 2 ^ f.w - 2
  | .inf true => if f.signed then 2 ^ (f.w - 1) + 1 else 2 ^ f.w - 1
  | .nan => if f.signed then 2 ^ (f.w - 1) else 2 ^ f.w - 1
  | .fin _ _ => 0

/-- Digit `k` of an element code (R51). -/
def qbDigit (f : Qb) (code k : Nat) : Int :=
  let d := bits code (4 * k) 4
  if f.signed && decide (4 * (k + 1) = f.w) then signedOf 4 d else (d : Int)

/-- The candidate `m * 2^(x-24)` satisfies `|v| ≤ Q * 2^(E - 127)` (R61). -/
def fitsScale (q : Nat) (m x : Int) (e : Nat) : Bool :=
  cmpScaled m.natAbs (x - 24) q ((e : Int) - 127) != .gt

/-- Smallest scale from `e` upwards, of `fuel` tries, that fits. -/
def scaleFrom (q : Nat) (m x : Int) : Nat → Nat → Nat
  | 0, e => e
  | fuel + 1, e => if fitsScale q m x e then e else scaleFrom q m x fuel (e + 1)

/-- Smallest scale byte that a candidate allows; a result above 0xFE means that none does. -/
def minScale (q : Nat) (m x : Int) : Nat :=
  if m = 0 then 0
  else scaleFrom q m x 4 ((m.natAbs.log2 : Int) + x + 103 - q.log2 - 1).toNat

/-- A finite element that the destination can hold as a number (R61). -/
def isCandidate (f : Qb) : Num → Bool
  | .fin m _ => f.signed || decide (0 ≤ m)
  | _ => false

/-- The scale byte of a block (R61, R62). -/
def blockScale (f : Qb) (vs : List Num) : Nat :=
  min 0xFE (vs.foldl (fun e v => match v with
    | .fin m x => if isCandidate f v then max e (minScale (qbMax f) m x) else e
    | _ => e) 0)

/-- Rounding of `m * 2^e` to an integer: to nearest even, or by the 24-bit draw `r` (R65, R66). -/
def roundElement (rnd : Option (BitVec 24)) (m e : Int) : Int :=
  match rnd with
  | none => rneScale m e
  | some r =>
    let n := floorScale m e
    let f : Int := floorScale m (e + 24) - n * (2 : Int) ^ 24
    if (2 : Int) ^ 24 ≤ f + (r.toNat : Int) then n + 1 else n

/-- The code of one element in a block of scale `e` (R62 to R64). -/
def encodeElement (f : Qb) (e : Nat) (rnd : Option (BitVec 24)) (v : Num) : Nat :=
  match v with
  | .fin m x =>
    if isCandidate f v then
      if fitsScale (qbMax f) m x e then codeOf f.w (roundElement rnd m (x - 24 - ((e : Int) - 127)))
      else qbSpecial f (.inf (decide (m < 0)))
    else qbSpecial f .nan
  | _ => qbSpecial f v

/-- The generator of R68: the 24-bit draw of an element. -/
def draw (seed : Word) (slate scene tileKey index : Nat) : BitVec 24 :=
  let k : BitVec 64 := BitVec.ofNat 64 (seed.toNat * 2 ^ 32 + slate % 2 ^ 12 * 2 ^ 16 + scene % 2 ^ 16)
  let mix (h : BitVec 64) (n : Nat) : BitVec 64 :=
    let h := h ^^^ k.rotateLeft (17 * n)
    let h := (h ^^^ (h >>> 31)) * 0xBF58476D1CE4E5B9#64
    let h := (h ^^^ (h >>> 27)) * 0x94D049BB133111EB#64
    h ^^^ (h >>> 33)
  let h : BitVec 64 := BitVec.ofNat 64 (tileKey % 2 ^ 32 * 2 ^ 32 + index % 2 ^ 32)
  BitVec.ofNat 24 ((mix (mix (mix h 0) 1) 2) >>> 40).toNat

/-- Quantises a block: its scale byte and its codes. `rnd` gives the draw of each position under stochastic
rounding. -/
def quantise (f : Qb) (rnd : Nat → Option (BitVec 24)) (vs : List Num) : Nat × List Nat :=
  let e := blockScale f vs
  (e, vs.zipIdx.map fun (v, i) => encodeElement f e (rnd i) v)

/-! ### Aligned sums -/

/-- The finite part of one pass or gather column: blocks as (digit sum, exponent), aligned and normalised (R55). -/
def alignedSum (blocks : List (Int × Int)) : Num :=
  let live := blocks.filter fun b => b.1 != 0
  match live with
  | [] => numZero
  | b :: bs =>
    let top : Int := bs.foldl (fun x c => max x c.2) b.2
    let xa : Int := max (-127) (min 127 top)
    norm (live.foldl (fun t c => t + rneScale c.1 (c.2 - xa + 24)) 0) xa

end Sys2Proof.Machine
end

