-- ==== Sys2Proof/Machine/Store.lean ====
section
/-! DEFINITION. Plain-data stores: sparse tables keyed by a number and byte memories, each in one canonical form. -/

namespace Sys2Proof.Machine

/-- A sparse table in canonical form: keys strictly rising, no entry equal to the table's default. -/
abbrev SMap (α : Type) := List (Nat × α)

/-- The entry of key `k`, or the default. -/
def smapGet {α : Type} (d : α) : SMap α → Nat → α
  | [], _ => d
  | (j, v) :: m, k => if j = k then v else smapGet d m k

/-- Inserts or replaces an entry. -/
def smapPut {α : Type} : SMap α → Nat → α → SMap α
  | [], k, v => [(k, v)]
  | (j, w) :: m, k, v =>
    if k < j then (k, v) :: (j, w) :: m
    else if k = j then (k, v) :: m
    else (j, w) :: smapPut m k v

/-- Removes the entry of a key. -/
def smapDel {α : Type} : SMap α → Nat → SMap α
  | [], _ => []
  | (j, w) :: m, k => if j = k then m else (j, w) :: smapDel m k

/-- Sets a key; the default value leaves no entry. -/
def smapSet {α : Type} [DecidableEq α] (d : α) (m : SMap α) (k : Nat) (v : α) : SMap α :=
  if v = d then smapDel m k else smapPut m k v

/-- Keys strictly rising. -/
def smapSorted {α : Type} : SMap α → Bool
  | [] => true
  | [_] => true
  | (i, _) :: (j, w) :: m => decide (i < j) && smapSorted ((j, w) :: m)

/-- The canonical form. -/
def smapOk {α : Type} [DecidableEq α] (d : α) (m : SMap α) : Bool :=
  smapSorted m && m.all fun p => decide (p.2 ≠ d)

/-- A byte memory. `cells` lists the bytes that are not zero, in rising address order: an unlisted byte reads zero.
`bad` lists the byte addresses whose parity or line CRC does not match the byte held (R205, R226, R323). -/
structure Ram where
  cells : List Host.Cell
  bad : List Nat
deriving DecidableEq, Repr

/-- A zeroed memory with correct parity. -/
def Ram.zero : Ram := ⟨[], []⟩

/-- The canonical form of a memory: addresses strictly rising and no byte listed that reads zero. -/
def Ram.wf (m : Ram) : Bool := smapOk (0 : Byte) m.cells

/-- One byte. -/
def ramByte (m : Ram) (a : Nat) : Byte := smapGet 0 m.cells a

/-- Writes one byte; the write regenerates its parity (R205). -/
def ramPutByte (m : Ram) (a : Nat) (b : Byte) : Ram :=
  ⟨smapSet 0 m.cells a b, m.bad.filter (· != a)⟩

/-- Bytes `a` to `a + n - 1`. -/
def ramBytes (m : Ram) (a : Nat) : Nat → List Byte
  | 0 => []
  | n + 1 => ramByte m a :: ramBytes m (a + 1) n

/-- Writes bytes from address `a` upwards. -/
def ramPutBytes (m : Ram) (a : Nat) : List Byte → Ram
  | [] => m
  | b :: bs => ramPutBytes (ramPutByte m a b) (a + 1) bs

/-- 32-bit word `w`, little-endian (R8). -/
def ramWord (m : Ram) (w : Nat) : Word := BitVec.ofNat 32 (leNat (ramBytes m (4 * w) 4))

/-- Writes 32-bit word `w`. -/
def ramPutWord (m : Ram) (w : Nat) (v : Word) : Ram := ramPutBytes m (4 * w) (leBytes 4 v.toNat)

/-- Words `w` to `w + n - 1`. -/
def ramWords (m : Ram) (w : Nat) : Nat → List Word
  | 0 => []
  | n + 1 => ramWord m w :: ramWords m (w + 1) n

/-- Writes words from word `w` upwards. -/
def ramPutWords (m : Ram) (w : Nat) : List Word → Ram
  | [] => m
  | v :: vs => ramPutWords (ramPutWord m w v) (w + 1) vs

/-- Zeroes `n` bytes from byte `a`; the write regenerates their parity. -/
def ramZero (m : Ram) (a n : Nat) : Ram :=
  ⟨m.cells.filter fun c => decide (c.1 < a) || decide (a + n ≤ c.1),
   m.bad.filter fun b => decide (b < a) || decide (a + n ≤ b)⟩

/-- The parity errors among bytes `a` to `a + n - 1`. -/
def ramBad (m : Ram) (a n : Nat) : List Nat :=
  m.bad.filter fun b => decide (a ≤ b) && decide (b < a + n)

/-- Parity errors of a small store are listed as 4 times the index of its word (or row, or slot) plus the byte lane
(R205). The entry `i` has one. -/
def laneBad (l : List Nat) (i : Nat) : Bool := l.any fun b => b / 4 == i

/-- Failing byte lanes of entry `i`. -/
def lanesBad (l : List Nat) (i : Nat) : Nat := [0, 1, 2, 3].foldl (fun s j => if l.contains (4 * i + j) then s + 2 ^ j else s) 0

/-- Writing the entries that `p` picks regenerates their parity. -/
def lanesClear (l : List Nat) (p : Nat → Bool) : List Nat := l.filter fun b => !p (b / 4)

/-- Failing byte lanes of a 32-bit word (R205). -/
def ramLanes (m : Ram) (w : Nat) : Nat :=
  [0, 1, 2, 3].foldl (fun s i => if m.bad.contains (4 * w + i) then s + 2 ^ i else s) 0

end Sys2Proof.Machine
end

