-- ==== Sys2Proof/Machine/CoreState.lean ====
section
/-! DEFINITION. The state of one core: cue core, queues, scratchpad, cache, scoreboard and the three engines
(R71 to R270). -/

namespace Sys2Proof.Machine

/-- Core states (R197, R201). -/
inductive CoreMode where
  | idle | running | held | frozen | fenced | faded
deriving DecidableEq, Repr

/-- Why the cue core starts no further instruction (R178, R214). -/
inductive CueWait where
  | none
  /-- CWAIT or CWAITI at PC: not satisfied on its tests so far. -/
  | counters
  /-- CWAITT at PC with its deadline running (R180). -/
  | timed
  /-- ISSUE at PC: no engine slot is free (R182). -/
  | slot
  /-- The operation at PC waits on the scoreboard (R213, R214). -/
  | score
  /-- ARRIVE whose arrival has left (R189, R198). -/
  | arrive
  /-- CLWAIT at PC (R190). -/
  | clapper
  /-- FENCE at PC (R184). -/
  | fence
  /-- HALT at PC (R196). -/
  | halt
deriving DecidableEq, Repr

/-- Receive queue states (R270). -/
inductive QState where
  | disabled | active | retired | overflowed
deriving DecidableEq, Repr

/-- One queue entry: a data word, or a gap marker whose payload holds the counts (R237). `badLanes` marks payload
bytes whose parity bit does not match (R242). -/
structure QEntry where
  payload : Word
  endMark : Bool
  gap : Bool
  epoch : BitVec 4
  badLanes : BitVec 4
deriving DecidableEq, Repr

/-- The window of a COMBINING queue (R255 to R260). -/
structure Window where
  expect : Nat
  xc : Int
  mask : Word
  slots : List Word
  arrived : Word
  /-- Plane on which each slot's contribution came (R250). -/
  planes : Word
  elems : List Num
  released : Bool
  taken : Nat
  dups : Nat
  /-- Parity errors of the released words: 4 times the index of the word plus the failing byte lane (R242). -/
  bad : List Nat
deriving DecidableEq, Repr

/-- One receive queue (R237 to R260, R270). -/
structure RxQueue where
  state : QState
  mode : BitVec 2
  epoch : BitVec 4
  slate : BitVec 12
  qgen : BitVec 8
  entries : List QEntry
  /-- Pending gap marker of an overflowed credited queue: words and end marks dropped (R251). -/
  pending : Option (Nat × Nat)
  lastv : Word
  ur : Bool
  gap : Bool
  gapcnt : Nat
  /-- Bound edge of a credited queue: sending CORE_XY, edge, plane (R248). -/
  bound : Option (Nat × Nat × Nat)
  /-- Credits earned and not yet returned (R250). -/
  owed : Nat
  window : Option Window
  /-- Residual word of R287: words, packets, epoch. -/
  resid : Word
deriving DecidableEq, Repr

/-- A queue as reset leaves it (R270). -/
def RxQueue.reset : RxQueue :=
  ⟨.disabled, 0, 0, 0, 0, [], none, 0, false, false, 0, none, 0, none, 0⟩

/-- A scoreboard entry (R212): owning operation, space, target, first and last word, kind. -/
structure SbEntry where
  op : Nat
  space : Nat
  target : Nat
  lo : Nat
  hi : Nat
  write : Bool
deriving DecidableEq, Repr

/-- A cache line: 16 words with a valid and a dirty bit each (R216). -/
structure CacheLine where
  set : Nat
  way : Nat
  space : Nat
  target : Nat
  line : Nat
  valid : BitVec 16
  dirty : BitVec 16
  data : List Word
deriving DecidableEq, Repr

/-- A weight tile placed in plane slots: its loop position, half, slots, bytes, whether the load has ended and with
which violation (R73, R93, R131). From REEL space `reads` are the reads in flight (tag, word, words), `total` the
tile's words and `next` the next word to request. -/
structure Tile where
  op : Nat
  nT : Nat
  mT : Nat
  kT : Nat
  half : Nat
  slots : List Nat
  bytes : List Byte
  resident : Bool
  violation : Option Nat
  reads : List (Nat × Nat × Nat)
  total : Nat
  next : Nat
deriving DecidableEq, Repr

/-- The first retake of a descriptor, for event 0x1001 (R101, R102). -/
structure RetakeRec where
  row : Nat
  digits : Nat
  mT : Nat
  nT : Nat
  kT : Nat
  cols : BitVec 128
deriving DecidableEq, Repr

/-- A matrix descriptor in the engine: its words, the next pass of R79, the row exports still due, and retakes. -/
structure MxRun where
  op : Nat
  addr : Nat
  words : List Word
  nT : Nat
  mT : Nat
  kT : Nat
  half : Nat
  row : Nat
  j : Nat
  i : Nat
  admitted : Bool
  /-- The next weight load, in loading order (R74 to R78); `ldN` is the number of N-tiles when none is left. -/
  ldN : Nat
  ldM : Nat
  ldK : Nat
  ldH : Nat
  /-- Rows complete in the accumulator and not yet exported: n_t, m_t, row (R82, R86). -/
  due : List (Nat × Nat × Nat)
  retakes : Nat
  first : Option RetakeRec
deriving DecidableEq, Repr

/-- A vector descriptor in the engine: words, records read at issue, the next chunk, and what R169 keeps. -/
structure VxRun where
  op : Nat
  addr : Nat
  words : List Word
  chain : List Word
  strides : List Word
  /-- Columns of the fused matrix descriptor, when fused (R163). -/
  fused : Option Nat
  /-- A fused descriptor has become the executing one (R163). -/
  begun : Bool
  row : Nat
  i0 : Nat
  carry : Option Num
  red : Option Num
  sums : List (Option Num)
  segPos : Nat
  segLeft : Option Int
  /-- COMPRESS: lanes of the present column group, one list for each row taken (R164). -/
  group : List (List Num)
  /-- COMPRESS: for each row taken, which of its source blocks have scale 0xFF (R135). -/
  nanBlocks : List (List Bool)
  /-- The broadcast element of the present row, read with the row's first chunk (R153, R156). -/
  bcast : Option Num
  /-- EXPAND: tiles of the present column group as they were read, by tile index (R165). -/
  held : SMap (List Byte)
  declFail : Option (Nat × Nat × Nat)
  declTiles : Nat
  allRead : Bool
  /-- EXPAND: a tile failed its checks: reason and tile index (R165). -/
  violation : Option (Nat × Nat)
deriving DecidableEq, Repr

/-- Bytes that the vector engine has still to write: operation, handle, byte offset, bytes. -/
structure VxWrite where
  op : Nat
  h : Nat
  addr : Nat
  bytes : List Byte
deriving DecidableEq, Repr

/-- One piece of at most 128 words of a DMA row in flight on the mesh or at a vault port. -/
structure DmaPiece where
  row : Nat
  off : Nat
  len : Nat
  tag : Nat
  writing : Bool
deriving DecidableEq, Repr

/-- A DMA descriptor in the engine: next row, words of it already issued, pieces in flight, rows refused, first refusal
(R227 to R235). -/
structure DmaRun where
  op : Nat
  addr : Nat
  words : List Word
  row : Nat
  off : Nat
  pieces : List DmaPiece
  badRows : List Nat
  status : Nat
  stopped : Bool
  expired : Bool
  /-- The engine's own read of the present row met a parity error: the row is not finished during the stop (R205). -/
  fault : Bool
deriving DecidableEq, Repr

/-- One core (R171, R197 to R201, R202, R206, R212, R236, R270 and the engine registers). -/
structure Core where
  mode : CoreMode
  cause : BitVec 8
  /-- A hold order is on its way to the core (R20). -/
  order : Bool
  pc : BitVec 12
  g : Vector Word 16
  s : Vector Word 8
  c : Vector Word 16
  cthr : Vector Word 16
  cbind : Vector Word 16
  tmo : Bool
  ur : Bool
  csat : Bool
  wdog : Bool
  wait : CueWait
  /-- Clapper a waiting ARRIVE or CLWAIT names, and the phase CLWAIT was given. -/
  clap : Nat
  sendst : Word
  wdCycles : Nat
  /-- Counters of the last change, for 0xB010 (R200). -/
  lastMask : BitVec 16
  istore : Ram
  /-- Words 0 to 399 of the installed call sheet (R192). -/
  sheet : Option (List Word)
  /-- The cache split in force: only an installation changes it (R220). -/
  split : BitVec 2
  /-- The scene whose call sheet is installed: storyboard number and scene index. -/
  scene : Option (Nat × Nat)
  epoch : BitVec 4
  started : Bool
  fencedInService : Bool
  /-- Slate that the local state belongs to (R438). -/
  localOwner : Option Nat
  sp : Ram
  hgen : BitVec 12
  sbEntries : List SbEntry
  nextOp : Nat
  sbStalls : Nat
  cache : List CacheLine
  plru : SMap (BitVec 7)
  /-- Parity errors of the cache, the plane slots and the accumulator rows: 4 times the index of the word, slot or row, plus
  the failing byte lane (R205). -/
  cacheBad : List Nat
  planeBad : List Nat
  cacheHits : Nat
  cacheMisses : Nat
  spParity : Word
  queues : Vector RxQueue 16
  qStale : Nat
  qDup : Nat
  qRefused : Nat
  qRawdrop : Nat
  /-- Stream reference of each REEL handle (R359): handle, first word of the last access. -/
  reelRef : SMap Nat
  mx : List MxRun
  tiles : List Tile
  acc : SMap (List Num)
  accBad : List Nat
  /-- 0 going, 2 stopped by order, 3 stopped by retake failure or violation (R109). -/
  mxStop : BitVec 2
  mxPos0 : Word
  mxPos1 : Word
  mxRetakes : Nat
  rchkAllow : Bool
  spxConflicts : Nat
  spxStalls : Nat
  pruDeclfail : Nat
  cmpFallback : Nat
  pruPruned : Vector Word 8
  pruRegrown : Vector Word 8
  vx : List VxRun
  /-- Writes of the vector engine that wait for the rest of a cached word to be fetched, oldest first. -/
  vxOut : List VxWrite
  /-- Rows handed over by the matrix output stage (R87). -/
  fusedRows : List (List Num)
  vxStop : BitVec 2
  vxPos0 : Word
  vxPos1 : Word
  vxOvf : Nat
  dma : List DmaRun
  dmaPos : Word
  /-- Tags of reads and writes that were given up and whose replies may still come (R233, R235). -/
  deadTags : List Nat
deriving DecidableEq, Repr

/-- A core after a reset of its domain: every register zero, stores zeroed, queues disabled, state IDLE
(R171, R197, R201, R438). -/
def Core.reset : Core where
  mode := .idle
  cause := 0
  order := false
  pc := 0
  g := Vector.replicate 16 0
  s := Vector.replicate 8 0
  c := Vector.replicate 16 0
  cthr := Vector.replicate 16 0
  cbind := Vector.replicate 16 0
  tmo := false
  ur := false
  csat := false
  wdog := false
  wait := .none
  clap := 0
  sendst := 0
  wdCycles := 0
  lastMask := 0
  istore := .zero
  sheet := none
  split := 0
  scene := none
  epoch := 0
  started := false
  fencedInService := false
  localOwner := none
  sp := .zero
  hgen := 0
  sbEntries := []
  nextOp := 0
  sbStalls := 0
  cache := []
  plru := []
  cacheBad := []
  planeBad := []
  cacheHits := 0
  cacheMisses := 0
  spParity := 0
  queues := Vector.replicate 16 RxQueue.reset
  qStale := 0
  qDup := 0
  qRefused := 0
  qRawdrop := 0
  reelRef := []
  mx := []
  tiles := []
  acc := []
  accBad := []
  mxStop := 0
  mxPos0 := 0
  mxPos1 := 0
  mxRetakes := 0
  rchkAllow := false
  spxConflicts := 0
  spxStalls := 0
  pruDeclfail := 0
  cmpFallback := 0
  pruPruned := Vector.replicate 8 0
  pruRegrown := Vector.replicate 8 0
  vx := []
  vxOut := []
  fusedRows := []
  vxStop := 0
  vxPos0 := 0
  vxPos1 := 0
  vxOvf := 0
  dma := []
  dmaPos := 0
  deadTags := []

end Sys2Proof.Machine
end

