-- ==== Sys2Proof/Machine/HostState.lean ====
section
/-! DEFINITION. The state of a host port: link, session, rings, interrupts, aperture, DOE (R403 to R435). -/

namespace Sys2Proof.Machine

/-- One ring in host memory: base, log2 SIZE, HEAD, TAIL, shadow, enable, stop, records written since enabled, and
records not yet signalled with the time of the first (R411 to R415). -/
structure Ring where
  base : DWord
  log2 : Nat
  head : Word
  tail : Word
  shadow : DWord
  en : Bool
  stop : Bool
  seq : Word
  unsignalled : Nat
  since : Nat
deriving DecidableEq, Repr

/-- A ring at reset (R435). -/
def Ring.reset : Ring := ⟨0, 7, 0, 0, 0, false, false, 0, 0, 0⟩

/-- A mapped aperture page: slate, space, target, first word, words (R408). -/
structure Page where
  slate : Nat
  space : Nat
  target : Nat
  base : Nat
  len : Nat
deriving DecidableEq, Repr

/-- SPDM negotiation and session of a port (R405). -/
structure Spdm where
  /-- 0 none, 1 version, 2 capabilities, 3 algorithms agreed, 4 key exchanged, 5 session established. -/
  phase : Nat
  session : Nat
  nonceCtr : Nat
  keyUpdates : Nat
  /-- Keys of the selective IDE stream as KEY_PROG has given them: stream, and the selector of sub-stream, direction and key set; key
  and initialisation vector. -/
  ideKeys : List ((Nat × Nat) × List Byte)
  /-- Selectors that K_SET_GO has started. -/
  ideOn : List (Nat × Nat)
  /-- Messages of the negotiation, of the certificates, and of the measurements since the last signature. -/
  transcript : List Byte
  certMsgs : List Byte
  measMsgs : List Byte
deriving DecidableEq, Repr

/-- No negotiation has begun. -/
def Spdm.none : Spdm := ⟨0, 0, 0, 0, [], [], [], [], []⟩

/-- What host software writes into a port's configuration space, as far as the spec names it (R403, R407, R430): the addresses of the
two 64-bit BARs, BAR1 and BAR3 being their upper halves; Bus Master Enable; ECRC generation and checking, and the status words of
AER. -/
structure PciConf where
  bar0 : DWord
  bar2 : DWord
  busMaster : Bool
  ecrcGen : Bool
  ecrcCheck : Bool
  aerUncorrectable : Word
  aerCorrectable : Word
deriving DecidableEq, Repr

/-- Configuration space after a reset of the function. -/
def PciConf.reset : PciConf := ⟨0, 0, false, false, false, 0, 0⟩

/-- One host port. -/
structure HPort where
  pci : PciConf
  linkUp : Bool
  /-- Link rate in GT/s divided by 4, and width. -/
  rate : Nat
  width : Nat
  session : Option (Nat × Nat)
  nextCseq : Word
  /-- Outcomes of the last 256 commands of the module space: CSEQ, status, final; ACCEPTED while one still runs (R421). -/
  outcomes : List (Word × Nat × Bool)
  cmd : Ring
  cpl : Ring
  evt : Ring
  cplVec : BitVec 6
  evtVec : BitVec 6
  errVec : BitVec 6
  irqMod : Word
  evtLost : Nat
  /-- Event records waiting for their ring, oldest first, and those dropped since the last 0x6020 (R419). -/
  holding : List (List Byte)
  dropped : Nat
  /-- Slates this port is frozen for (R428). -/
  frozenFor : List Nat
  aperMiss : Nat
  aperEvent : Option Nat
  pages : SMap (Option Page)
  /-- MSI-X table words and pending bits (R407). -/
  msix : SMap Word
  pba : DWord
  /-- Upper dword of SIDEBAND_TCAP as the latest read of its lower dword has latched it (R11, R586). -/
  tcapHi : Word
  spdm : Spdm
  /-- Bytes the module has written to host memory over this port. -/
  mem : Ram
deriving DecidableEq, Repr

/-- A host port at reset (R435). -/
def HPort.reset : HPort where
  pci := .reset
  linkUp := false
  rate := 0
  width := 0
  session := none
  nextCseq := 0
  outcomes := []
  cmd := .reset
  cpl := .reset
  evt := .reset
  cplVec := 0
  evtVec := 1
  errVec := 2
  irqMod := 1
  evtLost := 0
  holding := []
  dropped := 0
  frozenFor := []
  aperMiss := 0
  aperEvent := none
  pages := []
  msix := []
  pba := 0
  tcapHi := 0
  spdm := .none
  mem := .zero

end Sys2Proof.Machine
end

