-- ==== Sys2Proof/Machine/ModState.lean ====
section
/-! DEFINITION. Clocks, power, start-up, identity, sideband and monitoring state of the module (R497 to R592). -/

namespace Sys2Proof.Machine

/-- A CLOCK_SOURCE_SELECT in progress (R505): source, port, command or policy. -/
structure ClockSelect (α : Type) where
  refrec : Bool
  port : Nat
  cmd : Option α
deriving DecidableEq, Repr

/-- How HOLD is to end (R510, R516). -/
inductive WayOut where
  | back | command | policy
deriving DecidableEq, Repr

/-- The module clock block (R505 to R517). -/
structure Clock where
  refrec : Bool
  port : Nat
  hold : Bool
  locked : Bool
  holdover : Bool
  reflocOk : Bool
  reflocFailed : Bool
  holds : Nat
  timeNs : DWord
  /-- Source qualified in HOLD and engaged, and by which way (R510, R511). -/
  engaged : Option WayOut
  qualifying : Bool
  holdSince : Nat
  /-- Units that have qualified or failed (R502): unit code, whether it failed. -/
  units : SMap (Option Bool)
deriving DecidableEq, Repr

/-- One frame: stop, limit, reason, share, stretch, droops, learned and measured power (R521 to R546). -/
structure Frame where
  stop : BitVec 4
  limit : BitVec 4
  reason : BitVec 4
  share : Nat
  demand : Nat
  power : Nat
  stretched : Bool
  droops : Nat
  droopEvent : Option Nat
  energy : DWord
  /-- Sum of k_s in thousandths times µs at stop s (R527). -/
  ktime : Nat
  /-- The cluster whose node feeds the frame's synthesizer (R501). -/
  source : Option Nat
deriving DecidableEq, Repr

/-- A frame at reset (R546). -/
def Frame.reset : Frame := ⟨0, 0, 0xF, 0, 0, 0, false, 0, none, 0, 0, none⟩

/-- The power block and what the power stack and coupling block measured last (R520 to R546, R579). -/
structure Power where
  budget : Nat
  lease : Option Nat
  fallback : Bool
  pIn : Nat
  pSt : Nat
  volts : Nat
  flow : Nat
  tIn : Nat
  tOut : Nat
  /-- P_Q in W (R544). -/
  pQ : Nat
  coolantEvent : Option Nat
  thrNs : Vector DWord 8
  /-- TIME of the latest 50 µs boundary at which energy was counted (R541, R542). -/
  boundary : Nat
  inletEnergy : DWord
  stackEnergy : DWord
  clusterEnergy : SMap DWord
  portEnergy : SMap DWord
  vaultEnergy : SMap DWord
  /-- Learned demands: scene signature and the demand of each frame (R527), latest first. -/
  learned : List (Word × List (Nat × Nat))
deriving DecidableEq, Repr

/-- MB_IDENT.FWSTATE (R435). -/
inductive FwState where
  | rom | loading | running | failed
deriving DecidableEq, Repr

/-- Factory values (R553, R560) and variant fuses (R556). -/
structure Otp where
  device : BitVec 16
  revision : Byte
  serial : DWord
  memoryWafer : Bool
  fwKeys : List (Option (List Byte))
  revoked : List Bool
  debugKey : Option (List Byte)
  devicePublic : List Byte
  certs : List Byte
  svn : Nat
  trims : SMap (BitVec 16)
  powerFactor : SMap (List Nat)
  /-- Stop-0 full-activity power of frames in W (R527). -/
  fullW : SMap Nat
  milliVolts : SMap (List Nat)
  sensor : SMap Int
  defectCores : List Nat
  /-- Seam, and plane * 8 + link. -/
  defectLinks : List (Nat × Nat)
  defectPorts : List Nat
  leakW : SMap Nat
deriving DecidableEq, Repr

/-- A cluster's part of the floor plan (R557, R559). -/
structure FpCluster where
  bad : BitVec 64
  disabled : Bool
deriving DecidableEq, Repr

/-- The floor plan built at start-up (R557 to R559). -/
structure FloorPlan where
  built : Bool
  clusters : SMap FpCluster
  /-- Dead splice links of each seam: plane 0 and plane 1, a bit a link. -/
  dead : SMap (Byte × Byte)
  offline : List Nat
  badPorts : List Nat
  generation : Word
  changed : DWord
deriving DecidableEq, Repr

/-- Start-up, firmware, measurements, debug unlock (R547 to R567). -/
structure Boot (α : Type) where
  fw : FwState
  step : Nat
  fast : Bool
  ready : Bool
  /-- The wafer has been started, and runs on through a reset of the module controller alone (R494). -/
  waferUp : Bool
  fwver : Word
  calWait : Nat
  svnBumped : Option (Nat × Nat)
  /-- FW_LOAD being read: command, COMMIT_SVN, DATA_LEN, CAL_WAIT, image host address. -/
  load : Option (α × Bool × Nat × Nat)
  meas : Vector (List Byte) 5
  ifLo : Nat × Nat
  ifHi : Nat × Nat
  scopes : BitVec 3
  nonce : Option (List Byte × Nat)
  /-- Overlays (R561): voltage by frame, sensor by index, lane by port and lane. -/
  overlayV : SMap Int
  overlayS : SMap Int
  overlayL : SMap (BitVec 24)
  /-- Controller reset event owed by the firmware (R494): 1 watchdog, 2 warm RESET, 3 cold RESET, which is reported as 2;
  and the heartbeat count before. -/
  resetCause : Option (Nat × Nat)
deriving DecidableEq, Repr

/-- A sideband pin (R581, R582). -/
structure Pin where
  func : Nat
  block : Nat
  retain : Nat
  period : Nat
  rects : List Word
  port : Nat
  level : Bool
  /-- Frame whose timer the assignment claims (R592). -/
  timer : Option Nat
  /-- FADE_REQ_IN: the level last applied, and an edge waiting for the running order (R584). -/
  applied : Bool
  waiting : Bool
deriving DecidableEq, Repr

/-- A pin at a cold reset (R581). -/
def Pin.reset : Pin := ⟨0, 0, 0, 0, [], 0, false, none, false, false⟩

/-- What leaves the connectors (R574): frames, interrupts, DOE responses, discoveries, pulses, host reads. -/
inductive Emission where
  | frame (port : Nat) (bytes : List Byte)
  | pfc (port : Nat) (mask : Nat) (quanta : Nat)
  | msix (port : HostPort) (vector : Nat)
  | spdm (port : HostPort) (bytes : List Byte)
  | readData (port : HostPort) (v : Word) (poisoned : Bool)
  | regData (v : DWord)
  | pulse (pin : Nat)
  | jtag (v : Nat)
deriving DecidableEq, Repr

end Sys2Proof.Machine
end

