-- ==== Sys2Proof/Machine/ClusterState.lean ====
section
/-! DEFINITION. The state of a cluster, its vault, and the packets on the mesh (R188, R222, R282, R297 to R342). -/

namespace Sys2Proof.Machine

/-- A mesh packet: its 16 header bytes as one number (R298) and its payload. Its trailer is the CRC-24 of both, so it
is not held. `note` is the model's own: the PC of the SEND that made the packet (R187), or 2^16 plus the edge port that
made the request; replies and returns carry the note of the packet they answer. -/
structure Packet where
  hdr : BitVec 128
  payload : List Word
  note : Nat
deriving DecidableEq, Repr

/-- A packet in a router's input buffer, or, where `inj` names an injector, still in that injector's send buffer (R297, R303). -/
structure Flight where
  cl : Nat
  plane : Nat
  inp : PortDir
  pkt : Packet
  inj : Option Nat
deriving DecidableEq, Repr

/-- Who made a vault port request (R325, R341). -/
inductive VaultUser where
  /-- DMA engine of a core of the cluster: CORE_XY and the tag of its piece. -/
  | dma (core : Nat) (tag : Nat)
  /-- A cache fill of a core that waits for a line under repair. -/
  | cache (core : Nat)
  /-- The router port: the request packet. -/
  | router (pkt : Packet) (plane : Nat)
  /-- An aperture access over a host port, with its byte enables (R409). -/
  | mgmt (port : HostPort) (be : BitVec 4)
deriving DecidableEq, Repr

/-- A request a vault port has accepted: words `w` to `w + len - 1`, written when `data` is given. -/
structure VaultReq where
  user : VaultUser
  w : Nat
  len : Nat
  data : Option (List Word)
deriving DecidableEq, Repr

/-- One immutable-range entry (R331, R342). -/
structure ImmEntry where
  kind : BitVec 2
  hport : Bool
  eport : BitVec 7
  slate : BitVec 12
  base : Word
  len : Word
  originLo : Word
  originHi : Word
deriving DecidableEq, Repr

/-- A FREE entry. -/
def ImmEntry.free : ImmEntry := ⟨0, false, 0, 0, 0, 0, 0, 0⟩

/-- A line under repair (R334): its number, the entry used as it stood when the line was locked, the requester code of the read
that met the error and the request it waits for, `none` for a patrol or management read, and the TIME at which the repair
began. -/
structure Refetch where
  line : Nat
  entry : Nat
  origin : ImmEntry
  code : Nat
  req : Option VaultReq
  since : Nat
deriving DecidableEq, Repr

/-- Vault state shown in VT_STATUS (R342). -/
inductive VaultMode where
  | absent | active | hardHold | selfRefresh
deriving DecidableEq, Repr

/-- One vault and its port (R322 to R342). -/
structure Vault where
  mem : Ram
  /-- CRC-32 held beside each line (R323), by line; an unlisted line holds the CRC of 64 zero bytes. -/
  crc : SMap Word
  mode : VaultMode
  band : Nat
  temp : BitVec 8
  offline : Bool
  /-- Requests the port has accepted, oldest first. -/
  queue : List VaultReq
  /-- Requests that wait while the port admits none (R330). -/
  waiting : List VaultReq
  locked : Option Refetch
  patrolEn : Bool
  patrolExp : BitVec 4
  patrolLine : Nat
  crcErr : Nat
  refetchDone : Nat
  refetchFailed : Nat
  errlog : Word
  immFull : Nat
  imm : List ImmEntry
deriving DecidableEq, Repr

/-- A vault after reset (R342): patrol on, PATROL_EXP 10, every entry FREE. -/
def Vault.reset : Vault where
  mem := .zero
  crc := []
  mode := .absent
  band := 0
  temp := 0
  offline := false
  queue := []
  waiting := []
  locked := none
  patrolEn := true
  patrolExp := 0xA
  patrolLine := 0
  crcErr := 0
  refetchDone := 0
  refetchFailed := 0
  errlog := 0
  immFull := 0
  imm := List.replicate 16 .free

/-- Counters of a router on one plane (R320). -/
structure RouterRegs where
  darkret : Nat
  crcErr : Nat
  malf : Nat
  flits : Nat
deriving DecidableEq, Repr

/-- What an output port of a router keeps for its arbitration (R303), for each virtual channel: the input port whose turn is next,
one more than the number of the port last granted, and the ROUTE cycles for which it has held a ready flit without a grant. -/
structure Arb where
  last : List Nat
  age : List Nat
deriving DecidableEq, Repr

/-- Before any grant. The spec names no port last granted at reset: LOCAL is next (DESIGN CHOICE, log entry 100). -/
def Arb.reset : Arb := ⟨[0, 0, 0, 0], [0, 0, 0, 0]⟩

/-- Why a cluster has no clock (R312, R488, R532, R536): running, faded, tripped, or in a reset of its domain. -/
inductive Dark where
  | lit | gated | tripped | resetting
deriving DecidableEq, Repr

/-- One cluster: memory with its clappers, routers, vault, epoch records and clock node. -/
structure Cluster where
  mem : Ram
  vault : Vault
  dark : Dark
  routers : List RouterRegs
  /-- Arbitration of the output ports, by 5 * plane + port (R303). -/
  arb : SMap Arb
  /-- Turns of the injectors, for each plane and virtual channel: the injector next, and for each core its unit next (R303). -/
  turns : SMap Nat
  /-- Rings in the cluster's memory whose consumer has stopped, by the number of their control block's 64-byte unit (R268). -/
  ringStops : List Nat
  /-- Epoch of the last scene admitted here (R282). -/
  lastEpoch : Option (BitVec 4)
  /-- Closing time in ns of each epoch value used here (R282): epoch, time. -/
  closings : SMap (Option Nat)
  /-- FAB_GW: gateway port (R402). -/
  gwPort : BitVec 7
  /-- CL_THERM (R546). -/
  therm : Word
deriving DecidableEq, Repr

end Sys2Proof.Machine
end

