-- ==== Sys2Proof/Machine/PortState.lean ====
section
/-! DEFINITION. The state of an edge port, of its reel slots, and of the fabric layer (R343 to R402, R451). -/

namespace Sys2Proof.Machine

/-- PORT_STATUS.LINK (R371). -/
inductive LinkState where
  | disabled | training | up | mismatch
deriving DecidableEq, Repr

/-- Sender side of one class (R351): next SEQ, kept packets (SEQ, payload), packets waiting for the window, resends in
a row without an advance. -/
structure TxSpace where
  next : Word
  unacked : List (Word × List Byte)
  waiting : List (List Byte)
  resends : Nat
deriving DecidableEq, Repr

/-- Receiver side of one class (R351): expected SEQ, whether a NAK has been sent since the last acceptance, accepted
packets not yet reported. -/
structure RxSpace where
  expected : Word
  nakSent : Bool
  unreported : Nat
deriving DecidableEq, Repr

/-- A control packet of the Vexaz Link that priority 3's pause holds back (R349): TYPE, SEQ, ACK, ACK_CL, payload. -/
structure CtlPkt where
  typ : Nat
  seq : Nat
  ack : Nat
  ackCl : Nat
  payload : List Byte
deriving DecidableEq, Repr

/-- One block of a reel in the port's buffer (R364): index, bytes so far, and whether its check has passed. -/
structure ReelBlock where
  idx : Nat
  data : List Byte
  checked : Bool
deriving DecidableEq, Repr

/-- A MEM_RD or MEM_WR waiting at a port: the packet, its plane, and for a write the words not yet acknowledged. -/
structure PortWait where
  pkt : Packet
  plane : Nat
  first : Nat
  left : Nat
deriving DecidableEq, Repr

/-- A PUT (R366): stream byte, bytes, whether it has been sent again after PUT_CRC. -/
structure Put where
  start : Nat
  data : List Byte
  resent : Bool
deriving DecidableEq, Repr

/-- A reel slot (R357 to R368). -/
structure ReelSlot where
  reel : Nat
  slate : Nat
  sbn : Nat
  idx : Nat
  blocks : Nat
  maxblk : Nat
  /-- OPEN_ACK has come since link-up, and buffer is reserved (R363). -/
  acked : Bool
  reserved : Bool
  held : Bool
  /-- Highest stream word requested (R358). -/
  cursor : Nat
  requested : List Nat
  data : List ReelBlock
  /-- Blocks dropped whose data is discarded as it arrives, with the bytes that have come (R367). -/
  dropping : List (Nat × Nat)
  /-- Block that has failed its check once. -/
  failed : Option Nat
  /-- Blocks that have been answered OK: those with a lower index (R365). -/
  okBlocks : Nat
  /-- Credit granted since OPEN, in units of 4 KiB (R361). -/
  credit : Nat
  reads : List PortWait
  gather : List Put
  puts : List Put
  writes : List PortWait
  /-- Cores whose loader has been answered from a block before its check, with the block; and those that may hold a tile
  made from the failed block (R365). -/
  used : List (Nat × Nat)
  tainted : List Nat
deriving DecidableEq, Repr

/-- A vault re-fetch over a reel port (R369): cluster, reel, origin byte, MAXBLK when known, GET sent, data, second
try, and a segment out of order in the block that comes. -/
structure PortRefetch where
  cl : Nat
  reel : Nat
  byte : Nat
  maxblk : Nat
  asked : Bool
  data : List Byte
  again : Bool
  bad : Bool
deriving DecidableEq, Repr

/-- A window write outstanding at its gateway (R390): its SEQ, destination and window, and the origin MEM_WR. -/
structure OutWrite where
  seq : Nat
  dst : Nat
  win : Nat
  pkt : Packet
  plane : Nat
deriving DecidableEq, Repr

/-- A MEM_WR of this port on its way: an accepted window write (R395), or, with `fwd`, a fabric packet that crosses to
another port (R377). Its fabric header, its tag, the window's owning slate. -/
structure InWrite where
  hdr : List Byte
  tag : Nat
  slate : Nat
  fwd : Bool
  /-- Duplicates that wait for its end (R451). -/
  dups : List (List Byte)
deriving DecidableEq, Repr

/-- One edge port. Configuration fields hold the values in force, defaults applied (R355). -/
structure Port where
  enable : Bool
  role : Bool
  lanes4 : Bool
  etype : BitVec 16
  vid : BitVec 12
  srcMac : BitVec 48
  dstMac : BitVec 48
  highWm : Nat
  lowWm : Nat
  retryT : Nat
  pcs : Bool
  link : LinkState
  vlver : BitVec 2
  reelver : BitVec 2
  /-- V of the INIT_ACK sent and of the INIT_ACK received (R352). -/
  ackSent : Option Nat
  ackRcvd : Option (Nat × Nat × Nat × Nat)
  mismatched : Bool
  tx : List TxSpace
  rx : List RxSpace
  /-- Vexaz packets that passed R347 and wait for their row: PCP and bytes. -/
  rxq : List (Nat × List Byte)
  /-- Payloads accepted in sequence and not yet taken: class and bytes (R351). -/
  msgs : List (Nat × List Byte)
  /-- Priorities 0 to 3 the peer has paused (R349). -/
  paused : List Bool
  pfcTx : Bool
  discard : Nat
  resent : Nat
  fcsErr : Nat
  xoffTx : Nat
  xoffRx : Nat
  /-- Control packets held back by a pause of priority 3, oldest first (R349). -/
  ctlHeld : List CtlPkt
  /-- 0x5001 of a STREAM port awaits the reel version it shows (R370). -/
  upPending : Bool
  reelUp : Bool
  retries : Nat
  slots : SMap (Option ReelSlot)
  /-- PUTs of keyframe copies that the store has not acknowledged, with their reels (R280, R366, R368). -/
  copyPuts : List (Nat × Put)
  /-- Mesh packets handed to the port and not yet taken: packet and plane (R358, R377). -/
  inbox : List (Packet × Nat)
  /-- Re-fetches asked of the port, the first under way (R369). -/
  refetch : List PortRefetch
  /-- PORT_PEER0 and PORT_PEER1, the peer's generation, and its serial number (R379, R402). -/
  peer0 : Word
  peerSerial : DWord
  peerGen : Byte
  outWrites : List OutWrite
  inWrites : List InWrite
deriving DecidableEq, Repr

/-- The PORT_CONFIG defaults of an unconfigured port (R355, R371, R402); its source address is set by R348. -/
def Port.reset : Port where
  enable := false
  role := false
  lanes4 := false
  etype := 0x88B5
  vid := 0
  srcMac := 0
  dstMac := 0xFFFFFFFFFFFF
  highWm := 48
  lowWm := 16
  retryT := 50
  pcs := false
  link := .disabled
  vlver := 0
  reelver := 0
  ackSent := none
  ackRcvd := none
  mismatched := false
  tx := List.replicate 3 ⟨0, [], [], 0⟩
  rx := List.replicate 3 ⟨0, false, 0⟩
  rxq := []
  msgs := []
  paused := List.replicate 4 false
  pfcTx := false
  discard := 0
  resent := 0
  fcsErr := 0
  xoffTx := 0
  xoffRx := 0
  ctlHeld := []
  upPending := false
  reelUp := false
  retries := 0
  slots := []
  copyPuts := []
  inbox := []
  refetch := []
  peer0 := 0x7FFF
  peerSerial := 0
  peerGen := 0
  outWrites := []
  inWrites := []

/-- Window states (R393). -/
inductive WinState where
  | free | opened | closing
deriving DecidableEq, Repr

/-- A window (R393): state, range, owning slate, peers (engine, slate), and the command that closes it. -/
structure FabWindow where
  state : WinState
  space : Nat
  cl : Nat
  base : Nat
  len : Nat
  slate : Nat
  peers : List (Nat × Nat)
deriving DecidableEq, Repr

/-- A FREE window. -/
def FabWindow.free : FabWindow := ⟨.free, 0, 0, 0, 0, 0, []⟩

/-- A flow: source engine, source slate, owning slate (R394). -/
abbrev FlowKey := Nat × Nat × Nat

/-- Denials of a flow (R397): count, time of the last, time of the last 0x5042. -/
structure Denial where
  flow : FlowKey
  count : Nat
  last : Nat
  event : Option Nat
deriving DecidableEq, Repr

/-- A flow record of the receiving module (R451): source engine and slate, owning slate, incarnation, run, and the set
bits of its map. -/
structure FlowRec where
  flow : FlowKey
  inc : Nat
  run : Nat
  map : List Nat
  /-- Time of the last 0x7004. -/
  event : Option Nat
deriving DecidableEq, Repr

/-- The fabric control block and tables (R372 to R402). -/
structure Fabric where
  engId : BitVec 15
  tmo : BitVec 16
  noroute : Nat
  late : Nat
  malf : Nat
  dup : Nat
  stale : Nat
  /-- Destination table entries that differ from the reset value 0x0FFF_FFFF (R384). -/
  dest : SMap Word
  windows : SMap FabWindow
  lastWin : Nat
  frozen : List FlowKey
  denials : List Denial
  flows : List FlowRec
  /-- Time of the last once-per-second event: kind and destination (R388, R391, R376). -/
  limits : List (Nat × Nat × Nat)
deriving DecidableEq, Repr

end Sys2Proof.Machine
end

