-- ==== Sys2Proof/Machine/SlateState.lean ====
section
/-! DEFINITION. Slates, storyboards, scenes, unfinished commands, policies and the work in progress of the management
plane (R271 to R296, R436 to R468, R472 to R489). -/

namespace Sys2Proof.Machine

/-- What a completion copies from its command (R417). -/
structure CmdRef where
  port : HostPort
  opcode : Nat
  /-- The SCOPE field: slate, and bit 12 MOD. -/
  scope : Nat
  cseq : Word
deriving DecidableEq, Repr

/-- Slate states, in the numbering of R466. -/
inductive SlateMode where
  | free | opened | running | held | frozen | cutting | scrubbing
deriving DecidableEq, Repr

/-- An owned range (R437). -/
structure Range where
  space : Nat
  cl : Nat
  base : Nat
  len : Nat
deriving DecidableEq, Repr

/-- A cut in progress (R458): the command, CUT_DL in µs, dailies request, counts, and the step reached:
2 drain, 3 retire, 4 dailies, 5 scrub. -/
structure Cut where
  cmd : CmdRef
  /-- Further SLATE_CUT commands, which complete with this cut's outcome (R442). -/
  also : List CmdRef
  dl : Nat
  dailies : Option Nat
  step : Nat
  /-- Commands of the slate whose work the cut ended: SLATE_GONE is owed to them (R459, R463). -/
  owed : List CmdRef
  fenced : Nat
  discarded : Nat
deriving DecidableEq, Repr

/-- A slate (R436). `outcomes` are the last 256 commands: CSEQ, status, and whether it is final (R421, R453). -/
structure Slate where
  mode : SlateMode
  owner : HostPort
  ranges : List Range
  inc : BitVec 16
  /-- The module holds an INC of an earlier opening (R439). -/
  incKnown : Bool
  hgen : BitVec 12
  runNext : BitVec 12
  nextCseq : Word
  outcomes : List (Word × Nat × Bool)
  cut : Option Cut
  energy : DWord
  /-- Held by a fault halt that AUTO_REPLAY still watches (R480). -/
  faultHeld : Bool
deriving DecidableEq, Repr

/-- A FREE slate that has never been open. -/
def Slate.reset : Slate where
  mode := .free
  owner := .A
  ranges := []
  inc := 0
  incKnown := false
  hgen := 0
  runNext := 0
  nextCseq := 0
  outcomes := []
  cut := none
  energy := 0
  faultHeld := false

/-- A loaded storyboard (R275): owner slate, image words, destination (`none` HOST, else cluster and word offset), the
host source address, and the substitutions of each scene (R478): scene index, old core, new core. -/
structure Storyboard where
  slate : Nat
  words : List Word
  vault : Option (Nat × Nat)
  host : DWord
  substs : List (Nat × Nat × Nat)
deriving DecidableEq, Repr

/-- A storyboard load in progress (R275). -/
structure LoadWork where
  cmd : CmdRef
  slate : Nat
  vault : Option (Nat × Nat)
  host : DWord
  /-- The storyboard to replace (R275). -/
  sbn : Option Nat
deriving DecidableEq, Repr

/-- Scene states (R281). -/
inductive ScenePhase where
  | admitting | running | halted | ended | closed
deriving DecidableEq, Repr

/-- A keyframe destination (R277, R292). -/
inductive KfDest where
  | inPlace
  | host (addr : DWord)
  | reel (id port : Nat)
deriving DecidableEq, Repr

/-- An admitted or queued scene. `slots` are the bound slates and `runs` their run numbers; `cores` are the call sheets
as installed: core, slot, word offset of the call sheet. `stage` counts the admission: 0 queued, 1 copying, 2 ACCEPTED with its start order
not yet sent, 3 started. -/
structure Scene where
  sbn : Nat
  idx : Nat
  /-- 0, or one more than the slate whose slots alone a REPLAY admits (R456). -/
  part : Nat
  phase : ScenePhase
  stage : Nat
  number : Nat
  epoch : BitVec 4
  slots : List Nat
  runs : List Nat
  cores : List (Nat × Nat × Nat)
  region : List Nat
  nedge : Nat
  marks : Nat
  kf : KfDest
  /-- Latest keyframe: none boundary, else resume point index; and the area it lies in (R295). -/
  latest : Option Nat
  area : Nat
  /-- Resume point copy under way: index, area (R294). -/
  copying : Option (Nat × Nat)
  /-- Slot admitted alone by REPLAY, and the replay's command (R456). -/
  replay : Option (Nat × Option CmdRef)
  cut : Bool
  cmd : CmdRef
  replays : Nat
  residual : Nat
  /-- Progress seen since the last report, and the time of the last report that showed progress (R483). -/
  progress : Bool
  lastProgress : Nat
  /-- Declared hung, and no report has shown progress since (R483). -/
  hung : Bool
  /-- Window packets counted for each origin call sheet: core, o; and at the latest keyframe (R449). -/
  winCount : List (Nat × Nat)
  winMark : List (Nat × Nat)
  /-- A replay whose keep ranges are being restored (R456). -/
  restoring : Bool
  /-- Energy and stop-time of each frame of the region when the run started (R527). -/
  frameMark : List (Nat × Nat × Nat)
deriving DecidableEq, Repr

/-- An unfinished accepted SCENE_RUN of one slate (R453): its reference, storyboard and scene, run, replays, keyframes.
A command of several slates has one entry for each, and completes when the last is gone (R456, R457). -/
structure Unfinished where
  cmd : CmdRef
  slate : Nat
  sbn : Nat
  idx : Nat
  run : Nat
  replays : Nat
  number : Nat
  kf : KfDest
  latest : Option Nat
  area : Nat
  slots : List Nat
  /-- Residual words of replayed slots that have closed (R285, R457). -/
  residual : Nat
  /-- Gateway counts at the latest keyframe (R449, R453). -/
  winMark : List (Nat × Nat)
deriving DecidableEq, Repr

/-- A keep range's place: space, core or cluster, first word, words. -/
abbrev Place := Nat × Nat × Nat × Nat

/-- What a keyframe copy belongs to: an admission (R279 step 6), a KEYFRAME_TAKE (R292), a resume point (R294). -/
inductive CopyKind where
  | admission | take | resume
deriving DecidableEq, Repr

/-- A keyframe copy under way: its scene, the owner port and the destination, what is still to be copied (byte offset at the
destination and place), and the status it has failed with, or 0. -/
structure CopyJob where
  kind : CopyKind
  sbn : Nat
  idx : Nat
  port : HostPort
  kf : KfDest
  left : List (Nat × Place)
  status : Nat
deriving DecidableEq, Repr

/-- A KEYFRAME_TAKE in progress (R292). -/
structure TakeWork where
  cmd : CmdRef
  sbn : Nat
  idx : Nat
  kf : KfDest
deriving DecidableEq, Repr

/-- A scene that has closed for a slate, and the destinations of the keyframes the module holds of it (R293). -/
structure ClosedRun where
  sbn : Nat
  idx : Nat
  slate : Nat
  port : HostPort
  kfs : List KfDest
deriving DecidableEq, Repr

/-- A standing policy (R472): armed, and its 24 argument bytes. -/
structure Policy where
  armed : Bool
  args : List Byte
deriving DecidableEq, Repr

/-- A detection event waiting for the management processor (R474): code, class 1 to 5, core, slate, scene. -/
structure Detection where
  code : Nat
  cls : Nat
  core : Option Nat
  slates : List Nat
  scene : Option (Nat × Nat)
deriving DecidableEq, Repr

/-- Hang recovery of a scene (R484, R485): suspects left, the one replayed now, those declared hung again, and how many
there were. -/
structure HangWork where
  sbn : Nat
  idx : Nat
  suspects : List Nat
  current : Option Nat
  guilty : List Nat
  total : Nat
  /-- Cores whose reset has not completed. -/
  resetting : List Nat
deriving DecidableEq, Repr

/-- A dailies collection whose image is being written (R458, R484, R486, R487): its command, or the slate whose cut or the
hung scene it belongs to. -/
structure DailiesWork where
  cmd : Option CmdRef
  cut : Option Nat
  hang : Option (Nat × Nat)
  port : HostPort
  addr : DWord
  image : List Byte
  cores : Nat
deriving DecidableEq, Repr

/-- A reset in progress (R489). -/
structure ResetWork where
  cmd : Option CmdRef
  domain : Nat
  mode : Nat
  target : Nat
  since : Nat
deriving DecidableEq, Repr

/-- A fade or an unfade in progress (R534 to R539, R584): its command, the pin that ordered it, its cause (0 command or
pin, 1 THERMAL_FADE), its rectangles and clusters, RETAIN, and the TIME at which it began. -/
structure FadeWork where
  cmd : Option CmdRef
  pin : Option Nat
  cause : Nat
  off : Bool
  rects : Nat
  clusters : List Nat
  retain : Bool
  since : Nat
deriving DecidableEq, Repr

end Sys2Proof.Machine
end

