-- ==== Sys2Proof/Machine/State.lean ====
section
/-! DEFINITION. The state of the module, its faults and refusals, and its state after the controller reset of
R547 step 2. -/

namespace Sys2Proof.Machine

/-- A management command accepted and not yet finished (R418): what it is waiting for. -/
structure Works where
  load : List LoadWork
  takes : List TakeWork
  /-- Keyframe copies under way, oldest first (R279, R292, R294). -/
  copies : List CopyJob
  fades : List FadeWork
  dailies : List DailiesWork
  resets : List ResetWork
  clock : List (ClockSelect CmdRef)
  discovery : Option (CmdRef × DWord × Nat)
  windowClose : List (CmdRef × Nat)
  /-- Completions that wait for the ACCEPTED of an earlier command of their scope, oldest first (R418). -/
  late : List (CmdRef × List Byte)
deriving DecidableEq, Repr

/-- The module. `freeCtr` and `emitted` are the model's own: the counter that picks the next free value, and what has
left the connectors. -/
structure State where
  pending : List Instr
  freeCtr : Nat
  emitted : List Emission
  cores : SMap Core
  clusters : SMap Cluster
  mesh : List Flight
  /-- Clusters that the present route entries avoid (R304 to R306). -/
  routeDark : List Nat
  /-- The clusters that the entries will avoid once the route fence under way is over (R306). -/
  routeFence : Option (List Nat)
  /-- Seams in splice mode (R310). -/
  splice : List Nat
  ports : SMap Port
  fabric : Fabric
  portA : HPort
  portB : HPort
  authority : Option HostPort
  heartbeat : Word
  slates : SMap Slate
  storyboards : SMap (Option Storyboard)
  /-- Scenes admitted and not CLOSED, oldest first (R281). -/
  scenes : List Scene
  /-- SCENE_RUN and REPLAY commands that have passed their checks and wait for admission (R279, R282). -/
  queuedRuns : List Scene
  /-- Keyframe copies that lie in reel stores (R292, R295), by port * 2^24 + reel. -/
  reelCopies : SMap Ram
  /-- Scenes closed, for KEYFRAME_RELEASE (R293). -/
  closedScenes : List ClosedRun
  epochNext : BitVec 4
  unfinished : List Unfinished
  /-- Parity errors of the continuity record, by slate: byte offset and failing lanes (R496). -/
  recordBad : SMap (Nat × Nat)
  /-- Completion records held for a port, oldest first (R430). -/
  heldA : List (List Byte)
  heldB : List (List Byte)
  policies : SMap Policy
  detections : List Detection
  hangs : List HangWork
  works : Works
  clock : Clock
  frames : SMap Frame
  power : Power
  boot : Boot CmdRef
  otp : Otp
  floor : FloorPlan
  pins : SMap Pin
  tcap : DWord
  powered : Bool
  inletEn : Bool
  monFault : Byte
  monAddr : Option (BitVec 7)
  jtagIr : Byte
  coolantOk : Bool
deriving DecidableEq, Repr

/-- Why the machine stops with a fault: never. Every row of the table either has its effect or, where what it reports
cannot have come about in the present state, changes nothing; the module's own faults are events and state. -/
inductive Fault where
deriving DecidableEq, Repr

/-- Why a command has no meaning. -/
inductive Refusal where
  /-- The dispatcher has no meaning for this row yet. Safe: nothing is proved about it. -/
  | notModelled (mnemonic : String)
deriving DecidableEq, Repr

/-- Typical power factors k_n of R521, in thousandths. -/
def typicalFactor : List Nat :=
  [1000, 957, 914, 860, 808, 748, 682, 619, 560, 498, 440, 387, 338, 289, 242, 201]

/-- Typical rail voltages of R521 in mV. -/
def typicalMilliVolts : List Nat :=
  [780, 780, 780, 775, 770, 760, 745, 730, 715, 695, 675, 655, 635, 610, 580, 550]

/-- The factory values of a QW56-X without defects: DESIGN CHOICE, log entry 4. -/
def Otp.factory : Otp where
  device := 0x0560
  revision := 1
  serial := 0
  memoryWafer := true
  fwKeys := [some Config.fwKey, none, none, none]
  revoked := List.replicate 4 false
  debugKey := some Config.debugKey
  devicePublic := Config.devicePublic
  certs := Config.certChain
  svn := 0
  trims := []
  powerFactor := []
  fullW := []
  milliVolts := []
  sensor := []
  defectCores := []
  defectLinks := []
  defectPorts := []
  leakW := []

/-- A cluster at reset (R188, R222, R320, R402, R517, R546). -/
def Cluster.reset : Cluster where
  mem := .zero
  vault := .reset
  dark := .lit
  routers := List.replicate 2 ⟨0, 0, 0, 0⟩
  arb := []
  turns := []
  ringStops := []
  lastEpoch := none
  closings := []
  gwPort := 0x7F
  therm := 0

/-- The fabric at a cold reset (R372, R384, R402, R468). -/
def Fabric.reset : Fabric where
  engId := 0x7FFF
  tmo := 0x000A
  noroute := 0
  late := 0
  malf := 0
  dup := 0
  stale := 0
  dest := []
  windows := []
  lastWin := 16383
  frozen := []
  denials := []
  flows := []
  limits := []

/-- The policies at a cold reset: every policy disarmed but HANG, 2,000 ms with both areas zero (R473). -/
def policyDefault : Policy := ⟨false, List.replicate 24 0⟩

/-- HANG as a cold reset leaves it (R473). -/
def hangDefault : Policy := ⟨true, leBytes 4 2000 ++ List.replicate 20 0⟩

/-- Measurements after the controller reset: all zero, then measurement 1 extended by the boot ROM's digest (R554). -/
def measReset : Vector (List Byte) 5 :=
  (Vector.replicate 5 (List.replicate 64 0)).set 0 (Config.sha512 (List.replicate 64 0 ++ Config.romDigest))

/-- The module right after the controller reset of R547 step 2. -/
def State.reset : State where
  pending := []
  freeCtr := 0
  emitted := []
  cores := []
  clusters := []
  mesh := []
  routeDark := []
  routeFence := none
  splice := []
  ports := []
  fabric := .reset
  portA := .reset
  portB := .reset
  authority := none
  heartbeat := 0
  slates := []
  storyboards := []
  scenes := []
  queuedRuns := []
  reelCopies := []
  closedScenes := []
  epochNext := 0
  unfinished := []
  recordBad := []
  heldA := []
  heldB := []
  policies := [(7, hangDefault)]
  detections := []
  hangs := []
  works := ⟨[], [], [], [], [], [], [], none, [], []⟩
  clock := ⟨false, 0, false, false, false, false, false, 0, 0, none, false, 0, []⟩
  frames := []
  power :=
    { budget := 42000, lease := none, fallback := false, pIn := 0, pSt := 0, volts := 0, flow := 0, tIn := 0, tOut := 0
      pQ := 76000, coolantEvent := none, thrNs := Vector.replicate 8 0, boundary := 0, inletEnergy := 0, stackEnergy := 0
      clusterEnergy := [], portEnergy := [], vaultEnergy := [], learned := [] }
  boot :=
    { fw := .rom, step := 2, fast := false, ready := false, waferUp := false, fwver := 0, calWait := 0, svnBumped := none, load := none
      meas := measReset, ifLo := (2, 0), ifHi := (2, 0), scopes := 0, nonce := none
      overlayV := [], overlayS := [], overlayL := [], resetCause := none }
  otp := .factory
  floor := ⟨false, [], [], [], [], 0, 0⟩
  pins := []
  tcap := 0
  powered := true
  inletEn := true
  monFault := 0
  monAddr := none
  jtagIr := Config.jtagIdcode
  coolantOk := false

end Sys2Proof.Machine
end

