-- ==== Sys2Proof/Machine/Ops.lean ====
section
/-! DEFINITION. Named operations on the state: access to its parts, event records, completions, interrupts, and the
freeze and halt of R464 and R475 that every unit shares. -/

namespace Sys2Proof.Machine

open Sys2Proof

/-! ### Parts -/

/-- CORE_XY of a core (R6): its key. -/
def coreKey (c : CoreId) : Nat := c.x.val * 512 + c.y.val

/-- Key of a cluster: cx in [5:0], cy in [11:6]. -/
def clKey (k : ClusterId) : Nat := k.cy.val * 64 + k.cx.val

/-- Key of a frame: fy * 8 + fx. -/
def frKey (f : FrameId) : Nat := f.fy.val * 8 + f.fx.val

/-- Cluster of a core (R6). -/
def clOf (k : Nat) : Nat := (k % 512 / 8) * 64 + k / 512 / 8

/-- Index of a core within its cluster (R6). -/
def coreIdx (k : Nat) : Nat := k % 512 % 8 * 8 + k / 512 % 8

/-- Lowest core of a cluster (R298). -/
def lowCore (cl : Nat) : Nat := (cl % 64 * 8) * 512 + cl / 64 * 8

/-- The cores of a cluster, by index. -/
def coresOf (cl : Nat) : List Nat := (List.range 64).map fun i => (cl % 64 * 8 + i % 8) * 512 + (cl / 64 * 8 + i / 8)

/-- Frame of a cluster. -/
def frOf (cl : Nat) : Nat := cl / 64 / 8 * 8 + cl % 64 / 8

def getCore (s : State) (k : Nat) : Core := smapGet Core.reset s.cores k

def setCore (s : State) (k : Nat) (c : Core) : State := { s with cores := smapSet Core.reset s.cores k c }

def getCl (s : State) (k : Nat) : Cluster := smapGet Cluster.reset s.clusters k

def setCl (s : State) (k : Nat) (c : Cluster) : State := { s with clusters := smapSet Cluster.reset s.clusters k c }

def getPort (s : State) (e : Nat) : Port := smapGet Port.reset s.ports e

def setPort (s : State) (e : Nat) (p : Port) : State := { s with ports := smapSet Port.reset s.ports e p }

def getSlate (s : State) (n : Nat) : Slate := smapGet Slate.reset s.slates n

def setSlate (s : State) (n : Nat) (v : Slate) : State := { s with slates := smapSet Slate.reset s.slates n v }

def getFrame (s : State) (f : Nat) : Frame := smapGet Frame.reset s.frames f

def setFrame (s : State) (f : Nat) (v : Frame) : State := { s with frames := smapSet Frame.reset s.frames f v }

def getPin (s : State) (n : Nat) : Pin := smapGet Pin.reset s.pins n

def setPin (s : State) (n : Nat) (v : Pin) : State := { s with pins := smapSet Pin.reset s.pins n v }

def getPolicy (s : State) (n : Nat) : Policy := smapGet policyDefault s.policies n

def setPolicy (s : State) (n : Nat) (v : Policy) : State :=
  { s with policies := smapSet policyDefault s.policies n v }

def getHost (s : State) : HostPort → HPort
  | .A => s.portA
  | .B => s.portB

def setHost (s : State) : HostPort → HPort → State
  | .A, h => { s with portA := h }
  | .B, h => { s with portB := h }

def otherPort : HostPort → HostPort
  | .A => .B
  | .B => .A

def portNo : HostPort → Nat
  | .A => 0
  | .B => 1

/-- The TIME counter as a number. -/
def now (s : State) : Nat := s.clock.timeNs.toNat

/-- Adds to what has left the connectors. -/
def emit (s : State) (e : Emission) : State := { s with emitted := s.emitted ++ [e] }

/-- The module is a variant without vaults (R16). -/
def noVaults (s : State) : Bool := s.otp.device == 0x0562 || s.otp.device == 0x0480

/-- The variant fuses the cluster (R3, R15). -/
def fusedCl (s : State) (cl : Nat) : Bool := s.otp.device == 0x0480 && decide (48 ≤ cl / 64)

/-- The variant removes the edge port (R3). -/
def removedPort (s : State) (e : Nat) : Bool := s.otp.device == 0x0480 && decide (56 ≤ e) && decide (e ≤ 95)

/-- Last VAULT word plus one (R322). -/
def vaultWords (s : State) : Nat :=
  if s.otp.device = 0x0560 then 134217728 else if s.otp.device = 0x0561 then 67108864 else 0

/-- Words of cluster memory that a handle may name; those above hold the clappers (R207). -/
def cmWords : Nat := 0x0FF800

/-- The floor plan's part for a cluster. -/
def fpCl (s : State) (cl : Nat) : FpCluster := smapGet ⟨0, false⟩ s.floor.clusters cl

/-- The core is good: not bad in the floor plan, its cluster neither disabled nor fused (R557). -/
def goodCore (s : State) (k : Nat) : Bool :=
  !fusedCl s (clOf k) && !(fpCl s (clOf k)).disabled && !(fpCl s (clOf k)).bad.getLsbD (coreIdx k)

/-- The cluster is faded or tripped (R312). -/
def isDark (s : State) (cl : Nat) : Bool := (getCl s cl).dark != .lit

/-- Well-formed CORE_XY (R6). -/
def xyOk (k : Nat) : Bool := decide (k / 512 < 512) && decide (k % 512 < 448)

/-- CLUSTER and VAULT targets: cx in [5:0], cy in [11:6]. -/
def clOfTarget (t : Nat) : Nat := bits t 6 6 * 64 + bits t 0 6

def targetOfCl (cl : Nat) : Nat := cl / 64 * 64 + cl % 64

/-- The target names a cluster of the grid. -/
def clTargetOk (t : Nat) : Bool := decide (t < 4096) && decide (bits t 6 6 < 56)

/-! ### Byte fields -/

/-- Writes `n` little-endian bytes of `v` at offset `off` of a byte list. -/
def putLe (bs : List Byte) (off n v : Nat) : List Byte := bs.take off ++ leBytes n v ++ bs.drop (off + n)

/-- The little-endian number of `n` bytes at offset `off`. -/
def getLe (bs : List Byte) (off n : Nat) : Nat := leNat ((bs.drop off).take n)

/-- A record of `n` bytes with the given fields (offset, bytes, value); every other byte is zero (R10). -/
def record (n : Nat) (fs : List (Nat × Nat × Nat)) : List Byte :=
  fs.foldl (fun b f => putLe b f.1 f.2.1 f.2.2) (List.replicate n 0)

/-! ### Interrupts (R407, R415) -/

/-- Vector control word of an MSI-X entry: masked at reset, as the base specification gives. -/
def msixMasked (h : HPort) (v : Nat) : Bool := (smapGet 1 h.msix (4 * v + 3)).getLsbD 0

/-- Fires a vector, or sets its pending bit while it is masked. -/
def fireVector (s : State) (p : HostPort) (v : Nat) : State :=
  let h := getHost s p
  if msixMasked h v then setHost s p { h with pba := h.pba ||| (1 <<< v) }
  else emit s (.msix p v)

/-- A record has been written to a ring: IRQ_MOD decides whether the vector fires now (R415, R435). -/
def ringSignal (modr : Word) (t : Nat) (r : Ring) (force : Bool) : Ring × Bool :=
  let n := r.unsignalled + 1
  if force || decide (n ≥ bits modr.toNat 0 16) then ({ r with unsignalled := 0 }, true)
  else ({ r with unsignalled := n, since := if n = 1 then t else r.since }, false)

/-! ### Rings in host memory (R411, R415) -/

/-- SIZE of a ring. -/
def ringSize (r : Ring) : Nat := 2 ^ r.log2

/-- Bytes a ring holds, modulo 2^32 (R264). -/
def ringUsed (r : Ring) : Nat := (r.head - r.tail).toNat

/-- Bytes a MSG record of a payload occupies (R265). -/
def ringMsgLen (len : Nat) : Nat := 64 * ceilDiv (8 + len) 64

/-- What a producer in the module does with a message of `len` bytes (R266): it refuses it with MSG_TOO_LONG, waits for room,
first writes a PAD of `n` bytes at data-area byte `p`, or writes the message of `n` bytes there. -/
inductive RingPut where
  | tooLong
  | wait
  | pad (p n : Nat)
  | msg (p n : Nat)
deriving DecidableEq, Repr

/-- The next step of a producer for a ring of `size` bytes that holds `used`, its HEAD at data-area byte `p` (R266). -/
def ringPlace (size used p len : Nat) : RingPut :=
  let n := ringMsgLen len
  if 4096 < len ∨ size < n + 64 then .tooLong
  else if size < p + n then if used + (size - p) ≤ size then .pad p (size - p) else .wait
  else if used + n ≤ size then .msg p n else .wait

/-- The module may write a 64-byte record: ring enabled and not stopped, link up, and the producer finds room (R266, R411). -/
def ringOpen (h : HPort) (r : Ring) : Bool :=
  h.linkUp && r.en && !r.stop &&
    match ringPlace (ringSize r) (ringUsed r) (r.head.toNat % ringSize r) 56 with
    | .msg _ _ => true
    | _ => false

/-- Writes one 64-byte record, then HEAD, then the shadow (R415). The record's bytes are the caller's. -/
def ringWrite (h : HPort) (r : Ring) (rcd : List Byte) : HPort × Ring :=
  let a := r.base.toNat / 64 * 64 + r.head.toNat % ringSize r
  let hd := r.head + 64
  let m := ramPutBytes h.mem a rcd
  let m := if r.shadow = 0 then m else ramPutBytes m r.shadow.toNat (leBytes 4 hd.toNat)
  ({ h with mem := m }, { r with head := hd, seq := r.seq + 1 })

/-- Writes a completion record to its ring. Its ring SEQ stands in bytes 4 to 7 (R417). -/
def writeCpl (s : State) (p : HostPort) (rcd : List Byte) : State :=
  let h := getHost s p
  let (h', r') := ringWrite h h.cpl (putLe rcd 4 4 h.cpl.seq.toNat)
  let (r'', fire) := ringSignal h.irqMod (now s) r' false
  let s' := setHost s p { h' with cpl := r'' }
  if fire then fireVector s' p h.cplVec.toNat else s'

/-- Writes an event record to its ring. Its ring sequence stands in bytes 24 to 27 (R411, R490). -/
def writeEvt (s : State) (p : HostPort) (rcd : List Byte) : State :=
  let h := getHost s p
  let (h', r') := ringWrite h h.evt (putLe rcd 24 4 h.evt.seq.toNat)
  let (r'', fire) := ringSignal h.irqMod (now s) r' (decide (getLe rcd 2 1 = 3))
  let s' := setHost s p { h' with evt := r'' }
  if fire then fireVector s' p h.evtVec.toNat else s'

/-! ### Events (R419, R490) -/

/-- What an event names beside its code, severity and detail. -/
structure EvFrame where
  core : Option Nat
  slate : Option Nat
  /-- Scene number and epoch. -/
  scene : Option (Nat × Nat)
deriving DecidableEq, Repr

/-- An event of no core, slate or scene. -/
def noFrame : EvFrame := ⟨none, none, none⟩

/-- PLANE of an event (R490): cue core events control, other core, memory, queue, mesh, vault and port events data,
the rest management. -/
def evPlane (code : Nat) : Nat :=
  if code / 256 = 0x1F ∨ code = 0x2010 ∨ code = 0x3010 ∨ code = 0xB010 ∨ (0x7020 ≤ code ∧ code ≤ 0x7024) then 0
  else if code < 0x6000 ∨ (0x7010 ≤ code ∧ code ≤ 0x7014) ∨ code = 0x7025 ∨ code = 0x7030 then 1
  else 2

/-- The 64-byte event record (R490), its ring sequence still zero. -/
def evRecord (s : State) (code sev : Nat) (f : EvFrame) (detail : List (Nat × Nat × Nat)) : List Byte :=
  record 64
    ([(0, 2, code), (2, 1, sev), (3, 1, evPlane code), (4, 2, s.fabric.engId.toNat),
      (6, 3, f.core.getD 0x3FFFF), (9, 2, f.slate.getD 0x8000),
      (11, 2, (f.scene.getD (0, 0)).1), (13, 1, match f.scene with | some (_, e) => e | none => 0x80),
      (16, 8, now s)] ++ detail)

/-- Sends a record to a port's event ring, or to its holding buffer, or drops it (R419). A heartbeat that finds no
room is neither held nor counted (R493). -/
def postEvent (s : State) (p : HostPort) (rcd : List Byte) : State :=
  let h := getHost s p
  if h.holding.isEmpty && h.dropped == 0 && ringOpen h h.evt then writeEvt s p rcd
  else if getLe rcd 0 2 = 0xB000 then s
  else if h.holding.length < 256 then setHost s p { h with holding := h.holding ++ [rcd] }
  else setHost s p { h with evtLost := satAdd 0xFFFFFFFF h.evtLost 1, dropped := h.dropped + 1 }

/-- MON_FAULT bits an event sets (R579). -/
def monBits (code sev : Nat) : Byte :=
  (if sev = 3 then 1 else 0) ||| (if code = 0x9001 then 4 else 0) ||| (if code = 0x9002 then 8 else 0)

/-- Raises an event: one that names a slate goes to its owner port, every other to both ports (R419). -/
def raiseEv (s : State) (code sev : Nat) (f : EvFrame) (detail : List (Nat × Nat × Nat)) : State :=
  let rcd := evRecord s code sev f detail
  let s := { s with monFault := s.monFault ||| monBits code sev }
  match f.slate with
  | some n =>
    if (getSlate s n).mode = .free then postEvent (postEvent s .A rcd) .B rcd
    else postEvent s (getSlate s n).owner rcd
  | none => postEvent (postEvent s .A rcd) .B rcd

/-- Adds a detection event to what the management processor has to sort (R474). -/
def detect (s : State) (d : Detection) : State := { s with detections := s.detections ++ [d] }

/-! ### Completions (R417, R418, R421) -/

/-- Writes bytes to host memory over a port. -/
def hostWrite (s : State) (p : HostPort) (a : Nat) (bs : List Byte) : State :=
  setHost s p { getHost s p with mem := ramPutBytes (getHost s p).mem a bs }

/-- Records the outcome of a command for R421. -/
def noteOutcome (os : List (Word × Nat × Bool)) (cseq : Word) (st : Nat) (final : Bool) : List (Word × Nat × Bool) :=
  (cseq, st, final) :: os.filter fun o => o.1 != cseq

/-- The outcomes of the 256 CSEQs before the next expected one, which alone can be duplicated (R421). -/
def lastOutcomes (os : List (Word × Nat × Bool)) (next : Word) : List (Word × Nat × Bool) :=
  os.filter fun o => decide (1 ≤ (next - o.1).toNat) && decide ((next - o.1).toNat ≤ 256)

/-- The completion record of a command (R417), its ring SEQ still zero. -/
def cplRecord (r : CmdRef) (st : Nat) (final : Bool) (replays : Nat) (res : List (Nat × Nat × Nat)) : List Byte :=
  record 64
    ([(0, 2, 1), (2, 2, 56), (8, 2, r.opcode), (10, 2, r.scope), (12, 4, r.cseq.toNat), (16, 2, st),
      (18, 1, if final then 1 else 0), (20, 4, replays)] ++ res)

/-- Completions held for a port (R430). -/
def heldCpl (s : State) : HostPort → List (List Byte)
  | .A => s.heldA
  | .B => s.heldB

def setHeldCpl (s : State) : HostPort → List (List Byte) → State
  | .A, l => { s with heldA := l }
  | .B, l => { s with heldB := l }

/-- Posts a completion record, or holds it while its ring cannot take it (R430). -/
def postCpl (s : State) (p : HostPort) (rcd : List Byte) : State :=
  if (heldCpl s p).isEmpty && ringOpen (getHost s p) (getHost s p).cpl then writeCpl s p rcd
  else setHeldCpl s p (heldCpl s p ++ [rcd])

/-- The command is of the module space or of no space (bit 12 of SCOPE is MOD). -/
def isMod (r : CmdRef) : Bool := decide (bits r.scope 12 1 = 1)

/-- The outcome of a command is recorded in its space. -/
def noteCmd (s : State) (r : CmdRef) (st : Nat) (final : Bool) : State :=
  if isMod r then
    let h := getHost s r.port
    setHost s r.port { h with outcomes := noteOutcome h.outcomes r.cseq st final }
  else
    let v := getSlate s (bits r.scope 0 12)
    setSlate s (bits r.scope 0 12) { v with outcomes := noteOutcome v.outcomes r.cseq st final }

/-- A SCENE_RUN of the same scope and an earlier CSEQ has not received its ACCEPTED, which it receives when step 6 of its admission
ends (R279). -/
def owesAccept (s : State) (r : CmdRef) : Bool :=
  (s.queuedRuns ++ s.scenes.filter fun x => x.stage == 1).any fun x =>
    x.replay.isNone && x.cmd.port == r.port && x.cmd.scope == r.scope && x.cmd != r && decide ((r.cseq - x.cmd.cseq).toNat < 2 ^ 31)

/-- Posts the completions whose turn has come: the ACCEPTED completions of one scope are posted in CSEQ order (R418). -/
def flushLate (s : State) : State :=
  let q := s.works.late.partition fun c => owesAccept s c.1
  q.2.foldl (fun s c => postCpl s c.1.port c.2) { s with works := { s.works with late := q.1 } }

/-- Completes a command: the outcome is recorded in its space and the record posted. An ACCEPTED waits for those of earlier commands of
its scope, and a final completion for its own ACCEPTED (R418, log entry 92). -/
def complete (s : State) (r : CmdRef) (st : Nat) (final : Bool) (replays : Nat) (res : List (Nat × Nat × Nat)) :
    State :=
  let s := noteCmd s r st final
  let rcd := cplRecord r st final replays res
  if (!final && owesAccept s r) || s.works.late.any (fun c => c.1 == r) then
    { s with works := { s.works with late := s.works.late ++ [(r, rcd)] } }
  else flushLate (postCpl s r.port rcd)

/-- A final completion of a command that was never replayed. -/
def finish (s : State) (r : CmdRef) (st : Nat) (res : List (Nat × Nat × Nat)) : State := complete s r st true 0 res

/-- ACCEPTED (R418). -/
def accept (s : State) (r : CmdRef) (res : List (Nat × Nat × Nat)) : State := complete s r 1 false 0 res

/-! ### Scenes and slates -/

/-- Key of a scene within its storyboard: its index, and which part of it a REPLAY admits. -/
def scKey (x : Scene) : Nat := x.idx + 1024 * x.part

/-- The admitted scene of a storyboard and key. -/
def findScene (s : State) (sbn key : Nat) : Option Scene :=
  s.scenes.find? fun x => x.sbn == sbn && scKey x == key && x.phase != .closed

/-- The same scene. -/
def sameScene (x y : Scene) : Bool := x.sbn == y.sbn && scKey x == scKey y

/-- Replaces a scene. -/
def setScene (s : State) (x : Scene) : State :=
  { s with scenes := s.scenes.map fun y => if sameScene y x then x else y }

/-- The scene a core holds a call sheet of. -/
def sceneOf (s : State) (c : Core) : Option Scene :=
  match c.scene with
  | some (b, i) => findScene s b i
  | none => none

/-- Progress of a scene (R483). -/
def noteProgress (s : State) (c : Core) : State :=
  match c.scene with
  | some (b, i) => { s with scenes := s.scenes.map fun y => if y.sbn = b ∧ scKey y = i then { y with progress := true } else y }
  | none => s

/-- Slate of the installed call sheet (R193). -/
def sheetSlate (c : Core) : Option Nat :=
  match c.sheet with
  | some w => some (bits (w.getD 2 0).toNat 0 12)
  | none => none

/-- Scene number of the installed call sheet (R193). -/
def sheetScene (c : Core) : Nat :=
  match c.sheet with
  | some w => bits (w.getD 2 0).toNat 12 16
  | none => 0

/-- The event frame of a core. -/
def coreFrame (k : Nat) (c : Core) : EvFrame :=
  ⟨some k, sheetSlate c, match c.sheet with | some _ => some (sheetScene c, c.epoch.toNat) | none => none⟩

/-- Raises an event of a core. -/
def coreEv (s : State) (k : Nat) (code sev : Nat) (detail : List (Nat × Nat × Nat)) : State :=
  raiseEv s code sev (coreFrame k (getCore s k)) detail

/-- Slates of a scene's bound slots; 0xFFFF marks a slot no longer bound. -/
def boundSlates (x : Scene) : List Nat := x.slots.filter (· < 4096) |>.eraseDups

/-- The scene has reached ACCEPTED and is not CLOSED. -/
def admitted (x : Scene) : Bool := x.phase != .closed && decide (2 ≤ x.stage)

/-- Sends a hold order to a core (R20): it takes effect when it reaches the core. -/
def orderHold (s : State) (k : Nat) : State :=
  let c := getCore s k
  if c.mode = .running ∨ (c.mode = .idle ∧ c.sheet.isSome = true ∧ c.started = false) then
    setCore s k { c with order := true }
  else s

/-- Halts a scene with hold orders (R281). A scene whose start order is still held is halted in place: its cores are
HELD at ENTRY_PC (R279), but for one that is FENCED, which stays so (R197), and their queues read no contributor table until they are released (log entry 97). -/
def haltScene (s : State) (x : Scene) : State :=
  if x.phase = .running ∨ x.phase = .ended then
    setScene (x.cores.foldl (fun s p => orderHold s p.1) s) { x with phase := .halted }
  else if x.phase = .admitting ∧ x.stage = 2 then
    setScene (x.cores.foldl (fun s p =>
        let c := getCore s p.1
        if c.mode = .idle then setCore s p.1 { c with mode := .held, cause := 1 } else s) s)
      { x with phase := .halted, stage := 3 }
  else s

/-- The scenes bound to a slate that are admitted and not CLOSED. -/
def scenesOf (s : State) (n : Nat) : List Scene := s.scenes.filter fun x => admitted x && x.slots.contains n

/-- Unfinished commands of a slate. -/
def unfinishedOf (s : State) (n : Nat) : List Unfinished := s.unfinished.filter fun u => u.slate == n

/-- Lowest unfinished CSEQ of a slate, or 0 (R466, R467). -/
def lowestCseq (s : State) (n : Nat) : Nat :=
  match (unfinishedOf s n).map (fun u => u.cmd.cseq.toNat) with
  | [] => 0
  | a :: l => l.foldl min a

/-- A RUNNING slate becomes HELD, with 0x7001 (R441, R467, R475). -/
def holdSlate (s : State) (n : Nat) (cause : Nat) : State :=
  let v := getSlate s n
  if v.mode = .running ∨ v.mode = .opened then
    let s := setSlate s n { v with mode := .held }
    if cause = 0 then s
    else raiseEv s 0x7001 1 ⟨none, some n, none⟩
      [(28, 4, lowestCseq s n), (32, 4, (unfinishedOf s n).length), (36, 1, cause)]
  else s

/-- Halts every scene of a slate: RUNNING and ENDED scenes are halted and their slates held (R441, R464, R475). -/
def haltSlateScenes (s : State) (n : Nat) (cause : Nat) : State :=
  (scenesOf s n).foldl (fun s x =>
    if x.phase = .halted then s
    else
      let s' := haltScene s x
      (boundSlates x).foldl (fun s m => holdSlate s m cause) s') s

/-- A master is frozen for a slate (R464): the slate becomes FROZEN, 0x7003 is raised, its scenes are halted. -/
def freezeSlate (s : State) (n : Nat) (detail : List (Nat × Nat × Nat)) : State :=
  let v := getSlate s n
  let s := if v.mode = .opened ∨ v.mode = .running ∨ v.mode = .held then setSlate s n { v with mode := .frozen } else s
  let s := raiseEv s 0x7003 2 ⟨none, some n, none⟩ detail
  haltSlateScenes s n 0

/-! ### Engine positions at a stop (R103, R169, R235) -/

/-- MX_POS0 and MX_POS1 of a descriptor's next pass (R109). -/
def mxPosWords (d : MxRun) : Word × Word :=
  (BitVec.ofNat 32 (d.mT % 2 ^ 16 + d.nT % 2 ^ 10 * 2 ^ 16 + d.row % 64 * 2 ^ 26),
   BitVec.ofNat 32 (d.kT % 2 ^ 10 + d.i % 4 * 2 ^ 10 + d.j % 4 * 2 ^ 12 + d.half % 2 * 2 ^ 14 + d.addr % 2 ^ 16 * 2 ^ 16))

/-- The matrix engine stops at the next pass boundary and records the next pass, unless none remains (R103). -/
def stopMx (c : Core) (code : BitVec 2) : Core :=
  match c.mx.find? fun d => !d.admitted with
  | some d => { c with mxStop := code, mxPos0 := (mxPosWords d).1, mxPos1 := (mxPosWords d).2 }
  | none => c

/-- Dimensions D1 and D2 of a vector descriptor. -/
def vxD1 (d : VxRun) : Nat := max 1 (bits (d.words.getD 1 0).toNat 16 16)

def vxD2 (d : VxRun) : Nat := max 1 (bits (d.words.getD 2 0).toNat 0 16)

/-- The descriptor has become the executing one: a fused one does so after those before it have read their last chunk (R163),
any other in the cycle after that (R167). -/
def vxStarted (d : VxRun) : Bool := d.fused.isNone || d.begun

/-- The descriptors in the executing and the waiting slot: one that has read every chunk leaves its slot when a later one has
become executing (R163, R167). -/
def vxSlots : List VxRun → List VxRun
  | [] => []
  | d :: ds => if d.allRead && ds.any vxStarted then vxSlots ds else d :: ds

/-- VX_POS0 and VX_POS1 of the next chunk (R170). -/
def vxPosWords (d : VxRun) : Word × Word :=
  (BitVec.ofNat 32 (d.row % vxD1 d + d.row / vxD1 d % vxD2 d * 2 ^ 16),
   BitVec.ofNat 32 (d.row / (vxD1 d * vxD2 d) % 2 ^ 16 + d.i0 % 2 ^ 16 * 2 ^ 16))

/-- The vector engine stops reading and records the next chunk, unless every chunk is read (R169). -/
def stopVx (c : Core) (code : BitVec 2) : Core :=
  match c.vx.find? fun d => !d.allRead with
  | some d => { c with vxStop := code, vxPos0 := (vxPosWords d).1, vxPos1 := (vxPosWords d).2 }
  | none => c

/-- Rows of a DMA descriptor. -/
def dmaRows (d : DmaRun) : Nat := bits (d.words.getD 4 0).toNat 16 16

/-- The next row of a DMA descriptor: a row of which some words are issued is finished first (R235). -/
def dmaNextRow (d : DmaRun) : Nat := if d.off = 0 || d.fault then d.row else d.row + 1

/-- The DMA engine issues no further row and records the next row, unless none remains (R235). -/
def stopDma (c : Core) : Core :=
  let left (d : DmaRun) : Bool := decide (dmaNextRow d < dmaRows d)
  match c.dma.find? left with
  | some d =>
    { c with dma := c.dma.map (fun e => if left e then { e with stopped := true } else e)
             dmaPos := BitVec.ofNat 32 (dmaNextRow d % 2 ^ 16 + d.addr % 2 ^ 16 * 2 ^ 16) }
  | none => c

/-- The DMA engine stops at a read of its own that met a parity error: the row it was reading is not finished (R205). -/
def faultDma (c : Core) : Core :=
  match c.dma with
  | d :: ds => stopDma { c with dma := { d with fault := true } :: ds }
  | [] => c

/-- A hold or freeze order reaches the engines (R20). -/
def stopEngines (c : Core) : Core := stopDma (stopVx (stopMx c 2) 2)

/-- Waits that are abandoned at a hold and executed again on release; an ARRIVE that has left is not (R198). -/
def abandonWait (c : Core) : Core := if c.wait = .arrive then c else { c with wait := .none }

/-- A core becomes HELD (R197, R198). -/
def holdCore (c : Core) (cause : BitVec 8) : Core :=
  abandonWait (stopEngines { c with mode := .held, cause := cause, order := false })

/-- A core becomes FROZEN (R197). -/
def freezeCore (c : Core) (cause : BitVec 8) : Core :=
  abandonWait (stopEngines { c with mode := .frozen, cause := cause, order := false })

/-- The cue core or its queue unit stops as under a hold order (R205, R242). -/
def stopCue (c : Core) : Core := holdCore c 0x01

/-- Tags of a core's memory reads and writes that are in use, the given-up ones among them (R233, R235). -/
def usedTags (c : Core) : List Nat :=
  (c.dma.flatMap fun d => d.pieces.map (·.tag)) ++ (c.tiles.flatMap fun t => t.reads.map (·.1)) ++ c.deadTags

/-- A violation of a core (R464): the core is FROZEN with a cause, its event is raised, its slate is frozen. -/
def violate (s : State) (k : Nat) (cause : BitVec 8) (code : Nat) (detail : List (Nat × Nat × Nat)) : State :=
  let c := getCore s k
  let s := setCore s k (freezeCore c cause)
  let s := coreEv s k code 2 detail
  match sheetSlate c with
  | some n => freezeSlate s n [(28, 1, 1), (30, 3, k)]
  | none => s

/-- The floor plan changes (R559). -/
def bumpFloor (s : State) : State :=
  { s with floor := { s.floor with generation := s.floor.generation + 1, changed := s.clock.timeNs } }

/-- A core fault (R474): the detection of class 1 joins the management processor's queue. -/
def coreFault (s : State) (k : Nat) (code : Nat) : State :=
  let c := getCore s k
  detect s ⟨code, 1, some k, (sheetSlate c).toList, c.scene⟩

/-! ### Retired incarnations (R460) -/

/-- The slate's incarnation is retired: it is FREE or SCRUBBING, or its cut has passed step 3. -/
def retired (s : State) (n : Nat) : Bool :=
  let v := getSlate s n
  v.mode == .free || v.mode == .scrubbing || (match v.cut with | some c => decide (4 ≤ c.step) | none => false)

/-- What carries a retired incarnation is discarded and counted among its cut's (R460, R463). -/
def countRetired (s : State) (n : Nat) : State :=
  match (getSlate s n).cut with
  | some c => if retired s n then setSlate s n { getSlate s n with cut := some { c with discarded := c.discarded + 1 } } else s
  | none => s

/-! ### NO_ROUTE (R386, R388) -/

/-- An event of a kind and destination may be raised now: at most one in each second. -/
def oncePerSec (s : State) (kind dest : Nat) : State × Bool :=
  let l := s.fabric.limits
  if l.any fun x => x.1 == kind && x.2.1 == dest && decide (now s < x.2.2 + 1000000000) then (s, false)
  else
    ({ s with fabric := { s.fabric with limits := (kind, dest, now s) :: l.filter fun x => !(x.1 == kind && x.2.1 == dest) } },
     true)

def countNoroute (s : State) : State :=
  { s with fabric := { s.fabric with noroute := satAdd 0xFFFFFFFF s.fabric.noroute 1 } }

/-- 0x5046 of a port, a destination and a cause (R401). -/
def norouteEvent (s : State) (e dest cause : Nat) : State :=
  raiseEv s 0x5046 1 noFrame [(28, 1, e), (30, 2, dest), (32, 1, cause)]

/-- A NO_ROUTE outcome: it is counted, the hop limit raises 0x5046 with cause 2 each time, and the first of a destination in each
second raises it with cause 1 (R386, R388), or with cause 3 where the module is unassigned (R373, R401; log entry 102). -/
def noRoute (s : State) (e dest cause : Nat) : State :=
  let s := countNoroute s
  let s := if cause = 2 then norouteEvent s e dest 2 else s
  match oncePerSec s 0x101 dest with
  | (s', true) => norouteEvent s' e dest (if cause = 3 then 3 else 1)
  | (s', false) => s'

/-- The next free value (AN OPEN VALUE): advances the model's own counter. -/
def freshIdx (s : State) : Nat × State := (s.freeCtr, { s with freeCtr := s.freeCtr + 1 })

end Sys2Proof.Machine
end

