-- ==== Sys2Proof/Machine/Flags.lean ====
section
/-! DEFINITION. Cue counters and the cue core's flags (R173, R179, R180, R199). -/

namespace Sys2Proof.Machine

open Sys2Proof

/-- A counter value held at the ends of its range (R173). -/
def ctrClamp (v : Int) : Int := max (-(2 ^ 31)) (min (2 ^ 31 - 1) v)

/-- Adds `d` to counter `i`; a saturation sets CSAT, and a change restarts the watchdog count (R173, R199). -/
def ctrAdd (c : Core) (i : Nat) (d : Int) : Core :=
  let v := (c.c.toList.getD i 0).toInt + d
  if d = 0 then c
  else { c with
    c := c.c.setIfInBounds i (BitVec.ofInt 32 (ctrClamp v))
    csat := c.csat || decide (ctrClamp v ≠ v)
    wdCycles := 0
    lastMask := BitVec.ofNat 16 (2 ^ i) }

/-- Sets counter `i` (CSET, CSETI). -/
def ctrSet (c : Core) (i : Nat) (v : Word) : Core :=
  if c.c.toList.getD i 0 = v then c
  else { c with c := c.c.setIfInBounds i v, wdCycles := 0, lastMask := BitVec.ofNat 16 (2 ^ i) }

/-- Value of counter `i`. -/
def ctrVal (c : Core) (i : Nat) : Int := (c.c.toList.getD i 0).toInt

/-- Kind of a counter's binding (R179): 0 NONE, 1 QWORDS, 2 QPKTS, 3 CREDIT. -/
def bindKind (c : Core) (i : Nat) : Nat := bits (c.cbind.toList.getD i 0).toNat 0 4

/-- Queue or edge of a counter's binding. -/
def bindIdx (c : Core) (i : Nat) : Nat := bits (c.cbind.toList.getD i 0).toNat 4 4

/-- The counter bound to a kind and an index, the lowest one (R195 admits one). -/
def boundCtr (c : Core) (kind idx : Nat) : Option Nat :=
  (List.range 16).find? fun i => bindKind c i == kind && bindIdx c i == idx

/-- Adds to the counter bound to a kind and index, if one is (R179). The mask of the last change then names every
counter changed by this event. -/
def bindAdd (c : Core) (kind idx : Nat) (d : Int) : Core :=
  match boundCtr c kind idx with
  | some i => ctrAdd c i d
  | none => c

/-- Two bindings of one queue change together (QWORDS and QPKTS). -/
def bindAddQ (c : Core) (q : Nat) (words pkts : Int) : Core :=
  let c1 := bindAdd c 1 q words
  let c2 := bindAdd c1 2 q pkts
  if words ≠ 0 ∧ pkts ≠ 0 then
    { c2 with lastMask := (match boundCtr c 1 q, boundCtr c 2 q with
        | some i, some j => BitVec.ofNat 16 (2 ^ i) ||| BitVec.ofNat 16 (2 ^ j)
        | _, _ => c2.lastMask) }
  else c2

/-- The increment of a completed descriptor (R96, R162, R231), from its last word: DONE_CTR and DONE_EN. -/
def doneCtr (c : Core) (w15 : Word) : Core :=
  if bits w15.toNat 4 1 = 1 then ctrAdd c (bits w15.toNat 0 4) 1 else c

/-- The counters of a mask have all reached their thresholds (R175). -/
def maskMet (c : Core) (mask : Nat) : Bool :=
  (List.range 16).all fun i => !(mask.testBit i) || decide ((c.cthr.toList.getD i 0).toInt ≤ ctrVal c i)

/-- General register `i`. -/
def gReg (c : Core) (i : Nat) : Word := c.g.toList.getD i 0

/-- Writes general register `i`. -/
def setG (c : Core) (i : Nat) (v : Word) : Core := { c with g := c.g.setIfInBounds i v }

/-- Summary register `i`. -/
def sReg (c : Core) (i : Nat) : Word := c.s.toList.getD i 0

/-- Stores a core and notes the progress of its scene when a counter changed (R483). -/
def putCore (s : State) (k : Nat) (c : Core) : State :=
  let old := getCore s k
  let s' := setCore s k c
  if old.c = c.c then s' else noteProgress s' c

end Sys2Proof.Machine
end

