-- ==== Sys2Proof/Machine/Operands.lean ====
section
/-! DEFINITION. The call sheet's fields, handles and their checks, strided spans, and the range scoreboard
(R192 to R214). -/

namespace Sys2Proof.Machine

open Sys2Proof

/-! ### Call sheet (R192 to R194) -/

/-- Word `i` of the installed call sheet. -/
def sheetW (c : Core) (i : Nat) : Nat :=
  match c.sheet with
  | some w => (w.getD i 0).toNat
  | none => 0

def sheetPlen (c : Core) : Nat := bits (sheetW c 1) 12 13

def sheetEntry (c : Core) : Nat := bits (sheetW c 1) 0 12

def sheetWdExp (c : Core) : Nat := bits (sheetW c 3) 0 5

def sheetSplit (c : Core) : Nat := bits (sheetW c 3) 5 2

/-- LIMIT for a cache split (R202). -/
def limitOf (split : Nat) : Nat :=
  match split with
  | 0 => 40960
  | 1 => 32768
  | 2 => 24576
  | _ => 20480

/-- Sets of the cache for a split (R216). -/
def setsOf (split : Nat) : Nat :=
  match split with
  | 0 => 0
  | 1 => 64
  | 2 => 128
  | _ => 160

/-- Receive queue words of the call sheet. -/
def queueW0 (c : Core) (q : Nat) : Nat := sheetW c (72 + 2 * q)

def queueW1 (c : Core) (q : Nat) : Nat := sheetW c (73 + 2 * q)

def queueRate (c : Core) (q : Nat) : Nat := bits (queueW0 c q) 3 7 + 1

/-- Output edge words of the call sheet. -/
def edgeW0 (c : Core) (e : Nat) : Nat := sheetW c (104 + 2 * e)

def edgeW1 (c : Core) (e : Nat) : Nat := sheetW c (105 + 2 * e)

def edgeRate (c : Core) (e : Nat) : Nat := bits (edgeW1 c e) 2 7 + 1

/-- The queue with index `q`. -/
def getQ (c : Core) (q : Nat) : RxQueue := c.queues.toList.getD q .reset

def setQ (c : Core) (q : Nat) (v : RxQueue) : Core := { c with queues := c.queues.setIfInBounds q v }

/-- Region of the running scene, as cluster keys. -/
def regionOf (s : State) (c : Core) : List Nat :=
  match sceneOf s c with
  | some x => x.region
  | none => []

/-! ### Handles (R206 to R210) -/

/-- A handle table entry. -/
structure HEntry where
  space : Nat
  pr : Bool
  pw : Bool
  px : Bool
  cached : Bool
  slate : Nat
  gen : Nat
  base : Nat
  len : Nat
  target : Nat
deriving DecidableEq, Repr

/-- The entry that four call sheet words spell. -/
def hEntryOf (w0 w1 w2 w3 : Nat) : HEntry where
  space := bits w0 0 3
  pr := w0.testBit 3
  pw := w0.testBit 4
  px := w0.testBit 5
  cached := w0.testBit 6
  slate := bits w0 8 12
  gen := bits w0 20 12
  base := w1
  len := w2
  target := w3

/-- Handle `h` of a core. -/
def hEntry (c : Core) (h : Nat) : HEntry :=
  hEntryOf (sheetW c (136 + 4 * h)) (sheetW c (137 + 4 * h)) (sheetW c (138 + 4 * h)) (sheetW c (139 + 4 * h))

/-- Requesters of R209. -/
inductive HUse where
  | ldst | fetch | queue | mx | mxLoad | vx | dma | dmaStat
deriving DecidableEq, Repr

/-- Permissions of R206. -/
inductive HPerm where
  | r | w | x
deriving DecidableEq, Repr

/-- A strided span of offsets: start, dimensions (count and stride, outermost first), and consecutive units, which are
words, or bytes when `bytes` is set. -/
structure Span where
  off : Int
  dims : List (Nat × Int)
  n : Nat
  bytes : Bool
deriving DecidableEq, Repr

/-- A span of `n` consecutive words. -/
def spanOf (off n : Nat) : Span := ⟨off, [], n, false⟩

/-- Lowest offset of a span. -/
def spanLo (p : Span) : Int := p.dims.foldl (fun a d => a + min 0 (((d.1 : Int) - 1) * d.2)) p.off

/-- Highest offset of a span. -/
def spanHi (p : Span) : Int := p.dims.foldl (fun a d => a + max 0 (((d.1 : Int) - 1) * d.2)) (p.off + p.n - 1)

/-- Units of a span in a word. -/
def spanUnit (p : Span) : Nat := if p.bytes then 4 else 1

/-- A span lies within `len` units. -/
def spanFits (p : Span) (len : Nat) : Bool := decide (0 ≤ spanLo p) && decide (spanHi p < len)

/-- A span lies within `len` words. -/
def spanIn (p : Span) (len : Nat) : Bool := spanFits p (len * spanUnit p)

/-- First offending offset of a span, in the order its words are reached. -/
def spanFirstBad (len : Nat) : List (Nat × Int) → Int → Nat → Int
  | [], off, _ => if off < 0 ∨ (len : Int) ≤ off then off else len
  | d :: ds, off, n =>
    match (List.range d.1).find? fun (i : Nat) => !spanFits ⟨off + (i : Int) * d.2, ds, n, false⟩ len with
    | some i => spanFirstBad len ds (off + (i : Int) * d.2) n
    | none => off

/-- R209: the use is allowed for the entry. -/
def useAllowed (k : Nat) (e : HEntry) (u : HUse) (p : HPerm) : Bool :=
  let own := clOfTarget e.target == clOf k
  match e.space, u with
  | 1, _ => true
  | 2, .ldst => own
  | 2, .vx => own
  | 2, .mx => own
  | 2, .mxLoad => own
  | 2, .dma => true
  | 3, .ldst => own && e.cached
  | 3, .vx => own && e.cached
  | 3, .dma => !e.cached
  | 4, .dma => decide (p = .w)
  | 5, .mxLoad => decide (p = .r)
  | 5, .dma => true
  | _, _ => false

/-- The checks of R210 up to reason 0x08, in order: the reason and the first offending offset. -/
def handleCheck (s : State) (k : Nat) (c : Core) (h : Nat) (u : HUse) (p : HPerm) (sp : Span) : Option (Nat × Int) :=
  let e := hEntry c h
  if e.space = 0 ∨ 5 < e.space then some (1, 0)
  else if e.space = 3 ∧ noVaults s = true then some (7, 0)
  else if some e.slate ≠ sheetSlate c then some (2, 0)
  else if e.gen ≠ c.hgen.toNat then some (3, 0)
  else if (match p with | .r => e.pr | .w => e.pw | .x => e.px) = false then some (4, 0)
  else if spanIn sp e.len = false then some (5, spanFirstBad (e.len * spanUnit sp) sp.dims sp.off sp.n / spanUnit sp)
  else if useAllowed k e u p = false then some (6, 0)
  else if (e.space = 2 ∨ e.space = 3) ∧ (regionOf s c).contains (clOfTarget e.target) = false then some (8, 0)
  else none

/-- A handle fault (R210). `pc` is the PC or the descriptor's word address. -/
def handleFault (s : State) (k pc h : Nat) (r : Nat × Int) : State :=
  violate s k 0x14 0x7030
    [(28, 2, pc), (30, 1, r.1), (31, 1, h), (32, 4, codeOf 32 r.2), (36, 4, (hEntry (getCore s k) h).len)]

/-! ### Range scoreboard (R212 to R214) -/

/-- A range of words that an operation touches. -/
structure Rng where
  space : Nat
  target : Nat
  lo : Nat
  hi : Nat
  write : Bool
deriving DecidableEq, Repr

/-- The range of a span through a handle. -/
def rngOf (c : Core) (h : Nat) (sp : Span) (write : Bool) : Rng :=
  let e := hEntry c h
  ⟨e.space, e.target, e.base + (spanLo sp).toNat / spanUnit sp, e.base + (spanHi sp).toNat / spanUnit sp, write⟩

/-- A range conflicts with a registered entry (R213). -/
def sbHits (r : Rng) (e : SbEntry) : Bool :=
  r.space == e.space && r.target == e.target && decide (r.lo ≤ e.hi) && decide (e.lo ≤ r.hi) && (r.write || e.write)

/-- Ranges of a new operation conflict. -/
def sbConflict (c : Core) (rs : List Rng) : Bool := rs.any fun r => c.sbEntries.any (sbHits r)

/-- Room for the ranges of a descriptor (R213). -/
def sbRoom (c : Core) (rs : List Rng) : Bool := decide (c.sbEntries.length + rs.length ≤ 32)

/-- Registers an operation's ranges under a new operation number. -/
def sbRegister (c : Core) (rs : List Rng) : Core :=
  { c with
    sbEntries := c.sbEntries ++ rs.map (fun r => ⟨c.nextOp, r.space, r.target, r.lo, r.hi, r.write⟩)
    nextOp := c.nextOp + 1 }

/-- Releases the entries of an operation. -/
def sbRelease (c : Core) (op : Nat) : Core := { c with sbEntries := c.sbEntries.filter fun e => e.op != op }

/-- Two ranges share a word (R156, R229). -/
def rngOverlap (a b : Rng) : Bool :=
  a.space == b.space && a.target == b.target && decide (a.lo ≤ b.hi) && decide (b.lo ≤ a.hi)

end Sys2Proof.Machine
end

