-- ==== Sys2Proof/Machine/PortOps.lean ====
section
/-! DEFINITION. The Ethernet framing and Vexaz Link of an edge port, and the sending of reel messages
(R343 to R356, R360, R361). -/

namespace Sys2Proof.Machine

open Sys2Proof

/-! ### Frames (R347, R348) -/

/-- The `n` big-endian bytes of a number. -/
def beBytes (n v : Nat) : List Byte := (leBytes n v).reverse

/-- Source address in force (R348). -/
def portMac (s : State) (e : Nat) : Nat :=
  let p := getPort s e
  if p.srcMac = 0 then 0x027C00000000 + s.otp.serial.toNat % 2 ^ 24 * 2 ^ 8 + e else p.srcMac.toNat

/-- A Vexaz Link header (R350). -/
def vexazHdr (ver typ cls len seq ack ackCl : Nat) : List Byte :=
  leBytes 1 (ver % 16 + typ % 16 * 16) ++ leBytes 1 (cls % 4) ++ leBytes 2 len ++ leBytes 4 seq ++ leBytes 4 ack
    ++ leBytes 1 (ackCl % 4) ++ [0, 0, 0]

/-- A whole frame from destination address to FCS. -/
def frameBytes (s : State) (e cls : Nat) (vx : List Byte) : List Byte :=
  let p := getPort s e
  let body := beBytes 6 p.dstMac.toNat ++ beBytes 6 (portMac s e) ++ [0x81, 0x00] ++ beBytes 2 (cls * 2 ^ 13 + p.vid.toNat)
    ++ beBytes 2 p.etype.toNat ++ vx ++ leBytes 4 (crc32c vx)
  body ++ leBytes 4 (crc32 body)

/-- Sends one Vexaz packet. -/
def sendVexaz (s : State) (e typ cls seq ack ackCl : Nat) (payload : List Byte) : State :=
  let p := getPort s e
  let ver := if typ = 1 then 0 else if typ = 2 then getLe payload 6 1 else p.vlver.toNat
  emit s (.frame e (frameBytes s e cls (vexazHdr ver typ cls payload.length seq ack ackCl ++ payload)))

/-- Sends a control packet of class 3, or holds it back while the peer pauses priority 3 (R349). -/
def sendCtl (s : State) (e : Nat) (c : CtlPkt) : State :=
  let p := getPort s e
  if p.paused.getD 3 false then
    if p.ctlHeld.contains c then s else setPort s e { p with ctlHeld := p.ctlHeld ++ [c] }
  else sendVexaz s e c.typ 3 c.seq c.ack c.ackCl c.payload

/-! ### Sender (R351) -/

/-- Window of unacknowledged packets. -/
def vexazWindow (p : Port) : Nat := if p.vlver = 2 then 4096 else 256

def txOf (p : Port) (cls : Nat) : TxSpace := p.tx.getD cls ⟨0, [], [], 0⟩

def rxOf (p : Port) (cls : Nat) : RxSpace := p.rx.getD cls ⟨0, false, 0⟩

def setTx (p : Port) (cls : Nat) (t : TxSpace) : Port := { p with tx := p.tx.set cls t }

def setRx (p : Port) (cls : Nat) (r : RxSpace) : Port := { p with rx := p.rx.set cls r }

/-- Sends a DATA packet: its ACK field reports the expected value of its own class. -/
def sendDataPkt (s : State) (e cls : Nat) (seq : Word) (payload : List Byte) : State :=
  let p := getPort s e
  let r := rxOf p cls
  let s := sendVexaz s e 3 cls seq.toNat r.expected.toNat cls payload
  setPort s e (setRx (getPort s e) cls { r with unreported := 0 })

/-- The class is not paused by the peer and the link is up. -/
def maySend (p : Port) (cls : Nat) : Bool := decide (p.link = .up) && !(p.paused.getD cls false)

/-- A stream pause in pin of the port's block is asserted (R356). -/
def pausedIn (s : State) (e : Nat) : Bool :=
  !(getPort s e).role && s.pins.any fun q => q.2.func == 2 && q.2.block == e / 8 && q.2.level

/-- A reel message that stream pause in stops: GET, CREDIT and PUT. -/
def pauseStops (m : List Byte) : Bool :=
  let t := getLe m 0 1
  t == 5 || t == 7 || t == 0xB

/-- Bytes of unacknowledged DATA packets in the transmit buffer, each with its header and check (R354). -/
def txBytes (p : Port) : Nat :=
  p.tx.foldl (fun a t => t.unacked.foldl (fun a u => a + (u.2.length + 20)) a) 0

/-- Sends waiting packets of a class while its window and the transmit buffer of 2 MiB have room (R351, R354). -/
def pump (s : State) (e cls : Nat) : Nat → State
  | 0 => s
  | fuel + 1 =>
    let p := getPort s e
    let t := txOf p cls
    if maySend p cls && decide (t.unacked.length < vexazWindow p) then
      match t.waiting.find? fun m => !(pausedIn s e && decide (cls = 0) && pauseStops m) with
      | none => s
      | some m =>
        if 2 ^ 21 < txBytes p + (m.length + 20) then s
        else
        let s := setPort s e (setTx p cls
          { t with waiting := t.waiting.erase m, unacked := t.unacked ++ [(t.next, m)], next := t.next + 1 })
        pump (sendDataPkt s e cls t.next m) e cls fuel
    else s

/-- Pumps a class until it can send no more. -/
def pumpAll (s : State) (e cls : Nat) : State := pump s e cls (txOf (getPort s e) cls).waiting.length

/-- Queues one Vexaz payload of a class and sends what can be sent. -/
def sendData (s : State) (e cls : Nat) (m : List Byte) : State :=
  let p := getPort s e
  let t := txOf p cls
  pumpAll (setPort s e (setTx p cls { t with waiting := t.waiting ++ [m] })) e cls

/-- Reports the expected value of a class (R351). -/
def sendAck (s : State) (e cls typ : Nat) : State :=
  let p := getPort s e
  let r := rxOf p cls
  let s := sendCtl s e ⟨typ, 0, r.expected.toNat, cls, []⟩
  setPort s e (setRx (getPort s e) cls { r with unreported := 0 })

/-- An ACK value of a class releases the packets before it. -/
def ackAdvance (s : State) (e cls : Nat) (ack : Word) : State :=
  let p := getPort s e
  let t := txOf p cls
  let left := t.unacked.filter fun u => decide ((ack - u.1).toNat = 0) || decide (2 ^ 31 ≤ (ack - u.1).toNat)
  if left.length < t.unacked.length then
    pumpAll (setPort s e (setTx p cls { t with unacked := left, resends := 0 })) e cls
  else s

/-! ### Receive buffer (R354, R356) -/

/-- Bytes in the receive buffer: payloads not yet taken, and blocks of reels. -/
def rxBytes (p : Port) : Nat :=
  (p.msgs.foldl (fun a m => a + m.2.length) 0)
    + (p.slots.foldl (fun a q => match q.2 with
        | some x => x.data.foldl (fun a b => a + b.data.length) a
        | none => a) 0)
    + (match p.refetch with | r :: _ => r.data.length | [] => 0)

/-- Priorities of the port's role, as a PFC mask (R349). -/
def roleMask (p : Port) : Nat := if p.role then 6 else 1

/-- A pin's stream pause out (R356): asserted while a STREAM port of its block is at or above its high mark, released when all of them
are at or below their low marks, and as it was between. -/
def pauseLevel (s : State) (block : Nat) (old : Bool) : Bool :=
  let ports := ((List.range 8).map fun i => getPort s (8 * block + i)).filter fun p => !p.role
  !s.clock.hold && ((ports.any fun p => decide (p.highWm * 32768 ≤ rxBytes p))
    || (old && !ports.all fun p => decide (rxBytes p ≤ p.lowWm * 32768)))

/-- Stream pause out of a port block: the pin assigned to it follows its STREAM ports. -/
def pauseOut (s : State) (block : Nat) : State :=
  { s with pins := s.pins.map fun q =>
      if q.2.func = 1 ∧ q.2.block = block then (q.1, { q.2 with level := pauseLevel s block q.2.level }) else q }

/-- Sends a PFC frame for the priorities of the role. -/
def sendPfc (s : State) (e : Nat) (on : Bool) : State :=
  let p := getPort s e
  let s := setPort s e { p with pfcTx := on, xoffTx := if on then satAdd 0xFFFF p.xoffTx 1 else p.xoffTx }
  emit s (.pfc e (roleMask p) (if on then 0xFFFF else 0))

/-- The marks of R356 after a change of the receive buffer. -/
def pfcCheck (s : State) (e : Nat) : State :=
  let p := getPort s e
  pauseOut (if !p.pfcTx && decide (p.highWm * 32768 ≤ rxBytes p) then sendPfc s e true
    else if p.pfcTx && decide (rxBytes p ≤ p.lowWm * 32768) then sendPfc s e false
    else s) (e / 8)

/-- LANES of a port. -/
def lanesOf (p : Port) : Nat := if p.lanes4 then 4 else 8

/-- 0x5001 with a reel version, 0 for FABRIC (R370). -/
def upEvent (s : State) (e reelver : Nat) : State :=
  let p := getPort s e
  raiseEv s 0x5001 0 noFrame [(28, 1, e), (29, 1, p.vlver.toNat), (30, 1, lanesOf p), (31, 1, reelver)]

/-! ### Reel messages (R360, R361) -/

/-- A reel message of the module. -/
def reelMsg (rtype reel block arg : Nat) (body : List Byte) : List Byte :=
  leBytes 4 rtype ++ leBytes 4 (reel % 2 ^ 24) ++ leBytes 4 block ++ leBytes 4 arg ++ body

/-- Sends a reel message. -/
def sendReel (s : State) (e rtype reel block arg : Nat) (body : List Byte) : State :=
  sendData s e 0 (reelMsg rtype reel block arg body)

/-- Units of 4 KiB that hold `n` bytes. -/
def creditUnits (n : Nat) : Nat := ceilDiv n 4096

def slotOf (s : State) (e i : Nat) : Option ReelSlot := smapGet none (getPort s e).slots i

def setSlot (s : State) (e i : Nat) (x : Option ReelSlot) : State :=
  let p := getPort s e
  setPort s e { p with slots := smapSet none p.slots i x }

/-- The slot that a reel occupies at its port (R357). -/
def slotForReel (s : State) (e reel : Nat) : Option ReelSlot :=
  match slotOf s e (reel % 128) with
  | some x => if x.reel = reel then some x else none
  | none => none

/-- Bytes of buffer reserved at a port (R363, R369). -/
def reservedBytes (p : Port) : Nat :=
  (p.slots.foldl (fun a q => match q.2 with
    | some x => if x.reserved then a + 2 * creditUnits x.maxblk * 4096 else a
    | none => a) 0)
  + (match p.refetch with | r :: _ => if r.asked then creditUnits r.maxblk * 4096 else 0 | [] => 0)

/-- The first re-fetch of a port goes on: MAXBLK from a bound slot, then credit and GET once there is room (R369). -/
def refetchPump (s : State) (e : Nat) : State :=
  let p := getPort s e
  match p.refetch with
  | [] => s
  | r :: rs =>
    let bound := slotForReel s e r.reel
    let m := match bound with | some x => if x.acked then x.maxblk else 0 | none => r.maxblk
    if r.asked = false ∧ 0 < m ∧ p.reelUp = true ∧ reservedBytes p + creditUnits m * 4096 ≤ 2 ^ 21 then
      let s := setPort s e { p with refetch := { r with maxblk := m, asked := true } :: rs }
      let n := (match bound with | some x => x.credit | none => 0) + creditUnits m
      let s := match bound with
        | some x => setSlot s e (r.reel % 128) (some { x with credit := n })
        | none => s
      let s := sendReel s e 7 r.reel 0 n []
      sendReel s e 5 r.reel (r.byte / m) 0 []
    else s

/-- The first re-fetch of a port begins: OPEN when its reel is not bound (R369). -/
def refetchBegin (s : State) (e : Nat) : State :=
  let p := getPort s e
  match p.refetch with
  | [] => s
  | r :: _ =>
    match slotForReel s e r.reel with
    | some _ => refetchPump s e
    | none => if p.reelUp then sendReel s e 3 r.reel 0 0 [] else s

/-- Asks a port for the re-fetch of a vault line (R334, R369). -/
def refetchStart (s : State) (e cl reel byte : Nat) : State :=
  let p := getPort s e
  let s := setPort s e { p with refetch := p.refetch ++ [⟨cl, reel, byte, 0, false, [], false, false⟩] }
  if p.refetch.isEmpty then refetchBegin s e else s

/-- The first re-fetch of a port ends; the next begins. -/
def refetchDrop (s : State) (e : Nat) : State :=
  let p := getPort s e
  match p.refetch with
  | [] => s
  | _ :: rs => refetchBegin (setPort s e { p with refetch := rs }) e

end Sys2Proof.Machine
end

