-- ==== Sys2Proof/Machine/VaultOps.lean ====
section
/-! DEFINITION. Reading and writing a vault: line CRCs, immutable ranges, repair (R323 to R335). -/

namespace Sys2Proof.Machine

open Sys2Proof

/-- What a read gives: words, an error that its requester has been told of, or a wait. -/
inductive RdOut where
  | ok (ws : List Word)
  | err
  | wait
deriving DecidableEq, Repr

def setVault (s : State) (cl : Nat) (v : Vault) : State := setCl s cl { getCl s cl with vault := v }

/-- Bank of a line (R323). -/
def vaultBank (l : Nat) : Nat := l % 32

/-- The lines of words `w` to `w + n - 1`. -/
def linesOf (w n : Nat) : List Nat := (List.range ((w + n - 1) / 16 - w / 16 + 1)).map (· + w / 16)

/-- CRC-32 of 64 zero bytes. -/
def zeroLineCrc : Word := 0x758D6336

/-- CRC-32 over the 64 bytes of a line (R323). -/
def lineCrc (m : Ram) (l : Nat) : Word := BitVec.ofNat 32 (crc32 (ramBytes m (64 * l) 64))

/-- The CRC held beside a line (R323). -/
def crcHeld (v : Vault) (l : Nat) : Word := smapGet zeroLineCrc v.crc l

/-- Line `L` does not match its CRC (R323). -/
def lineBad (v : Vault) (l : Nat) : Bool := crcHeld v l != lineCrc v.mem l

/-- The lines given have been written: each takes a new CRC (R323). -/
def crcRenew (v : Vault) (ls : List Nat) : Vault :=
  { v with crc := ls.foldl (fun m l => smapSet zeroLineCrc m l (lineCrc v.mem l)) v.crc }

/-- Words are stored, and every line they lie in takes a new CRC (R323). -/
def vaultStore (v : Vault) (w : Nat) (ws : List Word) : Vault :=
  crcRenew { v with mem := ramPutWords v.mem w ws } (linesOf w ws.length)

/-- Words are zeroed: whole lines with the CRC of a zero line, a line covered in part with its new one (R323, R336). -/
def vaultZero (v : Vault) (w n : Nat) : Vault :=
  crcRenew { v with
    mem := ramZero v.mem (4 * w) (4 * n)
    crc := v.crc.filter fun p => decide (16 * p.1 < w) || decide (w + n < 16 * p.1 + 16) } [w / 16, (w + n - 1) / 16]

/-- The entry whose range holds all words of line `l` (R334). -/
def immFor (v : Vault) (l : Nat) : Option Nat :=
  v.imm.findIdx? fun e =>
    e.kind != 0 && decide (e.base.toNat ≤ 16 * l) && decide (16 * l + 16 ≤ e.base.toNat + e.len.toNat)

/-- Entries that a write of words `w` to `w + n - 1` touches return to FREE (R332). -/
def immWritten (v : Vault) (w n : Nat) : Vault :=
  { v with imm := v.imm.map fun e =>
      if e.kind ≠ 0 ∧ e.base.toNat < w + n ∧ w < e.base.toNat + e.len.toNat then .free else e }

/-- Registers an immutable range in the first FREE entry (R331). -/
def immRegister (s : State) (cl : Nat) (e : ImmEntry) : State :=
  let v := (getCl s cl).vault
  match v.imm.findIdx? fun x => x.kind == 0 with
  | some i => setVault s cl { v with imm := v.imm.set i e }
  | none => setVault s cl { v with immFull := satAdd 0xFFFFFFFF v.immFull 1 }

/-- Frees the entries of every vault that a test picks (R332). -/
def immFreeWhere (s : State) (p : Nat → ImmEntry → Bool) : State :=
  s.clusters.foldl (fun s q =>
    let v := (getCl s q.1).vault
    setVault s q.1 { v with imm := v.imm.map fun e => if p q.1 e then .free else e }) s

/-- A CRC error is counted and logged (R342). -/
def crcCount (v : Vault) (l : Nat) : Vault :=
  { v with
    crcErr := satAdd 0xFFFFFFFF v.crcErr 1
    errlog := if v.errlog.getLsbD 31 then v.errlog else BitVec.ofNat 32 (l % 2 ^ 23 + 2 ^ 31) }

/-- The slate that owns a word of a space (R437); memory being scrubbed belongs to none (R462). -/
def ownerOf (s : State) (space cl w : Nat) : Option Nat :=
  (s.slates.find? fun p => p.2.mode != .free && p.2.mode != .scrubbing && p.2.ranges.any fun r =>
    r.space == space && r.cl == cl && decide (r.base ≤ w) && decide (w < r.base + r.len)).map (·.1)

/-- Requester codes of R341. -/
def vaultCode (r : VaultReq) : Nat :=
  match r.user, r.data with
  | _, some _ => 5
  | .cache _, none => 0
  | .dma _ _, none => 1
  | .router _ _, none => 2
  | .mgmt _ _, none => 3

/-- Core index that an event of a request shows. -/
def vaultCoreIdx (r : VaultReq) : Nat :=
  match r.user with
  | .cache k => coreIdx k
  | .dma k _ => coreIdx k
  | .router _ _ => 0xFF
  | .mgmt _ _ => 0xFF

/-- Event 0x2020 and the memory fault it stands for (R335, R474). -/
def vaultCrcEvent (s : State) (cl l code idx failed failure : Nat) : State :=
  let own := ownerOf s 3 cl (16 * l)
  let s := raiseEv s 0x2020 2 ⟨none, own, none⟩
    [(28, 2, targetOfCl cl), (30, 4, l), (34, 1, code), (35, 1, idx), (36, 1, failed), (37, 1, failure)]
  detect s ⟨0x2020, 4, none, own.toList, none⟩

/-- A re-fetch that fails is counted (R342). -/
def refetchLost (v : Vault) : Vault := { v with refetchFailed := satAdd 0xFFFF v.refetchFailed 1 }

/-- A read has found a CRC error in line `l`: the line is locked for repair when an immutable range holds it, and the
answer is `true`; otherwise, and when the host port of its origin is down, the error is reported (R334, R335). -/
def vaultBad (s : State) (cl l code idx : Nat) (req : Option VaultReq) : State × Bool :=
  let v := crcCount (getCl s cl).vault l
  match immFor v l with
  | some i =>
    let e := v.imm.getD i .free
    if e.kind = 1 ∧ (getHost s (if e.hport then .B else .A)).linkUp = false then
      (vaultCrcEvent (setVault s cl (refetchLost v)) cl l code idx 1 2, false)
    else
      let s := setVault s cl { v with locked := some ⟨l, i, e, code, req, now s⟩ }
      (if e.kind = 2 then
        refetchStart s e.eport.toNat cl (bits e.originLo.toNat 0 24) (e.originHi.toNat + 4 * (16 * l - e.base.toNat))
      else s, true)
  | none => (vaultCrcEvent (setVault s cl v) cl l code idx 0 0, false)

/-- The port admits requests (R330, R338). -/
def vaultServes (v : Vault) : Bool := decide (v.mode = .active)

/-- A request lies on the line under repair (R334). -/
def onLocked (v : Vault) (w n : Nat) : Bool := (linesOf w n).any fun l => (v.locked.map (·.line)) == some l

/-- Two requests are of one requester (R325). -/
def sameUser (a b : VaultReq) : Bool :=
  match a.user, b.user with
  | .router _ _, .router _ _ => true
  | .mgmt _ _, .mgmt _ _ => true
  | .dma i _, .dma j _ => i == j
  | .cache i, .cache j => i == j
  | _, _ => false

/-- The request the port serves next: the oldest that no locked line and no older request of its own requester holds
back. -/
def vaultPick (v : Vault) : List VaultReq → List VaultReq → Option VaultReq
  | [], _ => none
  | r :: rs, seen =>
    if onLocked v r.w r.len || seen.any (sameUser r) then vaultPick v rs (r :: seen) else some r

/-- A request that comes now is the next the port serves: it admits requests, none that it may serve is older, and none of the
same requester waits (R325). -/
def vaultTurn (v : Vault) (r : VaultReq) : Bool :=
  vaultServes v && (vaultPick v v.queue []).isNone && !v.queue.any (sameUser r)

/-- Adds a request to those of a port: accepted, or waiting while the port admits none (R330). -/
def vaultEnqueue (s : State) (cl : Nat) (r : VaultReq) : State :=
  let v := (getCl s cl).vault
  setVault s cl (if vaultServes v then { v with queue := v.queue ++ [r] } else { v with waiting := v.waiting ++ [r] })

/-- Reads words of a vault for a requester. A line under repair makes the read wait. -/
def vaultRead (s : State) (cl w n code idx : Nat) (req : Option VaultReq) : State × RdOut :=
  let v := (getCl s cl).vault
  if onLocked v w n then (s, .wait)
  else match (linesOf w n).find? (lineBad v) with
    | some l =>
      if v.locked.isSome ∧ (immFor v l).isSome then (s, .wait)
      else
        let (s', locked) := vaultBad s cl l code idx req
        (s', if locked then .wait else .err)
    | none => (s, .ok (ramWords v.mem w n))

/-- A line that a write of `n` words from `w` covers only in part (R327). -/
def partialLine (w n l : Nat) : Bool := decide (16 * l < w) || decide (w + n < 16 * l + 16)

/-- Writes words of a vault for a requester; the answer says whether it was applied, refused or has to wait. -/
def vaultWrite (s : State) (cl w : Nat) (ws : List Word) (idx : Nat) (req : Option VaultReq) : State × RdOut :=
  let v := (getCl s cl).vault
  let n := ws.length
  if onLocked v w n then (s, .wait)
  else match (linesOf w n).find? fun l => partialLine w n l && lineBad v l with
    | some l =>
      if v.locked.isSome ∧ (immFor v l).isSome then (s, .wait)
      else
        let (s', locked) := vaultBad s cl l 5 idx req
        (s', if locked then .wait else .err)
    | none => (setVault s cl (immWritten (vaultStore v w ws) w n), .ok [])

end Sys2Proof.Machine
end

