-- ==== Sys2Proof/Machine/Memory.lean ====
section
/-! DEFINITION. Accesses of a core's units to its scratchpad, its cluster memory and, through the cache, both and its
vault: parity errors, the cache, and write-backs (R205, R216 to R226). -/

namespace Sys2Proof.Machine

open Sys2Proof

/-! ### Parity errors -/

/-- First failing word of words `w` to `w + n - 1`. -/
def badWord (m : Ram) (w n : Nat) : Option Nat :=
  match (ramBad m (4 * w) (4 * n)) with
  | [] => none
  | b :: bs => some (bs.foldl min b / 4)

/-- A parity error found by a unit of a core in structure `st` (R205): SP_PARITY, event 0x2011, the unit stops, and
the core fault is reported. -/
def spError (s : State) (k st word lanes : Nat) (stop : Core → Core) : State :=
  let c := getCore s k
  let c := if c.spParity.getLsbD 31 then c
    else { c with spParity := BitVec.ofNat 32 (word % 2 ^ 16 + lanes % 16 * 2 ^ 16 + st * 2 ^ 20 + 2 ^ 31) }
  let s := coreEv (setCore s k c) k 0x2011 2 [(28, 2, word), (30, 1, lanes), (31, 1, st)]
  let s := coreFault s k 0x2011
  setCore s k (stop (getCore s k))

/-- Detail of 0x2012 (R606). -/
def cmDetail (cl word lanes req : Nat) : List (Nat × Nat × Nat) :=
  [(28, 2, targetOfCl cl), (30, 1, word / 16 % 16), (32, 4, word), (36, 1, lanes), (37, 1, req)]

/-- A parity error in cluster memory found by a read of a core (R226). -/
def cmError (s : State) (k cl word lanes req : Nat) (stop : Core → Core) : State :=
  let s := coreEv s k 0x2012 2 (cmDetail cl word lanes req)
  let c := getCore s k
  let s := detect s ⟨0x2012, 2, some k, (sheetSlate c).toList, c.scene⟩
  setCore s k (stop c)

/-! ### The cache (R216 to R219) -/

/-- Way that the tree pseudo-LRU bits point at. Node `i` has children `2 i + 1` and `2 i + 2`; a clear bit points left
(DESIGN CHOICE, log entry 24). -/
def plruVictim (t : BitVec 7) : Nat :=
  let a := if t.getLsbD 0 then 1 else 0
  let b := if t.getLsbD (1 + a) then 1 else 0
  let d := if t.getLsbD (3 + 2 * a + b) then 1 else 0
  4 * a + 2 * b + d

/-- The bits after an access to a way: every node on its path points away from it. -/
def plruTouch (t : BitVec 7) (way : Nat) : BitVec 7 :=
  let a := way / 4 % 2
  let b := way / 2 % 2
  let d := way % 2
  let put (t : BitVec 7) (i v : Nat) : BitVec 7 :=
    if v = 1 then t &&& ~~~(BitVec.twoPow 7 i) else t ||| BitVec.twoPow 7 i
  put (put (put t 0 a) (1 + a) b) (3 + 2 * a + b) d

/-- The cached line of a space, target and line number. -/
def cacheFind (c : Core) (space target line : Nat) : Option CacheLine :=
  c.cache.find? fun l => l.space == space && l.target == target && l.line == line

/-- Stores a line, the cache being kept in order of set and way. -/
def cacheIns (l : CacheLine) : List CacheLine → List CacheLine
  | [] => [l]
  | m :: ms =>
    if l.set * 8 + l.way < m.set * 8 + m.way then l :: m :: ms
    else if l.set = m.set ∧ l.way = m.way then l :: ms
    else m :: cacheIns l ms

/-- Runs of consecutive dirty words of a line: first position and words. -/
def dirtyRuns (l : CacheLine) : Nat → Nat → List (Nat × List Word) → List (Nat × List Word)
  | 0, _, acc => acc
  | fuel + 1, i, acc =>
    if l.dirty.getLsbD i then
      let d := l.data.getD i 0
      match acc with
      | (f, ws) :: rest =>
        if f + ws.length = i then dirtyRuns l fuel (i + 1) ((f, ws ++ [d]) :: rest)
        else dirtyRuns l fuel (i + 1) ((i, [d]) :: (f, ws) :: rest)
      | [] => dirtyRuns l fuel (i + 1) [(i, [d])]
    else dirtyRuns l fuel (i + 1) acc

/-- Words written back reach their memory: a vault port takes the write in its turn (R325), and until then it waits with it. -/
def writeBackRun (s : State) (k : Nat) (l : CacheLine) (first : Nat) (ws : List Word) : State :=
  let cl := clOfTarget l.target
  let w := 16 * l.line + first
  if l.space = 3 then
    let req : VaultReq := ⟨.cache k, w, ws.length, some ws⟩
    if vaultTurn (getCl s cl).vault req then
      match vaultWrite s cl w ws (coreIdx k) (some req) with
      | (s', .wait) => if ((getCl s' cl).vault.locked.map (·.req)) = some (some req) then s' else vaultEnqueue s' cl req
      | (s', _) => s'
    else vaultEnqueue s cl req
  else setCl s cl { getCl s cl with mem := ramPutWords (getCl s cl).mem w ws }

/-- First word of a line, among those at positions `lo` to `lo + n - 1` that `p` picks, whose parity does not match: its index in
the cache (R205). -/
def cacheBadWord (c : Core) (l : CacheLine) (p : Nat → Bool) (lo n : Nat) : Option Nat :=
  (((List.range n).map (lo + ·)).filter p).map (fun i => (l.set * 8 + l.way) * 16 + i) |>.find? (laneBad c.cacheBad)

/-- Writes back the dirty words of a line, and only those (R217). Words that fail their parity are not written: the core stops
as under a hold order (R205), and the access that needed the line's way goes on (log entry 97). -/
def cacheWriteBack (s : State) (k : Nat) (l : CacheLine) : State :=
  (dirtyRuns l 16 0 []).reverse.foldl (fun s r =>
    let c := getCore s k
    match cacheBadWord c l (fun _ => true) r.1 r.2.length with
    | some w => spError s k 1 w (lanesBad c.cacheBad w) stopCue
    | none => writeBackRun s k l r.1 r.2) s

/-- Finds or makes room for a line of a set: the state with the victim written back, and the way. -/
def cacheMakeRoom (s : State) (k set : Nat) : State × Nat :=
  let c := getCore s k
  match (List.range 8).find? fun w => !c.cache.any fun l => l.set == set && l.way == w with
  | some w => (s, w)
  | none =>
    let w := plruVictim (smapGet 0 c.plru set)
    match c.cache.find? fun l => l.set == set && l.way == w with
    | some v =>
      let s := cacheWriteBack s k v
      let c := getCore s k
      (setCore s k { c with cache := c.cache.filter fun l => !(l.set == set && l.way == w) }, w)
    | none => (s, w)

/-- Stores a line and marks its way as used. -/
def cachePut (s : State) (k : Nat) (l : CacheLine) : State :=
  let c := getCore s k
  setCore s k { c with cache := cacheIns l c.cache, plru := smapSet 0 c.plru l.set (plruTouch (smapGet 0 c.plru l.set) l.way) }

/-- Words of a line's way have been written: their parity is new (R205). -/
def cacheClean (c : Core) (l : CacheLine) (p : Nat → Bool) : Core :=
  { c with cacheBad := lanesClear c.cacheBad fun i => i / 16 == l.set * 8 + l.way && p (i % 16) }

/-- One cached read within one line: position `lo`, `n` words (R217). -/
def cacheReadLine (s : State) (k space target line lo n : Nat) (stop : Core → Core) : State × RdOut :=
  let c := getCore s k
  let set := line % setsOf (sheetSplit c)
  let cl := clOfTarget target
  match cacheFind c space target line with
  | some l =>
    if (List.range n).all fun i => l.valid.getLsbD (lo + i) then
      match cacheBadWord c l (fun _ => true) lo n with
      | some w => (spError s k 1 w (lanesBad c.cacheBad w) stop, .err)
      | none =>
        let s := setCore s k { c with cacheHits := satAdd 0xFFFFFFFF c.cacheHits 1 }
        (cachePut s k l, .ok ((l.data.drop lo).take n))
    else fill s c cl set (some l)
  | none => fill s c cl set none
where
  /-- Fetches the whole line and fills only the words that were not valid. A vault port serves the fetch in its turn (R325). -/
  fill (s : State) (c : Core) (cl set : Nat) (old : Option CacheLine) : State × RdOut :=
    let had (i : Nat) : Bool := old.any fun l => l.valid.getLsbD i
    match old.bind fun l => cacheBadWord c l (fun i => had i && decide (lo ≤ i)) 0 (lo + n) with
    | some w => (spError s k 1 w (lanesBad c.cacheBad w) stop, .err)
    | none =>
    let s := setCore s k { c with cacheMisses := satAdd 0xFFFFFFFF c.cacheMisses 1 }
    let req : VaultReq := ⟨.cache k, 16 * line, 16, none⟩
    let (s', out) :=
      if space = 3 then
        if vaultTurn (getCl s cl).vault req then vaultRead s cl (16 * line) 16 0 (coreIdx k) (some req) else (s, .wait)
      else
        let m := (getCl s cl).mem
        match badWord m (16 * line) 16 with
        | some w => (cmError s k cl w (ramLanes m w) (coreIdx k) stop, .err)
        | none => (s, .ok (ramWords m (16 * line) 16))
    match out with
    | .ok ws =>
      let (s1, way) := match old with
        | some l => (s', l.way)
        | none => cacheMakeRoom s' k set
      let l := match old with
        | some l => { l with
            valid := 0xFFFF
            data := (List.range 16).map fun i => if l.valid.getLsbD i then l.data.getD i 0 else ws.getD i 0 }
        | none => ⟨set, way, space, target, line, 0xFFFF, 0, ws⟩
      let s2 := cachePut s1 k l
      (setCore s2 k (cacheClean (getCore s2 k) l fun i => !had i), .ok ((l.data.drop lo).take n))
    | .err =>
      if space = 3 then (setCore s' k (stop (getCore s' k)), .err) else (s', .err)
    | .wait => (setCore s' k c, .wait)

/-- One cached write within one line (R217). -/
def cacheWriteLine (s : State) (k space target line lo : Nat) (ws : List Word) : State :=
  let c := getCore s k
  let set := line % setsOf (sheetSplit c)
  let upd (l : CacheLine) : CacheLine :=
    let mask : BitVec 16 := BitVec.ofNat 16 ((2 ^ ws.length - 1) * 2 ^ lo)
    { l with
      valid := l.valid ||| mask
      dirty := l.dirty ||| mask
      data := l.data.take lo ++ ws ++ l.data.drop (lo + ws.length) }
  let clean (s : State) (l : CacheLine) : State :=
    setCore s k (cacheClean (getCore s k) l fun i => decide (lo ≤ i) && decide (i < lo + ws.length))
  match cacheFind c space target line with
  | some l => clean (cachePut s k (upd l)) l
  | none =>
    let (s1, way) := cacheMakeRoom s k set
    let l : CacheLine := ⟨set, way, space, target, line, 0, 0, List.replicate 16 0⟩
    clean (cachePut s1 k (upd l)) l

/-- The portions of words `w` to `w + n - 1` by line: line, position, words. -/
def linePieces (w n : Nat) : List (Nat × Nat × Nat) :=
  (linesOf w n).map fun l =>
    let a := max w (16 * l)
    (l, a - 16 * l, min (w + n) (16 * l + 16) - a)

/-- A cached read of `n` words. -/
def cacheRead (s : State) (k space target w n : Nat) (stop : Core → Core) : State × RdOut :=
  (linePieces w n).foldl (fun a p =>
    match a.2 with
    | .ok ws =>
      let (s', o) := cacheReadLine a.1 k space target p.1 p.2.1 p.2.2 stop
      match o with
      | .ok vs => (s', .ok (ws ++ vs))
      | e => (s', e)
    | e => (a.1, e)) (s, .ok [])

/-- A cached write. -/
def cacheWrite (s : State) (k space target w : Nat) (ws : List Word) : State :=
  ((linePieces w ws.length).foldl (fun a p =>
    (cacheWriteLine a.1 k space target p.1 p.2.1 (a.2.take p.2.2), a.2.drop p.2.2)) (s, ws)).1

/-! ### Accesses of units -/

/-- Reads `n` words at an offset of a handle entry for a unit of core `k` (LOCAL, CLUSTER, cached VAULT). `useCache` is
false for units that bypass the cache. -/
def memRead (s : State) (k : Nat) (e : HEntry) (off n : Nat) (useCache : Bool) (stop : Core → Core) : State × RdOut :=
  let w := e.base + off
  if e.space = 1 then
    let m := (getCore s k).sp
    match badWord m w n with
    | some b => (spError s k 0 b (ramLanes m b) stop, .err)
    | none => (s, .ok (ramWords m w n))
  else if e.cached ∧ useCache = true then cacheRead s k e.space e.target w n stop
  else
    let cl := clOfTarget e.target
    let m := (getCl s cl).mem
    match badWord m w n with
    | some b => (cmError s k cl b (ramLanes m b) (coreIdx k) stop, .err)
    | none => (s, .ok (ramWords m w n))

/-- Writes words at an offset of a handle entry for a unit of core `k`. -/
def memWrite (s : State) (k : Nat) (e : HEntry) (off : Nat) (ws : List Word) (useCache : Bool) : State :=
  let w := e.base + off
  if e.space = 1 then setCore s k { getCore s k with sp := ramPutWords (getCore s k).sp w ws }
  else if e.cached ∧ useCache = true then cacheWrite s k e.space e.target w ws
  else
    let cl := clOfTarget e.target
    setCl s cl { getCl s cl with mem := ramPutWords (getCl s cl).mem w ws }

/-- Writes bytes at a byte offset of a handle entry, without the cache (LOCAL, CLUSTER). -/
def memWriteBytes (s : State) (k : Nat) (e : HEntry) (byte : Nat) (bs : List Byte) : State :=
  let a := 4 * e.base + byte
  if e.space = 1 then setCore s k { getCore s k with sp := ramPutBytes (getCore s k).sp a bs }
  else
    let cl := clOfTarget e.target
    setCl s cl { getCl s cl with mem := ramPutBytes (getCl s cl).mem a bs }

/-- Writes back every dirty line and empties the cache (R218). -/
def cacheFlush (s : State) (k : Nat) : State :=
  let s := (getCore s k).cache.foldl (fun s l => cacheWriteBack s k l) s
  setCore s k { getCore s k with cache := [], plru := [], cacheBad := [] }

/-- The cache has a dirty word. -/
def cacheDirty (c : Core) : Bool := c.cache.any fun l => l.dirty != 0

end Sys2Proof.Machine
end

