-- ==== Sys2Proof/Machine/Routes.lean ====
section
/-! DEFINITION. Packets, route entries and their fence, buffers and arbitration of the mesh (R298 to R308). -/

namespace Sys2Proof.Machine

open Sys2Proof

/-! ### Packet headers (R298) -/

/-- Field of a packet header. -/
def hf (h : BitVec 128) (lo len : Nat) : Nat := bits h.toNat lo len

def pType (h : BitVec 128) : Nat := hf h 0 4

def pVc (h : BitVec 128) : Nat := hf h 4 2

def pPlane (h : BitVec 128) : Nat := hf h 6 1

def pWdone (h : BitVec 128) : Bool := h.getLsbD 7

def pDst (h : BitVec 128) : Nat := hf h 8 18

def pSrc (h : BitVec 128) : Nat := hf h 26 18

def pSlate (h : BitVec 128) : Nat := hf h 44 12

def pEpoch (h : BitVec 128) : Nat := hf h 56 4

def pCount (h : BitVec 128) : Nat := hf h 60 8

def pEnd (h : BitVec 128) : Bool := h.getLsbD 68

def pRsv (h : BitVec 128) : Nat := hf h 69 3

def pArg (h : BitVec 128) : Nat := hf h 72 32

def pArg2 (h : BitVec 128) : Nat := hf h 104 24

/-- The fields of a header that are not its type's own. -/
structure HdrF where
  vc : Nat
  plane : Nat
  dst : Nat
  src : Nat
  slate : Nat
  epoch : Nat
deriving DecidableEq, Repr

/-- A header at injection: WDONE is 0. -/
def mkHdr (typ : Nat) (f : HdrF) (count : Nat) (endm : Bool) (arg arg2 : Nat) : BitVec 128 :=
  BitVec.ofNat 128 (typ % 16 + f.vc % 4 * 2 ^ 4 + f.plane % 2 * 2 ^ 6 + f.dst % 2 ^ 18 * 2 ^ 8 + f.src % 2 ^ 18 * 2 ^ 26
    + f.slate % 2 ^ 12 * 2 ^ 44 + f.epoch % 16 * 2 ^ 56 + count % 256 * 2 ^ 60 + (if endm then 2 ^ 68 else 0)
    + arg % 2 ^ 32 * 2 ^ 72 + arg2 % 2 ^ 24 * 2 ^ 104)

/-- The four words of a header, lowest first. -/
def hdrWords (h : BitVec 128) : List Word := (List.range 4).map fun i => BitVec.ofNat 32 (hf h (32 * i) 32)

/-- The header that four words carry. -/
def hdrOfWords (ws : List Word) : BitVec 128 :=
  BitVec.ofNat 128 (ws.getD 0 0 |>.toNat) ||| BitVec.ofNat 128 ((ws.getD 1 0).toNat * 2 ^ 32)
    ||| BitVec.ofNat 128 ((ws.getD 2 0).toNat * 2 ^ 64) ||| BitVec.ofNat 128 ((ws.getD 3 0).toNat * 2 ^ 96)

/-! ### The grid -/

def chanNo : Chan → Nat
  | .ctl => 0
  | .req => 1
  | .rsp => 2
  | .bulk => 3

/-- The cluster beyond a port, when the link exists (R297). -/
def beyond (cl : Nat) : PortDir → Option Nat
  | .loc => none
  | .w => if cl % 64 = 0 then none else some (cl - 1)
  | .e => if cl % 64 = 63 then none else some (cl + 1)
  | .s => if cl / 64 = 0 then none else some (cl - 64)
  | .n => if 55 ≤ cl / 64 then none else some (cl + 64)

/-- The input port at the far end of a link. -/
def farSide : PortDir → PortDir
  | .loc => .loc
  | .w => .e
  | .e => .w
  | .s => .n
  | .n => .s

/-- Number of a port as R321 shows it. -/
def portDirNo : PortDir → Nat
  | .loc => 0
  | .w => 1
  | .s => 2
  | .e => 3
  | .n => 4

/-- Flits of a packet (R297). -/
def flitsOf (p : Packet) : Nat := ceilDiv (20 + 4 * p.payload.length) 128

/-! ### Route entries (R304, R305) -/

/-- The route entries avoid the cluster. -/
def avoided (s : State) (cl : Nat) : Bool := s.routeDark.contains cl || fusedCl s cl

/-- First hop of dimension order: X hops, then Y hops. -/
def dimHop (at0 dst : Nat) : PortDir :=
  if dst % 64 < at0 % 64 then .w
  else if at0 % 64 < dst % 64 then .e
  else if dst / 64 < at0 / 64 then .s
  else if at0 / 64 < dst / 64 then .n
  else .loc

/-- Clusters that dimension order passes after `at0`. -/
def dimPath (at0 dst : Nat) : Nat → List Nat
  | 0 => []
  | fuel + 1 =>
    match beyond at0 (dimHop at0 dst) with
    | some c => c :: dimPath c dst fuel
    | none => []

/-- The dimension-order route avoids every cluster to be avoided. -/
def dimClear (s : State) (at0 dst : Nat) : Bool := (dimPath at0 dst 119).all fun c => !avoided s c

/-- One more than a distance. -/
def dSucc : Option Nat → Option Nat
  | some n => some (n + 1)
  | none => none

/-- The lower of two distances. -/
def dMin : Option Nat → Option Nat → Option Nat
  | none, b => b
  | a, none => a
  | some a, some b => some (min a b)

/-- Distances spread along a column in one direction; a cluster to be avoided has none. -/
def dSpread : Option Nat → List (Bool × Option Nat) → List (Option Nat)
  | _, [] => []
  | prev, (dark, d) :: l =>
    let v := if dark then none else dMin d (dSucc prev)
    v :: dSpread v l

/-- Distances of a column from what each of its clusters already has. -/
def dColumn (dark : List Bool) (base : List (Option Nat)) : List (Option Nat) :=
  let up := dSpread none (dark.zip base)
  (dSpread none (dark.zip up).reverse).reverse

/-- Distances to `dst` by E, N and S hops alone, for column `bx - n`, where bx is the column of `dst`. -/
def dEast (s : State) (dst : Nat) : Nat → List (Option Nat)
  | 0 => dColumn ((List.range 56).map fun y => avoided s (y * 64 + dst % 64))
      ((List.range 56).map fun y => if y = dst / 64 then some 0 else none)
  | n + 1 => dColumn ((List.range 56).map fun y => avoided s (y * 64 + (dst % 64 - (n + 1))))
      ((dEast s dst n).map dSucc)

/-- Distance from `cl` to `dst` once W hops are over. -/
def dOne (s : State) (cl dst : Nat) : Option Nat :=
  if dst % 64 < cl % 64 then none else (dEast s dst (dst % 64 - cl % 64)).getD (cl / 64) none

/-- Distance from `cl` to `dst` with `n` further W hops allowed. -/
def dWest (s : State) (dst : Nat) : Nat → Nat → Option Nat
  | 0, cl => dOne s cl dst
  | n + 1, cl =>
    dMin (dOne s cl dst)
      (if cl % 64 = 0 then none else if avoided s (cl - 1) then none else dSucc (dWest s dst n (cl - 1)))

/-- Distance from `cl` before any hop that is not W. -/
def dAny (s : State) (cl dst : Nat) : Option Nat := dWest s dst (cl % 64) cl

/-- First hops of the shortest routes that obey the west-first model. -/
def hopsOf (s : State) (at0 dst : Nat) (wdone : Bool) : List PortDir :=
  let best := if wdone then dOne s at0 dst else dAny s at0 dst
  let via (d : PortDir) : Bool :=
    match beyond at0 d with
    | none => false
    | some c =>
      !avoided s c && best.isSome &&
      (if d = .w then !wdone && decide (dSucc (dAny s c dst) = best) else decide (dSucc (dOne s c dst) = best))
  [PortDir.w, .e, .s, .n].filter via

/-- A route entry for a destination: a port, or RETURN (`none`). -/
def routeEntry (s : State) (plane at0 dst : Nat) (wdone : Bool) : Option PortDir :=
  if at0 = dst then some .loc
  else if dimClear s at0 dst && !(wdone && decide (dimHop at0 dst = .w)) then some (dimHop at0 dst)
  else
    let hs := hopsOf s at0 dst wdone
    if hs.isEmpty then none else hs[Config.routePick plane at0 dst % hs.length]?

/-- The variant has fused clusters, or the entries avoid dark ones. -/
def detours (s : State) : Bool := !s.routeDark.isEmpty || fusedCl s 3583

/-- An entry differs from dimension order (R320). -/
def isDetour (s : State) (at0 : Nat) : Bool :=
  detours s && (List.range 3584).any fun dst => decide (at0 ≠ dst) && !dimClear s at0 dst

/-! ### The route fence (R306) -/

/-- An entry of the source changes when the entries pass from avoiding `old` to avoiding `new`: it has a route to a cluster that one
of the two avoids and the other does not. A route that changes passes through such a cluster, so its source has one to it. -/
def entryChanges (s : State) (old new : List Nat) (cl : Nat) : Bool :=
  let lost := new.filter fun c => !old.contains c && c != cl
  let won := old.filter fun c => !new.contains c && c != cl
  lost.any (fun c => (routeEntry { s with routeDark := old } 0 cl c false).isSome)
    || won.any (fun c => (routeEntry { s with routeDark := new } 0 cl c false).isSome)

/-- A fence stops injection at the cluster (R306 step 1). -/
def fenced (s : State) (cl : Nat) : Bool :=
  match s.routeFence with
  | some new => entryChanges s s.routeDark new cl
  | none => false

/-- Types that are returned when they meet a dark cluster (R312). -/
def isRequest (t : Nat) : Bool := t == 0 || t == 1 || t == 6 || t == 9 || t == 0xB

/-! ### Buffers (R302) -/

/-- A packet's place in the buffers: the same router, plane, input and virtual channel. -/
def sameBuffer (a b : Flight) : Bool :=
  a.inj.isNone && b.inj.isNone && a.cl == b.cl && a.plane == b.plane && a.inp == b.inp && pVc a.pkt.hdr == pVc b.pkt.hdr

/-- The first packet of a buffer. -/
def headOf (s : State) (cl plane : Nat) (inp : PortDir) (vc : Nat) : Option Flight :=
  s.mesh.find? fun f => f.inj.isNone && f.cl == cl && f.plane == plane && f.inp == inp && pVc f.pkt.hdr == vc

/-- Buffer room of an input port for a virtual channel, in flits (R302). -/
def bufferFlits (vc : Nat) : Nat :=
  match vc with
  | 0 => 2
  | 3 => 10
  | _ => 5

/-- Flits waiting in a buffer. -/
def flitsIn (s : State) (cl plane : Nat) (inp : PortDir) (vc : Nat) : Nat :=
  (s.mesh.filter fun f => f.inj.isNone && f.cl == cl && f.plane == plane && f.inp == inp && pVc f.pkt.hdr == vc).foldl
    (fun a f => a + flitsOf f.pkt) 0

/-- A buffer has room for a whole packet of `n` flits. -/
def bufferRoom (s : State) (cl plane : Nat) (inp : PortDir) (vc n : Nat) : Bool :=
  decide (flitsIn s cl plane inp vc + n ≤ bufferFlits vc)

/-! ### Injection (R303, R306) -/

/-- Injectors of a cluster, in the order of R303: unit `u` of core `i` is `4 i + u`, with the queue unit 0, the cue core 1, the DMA
engine 2 and the matrix loader 3. -/
def coreInjector (k unit : Nat) : Nat := 4 * coreIdx k + unit

def edgeInjector : Nat := 256

def memoryInjector : Nat := 257

def vaultInjector : Nat := 258

def clapInjector : Nat := 259

def returnInjector : Nat := 260

/-- Place of an injector in the order of turns: its core, or its own. -/
def turnOf (inj : Nat) : Nat := if inj < 256 then inj / 4 else inj - 192

/-- Key of the turns of a plane and virtual channel. -/
def turnKey (plane vc : Nat) : Nat := (plane * 4 + vc) * 128

/-- How far an injector is from the next turn: first by its place, then by its core's unit. -/
def turnRank (s : State) (cl plane vc inj : Nat) : Nat :=
  let t := (getCl s cl).turns
  let far := (turnOf inj + 69 - smapGet 0 t (turnKey plane vc)) % 69
  far * 4 + (if inj < 256 then (inj % 4 + 4 - smapGet 0 t (turnKey plane vc + 1 + inj / 4)) % 4 else 0)

/-- The first packet of each injector's send buffer for a plane and virtual channel. -/
def sendHeads (cl plane vc : Nat) : List Flight → List (Option Nat) → List Flight
  | [], _ => []
  | f :: l, seen =>
    if f.inj.isSome && f.cl == cl && f.plane == plane && pVc f.pkt.hdr == vc && !seen.contains f.inj then
      f :: sendHeads cl plane vc l (f.inj :: seen)
    else sendHeads cl plane vc l seen

/-- The send buffer whose turn it is. A fence holds requests back; replies and returns, which end what others wait for, still go
(log entry 100). -/
def nextSender (s : State) (cl plane vc : Nat) : Option Flight :=
  let rank (f : Flight) : Nat := turnRank s cl plane vc (f.inj.getD 0)
  ((sendHeads cl plane vc s.mesh []).filter fun f => !(isRequest (pType f.pkt.hdr) && fenced s cl)).foldl
    (fun b f => match b with | some g => if rank f < rank g then some f else b | none => some f) none

/-- Replaces the first packet equal to one given. -/
def meshSwap (f g : Flight) : List Flight → List Flight
  | [] => []
  | x :: l => if x = f then l ++ [g] else x :: meshSwap f g l

/-- Send buffers of a cluster move into the LOCAL input buffer of a virtual channel, in turn, while the whole packet whose turn it is
has room and the router runs. -/
def fillLocal (cl plane vc : Nat) : Nat → State → State
  | 0, s => s
  | fuel + 1, s =>
    if isDark s cl then s
    else
      match nextSender s cl plane vc with
      | none => s
      | some f =>
        if bufferRoom s cl plane .loc vc (flitsOf f.pkt) then
          let inj := f.inj.getD 0
          let c := getCl s cl
          let t := smapSet 0 c.turns (turnKey plane vc) (turnOf inj + 1)
          let t := if inj < 256 then smapSet 0 t (turnKey plane vc + 1 + inj / 4) (inj % 4 + 1) else t
          fillLocal cl plane vc fuel { setCl s cl { c with turns := t } with mesh := meshSwap f { f with inj := none } s.mesh }
        else s

/-- Packets that wait in a cluster's send buffers for a plane and virtual channel. -/
def sendersAt (s : State) (cl plane vc : Nat) : List Flight :=
  s.mesh.filter fun f => f.inj.isSome && f.cl == cl && f.plane == plane && pVc f.pkt.hdr == vc

/-- Send buffers go on as far as they can. -/
def injectGo (s : State) (cl plane vc : Nat) : State := fillLocal cl plane vc (sendersAt s cl plane vc).length s

/-- An injector of a cluster puts a packet into its send buffer, which moves into the LOCAL input of the router in its turn. -/
def inject (s : State) (cl plane inj : Nat) (p : Packet) : State :=
  injectGo { s with mesh := s.mesh ++ [⟨cl, plane, .loc, p, some inj⟩] } cl plane (pVc p.hdr)

/-- Sends a packet of a core's unit: 0 queue unit, 1 cue core, 2 DMA engine, 3 matrix loader. -/
def injectFrom (s : State) (k plane unit : Nat) (p : Packet) : State := inject s (clOf k) plane (coreInjector k unit) p

/-- A unit can inject a packet of `n` flits now: no send buffer of the virtual channel waits, and the LOCAL buffer has room
(R308). -/
def canInject (s : State) (cl plane vc n : Nat) : Bool :=
  (sendersAt s cl plane vc).isEmpty && bufferRoom s cl plane .loc vc n

/-! ### Arbitration (R303) -/

/-- Channel number that the four virtual channels are held under: 0 CTL, 1 REQ, 2 RSP, 3 BULK. -/
def vcOf (f : Flight) : Nat := pVc f.pkt.hdr

/-- An output port's record: for each virtual channel the input port whose turn is next, and the cycles for which it has held a
ready flit without a grant. -/
def arbOf (s : State) (cl plane : Nat) (o : PortDir) : Arb := smapGet Arb.reset (getCl s cl).arb (plane * 5 + portDirNo o)

/-- Output port that a packet's route entry names; a RETURN, or a link that leaves the grid, is none. -/
def outPort (s : State) (f : Flight) : Option PortDir := routeEntry s f.plane f.cl (clOf (pDst f.pkt.hdr)) (pWdone f.pkt.hdr)

/-- Input ports in the order of R303. -/
def inputPorts : List PortDir := [.loc, .w, .s, .e, .n]

/-- The heads of a router's buffers for one virtual channel that are bound for an output port and ready for it. -/
def readyHeads (s : State) (ready : Flight → Bool) (cl plane : Nat) (o : PortDir) (vc : Nat) : List Flight :=
  inputPorts.filterMap fun d =>
    match headOf s cl plane d vc with
    | some f => if decide (outPort s f = some o) && ready f then some f else none
    | none => none

/-- Of the heads of one virtual channel, the one whose turn it is. -/
def turnHead (next : Nat) (l : List Flight) : Option Flight :=
  let rank (f : Flight) : Nat := (portDirNo f.inp + 5 - next) % 5
  l.foldl (fun b f => match b with | some g => if rank f < rank g then some f else b | none => some f) none

/-- The order in which an output port considers the virtual channels: CTL, those that have waited 32 cycles, RSP, REQ, BULK. -/
def vcOrder (a : Arb) : List Nat := 0 :: ([2, 1, 3].filter fun v => decide (32 ≤ a.age.getD v 0)) ++ [2, 1, 3]

/-- The packet that an output port grants next. -/
def granted (s : State) (ready : Flight → Bool) (cl plane : Nat) (o : PortDir) : Option Flight :=
  let a := arbOf s cl plane o
  (vcOrder a).findSome? fun v => turnHead (a.last.getD v 0) (readyHeads s ready cl plane o v)

/-- A grant: the turn passes on, and every other channel that holds a ready flit has waited as many cycles more as the packet has
flits. -/
def grantArb (s : State) (ready : Flight → Bool) (o : PortDir) (f : Flight) : State :=
  let a := arbOf s f.cl f.plane o
  let v := vcOf f
  let age := (List.range 4).map fun u =>
    if u = 0 ∨ u = v ∨ (readyHeads s ready f.cl f.plane o u).isEmpty = true then 0 else min 32 (a.age.getD u 0 + flitsOf f.pkt)
  let c := getCl s f.cl
  setCl s f.cl { c with arb := smapSet Arb.reset c.arb (f.plane * 5 + portDirNo o) ⟨a.last.set v (portDirNo f.inp + 1), age⟩ }

end Sys2Proof.Machine
end

