-- ==== Sys2Proof/Machine/QueueOps.lean ====
section
/-! DEFINITION. The pop side of receive queues, and their credits (R237 to R260). -/

namespace Sys2Proof.Machine

open Sys2Proof

/-- A credit message of a queue of core `k` to a bound edge (R250, R299). -/
def sendCredit (s : State) (k : Nat) (q : RxQueue) (dst edge plane n : Nat) : State :=
  injectFrom s k plane 0
    ⟨mkHdr 2 ⟨0, plane, dst, k, q.slate.toNat, q.epoch.toNat⟩ 0 false (edge + n % 256 * 16) 0, [], 0⟩

/-! ### What a queue holds -/

/-- Words of an I32 window element (R259). -/
def i32Out : Num → Word
  | .fin t _ => if t.natAbs ≤ 2 ^ 31 - 2 then BitVec.ofInt 32 t else if 0 < t then 0x7FFFFFFF else 0x80000001
  | .inf false => 0x7FFFFFFF
  | .inf true => 0x80000001
  | .nan => 0x80000000

/-- Words of an A48 window element: N(T, XC), little-endian (R41, R259). -/
def a48Out (xc : Int) (v : Num) : List Word :=
  let code := a48Code (match v with | .fin t _ => norm t xc | n => n)
  [BitVec.ofNat 32 code.toNat, BitVec.ofNat 32 (code.toNat / 2 ^ 32)]

/-- ETYPE and WLEN of a COMBINING queue (R255). -/
def combA48 (c : Core) (n : Nat) : Bool := (queueW1 c n).testBit 16

def combLen (c : Core) (n : Nat) : Nat := bits (queueW1 c n) 17 7 + 1

/-- The words a released window shows (R259). -/
def windowWords (c : Core) (n : Nat) (w : Window) : List Word :=
  if combA48 c n then (w.elems.map (a48Out w.xc)).flatten else w.elems.map i32Out

/-- A cleared window (R258). -/
def windowClear (a48 : Bool) (len : Nat) (w : Window) : Window :=
  { w with
    arrived := 0, planes := 0, released := false, taken := 0, dups := 0, bad := []
    elems := List.replicate (if a48 then len / 2 else len) (.fin 0 0) }

/-- Data words and end-marked words waiting in a queue (R241, R259, R260). -/
def qWords (c : Core) (n : Nat) : Nat :=
  let q := getQ c n
  match q.window with
  | some w => if w.released then combLen c n - w.taken else 0
  | none => (q.entries.filter fun e => !e.gap).length

def qPkts (c : Core) (n : Nat) : Nat :=
  let q := getQ c n
  match q.window with
  | some w => if w.released && decide (w.taken < combLen c n) then 1 else 0
  | none => (q.entries.filter fun e => !e.gap && e.endMark).length

/-- Number of a queue state (R270). -/
def qStateNo : QState → Nat
  | .disabled => 0
  | .active => 1
  | .retired => 2
  | .overflowed => 3

/-- QSTAT_n (R270). -/
def qstatVal (c : Core) (n : Nat) : Word :=
  let q := getQ c n
  let full := match q.mode.toNat with
    | 0 => decide (128 ≤ q.entries.length)
    | 1 => decide (127 ≤ q.entries.length)
    | _ => match q.window with | some w => w.released | none => false
  BitVec.ofNat 32 ((if qWords c n = 0 then 1 else 0) + (if full then 2 else 0) + (if q.ur then 4 else 0)
    + (if q.gap then 8 else 0) + q.mode.toNat * 2 ^ 4 + qStateNo q.state * 2 ^ 6 + q.epoch.toNat * 2 ^ 8
    + q.qgen.toNat * 2 ^ 12 + q.gapcnt % 2 ^ 12 * 2 ^ 20)

/-- The RC fields of QSTAT_n after a read. -/
def qstatClear (c : Core) (n : Nat) : Core := setQ c n { getQ c n with ur := false, gap := false, gapcnt := 0 }

/-- QCOUNT_n (R241, R270). -/
def qcountVal (c : Core) (n : Nat) : Word := BitVec.ofNat 32 (qWords c n + qPkts c n * 2 ^ 8)

/-! ### Pops (R240, R250, R251, R260) -/

/-- Passes the gap markers at the head of a queue. -/
def passGaps (q : RxQueue) : List QEntry → RxQueue
  | [] => { q with entries := [] }
  | e :: es =>
    if e.gap then
      passGaps { q with gap := true, gapcnt := satAdd 0xFFF q.gapcnt (bits e.payload.toNat 0 24) } es
    else { q with entries := e :: es }

/-- Writes the pending gap marker once an entry is free (R251). -/
def placePending (q : RxQueue) : RxQueue :=
  match q.pending with
  | some (w, e) =>
    if q.entries.length < 128 then
      { q with pending := none
               entries := q.entries ++ [⟨BitVec.ofNat 32 (w + e * 2 ^ 24), false, true, q.epoch, 0⟩] }
    else q
  | none => q

/-- What one pop finds: the word, whether it carried the end mark, whether it was an empty read. -/
structure Pop where
  word : Word
  endm : Bool
  empty : Bool
deriving DecidableEq, Repr

/-- One pop of an entry queue. -/
def popEntries (q : RxQueue) : RxQueue × Pop :=
  let q := placePending (passGaps q q.entries)
  match q.entries with
  | e :: es =>
    if e.gap then ({ q with ur := true }, ⟨q.lastv, false, true⟩)
    else
      let q := placePending { q with entries := es, lastv := e.payload }
      ({ q with owed := if q.mode = 0 then q.owed + 1 else q.owed }, ⟨e.payload, e.endMark, false⟩)
  | [] => ({ q with ur := true }, ⟨q.lastv, false, true⟩)

/-- One pop of queue `n`: the queue's change, and the counters bound to it (R179). -/
def popOne (c : Core) (n : Nat) : Core × Pop :=
  let q := getQ c n
  match q.window with
  | some w =>
    if w.released && decide (w.taken < combLen c n) then
      let v := (windowWords c n w).getD w.taken 0
      let last := decide (w.taken + 1 = combLen c n)
      let q := { q with window := some { w with taken := w.taken + 1 }, lastv := v }
      (bindAddQ (setQ c n q) n (-1) (if last then -1 else 0), ⟨v, last, false⟩)
    else (setQ c n { q with ur := true }, ⟨q.lastv, false, true⟩)
  | none =>
    let (q', p) := popEntries q
    let c := setQ c n q'
    (if p.empty then c else bindAddQ c n (-1) (if p.endm then -1 else 0), p)

/-- `m` pops in one CORE cycle. -/
def popSome (c : Core) (n : Nat) : Nat → List Pop → Core × List Pop
  | 0, ps => (c, ps)
  | m + 1, ps =>
    let (c', p) := popOne c n
    popSome c' n m (ps ++ [p])

/-- The credit messages after the pops of one CORE cycle (R250, R260). -/
def creditAfter (s : State) (k n : Nat) (ps : List Pop) : State :=
  let c := getCore s k
  let q := getQ c n
  match q.window with
  | some w =>
    if w.released && decide (combLen c n ≤ w.taken) then
      let s := setCore s k (setQ c n { q with window := some (windowClear (combA48 c n) (combLen c n) w) })
      (List.range 32).foldl (fun s i =>
        if w.mask.getLsbD i then
          let t := (w.slots.getD i 0).toNat
          sendCredit s k q (bits t 0 18) (bits t 18 4) (if w.planes.getLsbD i then 1 else 0) (combLen c n)
        else s) s
    else s
  | none =>
    if q.mode = 0 ∧ 0 < q.owed ∧ (16 ≤ q.owed ∨ ps.any (fun p => p.endm && !p.empty) ∨ qWords c n = 0) then
      match q.bound with
      | some (xy, e, pl) =>
        let s := setCore s k (setQ c n { q with owed := 0 })
        sendCredit s k q xy e pl q.owed
      | none => s
    else s

/-- Pops `m` words, four in a CORE cycle (R178, R239): `fuel` cycles. -/
def popCycles (s : State) (k n : Nat) : Nat → Nat → List Pop → State × List Pop
  | 0, _, ps => (s, ps)
  | fuel + 1, m, ps =>
    if m = 0 then (s, ps)
    else
      let (c, new) := popSome (getCore s k) n (min m 4) []
      popCycles (creditAfter (putCore s k c) k n new) k n fuel (m - 4) (ps ++ new)

/-- First entry among those that `m` pops would reach whose parity does not match: its index and lanes (R242). A RECVB looks
at all of its RATE words before its first pop, so that one that meets an error pops nothing at all (DESIGN CHOICE, log
entry 98). -/
def popBad (c : Core) (n m : Nat) : Option (Nat × Nat) :=
  let rec go : List QEntry → Nat → Nat → Option (Nat × Nat)
    | [], _, _ => none
    | e :: es, i, left =>
      if left = 0 then none
      else if e.badLanes ≠ 0 then some (i, e.badLanes.toNat)
      else go es (i + 1) (if e.gap then left else left - 1)
  match (getQ c n).window with
  | some w =>
    if w.released then
      ((List.range (min m (combLen c n - w.taken))).map (w.taken + ·)).findSome? fun i =>
        if laneBad w.bad i then some (i, lanesBad w.bad i) else none
    else none
  | none => go (getQ c n).entries 0 m

/-- Retires the queues of a core (R244): ACTIVE or OVERFLOWED becomes RETIRED and QGEN increments. -/
def retireQueues (c : Core) : Core :=
  { c with queues := c.queues.map fun q =>
      if q.state = .active ∨ q.state = .overflowed then { q with state := .retired, qgen := q.qgen + 1 } else q }

end Sys2Proof.Machine
end

