-- ==== Sys2Proof/Machine/Regs.lean ====
section
/-! DEFINITION. The registers of a core's control block (R109, R138, R170, R201, R236, R270). -/

namespace Sys2Proof.Machine

open Sys2Proof

/-- Number of a core state (R201). -/
def coreModeNo : CoreMode → Nat
  | .idle => 0
  | .running => 1
  | .held => 2
  | .frozen => 3
  | .fenced => 4
  | .faded => 5

/-- A flag as a bit at a place. -/
def bitAt (b : Bool) (n : Nat) : Nat := if b then 2 ^ n else 0

/-- Plane slots in use (R109). -/
def slotBusy (c : Core) : Nat :=
  (List.range 4).foldl (fun a i => if c.tiles.any fun t => t.slots.contains i then a + 2 ^ i else a) 0

/-- STATE of MX_STATUS and VX_STATUS. -/
def unitState (n : Nat) (stop : BitVec 2) : Nat := if stop ≠ 0 then stop.toNat else if n = 0 then 0 else 1

def cueStatus (c : Core) : Nat :=
  coreModeNo c.mode + bitAt c.tmo 3 + bitAt c.ur 4 + bitAt c.csat 5 + bitAt c.wdog 6 + c.cause.toNat * 2 ^ 8

def sbStatus (c : Core) : Nat :=
  c.sbEntries.length % 64 + bitAt (decide (c.wait = .score)) 6 + c.sbStalls % 2 ^ 24 * 2 ^ 8

def dmaStatus (c : Core) : Nat :=
  (match c.dma with | [] => 0 | d :: _ => if d.stopped then 2 else 1) + bitAt (decide (2 ≤ c.dma.length)) 2

/-- The split is claimed from installation until the core next becomes IDLE after running (R220). -/
def splitClaimed (c : Core) : Bool := c.sheet.isSome && !(decide (c.mode = .idle) && c.started)

/-- A read of the register at a byte offset of a core's control block: its value, and the core after the read. An
offset that no register occupies reads as zero (R181). -/
def readCoreReg (c : Core) (off : Nat) : Word × Core :=
  let w (n : Nat) : Word := BitVec.ofNat 32 n
  if off = 0x00 then (w (unitState c.mx.length c.mxStop + bitAt (decide (2 ≤ c.mx.length)) 2 + slotBusy c * 2 ^ 4), c)
  else if off = 0x04 then (c.mxPos0, c)
  else if off = 0x08 then (c.mxPos1, c)
  else if off = 0x0C then (w c.mxRetakes, { c with mxRetakes := 0 })
  else if off = 0x10 then (w (bitAt c.rchkAllow 0), c)
  else if off = 0x20 then
    (w (unitState c.vx.length c.vxStop + bitAt (decide (2 ≤ (vxSlots c.vx).length)) 2
      + bitAt (match vxSlots c.vx with | d :: _ => d.fused.isSome && d.begun | [] => false) 3), c)
  else if off = 0x24 then (c.vxPos0, c)
  else if off = 0x28 then (c.vxPos1, c)
  else if off = 0x2C then (w c.vxOvf, { c with vxOvf := 0 })
  else if off = 0x40 then (w c.spxConflicts, { c with spxConflicts := 0 })
  else if off = 0x44 then (w c.spxStalls, { c with spxStalls := 0 })
  else if off = 0x50 then (w c.pruDeclfail, { c with pruDeclfail := 0 })
  else if off = 0x54 then (w c.cmpFallback, { c with cmpFallback := 0 })
  else if 0x60 ≤ off ∧ off < 0xA0 ∧ off % 4 = 0 then
    let i := (off - 0x60) / 8
    if off % 8 = 0 then (c.pruPruned.toList.getD i 0, { c with pruPruned := c.pruPruned.setIfInBounds i 0 })
    else (c.pruRegrown.toList.getD i 0, { c with pruRegrown := c.pruRegrown.setIfInBounds i 0 })
  else if off = 0xA0 then (w (cueStatus c), c)
  else if off = 0xA4 then (w c.pc.toNat, c)
  else if off = 0xA8 then (c.sendst, c)
  else if off = 0xAC then (w c.wdCycles, c)
  else if off = 0xC0 then
    (w (c.split.toNat + bitAt (splitClaimed c) 2 + bitAt (c.cache.any fun l => l.dirty != 0) 3), c)
  else if off = 0xC4 then (w c.cacheHits, { c with cacheHits := 0 })
  else if off = 0xC8 then (w c.cacheMisses, { c with cacheMisses := 0 })
  else if off = 0xCC then (w (sbStatus c), { c with sbStalls := 0 })
  else if off = 0xD0 then (c.spParity, c)
  else if off = 0xD4 then (w (dmaStatus c), c)
  else if off = 0xD8 then (c.dmaPos, c)
  else if off = 0xDC then (w c.hgen.toNat, c)
  else if 0x100 ≤ off ∧ off < 0x180 ∧ off % 4 = 0 then
    let n := (off - 0x100) / 8
    if off % 8 = 0 then (qstatVal c n, qstatClear c n) else (qcountVal c n, c)
  else if off = 0x180 then (w c.qStale, { c with qStale := 0 })
  else if off = 0x184 then (w c.qDup, { c with qDup := 0 })
  else if off = 0x188 then (w c.qRefused, { c with qRefused := 0 })
  else if off = 0x18C then (w c.qRawdrop, { c with qRawdrop := 0 })
  else if 0x1C0 ≤ off ∧ off < 0x200 ∧ off % 4 = 0 then ((getQ c ((off - 0x1C0) / 4)).resid, c)
  else (0, c)

/-- A management write of a core register: MX_CTRL while debug-unlocked, and the RW1C bits. -/
def writeCoreReg (c : Core) (off : Nat) (v : Nat) (unlocked : Bool) : Core :=
  if off = 0x10 then if unlocked then { c with rchkAllow := v.testBit 0 } else c
  else if off = 0xA0 then
    { c with csat := c.csat && !v.testBit 5, wdog := c.wdog && !v.testBit 6 }
  else if off = 0xD0 then if v.testBit 31 then { c with spParity := c.spParity &&& 0x7FFFFFFF } else c
  else c

end Sys2Proof.Machine
end

