-- ==== Sys2Proof/Machine/Tiles.lean ====
section
/-! DEFINITION. Element layout, weight tile headers and bodies, and the checks of the loader (R33, R76, R110 to R130). -/

namespace Sys2Proof.Machine

open Sys2Proof

/-- Width in bits of a format code: 0 QB4, 1 QB8, 2 QB16, 3 QB24 (R91, R145). -/
def fmtBits (f : Nat) : Nat :=
  match f with
  | 0 => 4
  | 1 => 8
  | 2 => 16
  | _ => 24

/-- Digits of a format. -/
def fmtDigits (f : Nat) : Nat := fmtBits f / 4

/-- Bytes of a block of 32 elements (R33). -/
def blockBytes (f : Nat) : Nat := 4 * fmtBits f

def byteAt (bs : List Byte) (i : Nat) : Nat := (bs.getD i 0).toNat

/-- Element `e` of a packed run of elements starting at byte `at0` (R33). -/
def packedElem (bs : List Byte) (f at0 e : Nat) : Nat :=
  match f with
  | 0 => bits (byteAt bs (at0 + e / 2)) (4 * (e % 2)) 4
  | 1 => byteAt bs (at0 + e)
  | 2 => byteAt bs (at0 + 2 * e) + 256 * byteAt bs (at0 + 2 * e + 1)
  | _ => byteAt bs (at0 + 3 * e) + 256 * byteAt bs (at0 + 3 * e + 1) + 65536 * byteAt bs (at0 + 3 * e + 2)

/-- Packs element codes into bytes (R33). -/
def packElems (f : Nat) : List Nat → List Byte
  | [] => []
  | [a] => leBytes (max 1 (fmtBits f / 8)) a
  | a :: b :: cs =>
    if f = 0 then BitVec.ofNat 8 (a % 16 + b % 16 * 16) :: packElems f cs
    else leBytes (fmtBits f / 8) a ++ packElems f (b :: cs)

/-! ### Tile header (R110 to R112) -/

def tForm (bs : List Byte) : Nat := bits (byteAt bs 0) 0 2

def tFmt (bs : List Byte) : Nat := bits (byteAt bs 0) 2 2

def tKspan (bs : List Byte) : Nat := bits (byteAt bs 0) 4 1

def tNnz (bs : List Byte) : Nat := getLe bs 4 2

def tClen (bs : List Byte) : Nat := getLe bs 8 4

/-- v rounded up to a multiple of 16. -/
def ru16 (v : Nat) : Nat := (v + 15) / 16 * 16

/-- Length of a DENSE tile (R112). -/
def denseLen (kspan f : Nat) : Nat :=
  if kspan = 0 then 16 + 8192 * fmtDigits f + 512 else 16 + 16384 * fmtDigits f + 1024

/-- Bytes of the value section of an SU tile. -/
def suValueBytes (f nnz : Nat) : Nat := ceilDiv (nnz * fmtBits f) 8

/-- Length that the header fields imply (R112). -/
def tileLen (form kspan f nnz : Nat) : Nat :=
  match form with
  | 0 => denseLen kspan f
  | 1 => 16 + 8192 * fmtDigits f + 4096 + 1024
  | _ => 272 + ru16 nnz + ru16 (suValueBytes f nnz) + 1024

/-- Physical K-steps or halves of a tile: a DENSE tile of KSPAN 1 is taken as two (R113). -/
def tileHalves (bs : List Byte) : Nat := if tForm bs = 0 ∧ tKspan bs = 1 then 2 else 1

/-! ### Weights of a column -/

/-- Logical positions that a half of a tile covers. -/
def tileSpan (bs : List Byte) : Nat := if tForm bs = 0 then 128 else 256

/-- Entry counts and the entries before column `n` of an SU tile. -/
def suCount (bs : List Byte) (n : Nat) : Nat := getLe bs (16 + 2 * n) 2

def suStart (bs : List Byte) (n : Nat) : Nat := (List.range n).foldl (fun a i => a + suCount bs i) 0

/-- Position of entry `i` of an SU tile. -/
def suIndex (bs : List Byte) (i : Nat) : Nat := byteAt bs (272 + i)

/-- Code of entry `i` of an SU tile. -/
def suValue (bs : List Byte) (i : Nat) : Nat := packedElem bs (tFmt bs) (272 + ru16 (tNnz bs)) i

/-- Entries of a column of an SU tile: position and code. -/
def suEntries (bs : List Byte) (n : Nat) : List (Nat × Nat) :=
  let s := suStart bs n
  (List.range (suCount bs n)).map fun i => (suIndex bs (s + i), suValue bs (s + i))

/-- Metadata nibble of group `g` of column `n` of an S24 tile (R115). -/
def s24Nibble (bs : List Byte) (n g : Nat) : Nat :=
  bits (byteAt bs (16 + 8192 * fmtDigits (tFmt bs) + 32 * n + g / 2)) (4 * (g % 2)) 4

/-- Weight codes of column `n` of a half, by position within it; `none` where the tile names no weight. -/
def tileColumn (bs : List Byte) (half n : Nat) : List (Option Nat) :=
  let f := tFmt bs
  let b := blockBytes f
  match tForm bs with
  | 0 =>
    let at0 := if tKspan bs = 0 then 16 + n * 4 * b else 16 + n * 8 * b + 4 * half * b
    (List.range 128).map fun i => some (packedElem bs f at0 i)
  | 1 =>
    (List.range 256).map fun p =>
      let g := p / 4
      let nib := s24Nibble bs n g
      if p % 4 = nib % 4 then some (packedElem bs f (16 + n * 64 * fmtDigits f) (2 * g))
      else if p % 4 = nib / 4 then some (packedElem bs f (16 + n * 64 * fmtDigits f) (2 * g + 1))
      else none
  | _ =>
    let es := suEntries bs n
    (List.range 256).map fun p => (es.find? fun e => e.1 == p).map (·.2)

/-- Scale byte of block `b` of column `n` of a half. -/
def tileScale (bs : List Byte) (half n b : Nat) : Nat :=
  let f := tFmt bs
  match tForm bs with
  | 0 =>
    if tKspan bs = 0 then byteAt bs (16 + 512 * blockBytes f + 4 * n + b)
    else byteAt bs (16 + 1024 * blockBytes f + 8 * n + 4 * half + b)
  | 1 => byteAt bs (16 + 8192 * fmtDigits f + 4096 + 8 * n + b)
  | _ => byteAt bs (272 + ru16 (tNnz bs) + ru16 (suValueBytes f (tNnz bs)) + 8 * n + b)

/-- Class of a weight in a block of scale `e`: every position of a 0xFF block is NaN, named or not (R30, R83, R127); elsewhere
a position that names none is a finite zero (R119, R127). -/
def weightNum (q : Qb) (e : Nat) (code : Option Nat) : Num :=
  if e = 0xFF then .nan
  else match code with
    | none => .fin 0 24
    | some c => qbElement q c

/-! ### Checks (R93, R129, R130) -/

/-- Groups of an S24 tile that hold a position below K: index and whether its indices are in order. -/
def s24Bad (bs : List Byte) (u : Nat) : Bool :=
  (List.range 128).any fun n => (List.range 64).any fun g =>
    decide (4 * g < u) && decide (s24Nibble bs n g % 4 ≥ s24Nibble bs n g / 4)

/-- The tail check of R130. -/
def s24TailBad (bs : List Byte) (u : Nat) : Bool :=
  decide (u < 256) && decide (u % 4 ≠ 0) &&
  (List.range 128).any fun n => decide (max (u % 4 - 1) 1 < s24Nibble bs n (u / 4) / 4)

/-- Strictly ascending. -/
def ascending : List Nat → Bool
  | [] => true
  | [_] => true
  | a :: b :: l => decide (a < b) && ascending (b :: l)

/-- Limit on NNZ (R122). -/
def suLimit (f : Nat) : Nat :=
  match f with
  | 0 => 8000
  | 1 => 12000
  | _ => 16000

/-- Infinite weights at positions below `u` of a half (R85). -/
def infCount (bs : List Byte) (q : Qb) (half u : Nat) : Nat :=
  (List.range 128).foldl (fun a n =>
    a + (((tileColumn bs half n).zipIdx.filter fun p =>
      decide (p.2 < u) && (match weightNum q (tileScale bs half n (p.2 / 32)) p.1 with
        | .inf _ => true
        | _ => false)).length)) 0

/-- First reason of R129 and of the header checks of R93, in the order of R129, for which a tile fails its checks: those
that do not depend on the weights' values. `u` is K - 256 k_t or K - 128 k_t, `wf` the descriptor's weight format, `kstep`
and `sparse` its fields. A descriptor with SPARSE = 0 and KSTEP = 1, which R92 lets through though R114 wants KSTEP = 0
there, has no reason of its own: its DENSE tiles of KSPAN 1 run as two K-steps (DESIGN CHOICE, log entry 93). -/
def tileFormReason (bs : List Byte) (wf kstep : Nat) (sparse : Bool) (u : Nat) : Option Nat :=
  let form := tForm bs
  let f := tFmt bs
  if (bs.take 16).foldl (fun a b => a + b.toNat) 0 % 256 ≠ 0 then some 0x10
  else if form = 3 ∨ f = 3 ∨ bits (byteAt bs 0) 5 3 ≠ 0 ∨ bits (byteAt bs 1) 3 5 ≠ 0 ∨ getLe bs 2 2 ≠ 0
      ∨ getLe bs 12 3 ≠ 0 then some 0x11
  else if f ≠ wf then some 0x01
  else if form ≠ 0 ∧ sparse = false then some 0x02
  else if tKspan bs ≠ kstep ∨ (form ≠ 0 ∧ tKspan bs = 0) then some 0x12
  else if tClen bs ≠ tileLen form (tKspan bs) f (tNnz bs) then some 0x13
  else if form = 2 ∧ (suLimit f < tNnz bs ∨ denseLen 1 f ≤ tClen bs) then some 0x18
  else if form = 2 ∧ ((List.range 128).any (fun n => decide (256 < suCount bs n)) = true
      ∨ suStart bs 128 ≠ tNnz bs
      ∨ (List.range 128).all (fun n => ascending ((suEntries bs n).map (·.1))) = false) then some 0x17
  else if form = 2 ∧ (List.range (tNnz bs)).any (fun i => decide (u ≤ suIndex bs i)) = true then some 0x16
  else if form = 1 ∧ s24Bad bs u = true then some 0x14
  else if form = 1 ∧ s24TailBad bs u = true then some 0x15
  else none

/-- The loader's reason for a half of a tile: R85 limits the infinities of what one list serves, after every other
check. -/
def tileReason (bs : List Byte) (wf : Nat) (q : Qb) (kstep : Nat) (sparse : Bool) (half u : Nat) : Option Nat :=
  match tileFormReason bs wf kstep sparse u with
  | some r => some r
  | none => if 128 < infCount bs q half (u - 128 * half) then some 0x03 else none

/-- Parts of a tile's body that the loader reads, as word offset and words: whole blocks only, up to the block of position
K - 1 (R94), and for QB16 in a DENSE tile of KSPAN 1 the data of one half with every scale byte (R113). SU lists are read
whole; an entry beyond K is a violation (R129). -/
def tileParts (bs : List Byte) (half u : Nat) : List (Nat × Nat) :=
  let f := tFmt bs
  let b := blockBytes f
  let live := ceilDiv u 32
  let cols (at0 step n : Nat) : List (Nat × Nat) := (List.range 128).map fun i => ((at0 + step * i) / 4, ceilDiv n 4)
  match tForm bs with
  | 0 =>
    if tKspan bs = 0 then
      let nb := min 4 live
      cols 16 (4 * b) (nb * b) ++ cols (16 + 512 * b) 4 nb
    else if f = 2 then
      let nb := min 4 (live - 4 * half)
      cols (16 + 4 * half * b) (8 * b) (nb * b) ++ [((16 + 1024 * b) / 4, 256)]
    else
      let nb := min 8 live
      cols 16 (8 * b) (nb * b) ++ cols (16 + 1024 * b) 8 nb
  | 1 =>
    let nb := min 8 live
    let meta0 := 16 + 8192 * fmtDigits f
    cols 16 (64 * fmtDigits f) (8 * nb * fmtDigits f) ++ cols meta0 32 (4 * nb) ++ cols (meta0 + 4096) 8 nb
  | _ =>
    let scales := 272 + ru16 (tNnz bs) + ru16 (suValueBytes f (tNnz bs))
    (4, (scales - 16) / 4) :: cols scales 8 (min 8 live)

end Sys2Proof.Machine
end

