-- ==== Sys2Proof/Machine/MatrixOps.lean ====
section
/-! DEFINITION. The matrix engine: descriptor fields, loop order, passes, gather rows and exports (R71 to R131). -/

namespace Sys2Proof.Machine

open Sys2Proof

/-! ### Descriptor fields (R90, R91) -/

/-- Bit field of a descriptor word. -/
def df (ws : List Word) (i lo len : Nat) : Nat := bits (ws.getD i 0).toNat lo len

def mxAf (d : MxRun) : Nat := df d.words 0 4 2

def mxWf (d : MxRun) : Nat := df d.words 0 6 2

def mxAq (d : MxRun) : Qb := ⟨fmtBits (mxAf d), (d.words.getD 0 0).getLsbD 8⟩

def mxWq (d : MxRun) : Qb := ⟨fmtBits (mxWf d), (d.words.getD 0 0).getLsbD 9⟩

def mxOf (d : MxRun) : Nat := df d.words 0 11 3

def mxSparse (d : MxRun) : Bool := (d.words.getD 0 0).getLsbD 15

def mxKstep (d : MxRun) : Nat := df d.words 0 16 1

def mxInit (d : MxRun) : Bool := (d.words.getD 0 0).getLsbD 17

def mxTgt (d : MxRun) : Nat := df d.words 0 18 2

def mxM (d : MxRun) : Nat := df d.words 1 0 16

def mxN (d : MxRun) : Nat := df d.words 1 16 16

def mxK (d : MxRun) : Nat := df d.words 2 0 16

def mxMT (d : MxRun) : Nat := df d.words 2 16 6 + 1

def mxAccRow (d : MxRun) : Nat := df d.words 2 22 6

def mxNt (d : MxRun) : Nat := ceilDiv (mxN d) 128

def mxKspan (d : MxRun) : Nat := if mxKstep d = 1 then 256 else 128

def mxKt (d : MxRun) : Nat := ceilDiv (mxK d) (mxKspan d)

def mxMtiles (d : MxRun) : Nat := ceilDiv (mxM d) (mxMT d)

/-- Rows of M-tile `m` (R94). -/
def mxRows (d : MxRun) (m : Nat) : Nat := min (mxMT d) (mxM d - m * mxMT d)

def mxNa (d : MxRun) : Nat := fmtDigits (mxAf d)

def mxNb (d : MxRun) : Nat := fmtDigits (mxWf d)

/-- K that remains at K-tile `k`. -/
def mxLeft (d : MxRun) (k : Nat) : Nat := mxK d - k * mxKspan d

/-! ### Loop order (R79) -/

/-- The pass pointer moves past the present row: to the next row, half, K-tile, M-tile, N-tile, or past the end. -/
def mxNextRow (d : MxRun) (halves : Nat) : MxRun :=
  let d := { d with j := mxNb d - 1, i := mxNa d - 1 }
  if d.row + 1 < mxRows d d.mT then { d with row := d.row + 1 }
  else
    let d := { d with row := 0 }
    if d.half + 1 < halves then { d with half := d.half + 1 }
    else
      let d := { d with half := 0 }
      if d.kT + 1 < mxKt d then { d with kT := d.kT + 1 }
      else
        let d := { d with kT := 0 }
        if d.mT + 1 < mxMtiles d then { d with mT := d.mT + 1 }
        else if d.nT + 1 < mxNt d then { d with mT := 0, nT := d.nT + 1 }
        else { d with admitted := true }

/-- The present pass is the row's last in this half, and the row is then complete for its output tile. -/
def mxRowDone (d : MxRun) (halves : Nat) : Bool := decide (d.kT + 1 = mxKt d) && decide (d.half + 1 = halves)

/-- The pass pointer after one pass: digits i, then j, then the row (R79). A complete row falls due for export. -/
def mxNextPass (d : MxRun) (halves : Nat) : MxRun :=
  if 0 < d.i then { d with i := d.i - 1 }
  else if 0 < d.j then { d with j := d.j - 1, i := mxNa d - 1 }
  else
    let d' := mxNextRow d halves
    if mxRowDone d halves && decide (mxTgt d ≠ 0) then { d' with due := d.due ++ [(d.nT, d.mT, d.row)] } else d'

/-- The pass pointer after a gather row. -/
def mxNextGather (d : MxRun) (halves : Nat) : MxRun := mxNextPass { d with i := 0, j := 0 } halves

/-! ### Weight tiles (R73 to R78, R113) -/

/-- The resident tile that the next pass reads. -/
def mxTile (c : Core) (d : MxRun) : Option Tile :=
  c.tiles.find? fun t => t.op == d.op && t.nT == d.nT && t.kT == d.kT && t.half == d.half && t.resident
    && (t.mT == d.mT || mxKt d == 1)

/-- A tile stays resident for the next M-tile (R78). -/
def mxReuse (d : MxRun) (t : Tile) : Bool :=
  decide (mxKt d = 1) && !(decide (tileHalves t.bytes = 2) && decide (mxWf d = 2))

/-- Word offset of a weight tile through W_H (R90). -/
def mxTileOff (d : MxRun) (n k : Nat) : Nat := df d.words 7 0 32 + (n * mxKt d + k) * df d.words 8 0 16

/-- Slots for `halves` tiles of a format, or none when they are busy (R73, R113). -/
def freeSlots (c : Core) (f halves : Nat) : Option (List (List Nat)) :=
  let free := (List.range 4).filter fun i => !c.tiles.any fun t => t.slots.contains i
  match f with
  | 0 => if halves ≤ free.length then some ((free.take halves).map fun i => [i]) else none
  | 1 =>
    let pairs := [[0, 1], [2, 3]].filter fun p => p.all free.contains
    if halves ≤ pairs.length then some (pairs.take halves) else none
  | _ => if free.length = 4 then some [[0, 1, 2, 3]] else none

/-- The load pointer after the load of its tile (R78, R79, R113): `halves` of the tile, loaded together or not. -/
def mxNextLoad (d : MxRun) (halves : Nat) : MxRun :=
  let apart := decide (halves = 2) && decide (mxWf d = 2)
  if apart && decide (d.ldH = 0) then { d with ldH := 1 }
  else
    let d := { d with ldH := 0 }
    if d.ldK + 1 < mxKt d then { d with ldK := d.ldK + 1 }
    else
      let d := { d with ldK := 0 }
      if d.ldM + 1 < mxMtiles d ∧ (mxKt d ≠ 1 ∨ apart = true) then { d with ldM := d.ldM + 1 }
      else { d with ldM := 0, ldN := d.ldN + 1 }

/-- The header alone fails a check, so no more of the tile is read. -/
def headerFails (d : MxRun) (hdr : List Byte) (u : Nat) : Bool :=
  match tileFormReason (hdr.take 16) (mxWf d) (mxKstep d) (mxSparse d) u with
  | some r => [0x10, 0x11, 0x01, 0x02, 0x12, 0x13].contains r
  | none => false

/-- Words of a tile whose header is known: the header alone when it fails the checks on it. -/
def tileWords (d : MxRun) (hdr : List Byte) (u : Nat) : Nat :=
  if headerFails d hdr u then 4 else ceilDiv (tClen hdr) 4

/-- Bytes of words. -/
def wordsBytes (ws : List Word) : List Byte := (ws.map fun w => leBytes 4 w.toNat).flatten

/-! ### Activations -/

/-- Elements and scales of an activation row: first logical position, number of positions. -/
structure ARow where
  codes : List Nat
  scales : List Nat
deriving DecidableEq, Repr

/-- Reads words through a handle as the matrix feeder does. -/
def mxRead (s : State) (k h off n : Nat) : State × RdOut :=
  memRead s k (hEntry (getCore s k) h) off n false (fun c => stopMx c 2)

/-- Reads bytes `a` to `a + n - 1` of a handle, whole words at a time (R205). -/
def mxReadBytes (s : State) (k h a n : Nat) : State × Option (List Byte) :=
  if n = 0 then (s, some [])
  else
    match mxRead s k h (a / 4) ((a + n - 1) / 4 - a / 4 + 1) with
    | (s', .ok ws) => (s', some (((wordsBytes ws).drop (a % 4)).take n))
    | (s', _) => (s', none)

/-- Reads the blocks of activation row `m` from logical position `p0`, covering `span` positions but none beyond the
block of position K - 1 (R94). -/
def mxReadRow (s : State) (k : Nat) (d : MxRun) (m p0 span : Nat) : State × Option ARow :=
  let b := blockBytes (mxAf d)
  let nb := ceilDiv (min span (mxK d - p0)) 32
  let aoff := df d.words 4 0 32 + m * df d.words 5 0 16 + p0 / 32 * (b / 4)
  match mxRead s k (df d.words 3 0 6) aoff (nb * (b / 4)) with
  | (s1, .ok ws) =>
    match mxReadBytes s1 k (df d.words 3 6 6) (df d.words 6 0 32 + m * df d.words 5 16 16 + p0 / 32) nb with
    | (s2, some sc) =>
      let bs := wordsBytes ws
      (s2, some ⟨(List.range (32 * nb)).map (packedElem bs (mxAf d) 0), sc.map (·.toNat)⟩)
    | (s2, none) => (s2, none)
  | (s1, _) => (s1, none)

/-- Class of an activation element of a row at position `p`. -/
def actNum (d : MxRun) (r : ARow) (p : Nat) : Num :=
  if r.scales.getD (p / 32) 0 = 0xFF then .nan else qbElement (mxAq d) (r.codes.getD p 0)

/-! ### Columns of a pass -/

/-- A weight of a column: its code where the tile names one. -/
def wCode : Option Nat → Nat
  | some c => c
  | none => 0

/-- Digit of an element that enters the array: zero when the element is special (R43). -/
def liveDigit (q : Qb) (v : Num) (code k : Nat) : Int :=
  match v with
  | .fin _ _ => qbDigit q code k
  | _ => 0

/-- Value of an element on the gather path: zero when special. -/
def liveValue (v : Num) : Int :=
  match v with
  | .fin c _ => c
  | _ => 0

/-- What a live position of a column multiplies: digits in a pass, elements in a gather row. -/
def columnFactors (d : MxRun) (t : Tile) (r : ARow) (n : Nat) (dig : Option (Nat × Nat)) (p : Option Nat × Nat) : Int × Int :=
  let av := actNum d r p.2
  let wv := weightNum (mxWq d) (tileScale t.bytes t.half n (p.2 / 32)) p.1
  match dig with
  | some (i, j) => (liveDigit (mxAq d) av (r.codes.getD p.2 0) i, liveDigit (mxWq d) wv (wCode p.1) j)
  | none => (liveValue av, liveValue wv)

/-- Blocks of 32 positions that a half of a tile covers. -/
def tileBlocks (bs : List Byte) : Nat := (tileSpan bs + 31) / 32

/-- Live positions of a column with their weight codes. -/
def columnLive (t : Tile) (n u : Nat) : List (Option Nat × Nat) := ((tileColumn t.bytes t.half n).take u).zipIdx

/-- The blocks of one column of a pass (R52, R53, R117) or, without digits, of a gather row (R123): digit or product sum
and exponent of each block of `u` live positions. -/
def columnBlocks (d : MxRun) (t : Tile) (r : ARow) (n u : Nat) (dig : Option (Nat × Nat)) : List (Int × Int) :=
  let fs := (columnLive t n u).map fun p => (p.2 / 32, columnFactors d t r n dig p)
  (List.range (tileBlocks t.bytes)).map fun b =>
    let sum := (fs.filter fun p => p.1 == b).foldl (fun (a : Int) p => a + p.2.1 * p.2.2) 0
    let off : Int := match dig with | some (i, j) => 4 * ((i : Int) + j) | none => 0
    (sum, (r.scales.getD b 0 : Int) + tileScale t.bytes t.half n b - 254 + off)

/-- The predicted residue R_n of a column: the residues of the factors multiplied and added modulo 63 (R97, R126). -/
def predictedResidue (d : MxRun) (t : Tile) (r : ARow) (n u : Nat) (dig : Option (Nat × Nat)) : Int :=
  ((columnLive t n u).foldl (fun (a : Int) p =>
    let x := columnFactors d t r n dig p
    a + x.1 % 63 * (x.2 % 63)) 0) % 63

/-- The residue of a column's block sums, when the block adders are off by `err` in total (R97). -/
def blockResidue (bs : List (Int × Int)) (err : Int) : Int := (bs.foldl (fun (a : Int) b => a + b.1) err) % 63

/-- The residue verdict of a pass or gather row (R97): the columns whose predicted residue differs from that of their block
sums. `cols` names the columns whose adders are in error; an error of 1 stands for every error that is no multiple of 63,
since the check sees only whether the two residues differ (DEDUCED, log entry 94). -/
def residueVerdict (d : MxRun) (t : Tile) (r : ARow) (u : Nat) (dig : Option (Nat × Nat)) (cols : BitVec 128) : BitVec 128 :=
  (List.range 128).foldl (fun m n =>
    if predictedResidue d t r n u dig = blockResidue (columnBlocks d t r n u dig) (if cols.getLsbD n then 1 else 0) then m
    else m ||| BitVec.twoPow 128 n) 0

/-- The special products of a column over its live positions, added by R45 (R46, R83). -/
def columnSpecial (d : MxRun) (t : Tile) (r : ARow) (n u : Nat) : Num :=
  (columnLive t n u).foldl (fun a p =>
    numAdd a (specialProduct (actNum d r p.2) (weightNum (mxWq d) (tileScale t.bytes t.half n (p.2 / 32)) p.1))) numZero

/-- A term that is special joins; a finite one stands for none. -/
def joinSpecial (a v : Num) : Num :=
  match v with
  | .fin _ _ => a
  | v => numAdd a v

/-- An accumulator row. -/
def accRow (c : Core) (r : Nat) : List Num := smapGet (List.replicate 128 numZero) c.acc r

def setAccRow (c : Core) (r : Nat) (v : List Num) : Core :=
  { c with acc := smapSet (List.replicate 128 numZero) c.acc r v }

/-- The row and its halves that the next pass works on. -/
def mxRowNo (d : MxRun) : Nat := mxAccRow d + d.row

/-- Whether the pass starts its row from zero (R81). -/
def mxStarts (d : MxRun) : Bool :=
  mxInit d && decide (d.kT = 0) && decide (d.half = 0) && decide (d.i + 1 = mxNa d) && decide (d.j + 1 = mxNb d)

/-- An export still waits for the accumulator row that the pass is to write: the pass waits, whether it starts the row
(R82) or adds to it (R89: the delay of an export changes no bit of a result). -/
def mxBlocked (c : Core) (d : MxRun) : Bool :=
  c.mx.any fun e => e.due.any fun x => mxAccRow e + x.2.2 == mxRowNo d

/-- Exports of other output tiles still wait for accumulator rows of the output tile in progress (R131). -/
def mxTileWaits (c : Core) (d : MxRun) : Bool :=
  c.mx.any fun e => e.due.any fun x =>
    !(e.op == d.op && x.1 == d.nT && x.2.1 == d.mT)
      && decide (mxAccRow d ≤ mxAccRow e + x.2.2) && decide (mxAccRow e + x.2.2 < mxAccRow d + mxRows d d.mT)

/-- The first descriptor with a pass left, when the engine may admit one. -/
def mxNext (c : Core) : Option MxRun :=
  if c.mode = .running ∧ c.mxStop = 0 then c.mx.find? (fun d => !d.admitted) else none

/-- Stores a descriptor's progress. -/
def setMx (c : Core) (d : MxRun) : Core := { c with mx := c.mx.map fun e => if e.op = d.op then d else e }

/-- After a pass: the tile leaves its slots when no later pass reads it (R74, R78). -/
def mxDropTile (c : Core) (d d' : MxRun) (t : Tile) : Core :=
  let last := decide (d'.nT ≠ d.nT ∨ d'.mT ≠ d.mT ∨ d'.kT ≠ d.kT ∨ d'.half ≠ d.half) || d'.admitted
  if last && !(mxReuse d t && decide (d'.nT = d.nT) && !d'.admitted) then
    { c with tiles := c.tiles.filter fun x => !(x.op == t.op && x.nT == t.nT && x.mT == t.mT && x.kT == t.kT
        && (x.half == t.half || mxReuse d t)) }
  else c

/-- A parity error in a plane slot of the tile or in the accumulator row that the pass reads (R205): structure, index,
lanes. -/
def mxParity (c : Core) (d : MxRun) (t : Tile) : Option (Nat × Nat × Nat) :=
  match t.slots.find? (laneBad c.planeBad) with
  | some p => some (3, p, lanesBad c.planeBad p)
  | none => if !mxStarts d && laneBad c.accBad (mxRowNo d) then some (2, mxRowNo d, lanesBad c.accBad (mxRowNo d)) else none

/-- First logical position of the present K-step, and its live positions. -/
def mxFrom (d : MxRun) : Nat := d.kT * mxKspan d + 128 * d.half

def mxLive (d : MxRun) (t : Tile) : Nat := min (tileSpan t.bytes) (mxK d - mxFrom d)

/-- Digits of the present pass; a gather row has none (R72, R123). -/
def mxDig (d : MxRun) (t : Tile) : Option (Nat × Nat) := if tForm t.bytes = 2 then none else some (d.i, d.j)

/-- The activation row of the present pass or gather row is read, and what the pass reads of the engine's own stores is
checked (R205). -/
def mxFeed (s : State) (k : Nat) (d : MxRun) (t : Tile) : State × Option ARow :=
  match mxParity (getCore s k) d t with
  | some (st, w, lanes) => (spError s k st w lanes (fun c => stopMx c 2), none)
  | none => mxReadRow s k d (d.mT * mxMT d + d.row) (mxFrom d) (tileSpan t.bytes)

/-- One pass or gather row with activation row `r` joins the accumulator: columns are computed by `dig`. -/
def mxJoin (c : Core) (d : MxRun) (t : Tile) (r : ARow) (dig : Option (Nat × Nat)) (next : MxRun) : Core :=
  let first := decide (d.i + 1 = mxNa d) && decide (d.j + 1 = mxNb d)
  let old := if mxStarts d then List.replicate 128 numZero else accRow c (mxRowNo d)
  let new := old.zipIdx.map fun p =>
    let a := if first then joinSpecial p.1 (columnSpecial d t r p.2 (mxLive d t)) else p.1
    numAdd a (alignedSum (columnBlocks d t r p.2 (mxLive d t) dig))
  let c := { setAccRow c (mxRowNo d) new with accBad := if mxStarts d then lanesClear c.accBad (· == mxRowNo d) else c.accBad }
  mxDropTile (setMx c next) d next t

/-- The position after the present pass or gather row. -/
def mxNextWork (d : MxRun) (t : Tile) : MxRun :=
  if tForm t.bytes = 2 then mxNextGather d (tileHalves t.bytes) else mxNextPass d (tileHalves t.bytes)

/-- A pass of the array (dense or S24) or a gather row joins, without mismatch. -/
def mxWork (s : State) (k : Nat) (d : MxRun) (t : Tile) (r : ARow) : State :=
  setCore s k (mxJoin (getCore s k) d t r (mxDig d t) (mxNextWork d t))

/-- Detail of 0x1001 and 0x1002 (R102). -/
def mxDetail (addr row digits mT nT kT retakes : Nat) (cols : BitVec 128) : List (Nat × Nat × Nat) :=
  [(28, 2, addr), (30, 1, row), (31, 1, digits), (32, 2, mT), (34, 2, nT), (36, 2, kT),
    (38, 2, satAdd 0xFFFF retakes 0), (40, 16, cols.toNat)]

/-- Digits byte of a pass, or 0xFF for a gather row (R102, R126). -/
def mxDigits (d : MxRun) (gather : Bool) : Nat := if gather then 0xFF else d.j * 16 + d.i

/-- A residue mismatch in `cols` of the next pass or gather row, whose retake mismatches in `again` (R98 to R101). -/
def mxRetake (s : State) (k : Nat) (d : MxRun) (t : Tile) (r : ARow) (cols again : BitVec 128) : State :=
  let c := getCore s k
  let g := decide (tForm t.bytes = 2)
  if again = 0 then
    let d' := { d with
      retakes := d.retakes + 1
      first := match d.first with
        | some x => some x
        | none => some ⟨d.row, mxDigits d g, d.mT, d.nT, d.kT, cols⟩ }
    mxWork (setCore s k { setMx c d' with mxRetakes := satAdd 0xFFFFFFFF c.mxRetakes 1 }) k d' t r
  else
    let s := coreEv s k 0x1002 2 (mxDetail d.addr d.row (mxDigits d g) d.mT d.nT d.kT (d.retakes + 1) again)
    let s := setCore s k { holdCore (stopMx (getCore s k) 3) 0x03 with mxStop := 3 }
    coreFault s k 0x1002

/-- The residue check runs on a descriptor (R99). -/
def mxChecked (c : Core) (d : MxRun) : Bool := !(c.rchkAllow && !(d.words.getD 0 0).getLsbD 20)

/-! ### Conflicts of a gather row (R124) -/

/-- Lanes of a tile's entries in list order. -/
def gatherLanes (bs : List Byte) : List Nat :=
  (List.range 128).flatMap fun n => List.replicate (suCount bs n) (n % 16)

/-- One dispatch cycle takes entries while it may: lane use so far, conflict queues, conflicts, stalls. -/
def gatherTake (quota : Nat) : List Nat → Nat → List Nat → List Nat → Nat → List Nat × List Nat × Nat × Nat
  | [], _, _, q, cf => ([], q, cf, 0)
  | l :: ls, left, used, q, cf =>
    if left = 0 then (l :: ls, q, cf, 0)
    else if used.getD l 0 < quota then gatherTake quota ls (left - 1) (used.set l (used.getD l 0 + 1)) q cf
    else if q.getD l 0 < 8 then gatherTake quota ls (left - 1) used (q.set l (q.getD l 0 + 1)) (cf + 1)
    else (l :: ls, q, cf, 1)

/-- All dispatch cycles of a row: entries that passed through a conflict queue, and cycles stopped on a full one. An entry
served from a conflict queue counts against its lane's G/16 of that cycle alone; the cycle still takes up to G new entries
(DESIGN CHOICE, log entry 93: R124 does not say which quota it counts against). -/
def gatherCycles (quota : Nat) : Nat → List Nat → List Nat → Nat → Nat → Nat × Nat
  | 0, _, _, cf, st => (cf, st)
  | fuel + 1, ls, q, cf, st =>
    if ls.isEmpty then (cf, st)
    else
      let used := q.map fun n => min n quota
      let (ls', q', cf', st') := gatherTake quota ls (16 * quota) used (q.map fun n => n - min n quota) cf
      gatherCycles quota fuel ls' q' cf' (st + st')

/-- Entries each lane accepts per cycle (R124). -/
def gatherQuota (d : MxRun) : Nat :=
  match max (mxAf d) (mxWf d) with
  | 0 => 64
  | 1 => 32
  | _ => 8

/-- Counts the conflicts of a gather row. -/
def gatherCount (c : Core) (d : MxRun) (t : Tile) : Core :=
  let ls := gatherLanes t.bytes
  let (cf, st) := gatherCycles (gatherQuota d) (ls.length + 1) ls (List.replicate 16 0) 0 0
  { c with spxConflicts := satAdd 0xFFFFFFFF c.spxConflicts cf, spxStalls := satAdd 0xFFFFFFFF c.spxStalls st }

/-! ### Exports (R86 to R88) -/

/-- Blocks of 32 of a list. -/
def blocks32 {α : Type} : Nat → List α → List (List α)
  | 0, _ => []
  | fuel + 1, l => if l.isEmpty then [] else l.take 32 :: blocks32 fuel (l.drop 32)

/-- Pads codes to a whole block with code 0 (R32). -/
def padBlock (l : List Nat) : List Nat := l ++ List.replicate (32 - l.length) 0

/-- Quantises values into blocks: data bytes and scale bytes (R61 to R64). `rnd` gives the draw of a value's place. -/
def quantBlocks (f : Nat) (q : Qb) (rnd : Nat → Option (BitVec 24)) (vs : List Num) : List Byte × List Byte :=
  let bl := (blocks32 (vs.length + 1) vs).zipIdx.map fun p =>
    quantise q (fun i => rnd (32 * p.2 + i)) p.1
  (bl.flatMap fun b => packElems f (padBlock b.2), bl.map fun b => BitVec.ofNat 8 b.1)

/-- Columns of N-tile `n` (R88). -/
def mxCols (d : MxRun) (n : Nat) : Nat := min 128 (mxN d - 128 * n)

/-- Writes an exported row to memory (R86). -/
def mxWriteRow (s : State) (k : Nat) (d : MxRun) (x : Nat × Nat × Nat) : State :=
  let c := getCore s k
  let (nT, mT, r) := x
  let m := mT * mxMT d + r
  let vs := (accRow c (mxAccRow d + r)).take (mxCols d nT)
  let o := hEntry c (df d.words 3 18 6)
  let byte := 4 * (df d.words 9 0 32 + m * df d.words 10 0 16)
  if mxOf d = 3 then
    memWriteBytes s k o (byte + 1024 * nT) (vs.flatMap fun v => leBytes 8 (a48Code v).toNat)
  else
    let key := df d.words 13 0 32 + nT * mxMtiles d + mT
    let rnd (n : Nat) : Option (BitVec 24) :=
      if (d.words.getD 0 0).getLsbD 14 then
        some (draw (d.words.getD 12 0) ((sheetSlate c).getD 0) (sheetScene c) key (r * 128 + n))
      else none
    let (data, sc) := quantBlocks (mxOf d) ⟨fmtBits (mxOf d), (d.words.getD 0 0).getLsbD 10⟩ rnd vs
    let s := memWriteBytes s k o (byte + 4 * nT * blockBytes (mxOf d)) data
    memWriteBytes s k (hEntry c (df d.words 3 24 6)) (df d.words 11 0 32 + m * df d.words 10 16 16 + 4 * nT) sc

/-- A tile violation takes effect (R93, R131): rows of other output tiles have left their accumulator rows by then. -/
def mxViolate (s : State) (k : Nat) (d : MxRun) (reason : Nat) : State :=
  let c := getCore s k
  let c := (List.range (mxRows d d.mT)).foldl (fun c r => setAccRow c (mxAccRow d + r) (List.replicate 128 numZero)) c
  let c := setMx c { d with due := d.due.filter fun x => !(x.1 == d.nT && x.2.1 == d.mT) }
  let c := { stopMx c 3 with
    accBad := lanesClear c.accBad fun r => decide (mxAccRow d ≤ r) && decide (r < mxAccRow d + mxRows d d.mT) }
  let s := violate (setCore s k c) k 0x13 0x7011
    [(28, 2, d.addr), (30, 1, reason), (32, 2, d.mT), (34, 2, d.nT), (36, 2, d.kT)]
  setCore s k { getCore s k with mxStop := 3 }

end Sys2Proof.Machine
end

