-- ==== Sys2Proof/Machine/DmaOps.lean ====
section
/-! DEFINITION. The DMA engine: rows in pieces of at most one packet, their replies, and completion (R227 to R235), and
the reads that the matrix loader makes over the mesh (R358). -/

namespace Sys2Proof.Machine

open Sys2Proof

/-! ### Descriptor fields (R228) -/

def dmFill (ws : List Word) : Bool := decide (df ws 0 4 2 = 1)

def dmPlane (ws : List Word) : Nat := df ws 0 6 1

def dmSrc (ws : List Word) : Nat := df ws 1 0 6

def dmDst (ws : List Word) : Nat := df ws 1 6 6

def dmStat (ws : List Word) : Nat := df ws 1 12 6

def dmRowLen (ws : List Word) : Nat := df ws 4 0 16

def dmRows (ws : List Word) : Nat := df ws 4 16 16

/-- First word offset of row `r` of the source and of the destination (R229). -/
def dmSrcOff (ws : List Word) (r : Nat) : Nat := ((df ws 2 0 32 : Int) + r * (ws.getD 5 0).toInt).toNat

def dmDstOff (ws : List Word) (r : Nat) : Nat := ((df ws 3 0 32 : Int) + r * (ws.getD 6 0).toInt).toNat

/-! ### Tags and packets -/

/-- The lowest free tag. -/
def freeTag (c : Core) : Option Nat := (List.range 256).find? fun t => !(usedTags c).contains t

/-- Home cluster of an edge port (R343). -/
def portHome (e : Nat) : Nat :=
  if e < 32 then 2 * e
  else if e < 60 then 2 * (e - 32) * 64 + 63
  else if e < 92 then 55 * 64 + (63 - 2 * (e - 60))
  else (55 - 2 * (e - 92)) * 64

/-- Edge port and reel of a REEL handle's TARGET (R207). -/
def reelPort (e : HEntry) : Nat := bits e.target 0 7

def reelId (e : HEntry) : Nat := bits e.target 8 24

/-- ARG of a REEL access to stream word `w` (R358). -/
def reelArg (e : HEntry) (w : Nat) : Nat := 0x08000000 + reelId e % 128 * 2 ^ 20 + w % 2 ^ 20

/-- A memory packet of a core: header fields (R299). -/
def memHdr (c : Core) (k typ plane cl n arg tag : Nat) : BitVec 128 :=
  let vc := if typ = 0x9 then 1 else 3
  mkHdr typ ⟨vc, plane, lowCore cl, k, (sheetSlate c).getD 0, c.epoch.toNat⟩ (if typ = 0x9 then 0 else n) false arg
    ((if typ = 0x9 then n else 0) + tag * 2 ^ 8)

/-- Cluster and ARG of a remote access through a handle to word offset `off`. -/
def remoteOf (e : HEntry) (off : Nat) : Nat × Nat :=
  match e.space with
  | 5 => (portHome (reelPort e), reelArg e (e.base + off))
  | 3 => (clOfTarget e.target, e.base + off + 2 ^ 28)
  | _ => (clOfTarget e.target, e.base + off)

/-- Sends a MEM_RD. -/
def sendRead (s : State) (k plane unit : Nat) (e : HEntry) (off n tag : Nat) : State :=
  let (cl, arg) := remoteOf e off
  injectFrom s k plane unit ⟨memHdr (getCore s k) k 0x9 plane cl n arg tag, [], 0⟩

/-! ### Pieces -/

def setDma (c : Core) (d : DmaRun) : Core := { c with dma := c.dma.map fun e => if e.op = d.op then d else e }

/-- The descriptor of an operation number. -/
def dmaOf (c : Core) (op : Nat) : Option DmaRun := c.dma.find? fun d => d.op == op

/-- The descriptor that has a piece with a tag. -/
def dmaByTag (c : Core) (tag : Nat) : Option (DmaRun × DmaPiece) :=
  c.dma.findSome? fun d => (d.pieces.find? fun p => p.tag == tag).map fun p => (d, p)

/-- Words a piece may hold (R299, R389). -/
def pieceMax (dst : HEntry) : Nat := if dst.space = 4 then 120 else 128

/-- The memory is reached through the core's own path. -/
def ownMem (k : Nat) (e : HEntry) : Bool :=
  e.space == 1 || (e.space == 2 && clOfTarget e.target == clOf k)

/-- The vault of the core's own cluster. -/
def ownVault (k : Nat) (e : HEntry) : Bool := e.space == 3 && clOfTarget e.target == clOf k

/-- The first refusal of a row (R232): its piece is gone, the row does not count, no further row is issued. -/
def dmaRefuse (s : State) (k op row tag status : Nat) : State :=
  let c := getCore s k
  match dmaOf c op with
  | some d =>
    setCore s k (setDma c { d with
      pieces := d.pieces.filter (·.tag != tag)
      badRows := if d.badRows.contains row then d.badRows else d.badRows ++ [row]
      status := if d.status = 0 then status else d.status })
  | none => s

/-- Writes a piece's words to the destination. `tag` is the piece's tag when it has one; a write to the core's own
memory completes at once and frees it. -/
def dmaWrite (s : State) (k op row off : Nat) (ws : List Word) (tag : Option Nat) : State :=
  let c := getCore s k
  match dmaOf c op with
  | none => s
  | some d =>
    let e := hEntry c (dmDst d.words)
    let o := dmDstOff d.words row + off
    if ownMem k e then
      let s := memWrite s k e o ws false
      match tag with
      | some t => let c := getCore s k
                  setCore s k (setDma c { d with pieces := d.pieces.filter (·.tag != t) })
      | none => s
    else
      match tag.orElse fun _ => freeTag c with
      | none => s
      | some t =>
        if e.space = 4 then
          let gw := (getCl s (clOf k)).gwPort.toNat
          let win := bits e.target 0 14
          let eng := bits e.target 14 15
          if gw = 0x7F then dmaRefuse (noRoute s gw eng 1) k op row t 0x0705
          else
            let s := setCore s k (setDma c { d with
              pieces := (d.pieces.filter (·.tag != t)) ++ [⟨row, off, ws.length, t, true⟩] })
            injectFrom s k (eng % 2) 2
              ⟨memHdr c k 0xB (eng % 2) (portHome gw) (ws.length + 2) 0x18000000 t,
               [BitVec.ofNat 32 (eng + win * 2 ^ 16), BitVec.ofNat 32 (e.base + o)] ++ ws, 0⟩
        else
          let s := setCore s k (setDma c { d with
            pieces := (d.pieces.filter (·.tag != t)) ++ [⟨row, off, ws.length, t, true⟩] })
          if ownVault k e then vaultEnqueue s (clOf k) ⟨.dma k t, e.base + o, ws.length, some ws⟩
          else
            let (cl, arg) := remoteOf e o
            injectFrom s k (dmPlane d.words) 2 ⟨memHdr c k 0xB (dmPlane d.words) cl ws.length arg t, ws, 0⟩

/-- Issues one piece of the present row: false when it cannot be issued now. -/
def dmaPiece (s : State) (k op : Nat) : State × Bool :=
  let c := getCore s k
  match dmaOf c op with
  | none => (s, false)
  | some d =>
    let ws := d.words
    let src := hEntry c (dmSrc ws)
    let dst := hEntry c (dmDst ws)
    let n := min (pieceMax dst) (dmRowLen ws - d.off)
    let next : DmaRun := if d.off + n < dmRowLen ws then { d with off := d.off + n } else { d with off := 0, row := d.row + 1 }
    let localSrc := dmFill ws || ownMem k src
    if localSrc then
      if !ownMem k dst && (freeTag c).isNone then (s, false)
      else
        let (s', out) :=
          if dmFill ws then (s, RdOut.ok (List.replicate n (ws.getD 7 0)))
          else memRead s k src (dmSrcOff ws d.row + d.off) n false faultDma
        match out with
        | .ok vs => (dmaWrite (setCore s' k (setDma (getCore s' k) next)) k op d.row d.off vs none, true)
        | _ => (s', false)
    else
      match freeTag c with
      | none => (s, false)
      | some t =>
        let o := dmSrcOff ws d.row + d.off
        let s := setCore s k (setDma c { next with pieces := d.pieces ++ [⟨d.row, d.off, n, t, false⟩] })
        (if ownVault k src then vaultEnqueue s (clOf k) ⟨.dma k t, src.base + o, n, none⟩
         else sendRead s k (dmPlane ws) 2 src o n t, true)

/-- The engine may issue words of the descriptor's present row: a new row while no stop, refusal or expired deadline bars it,
and the rest of a row once begun also during a stop or after another row's refusal (R232, R233, R235). -/
def dmaMay (c : Core) (d : DmaRun) : Bool :=
  decide (d.row < dmRows d.words) && !d.expired
    && ((decide (c.mode = .running) && !d.stopped && decide (d.status = 0))
      || (decide (d.off ≠ 0) && !d.fault && !d.badRows.contains d.row))

/-- Issues the present row's pieces, until the row is issued or a piece cannot be. -/
def dmaRow (k op row : Nat) : Nat → State → State
  | 0, s => s
  | fuel + 1, s =>
    match dmaOf (getCore s k) op with
    | some d =>
      if d.row = row ∧ dmaMay (getCore s k) d = true then
        match dmaPiece s k op with
        | (s', true) => dmaRow k op row fuel s'
        | (s', false) => s'
      else s
    | none => s

/-- The descriptor whose row the engine may issue next (R227, R232, R233, R235). -/
def dmaNext (c : Core) : Option DmaRun :=
  match c.dma with
  | d :: _ => if dmaMay c d then some d else none
  | [] => none

/-- A REEL_RETRY (R365): the engine reads again from the failed block's first word, `w0` words into the stream. Reads at
or beyond it that are still in flight keep their tags with length 0: their replies are dropped. -/
def dmaRewind (s : State) (k op w0 : Nat) : State :=
  let c := getCore s k
  match dmaOf c op with
  | none => s
  | some d =>
    let e := hEntry c (dmSrc d.words)
    let len := dmRowLen d.words
    let back := w0 - (e.base + dmSrcOff d.words 0)
    let stale (p : DmaPiece) : Bool := !p.writing && decide (back ≤ p.row * len + p.off)
    setCore s k { setDma c { d with
        row := back / len, off := back % len
        pieces := d.pieces.map fun p => if stale p then { p with len := 0 } else p } with
      reelRef := smapSet 0 c.reelRef (dmSrc d.words) w0 }

/-- First word of the failed block of a reel slot. -/
def failedBlockWord (s : State) (e : HEntry) : Nat :=
  match smapGet none (getPort s (reelPort e)).slots (reelId e % 128) with
  | some x => (x.failed.getD 0) * x.maxblk / 4
  | none => 0

/-- A piece is gone from its descriptor. -/
def dmaDrop (s : State) (k tag : Nat) (d : DmaRun) : State :=
  setCore s k (setDma (getCore s k) { d with pieces := d.pieces.filter (·.tag != tag) })

/-- A read reply for a piece of the DMA engine. A REEL_RETRY carries the words before the failed block. -/
def dmaData (s : State) (k tag status : Nat) (ws : List Word) : State :=
  let c := getCore s k
  match dmaByTag c tag with
  | some (d, p) =>
    if p.writing then s
    else if p.len = 0 then dmaDrop s k tag d
    else if status = 0 then dmaWrite s k d.op p.row p.off ws (some tag)
    else if status = 0x0902 then
      let w0 := failedBlockWord s (hEntry c (dmSrc d.words))
      let s := if ws.isEmpty then dmaDrop s k tag d else dmaWrite s k d.op p.row p.off ws (some tag)
      dmaRewind s k d.op w0
    else dmaRefuse s k d.op p.row tag status
  | none => s

/-- A write acknowledgement for a piece of the DMA engine. -/
def dmaAck (s : State) (k tag status : Nat) : State :=
  let c := getCore s k
  match dmaByTag c tag with
  | some (d, p) =>
    if !p.writing then s
    else if status = 0 then setCore s k (setDma c { d with pieces := d.pieces.filter (·.tag != tag) })
    else dmaRefuse s k d.op p.row tag status
  | none => s

/-- Every block that a REEL source read has been answered OK (R365). -/
def reelChecked (s : State) (c : Core) (d : DmaRun) : Bool :=
  let e := hEntry c (dmSrc d.words)
  if dmFill d.words || e.space != 5 then true
  else
    match smapGet none (getPort s (reelPort e)).slots (reelId e % 128) with
    | some x =>
      let lastByte := 4 * (e.base + dmSrcOff d.words 0 + d.row * dmRowLen d.words) - 1
      decide (lastByte / x.maxblk < x.okBlocks)
    | none => true

/-- The executing descriptor may complete (R231 to R235). A deadline that has expired gives up what is in flight. -/
def dmaCanComplete (s : State) (c : Core) (d : DmaRun) : Bool :=
  d.expired ||
  (d.pieces.isEmpty && (decide (d.off = 0) || d.badRows.contains d.row) && (decide (dmRows d.words ≤ d.row) || decide (d.status ≠ 0)) && (decide (d.status ≠ 0) || reelChecked s c d))

/-- Rows that count as done: all of whose writes reached their completion point (R231). -/
def dmaDone (d : DmaRun) : Nat :=
  let open_ := ((d.pieces.filter (·.len != 0)).map (·.row)).eraseDups
  let bad := (d.badRows ++ open_ ++ (if d.off = 0 then [] else [d.row])).eraseDups
  min 0xFFFF ((List.range (d.row + if d.off = 0 then 0 else 1)).filter fun r => !bad.contains r).length

/-- The status a descriptor completes with. Where a refusal and an expired deadline both hold, the refusal is given
(DESIGN CHOICE, log entry 98: R232 and R233 each name a status and give no order). -/
def dmaStatusOf (d : DmaRun) : Nat := if d.status ≠ 0 then d.status else if d.expired then 0x0601 else 0

/-- The immutable range of a completed REEL to VAULT copy (R331). -/
def dmaImmutable (s : State) (k : Nat) (d : DmaRun) : State :=
  let c := getCore s k
  let src := hEntry c (dmSrc d.words)
  let dst := hEntry c (dmDst d.words)
  if !dmFill d.words && src.space == 5 && dst.space == 3 &&
      (decide (dmRows d.words = 1) || decide ((d.words.getD 6 0).toNat = dmRowLen d.words)) then
    immRegister s (clOfTarget dst.target)
      { kind := 2, hport := false, eport := BitVec.ofNat 7 (reelPort src), slate := BitVec.ofNat 12 ((sheetSlate c).getD 0)
        base := BitVec.ofNat 32 (dst.base + dmDstOff d.words 0), len := BitVec.ofNat 32 (dmRows d.words * dmRowLen d.words)
        originLo := BitVec.ofNat 32 (reelId src), originHi := BitVec.ofNat 32 (4 * (src.base + dmSrcOff d.words 0)) }
  else s

/-- Completion: the status word, the event of R232, the scoreboard and DONE_CTR (R231). -/
def dmaComplete (s : State) (k : Nat) (d : DmaRun) : State :=
  let st := dmaStatusOf d
  let s := memWrite s k (hEntry (getCore s k) (dmStat d.words)) (df d.words 8 0 32)
    [BitVec.ofNat 32 (st + dmaDone d * 2 ^ 16)] false
  let s := if st = 0 then dmaImmutable s k d else s
  let c := getCore s k
  let c := sbRelease { c with
    dma := c.dma.filter (·.op != d.op)
    deadTags := c.deadTags ++ d.pieces.map (·.tag) } d.op
  let s := putCore s k (doneCtr c (d.words.getD 15 0))
  if st = 0 then s
  else coreEv s k 0x5030 1 [(28, 2, d.addr), (30, 2, st), (32, 2, dmaDone d)]

/-! ### Loader reads over the mesh (R75, R358) -/

/-- A tile from a REEL whose header, now read, names DENSE with KSPAN 1: the load waits until the slots of the other half
are free (R113). -/
def tileHeld (c : Core) (t : Tile) : Bool :=
  decide (t.half = 0) && decide (4 < t.total) && decide (16 ≤ t.bytes.length) && decide (tileHalves t.bytes = 2)
    && decide (tFmt t.bytes ≠ 2)
    && !c.tiles.any fun x => x.op == t.op && x.nT == t.nT && x.mT == t.mT && x.kT == t.kT && x.half == 1

/-- The matrix loader sends the reads of a REEL tile that free tags allow. -/
def tileSend (s : State) (k : Nat) (h off : Nat) (same : Tile → Bool) : Nat → State
  | 0 => s
  | fuel + 1 =>
    let s := tileSend s k h off same fuel
    let c := getCore s k
    match c.tiles.find? same, freeTag c with
    | some t, some tag =>
      if t.next < t.total ∧ tileHeld c t = false then
        let n := min 128 (t.total - t.next)
        let e := hEntry c h
        let s := setCore s k { c with tiles := c.tiles.map fun x => if same x then { x with
          next := t.next + n, reads := t.reads ++ [(tag, t.next, n)] } else x }
        sendRead s k (reelPort e % 2) 3 e (off + t.next) n tag
      else s
    | _, _ => s

/-- Puts bytes into a growing list at an offset. -/
def putBytesAt (bs : List Byte) (a : Nat) (new : List Byte) : List Byte :=
  (bs ++ List.replicate (a - bs.length) 0).take a ++ new ++ bs.drop (a + new.length)

/-- The loading tile and the read that has a tag. -/
def tileByTag (c : Core) (tag : Nat) : Option (Tile × Nat × Nat) :=
  c.tiles.findSome? fun t => (t.reads.find? fun r => r.1 == tag).map fun r => (t, r.2.1, r.2.2)

/-- Two entries are the same tile and half. -/
def sameTile (a b : Tile) : Bool :=
  a.op == b.op && a.nT == b.nT && a.mT == b.mT && a.kT == b.kT && a.half == b.half

def setTile (c : Core) (t : Tile) : Core := { c with tiles := c.tiles.map fun x => if sameTile x t then t else x }

/-- Stream words of a tile that comes from a REEL handle. -/
def tileRange (c : Core) (t : Tile) : Option (HEntry × Nat × Nat) :=
  match c.mx.find? fun d => d.op == t.op with
  | some d =>
    let e := hEntry c (df d.words 3 12 6)
    some (e, e.base + mxTileOff d t.nT t.kT, t.total)
  | none => none

/-- Event 0x5012 and the memory fault it stands for (R365, R474). -/
def reelUnchecked (s : State) (e k block : Nat) (x : ReelSlot) : State :=
  let s := raiseEv s 0x5012 2 ⟨none, some x.slate, none⟩ [(28, 1, e), (32, 4, x.reel), (36, 4, block), (40, 3, k)]
  detect s ⟨0x5012, 4, none, [x.slate], some (x.sbn, x.idx)⟩

/-- A tile whose words have all come lies in the failed block of its reel, and was read from it before the check: the
event is raised once. A retry that reaches the loader first settles the matter. -/
def reelTaint (s : State) (k : Nat) (e : HEntry) (retry : Bool) : State :=
  let c := getCore s k
  let p := reelPort e
  match smapGet none (getPort s p).slots (reelId e % 128) with
  | none => s
  | some x =>
    if !x.tainted.contains k then s
    else
      let b := x.failed.getD 0
      let lo := b * x.maxblk / 4
      let hi := (b + 1) * x.maxblk / 4
      let whole := c.tiles.any fun t => match tileRange c t with
        | some (e', w, n) => decide (e'.target = e.target) && t.reads.isEmpty && decide (t.next = t.total)
            && decide (w < hi) && decide (lo < w + n) && decide (t.violation = none)
        | none => false
      if whole || retry then
        let x' := { x with tainted := x.tainted.filter (· != k) }
        let q := getPort s p
        let s := setPort s p { q with slots := smapSet none q.slots (reelId e % 128) (some x') }
        if whole then reelUnchecked s p k b x else s
      else s

/-- A read reply for the matrix loader (R75, R365, R93): words join the tile, a retry reads again from the failed block,
and every other status is a tile violation with reason 0x04. -/
def tileData (s : State) (k tag status : Nat) (ws : List Word) : State :=
  let c := getCore s k
  match tileByTag c tag with
  | none => s
  | some (t, w, n) =>
    match c.mx.find? fun d => d.op == t.op with
    | none => s
    | some d =>
      let h := df d.words 3 12 6
      let off := mxTileOff d t.nT t.kT
      let t := { t with reads := t.reads.filter (·.1 != tag) }
      let grow (t : Tile) : Tile :=
        if ws.isEmpty then t
        else { t with bytes := putBytesAt t.bytes (4 * w) (wordsBytes ws) }
      let t :=
        if n = 0 then t
        else if status = 0 then
          let t := grow t
          if t.total = 4 ∧ t.reads.isEmpty then { t with total := max 4 (tileWords d t.bytes (mxLeft d t.kT)) } else t
        else if status = 0x0902 then
          let t := grow t
          let back := failedBlockWord s (hEntry c h) - ((hEntry c h).base + off)
          { t with next := min t.next back, reads := t.reads.map fun r => if back ≤ r.2.1 then (r.1, r.2.1, 0) else r }
        else { t with violation := some 4, total := t.next }
      let c := setTile c t
      let c := if n ≠ 0 ∧ status = 0x0902 then
          { c with reelRef := smapSet 0 c.reelRef h (failedBlockWord s (hEntry c h)) } else c
      let s := reelTaint (setCore s k c) k (hEntry c h) (decide (status = 0x0902))
      tileSend s k h off (sameTile t) 64

end Sys2Proof.Machine
end

