-- ==== Sys2Proof/Machine/MeshOps.lean ====
section
/-! DEFINITION. Routes, hops, returns and arrivals on the mesh (R297 to R313). -/

namespace Sys2Proof.Machine

open Sys2Proof

/-! ### Hops -/

/-- Changes the counters of a router. -/
def setRouter (s : State) (cl plane : Nat) (f : RouterRegs → RouterRegs) : State :=
  let c := getCl s cl
  setCl s cl { c with routers := c.routers.set plane (f (c.routers.getD plane ⟨0, 0, 0, 0⟩)) }

def routerOf (s : State) (cl plane : Nat) : RouterRegs := (getCl s cl).routers.getD plane ⟨0, 0, 0, 0⟩

/-- Removes a packet: the first that is equal to it, which is the head of its buffer. -/
def meshDrop (s : State) (f : Flight) : State := { s with mesh := s.mesh.erase f }

/-! ### The end of a route fence (R306) -/

/-- A source at which the fence has stopped injection still has a packet on its way. Packets frozen in a tripped router cannot leave
it, and are not waited for (log entry 100). -/
def fenceWaits (s : State) : Bool :=
  s.mesh.any fun f => f.inj.isNone && decide ((getCl s f.cl).dark ≠ .tripped) && fenced s (clOf (pSrc f.pkt.hdr))

/-- Send buffers everywhere go on. -/
def injectAll (s : State) : State :=
  (s.mesh.filter fun f => f.inj.isSome).foldl (fun s f => injectGo s f.cl f.plane (vcOf f)) s

/-- A fence whose sources have nothing on the way writes the entries and releases injection (R306 steps 3 and 4). -/
def fenceStep (s : State) : State :=
  match s.routeFence with
  | some new => if fenceWaits s then s else injectAll { s with routeDark := new, routeFence := none }
  | none => s

/-- A packet leaves the mesh, and its router counts it: the buffer has room again, and a route fence may end. -/
def leaveMesh (s : State) (f : Flight) (count : RouterRegs → RouterRegs) : State :=
  fenceStep (injectGo (setRouter (meshDrop s f) f.cl f.plane count) f.cl f.plane (vcOf f))

/-! ### Returns and hops (R302 to R304, R312) -/

/-- A router returns or discards a packet (R312). -/
def darkReturn (s : State) (f : Flight) : State :=
  let h := f.pkt.hdr
  let s := leaveMesh s f fun r => { r with darkret := satAdd 0xFFFFFFFF r.darkret 1 }
  if isRequest (pType h) then
    inject s f.cl f.plane returnInjector
      ⟨mkHdr 4 ⟨0, f.plane, pSrc h, lowCore f.cl, pSlate h, pEpoch h⟩ 4 false 0x0704 0, hdrWords h, f.pkt.note⟩
  else s

/-- Sets WDONE. -/
def setWdone (h : BitVec 128) : BitVec 128 := h ||| BitVec.twoPow 128 7

/-- A router sends a packet out of a port (R304). -/
def hop (s : State) (f : Flight) (d : PortDir) (dst : Nat) : State :=
  let s := setRouter (meshDrop s f) f.cl f.plane fun r => { r with flits := satAdd 0xFFFFFFFF r.flits (flitsOf f.pkt) }
  let h := if d = .w then f.pkt.hdr else setWdone f.pkt.hdr
  let s := { s with mesh := s.mesh ++ [⟨dst, f.plane, farSide d, { f.pkt with hdr := h }, none⟩] }
  injectGo s f.cl f.plane (vcOf f)

/-- A head may take the link in a direction: the next router is lit, and its buffer has room for the whole packet (R302). -/
def linkReady (s : State) (d : PortDir) (f : Flight) : Bool :=
  match beyond f.cl d with
  | some dst => !isDark s dst && bufferRoom s dst f.plane (farSide d) (vcOf f) (flitsOf f.pkt)
  | none => false

/-- A router returns a request only as it can inject the DARK_RET (R308); what is not returned it discards at once. -/
def returnReady (s : State) (f : Flight) : Bool :=
  !isRequest (pType f.pkt.hdr) || f.inp == .loc && pVc f.pkt.hdr == 0 || canInject s f.cl f.plane 0 1

/-- The head of a buffer takes its hop when its output port grants it, is returned, or stays where this is its end (R302 to R304,
R312). -/
def forward (s : State) (f : Flight) : State :=
  let back (s : State) : State := if returnReady s f then darkReturn s f else s
  match outPort s f with
  | none => back s
  | some .loc => s
  | some d =>
    match beyond f.cl d with
    | none => back s
    | some dst =>
      if isDark s dst then back s
      else if granted s (linkReady s d) f.cl f.plane d = some f then hop (grantArb s (linkReady s d) d f) f d dst
      else s

/-! ### New route entries (R306) -/

/-- The entries are to avoid the clusters given: injection stops where entries change (R306 step 1). -/
def fenceTo (s : State) (new : List Nat) : State :=
  if new = s.routeDark ∧ s.routeFence = none then s else fenceStep { s with routeFence := some new }

/-! ### Arrivals (R301, R308) -/

/-- Bytes of a packet over which its CRC runs. -/
def packetBytes (h : BitVec 128) (ws : List Word) : List Byte := leBytes 16 h.toNat ++ wordsBytes ws

/-- A packet whose TYPE is unlisted or whose reserved fields are not zero (R298, R299). -/
def packetMalformed (h : BitVec 128) : Bool :=
  let t := pType h
  decide (0xD ≤ t) || pRsv h != 0
  || (match t with
      | 0 => decide (bits (pArg h) 8 24 ≠ 0) || pArg2 h != 0
      | 1 => decide (bits (pArg h) 8 24 ≠ 0) || pArg2 h != 0
      | 2 => decide (bits (pArg h) 12 20 ≠ 0) || pArg2 h != 0
      | 3 => decide (bits (pArg h) 16 16 ≠ 0) || pArg2 h != 0
      | 4 => decide (bits (pArg h) 16 16 ≠ 0) || pArg2 h != 0
      | 5 => decide (bits (pArg h) 8 24 ≠ 0) || pArg2 h != 0
      | 6 => pArg2 h != 0
      | 7 => decide (bits (pArg2 h) 16 8 ≠ 0)
      | 8 => decide (bits (pArg2 h) 16 8 ≠ 0)
      | 9 => decide (bits (pArg h) 29 3 ≠ 0) || decide (bits (pArg2 h) 16 8 ≠ 0)
      | 0xA => decide (bits (pArg h) 16 16 ≠ 0) || decide (pArg2 h % 256 ≠ 0) || decide (bits (pArg2 h) 16 8 ≠ 0)
      | 0xB => decide (bits (pArg h) 29 3 ≠ 0) || decide (pArg2 h % 256 ≠ 0) || decide (bits (pArg2 h) 16 8 ≠ 0)
      | _ => decide (bits (pArg h) 16 16 ≠ 0) || decide (pArg2 h % 256 ≠ 0) || decide (bits (pArg2 h) 16 8 ≠ 0))

/-- The scene running at a cluster, for the faults of R301 and R474. -/
def sceneAt (s : State) (cl : Nat) : Option Scene :=
  s.scenes.find? fun x => admitted x && x.region.contains cl

/-- A packet failed its CRC or another check at its destination router (R301, R321). -/
def meshCheckFailed (s : State) (f : Flight) (h : BitVec 128) (tr : Nat) (crcBad : Bool) : State :=
  let s := leaveMesh s f fun r =>
    if crcBad then { r with crcErr := satAdd 0xFFFF r.crcErr 1 } else { r with malf := satAdd 0xFFFF r.malf 1 }
  let code := if crcBad then 0x4010 else 0x4011
  let s := raiseEv s code 2 noFrame [(28, 16, h.toNat), (44, 4, tr), (48, 1, portDirNo f.inp)]
  let x := sceneAt s f.cl
  detect s ⟨code, 3, none, match x with | some x => boundSlates x | none => [], x.map fun x => (x.sbn, scKey x)⟩

/-- A packet of the epoch to be started waits for its core's scene start (R243), and a QUEUE packet for a COMBINING queue until the
queue has read its contributor table (R256, log entry 97). -/
def queueReady (s : State) (h : BitVec 128) : Bool :=
  let c := getCore s (pDst h)
  let q := getQ c (bits (pArg h) 0 4)
  !(c.sheet.isSome && decide (q.state = .active) && decide (q.epoch.toNat = pEpoch h)
    && (!c.started || (pType h == 0 && decide (q.mode = 2) && q.window.isNone)))

/-- A unit of the cluster takes an arrived packet (R308): a queue unit once the scene has started; a memory port as it can inject its
reply, the clapper unit as it can inject its own and has none waiting; every other unit at once. -/
def unitReady (s : State) (f : Flight) : Bool :=
  let h := f.pkt.hdr
  match pType h with
  | 0 => queueReady s h
  | 1 => queueReady s h
  | 6 => canInject s f.cl 0 0 1
  | 9 => (pArg h).testBit 27 || canInject s f.cl f.plane 2 (ceilDiv (20 + 4 * (pArg2 h % 256)) 128)
  | 0xB => (pArg h).testBit 27 || canInject s f.cl f.plane 2 1
  | _ => true

/-- The packet that the LOCAL output of a lit cluster's router ejects next (R303). -/
def arrived (s : State) (cl plane : Nat) : Option Flight :=
  if isDark s cl then none else granted s (unitReady s) cl plane .loc

/-- Ejects a packet, which leaves by a port that is not W and so has WDONE set (R304): damage `hd`, `td` met on the way is applied to header and trailer, the checks of R301 are made, and
a packet that passes them is handed to its unit. -/
def eject (s : State) (f : Flight) (hd : BitVec 128) (td : Word) (unit : State → Flight → State) : State :=
  let out := setWdone f.pkt.hdr
  let h := out ^^^ hd
  let tr := (BitVec.ofNat 32 (crc24 (packetBytes out f.pkt.payload))) ^^^ td
  let damaged := decide (hd ≠ 0) || decide (td ≠ 0)
  if damaged && decide (crc24 (packetBytes h f.pkt.payload) ≠ tr.toNat % 2 ^ 24) then
    meshCheckFailed s f h tr.toNat true
  else if packetMalformed h || decide (tr.toNat / 2 ^ 24 ≠ 0) then meshCheckFailed s f h tr.toNat false
  else
    let s := leaveMesh s f fun r => { r with flits := satAdd 0xFFFFFFFF r.flits (flitsOf f.pkt) }
    unit s { f with pkt := { f.pkt with hdr := h } }

/-- A reply that an injector of a cluster makes to a request packet (R299, R300). -/
def replyTo (s : State) (cl inj : Nat) (f : Flight) (typ arg arg2 : Nat) (ws : List Word) : State :=
  let h := f.pkt.hdr
  inject s cl f.plane inj
    ⟨mkHdr typ ⟨2, f.plane, pSrc h, lowCore cl, pSlate h, pEpoch h⟩ ws.length false arg arg2, ws, f.pkt.note⟩

/-- MEM_RD_DATA and MEM_WR_ACK. -/
def readReply (s : State) (cl inj : Nat) (f : Flight) (status : Nat) (ws : List Word) : State :=
  replyTo s cl inj f 0xA status (bits (pArg2 f.pkt.hdr) 8 8 * 256) ws

def writeReply (s : State) (cl inj : Nat) (f : Flight) (status : Nat) : State :=
  replyTo s cl inj f 0xC status (bits (pArg2 f.pkt.hdr) 8 8 * 256) []

end Sys2Proof.Machine
end

