-- ==== Sys2Proof/Machine/VaultServe.lean ====
section
/-! DEFINITION. The vault port: its requests in order, repairs of lines, refresh bands (R325 to R337). -/

namespace Sys2Proof.Machine

open Sys2Proof

/-- The outcome of a request reaches the unit that made it (R335). A cache fill that fails stops its core. -/
def vaultAnswer (s : State) (cl : Nat) (r : VaultReq) (out : RdOut) : State :=
  let st := match out with | .ok _ => 0 | _ => 0x0901
  let ws := match out with | .ok ws => ws | _ => []
  match r.user, r.data with
  | .dma k tag, none => dmaData s k tag st ws
  | .dma k tag, some _ => dmaAck s k tag st
  | .cache k, none => if st = 0 then s else setCore s k (holdCore (getCore s k) 0x01)
  | .cache _, some _ => s
  | .router pkt plane, none => readReply s cl vaultInjector ⟨cl, plane, .loc, pkt, none⟩ st ws
  | .router pkt plane, some _ => writeReply s cl vaultInjector ⟨cl, plane, .loc, pkt, none⟩ st
  | .mgmt p _, none =>
    if st = 0 then emit s (.readData p (ws.getD 0 0) false)
    else emit { s with freeCtr := s.freeCtr + 1 } (.readData p (Config.freeValue s.freeCtr) true)
  | .mgmt _ _, some _ => s

/-- The bytes of `new` that the byte enables name, the others of `old` (R409). -/
def mergeBytes (be : BitVec 4) (old new : Word) : Word :=
  BitVec.ofNat 32 (leNat ((List.range 4).map fun i =>
    BitVec.ofNat 8 (bits (if be.getLsbD i then new else old).toNat (8 * i) 8)))

/-- The words that a write request leaves in a vault: an aperture write keeps the bytes it does not enable. -/
def reqWords (v : Vault) (r : VaultReq) (ws : List Word) : List Word :=
  match r.user with
  | .mgmt _ be => [mergeBytes be (ramWord v.mem r.w) (ws.getD 0 0)]
  | _ => ws

/-- Runs a request at its port. -/
def vaultRun (s : State) (cl : Nat) (r : VaultReq) : State × RdOut :=
  match r.data with
  | none => vaultRead s cl r.w r.len (vaultCode r) (vaultCoreIdx r) (some r)
  | some ws => vaultWrite s cl r.w (reqWords (getCl s cl).vault r ws) (vaultCoreIdx r) (some r)

/-- The port applies accepted requests: always while active, and those accepted before it in a hard hold (R330). -/
def vaultWorks (v : Vault) : Bool := decide (v.mode = .active) || decide (v.mode = .hardHold)

/-- The port applies one accepted request (R325, R334, R335). -/
def vaultServe (s : State) (cl : Nat) : State :=
  let v := (getCl s cl).vault
  match if vaultWorks v then vaultPick v v.queue [] else none with
  | none => s
  | some r =>
    let take (s : State) : State :=
      let v := (getCl s cl).vault
      setVault s cl { v with queue := v.queue.erase r }
    match vaultRun s cl r with
    | (s', .wait) => if (getCl s' cl).vault.locked = v.locked then s else take s'
    | (s', out) => vaultAnswer (take s') cl r out

/-- The port applies every request it has accepted and that no line under repair holds back (R330). -/
def vaultDrain (s : State) (cl : Nat) : State :=
  (List.range (getCl s cl).vault.queue.length).foldl (fun s _ => vaultServe s cl) s

def refetchIdx (r : Refetch) : Nat := match r.req with | some q => vaultCoreIdx q | none => 0xFF

/-- The repair of the locked line with its 64 bytes (R334). -/
def vaultRepair (s : State) (cl : Nat) (data : List Byte) : State :=
  let v := (getCl s cl).vault
  match v.locked with
  | none => s
  | some r =>
    let s := setVault s cl (crcRenew { v with
      mem := ramPutBytes v.mem (64 * r.line) data, locked := none, refetchDone := satAdd 0xFFFF v.refetchDone 1 } [r.line])
    let s := raiseEv s 0x2021 1 ⟨none, ownerOf s 3 cl (16 * r.line), none⟩
      [(28, 2, targetOfCl cl), (30, 4, r.line), (34, 1, r.code), (35, 1, r.entry), (36, 4, (now s - r.since) / 1000)]
    match r.req with
    | none => s
    | some q =>
      match vaultRun s cl q with
      | (s', .wait) => s'
      | (s', out) => vaultAnswer s' cl q out

/-- Note of the mesh packet that brings a re-fetched line to its vault. -/
def refetchNote : Nat := 2 ^ 17

/-- The data of a re-fetch arrives over the mesh: it repairs the line that is still waiting for it (R369). -/
def refetchArrive (s : State) (cl tag : Nat) (ws : List Word) : State :=
  match (getCl s cl).vault.locked with
  | some r => if r.line % 256 = tag then vaultRepair s cl (wordsBytes ws) else s
  | none => s

/-- The repair of the locked line fails (R334, R335). -/
def vaultRefetchFail (s : State) (cl failure : Nat) : State :=
  let v := (getCl s cl).vault
  match v.locked with
  | none => s
  | some r =>
    let s := setVault s cl (refetchLost { v with locked := none })
    let s := vaultCrcEvent s cl r.line r.code (refetchIdx r) 1 failure
    match r.req with
    | none => s
    | some q => vaultAnswer s cl q .err

/-- Origin of the line under repair: the entry as it stood when the line was locked. -/
def lockedEntry (v : Vault) : Option ImmEntry := v.locked.map (·.origin)

/-- A host port goes down: the re-fetches from its memory fail (R334). -/
def refetchHostDown (s : State) (p : HostPort) : State :=
  s.clusters.foldl (fun s q =>
    match lockedEntry (getCl s q.1).vault with
    | some e => if e.kind = 1 ∧ e.hport = decide (p = .B) then vaultRefetchFail s q.1 2 else s
    | none => s) s

/-- Ports give up what they still fetch for a vault. -/
def refetchForget (s : State) (cl : Nat) : State :=
  s.ports.foldl (fun s q =>
    match (getPort s q.1).refetch with
    | r :: _ => if r.cl = cl then refetchDrop s q.1 else
        setPort s q.1 { getPort s q.1 with refetch := (getPort s q.1).refetch.filter fun r => r.cl != cl }
    | [] => s) s

/-! ### Bands (R329, R330) -/

/-- Lower bound of a band. -/
def bandLow (b : Nat) : Int :=
  match b with
  | 0 => -1000
  | 1 => 85
  | 2 => 95
  | _ => 100

/-- The band a sample moves down to. -/
def bandDown (t : Int) : Nat → Nat
  | 0 => 0
  | b + 1 => if t ≤ bandLow (b + 1) - 2 then bandDown t b else b + 1

/-- The band after a sample. -/
def bandNext (b : Nat) (t : Int) : Nat :=
  let up := if 100 ≤ t then 3 else if 95 ≤ t then 2 else if 85 ≤ t then 1 else 0
  if b ≤ up then up else bandDown t b

/-- Event of a change of band, if one is raised. -/
def bandEvent (old new : Nat) : Option (Nat × Nat) :=
  if new = old then none
  else if old < new then (if new = 3 then some (0x2031, 2) else if new = 2 then some (0x2030, 1) else none)
  else if 2 ≤ old then some (0x2032, 0) else none

/-- A raw sensor reading in hundredths of a degree with its factory and user offsets, in whole degrees rounded down. -/
def sensorDegrees (s : State) (sensor : Nat) (t : Word16) : Int :=
  (t.toInt + smapGet 0 s.otp.sensor sensor + smapGet 0 s.boot.overlayS sensor) / 100

/-- The port leaves a hold: the requests that waited are accepted in their order (R330). -/
def vaultAdmit (v : Vault) : Vault := { v with mode := .active, queue := v.queue ++ v.waiting, waiting := [] }

/-- A sample of the memory-junction sensor (R329). On entry to the hard hold every request already accepted is applied, those
behind a line under repair after it (R330). -/
def vaultTemp (s : State) (cl : Nat) (t : Int) : State :=
  let v := (getCl s cl).vault
  let b := bandNext v.band t
  let s := if b = 3 ∧ v.mode = .active then vaultDrain s cl else s
  let v' := (getCl s cl).vault
  let v' := if v'.mode = .active ∧ b = 3 then { v' with mode := .hardHold }
    else if v'.mode = .hardHold ∧ b ≤ 1 then vaultAdmit v' else v'
  let s := setVault s cl { v' with band := b, temp := BitVec.ofInt 8 t }
  match bandEvent v.band b with
  | some (code, sev) => raiseEv s code sev noFrame [(28, 2, targetOfCl cl), (30, 1, codeOf 8 t), (31, 1, b)]
  | none => s

end Sys2Proof.Machine
end

