-- ==== Sys2Proof/Machine/ReelOps.lean ====
section
/-! DEFINITION. The reel layer of a STREAM port: slots, blocks, reads, writes and re-fetches (R357 to R369). -/

namespace Sys2Proof.Machine

open Sys2Proof

/-- Words from bytes, four each. -/
def wordsOfBytes (bs : List Byte) : List Word :=
  (List.range (bs.length / 4)).map fun i => BitVec.ofNat 32 (getLe bs (4 * i) 4)

/-! ### Replies to the mesh -/

/-- The packet of a port's waiting access, as its home cluster's router sees it. -/
def portFlight (e : Nat) (p : Packet) (plane : Nat) : Flight := ⟨portHome e, plane, .loc, p, none⟩

def portReadReply (s : State) (e : Nat) (r : PortWait) (status : Nat) (ws : List Word) : State :=
  readReply s (portHome e) edgeInjector (portFlight e r.pkt r.plane) status ws

def portWriteReply (s : State) (e : Nat) (r : PortWait) (status : Nat) : State :=
  writeReply s (portHome e) edgeInjector (portFlight e r.pkt r.plane) status

/-! ### Slots -/

/-- A PUT leaves over its port. -/
def putOut (s : State) (e reel : Nat) (q : Put) : State :=
  sendReel s e 11 reel (q.start / 2 ^ 32) (q.start % 2 ^ 32) (q.data ++ leBytes 4 (crc32c q.data))

/-- Stream word that a mesh offset names: the value congruent to it at or above the cursor (R358). -/
def reelWord (x : ReelSlot) (off : Nat) : Nat := x.cursor + (off + 2 ^ 20 - x.cursor % 2 ^ 20) % 2 ^ 20

/-- The block the slot stands at: the one that holds the cursor, or an earlier one that a waiting read still needs. -/
def slotPos (x : ReelSlot) : Nat :=
  if x.maxblk = 0 then 0 else (x.reads.foldl (fun a r => min a r.first) x.cursor) * 4 / x.maxblk

/-- Event 0x5011 (R370). -/
def reelHeldEvent (s : State) (e cause status block : Nat) (x : ReelSlot) : State :=
  let s := raiseEv s 0x5011 2 ⟨none, some x.slate, none⟩
    [(28, 1, e), (32, 4, x.reel), (36, 4, block), (40, 1, cause), (41, 2, status)]
  detect s ⟨0x5011, 4, none, [x.slate], some (x.sbn, x.idx)⟩

/-- The slot becomes HELD (R367). -/
def slotHold (s : State) (e i cause status block : Nat) : State :=
  match slotOf s e i with
  | some x => if x.held then s else reelHeldEvent (setSlot s e i (some { x with held := true })) e cause status block x
  | none => s

/-- Grants further credit, in units of 4 KiB (R364). -/
def slotCredit (s : State) (e i units : Nat) : State :=
  match slotOf s e i with
  | some x =>
    if units = 0 then s
    else
      let n := x.credit + units
      sendReel (setSlot s e i (some { x with credit := n })) e 7 x.reel 0 (n % 2 ^ 32) []
  | none => s

/-- Frees the blocks the cursor has passed, and asks for the pair of blocks at the cursor (R363). -/
def slotPump (s : State) (e i : Nat) : State :=
  match slotOf s e i with
  | none => s
  | some x =>
    if x.reserved && x.acked && !x.held && (getPort s e).reelUp then
      let pos := slotPos x
      let gone := x.data.filter fun b => b.checked && decide (b.idx < pos)
      let x := { x with data := x.data.filter fun b => !(b.checked && decide (b.idx < pos)) }
      let want := [pos, pos + 1].filter fun b =>
        decide (b < x.blocks) && !x.requested.contains b && !x.data.any fun d => d.idx == b && d.checked
      let s := slotCredit (setSlot s e i (some { x with requested := x.requested ++ want })) e i
        (gone.length * creditUnits x.maxblk)
      want.foldl (fun s b => sendReel s e 5 x.reel b 0 []) s
    else s

/-- A slot whose OPEN_ACK has come reserves two blocks of buffer when there is room; credit and GETs follow (R363). -/
def slotReserve (s : State) (e i : Nat) : State :=
  match slotOf s e i with
  | none => s
  | some x =>
    if !x.acked || x.held then s
    else if x.reserved then slotPump s e i
    else if reservedBytes (getPort s e) + 2 * creditUnits x.maxblk * 4096 ≤ 2 ^ 21 then
      slotPump (slotCredit (setSlot s e i (some { x with reserved := true })) e i (2 * creditUnits x.maxblk)) e i
    else s

/-- Slots and re-fetches that wait for buffer try again. -/
def reserveAll (s : State) (e : Nat) : State :=
  let s := (getPort s e).slots.foldl (fun s q => slotReserve s e q.1) s
  pfcCheck (refetchPump s e) e

/-- Binds a reel to its slot (R357): slate, scene, reel, block count of the scene's reel list. -/
def reelBind (s : State) (e reel slate sbn idx blocks : Nat) : State :=
  let x : ReelSlot :=
    { reel := reel, slate := slate, sbn := sbn, idx := idx, blocks := blocks, maxblk := 0, acked := false
      reserved := false, held := false, cursor := 0, requested := [], data := [], dropping := [], failed := none
      credit := 0, okBlocks := 0, reads := [], gather := [], puts := [], writes := [], used := [], tainted := [] }
  let s := setSlot s e (reel % 128) (some x)
  if (getPort s e).reelUp then sendReel s e 3 reel 0 0 [] else s

/-- Releases a slot (R357): messages of the reel that wait are dropped, and CLOSE is sent. -/
def reelRelease (s : State) (e i : Nat) : State :=
  match slotOf s e i with
  | none => s
  | some x =>
    let s := setSlot s e i none
    let p := getPort s e
    let t := txOf p 0
    let s := setPort s e (setTx p 0 { t with waiting := t.waiting.filter fun m => getLe m 4 3 != x.reel })
    reserveAll (if p.reelUp then sendReel s e 10 x.reel 0 0 [] else s) e

/-! ### Reads (R358, R364, R365) -/

/-- Bytes of a reel, when its last block has passed its check. -/
def reelBytes (x : ReelSlot) : Option Nat :=
  match x.data.find? fun b => b.checked && decide (b.idx + 1 = x.blocks) with
  | some b => some ((x.blocks - 1) * x.maxblk + b.data.length)
  | none => none

/-- Bytes `lo` to `lo + n - 1` of the stream, from the blocks held. -/
def slotBytes (x : ReelSlot) (lo n : Nat) : List Byte :=
  (List.range n).map fun j =>
    match x.data.find? fun b => b.idx == (lo + j) / x.maxblk with
    | some b => b.data.getD ((lo + j) % x.maxblk) 0
    | none => 0

/-- Every byte from `lo` to `hi - 1` has come, and every block whose last byte is among them has passed its check. -/
def slotReady (x : ReelSlot) (lo hi : Nat) : Bool :=
  (List.range ((hi - 1) / x.maxblk - lo / x.maxblk + 1)).all fun j =>
    let b := lo / x.maxblk + j
    match x.data.find? fun d => d.idx == b with
    | some d =>
      let need := min hi ((b + 1) * x.maxblk) - b * x.maxblk
      decide (need ≤ d.data.length) && (d.checked || decide (hi < (b + 1) * x.maxblk))
    | none => false

/-- A read reaches beyond the reel's last byte (R367). -/
def slotBeyond (x : ReelSlot) (hi : Nat) : Bool :=
  decide (x.blocks * x.maxblk < hi) || (match reelBytes x with | some n => decide (n < hi) | none => false)

/-- Blocks that a read uses before their check. -/
def uncheckedBlocks (x : ReelSlot) (lo hi : Nat) : List Nat :=
  ((x.data.filter fun d => !d.checked && decide (d.idx * x.maxblk < hi) && decide (lo < (d.idx + 1) * x.maxblk))).map (·.idx)

/-- Answers the slot's reads in order while the first can be answered. -/
def slotServe (s : State) (e i : Nat) : Nat → State
  | 0 => s
  | fuel + 1 =>
    match slotOf s e i with
    | none => s
    | some x =>
      match x.reads with
      | [] => s
      | r :: rs =>
        let lo := 4 * r.first
        let hi := lo + 4 * r.left
        if x.held || !x.acked || x.maxblk == 0 then s
        else if slotBeyond x hi then
          slotServe (portReadReply (setSlot s e i (some { x with reads := rs })) e r 0x0903 []) e i fuel
        else if slotReady x lo hi then
          let k := pSrc r.pkt.hdr
          let tag := bits (pArg2 r.pkt.hdr) 8 8
          let used := if (tileByTag (getCore s k) tag).isSome then (uncheckedBlocks x lo hi).map fun b => (k, b) else []
          let s := setSlot s e i (some { x with reads := rs, used := x.used ++ used.filter fun u => !x.used.contains u })
          slotServe (portReadReply s e r 0 (wordsOfBytes (slotBytes x lo (hi - lo)))) e i fuel
        else s

/-- Answers what can be answered, frees and asks for blocks. -/
def slotGo (s : State) (e i : Nat) : State :=
  match slotOf s e i with
  | none => s
  | some x => pfcCheck (slotPump (slotServe s e i x.reads.length) e i) e

/-- A reel access that no slot can take. -/
def reelRefuse (s : State) (e : Nat) (p : Packet) (plane : Nat) : State :=
  if pType p.hdr = 9 then portReadReply s e ⟨p, plane, 0, 0⟩ 0x0903 []
  else portWriteReply s e ⟨p, plane, 0, 0⟩ 0x0903

/-- A MEM_RD of a reel (R358). -/
def reelRead (s : State) (e : Nat) (p : Packet) (plane : Nat) : State :=
  let off := pArg p.hdr % 2 ^ 27
  let i := off / 2 ^ 20
  match slotOf s e i with
  | none => reelRefuse s e p plane
  | some x =>
    let w := reelWord x (off % 2 ^ 20)
    let n := pArg2 p.hdr % 256
    let x := { x with cursor := max x.cursor (w + n - 1), reads := x.reads ++ [⟨p, plane, w, n⟩] }
    slotGo (setSlot s e i (some x)) e i

/-! ### Block checks (R364 to R367) -/

/-- The loader of a core is still reading the tile it takes from a block that starts at stream word `w0`, or one before
it. -/
def loaderWithin (s : State) (e k w0 : Nat) (x : ReelSlot) : Bool :=
  let c := getCore s k
  c.tiles.any fun t => match tileRange c t with
    | some (h, w, _) =>
      reelPort h == e && reelId h == x.reel && !t.resident && decide (w ≤ w0)
    | none => false

/-- The first failure of a block's check: retries, the cursor set back, later blocks dropped, new GETs (R365, R367). -/
def blockRetry (s : State) (e i b : Nat) (x : ReelSlot) : State :=
  let w0 := b * x.maxblk / 4
  let (hit, kept) := x.reads.partition fun r => decide (w0 < r.first + r.left)
  let cores := (x.used.filter fun u => u.2 == b).map (·.1)
  let (wait, done) := cores.partition fun k => loaderWithin s e k w0 x
  let later := x.requested.filter (· != b)
  let again := [b, b + 1].filter (· < x.blocks)
  let got (j : Nat) : Nat := match x.data.find? fun d => d.idx == j with | some d => d.data.length | none => 0
  let x' := { x with
    cursor := w0, reads := kept, okBlocks := min x.okBlocks b, failed := some b, tainted := wait, used := x.used.filter fun u => u.2 != b
    data := x.data.filter fun d => decide (d.idx < b)
    dropping := later.map fun j => (j, got j)
    requested := again }
  let s := setSlot s e i (some x')
  let s := hit.foldl (fun s r =>
    portReadReply s e r 0x0902 (wordsOfBytes (if r.first < w0 then slotBytes x (4 * r.first) (4 * (w0 - r.first)) else []))) s
  let s := slotCredit s e i (creditUnits (got b))
  let s := if later.isEmpty || (getPort s e).reelver != 3 then s else sendReel s e 13 x.reel (b + 1) 0 []
  let s := again.foldl (fun s j => sendReel s e 5 x.reel j 0 []) s
  let p := getPort s e
  let s := setPort s e { p with retries := satAdd 0xFFFF p.retries again.length }
  let s := raiseEv s 0x5010 1 ⟨none, some x.slate, none⟩ [(28, 1, e), (32, 4, x.reel), (36, 4, b)]
  match done with
  | k :: _ => reelUnchecked s e k b x
  | [] => s

/-- A block's check fails. -/
def blockFail (s : State) (e i b : Nat) (x : ReelSlot) : State :=
  if x.failed = some b then slotHold (setSlot s e i (some x)) e i 1 0 b else blockRetry s e i b x

/-- The bytes of a segment, and with LAST the length and check that follow it. -/
def segOf (m : List Byte) : List Byte × Option (Nat × Nat) :=
  let body := m.drop 16
  if getLe m 1 1 % 2 = 1 then
    let n := body.length - 8
    (body.take n, some (getLe body n 4, getLe body (n + 4) 4))
  else (body, none)

/-- A segment of the block the slot has asked for (R364). -/
def slotSegment (s : State) (e i b arg : Nat) (seg : List Byte) (last : Option (Nat × Nat)) (x : ReelSlot) : State :=
  let have0 := match x.data.find? fun d => d.idx == b with | some d => d.data | none => []
  let all := have0 ++ seg
  if arg ≠ have0.length ∨ seg.length = 0 ∨ 8192 < seg.length ∨ x.maxblk < all.length then slotHold s e i 3 0 b
  else
    let put (chk : Bool) : List ReelBlock := (x.data.filter fun d => d.idx != b) ++ [⟨b, all, chk⟩]
    match last with
    | none => slotGo (setSlot s e i (some { x with data := put false })) e i
    | some (len, crc) =>
      if len ≠ all.length ∨ crc ≠ crc32c all then blockFail s e i b { x with data := put false }
      else if b + 1 < x.blocks ∧ all.length ≠ x.maxblk then slotHold s e i 3 0 b
      else
        let x := { x with data := put true, requested := x.requested.tail, okBlocks := max x.okBlocks (b + 1), used := x.used.filter fun u => u.2 != b }
        let s := sendReel (setSlot s e i (some x)) e 8 x.reel b 0 []
        slotGo s e i

/-- A segment for a slot: one of a cut slate after its retirement (R460), of a dropped block, of the block asked for, or out of order (R364, R367). -/
def slotData (s : State) (e i : Nat) (m : List Byte) (x : ReelSlot) : State :=
  let b := getLe m 8 4
  let arg := getLe m 12 4
  let (seg, last) := segOf m
  if retired s x.slate then countRetired s x.slate
  else if x.held then s
  else
    match x.dropping with
    | (j, n) :: rest =>
      if j = b ∧ arg = n then
        if last.isSome then
          slotCredit (setSlot s e i (some { x with dropping := rest })) e i (creditUnits (n + seg.length))
        else setSlot s e i (some { x with dropping := (j, n + seg.length) :: rest })
      else if (getPort s e).reelver = 3 ∧ x.requested.head? = some b then
        let s := slotCredit (setSlot s e i (some { x with dropping := [] })) e i (creditUnits n)
        match slotOf s e i with
        | some x => slotSegment s e i b arg seg last x
        | none => s
      else slotHold s e i 3 0 b
    | [] => if x.requested.head? = some b then slotSegment s e i b arg seg last x else slotHold s e i 3 0 b

/-! ### Re-fetches (R369) -/

/-- Credit for a discarded block of a re-fetch goes back to the store, counted with a bound slot's (R361, R369). -/
def refetchCredit (s : State) (e reel units : Nat) : State :=
  match slotForReel s e reel with
  | some _ => slotCredit s e (reel % 128) units
  | none =>
    match (getPort s e).refetch with
    | r :: _ => sendReel s e 7 reel 0 (creditUnits r.maxblk + units) []
    | [] => s

/-- The 64 bytes of a line leave over the mesh for the vault that is under repair, as the data of a read on plane 0 with the line's
low byte as tag (R369, log entry 101). -/
def refetchSend (s : State) (e cl : Nat) (line : List Byte) : State :=
  match (getCl s cl).vault.locked with
  | none => s
  | some r =>
    inject s (portHome e) 0 edgeInjector
      ⟨mkHdr 0xA ⟨2, 0, lowCore cl, lowCore (portHome e), 0, 0⟩ 16 false 0 (r.line % 256 * 256), wordsOfBytes line, refetchNote⟩

/-- A segment of the block that the first re-fetch asked for. -/
def refetchData (s : State) (e : Nat) (m : List Byte) (r : PortRefetch) (rs : List PortRefetch) : State :=
  let b := getLe m 8 4
  let (seg, last) := segOf m
  let all := r.data ++ seg
  let bad := r.bad || decide (getLe m 12 4 ≠ r.data.length) || decide (seg.length = 0) || decide (8192 < seg.length)
    || decide (r.maxblk < all.length)
  let keep (s : State) (r : PortRefetch) : State := setPort s e { getPort s e with refetch := r :: rs }
  let close (s : State) : State :=
    let s := if (slotForReel s e r.reel).isNone then sendReel s e 10 r.reel 0 0 [] else s
    reserveAll (refetchDrop s e) e
  match last with
  | none => pfcCheck (keep s { r with data := all, bad := bad }) e
  | some (len, crc) =>
    if bad ∨ len ≠ all.length ∨ crc ≠ crc32c all then
      if r.again then close (vaultRefetchFail s r.cl 3)
      else
        let s := keep s { r with data := [], again := true, bad := false }
        let p := getPort s e
        let s := refetchCredit (setPort s e { p with retries := satAdd 0xFFFF p.retries 1 }) e r.reel (creditUnits all.length)
        sendReel s e 5 r.reel b 0 []
    else
      let o := r.byte - b * r.maxblk
      let line := (all.drop o).take 64
      close (if line.length = 64 then refetchSend s e r.cl line else vaultRefetchFail s r.cl 1)

/-- The first re-fetch waits for this reel and block. -/
def refetchMatches (p : Port) (reel b : Nat) : Bool :=
  match p.refetch with
  | r :: _ => r.reel == reel && r.asked && r.byte / r.maxblk == b
  | [] => false

/-- DATA (R364, R369). -/
def reelData (s : State) (e : Nat) (m : List Byte) : State :=
  let reel := getLe m 4 3
  let b := getLe m 8 4
  let p := getPort s e
  let slot := slotForReel s e reel
  let wanted := match slot with
    | some x => x.requested.head? == some b || x.dropping.any fun d => d.1 == b
    | none => false
  if !wanted && refetchMatches p reel b then
    match p.refetch with
    | r :: rs => refetchData s e m r rs
    | [] => s
  else
    match slot with
    | some x => pfcCheck (slotData s e (reel % 128) m x) e
    | none => pfcCheck s e

/-- OPEN_ACK (R363, R367, R369). -/
def openAck (s : State) (e : Nat) (m : List Byte) : State :=
  let reel := getLe m 4 3
  let blocks := getLe m 8 4
  let mb := getLe m 12 4
  match slotForReel s e reel with
  | some x =>
    if x.held then s
    else if blocks ≠ x.blocks ∨ mb = 0 ∨ 1048576 < mb then slotHold s e (reel % 128) 3 (getLe m 2 2) 0
    else
      let s := setSlot s e (reel % 128) (some { x with maxblk := mb, acked := true, credit := 0 })
      let s := if x.reserved then
          slotPump (slotCredit s e (reel % 128) ((2 - min 2 x.data.length) * creditUnits mb)) e (reel % 128)
        else s
      let s := x.puts.foldl (fun s q => putOut s e x.reel q) s
      reserveAll s e
  | none =>
    match (getPort s e).refetch with
    | r :: rs =>
      if r.reel ≠ reel ∨ r.maxblk ≠ 0 then s
      else if mb = 0 ∨ 1048576 < mb then reserveAll (refetchDrop (vaultRefetchFail s r.cl 1) e) e
      else refetchPump (setPort s e { getPort s e with refetch := { r with maxblk := mb } :: rs }) e
    | [] => s

/-- ERROR from the store (R367, R369). -/
def reelStoreError (s : State) (e : Nat) (m : List Byte) : State :=
  let reel := getLe m 4 3
  let b := getLe m 8 4
  let unbound := match (getPort s e).refetch with
    | r :: _ => r.reel == reel && (slotForReel s e reel).isNone
    | [] => false
  let asked := match slotForReel s e reel with | some x => x.requested.contains b | none => false
  if unbound || (!asked && refetchMatches (getPort s e) reel b) then
    match (getPort s e).refetch with
    | r :: _ => reserveAll (refetchDrop (vaultRefetchFail s r.cl 1) e) e
    | [] => s
  else if (slotForReel s e reel).isSome then slotHold s e (reel % 128) 2 (getLe m 2 2) b
  else s

/-! ### Writes (R366) -/

/-- Key of a reel's keyframe copies. -/
def reelKey (port id : Nat) : Nat := port * 2 ^ 24 + id

/-- PUTs of up to 8,192 bytes for a run of bytes of a keyframe copy: each stays until the store has acknowledged it (R280, R366). -/
def sendCopyPuts (s : State) (e reel start : Nat) (bs : List Byte) : Nat → State
  | 0 => s
  | fuel + 1 =>
    if bs.isEmpty then s
    else
      let q : Put := ⟨start, bs.take 8192, false⟩
      let p := getPort s e
      let s := setPort s e { p with copyPuts := p.copyPuts ++ [(reel, q)] }
      sendCopyPuts (if p.reelUp then putOut s e reel q else s) e reel (start + q.data.length) (bs.drop 8192) fuel

/-- The store refuses a PUT of a keyframe copy, or cannot take it: the copies to that reel fail with REEL_ERROR (R280). -/
def copyPutFail (s : State) (e reel : Nat) : State :=
  { s with works := { s.works with copies := s.works.copies.map fun j =>
      if j.kf = (KfDest.reel reel e) ∧ j.status = 0 then { j with status := 0x0903 } else j } }

/-- PUT_ACK for a PUT of a keyframe copy (R366): the bytes are in the store, or it is sent once more, or the copy fails. -/
def copyPutAck (s : State) (e reel st : Nat) (q : Put) : State :=
  let p := getPort s e
  if st = 5 ∧ q.resent = false then
    putOut (setPort s e { p with copyPuts := p.copyPuts.map fun r => if r = (reel, q) then (reel, { q with resent := true }) else r })
      e reel q
  else
    let s := setPort s e { p with copyPuts := p.copyPuts.erase (reel, q) }
    if st = 0 then
      let k := reelKey e reel
      { s with reelCopies := smapSet Ram.zero s.reelCopies k (ramPutBytes (smapGet Ram.zero s.reelCopies k) q.start q.data) }
    else copyPutFail s e reel

/-- Sends a PUT, or keeps it until the reel layer is up. -/
def sendPut (s : State) (e i : Nat) (q : Put) : State :=
  match slotOf s e i with
  | none => s
  | some x =>
    let s := setSlot s e i (some { x with puts := x.puts ++ [q] })
    if (getPort s e).reelUp then putOut s e x.reel q else s

/-- Adds words to what the slot gathers. -/
def gatherAdd (start : Nat) (bs : List Byte) : List Put → List Put
  | [] => [⟨start, bs, false⟩]
  | g :: gs => if g.start + g.data.length = start then { g with data := g.data ++ bs } :: gs else g :: gatherAdd start bs gs

/-- What stays gathered once full messages have gone. -/
def gatherRest (g : Put) : Option Put :=
  if g.data.length < 8192 then some g
  else if g.data.length = 8192 then none
  else some { g with start := g.start + 8192, data := g.data.drop 8192 }

/-- Sends the messages that are full. -/
def gatherFull (s : State) (e i : Nat) : State :=
  match slotOf s e i with
  | none => s
  | some x =>
    let s := setSlot s e i (some { x with gather := x.gather.filterMap gatherRest })
    x.gather.foldl (fun s g => if 8192 ≤ g.data.length then sendPut s e i { g with data := g.data.take 8192 } else s) s

/-- A MEM_WR of a reel (R358, R362, R366). -/
def reelWrite (s : State) (e : Nat) (p : Packet) (plane : Nat) : State :=
  let off := pArg p.hdr % 2 ^ 27
  let i := off / 2 ^ 20
  match slotOf s e i with
  | none => reelRefuse s e p plane
  | some x =>
    if (getPort s e).reelver = 1 then reelRefuse s e p plane
    else
      let w := reelWord x (off % 2 ^ 20)
      let n := p.payload.length
      let x := { x with
        cursor := max x.cursor (w + n - 1)
        writes := x.writes ++ [⟨p, plane, w, 4 * n⟩]
        gather := gatherAdd (4 * w) (wordsBytes p.payload) x.gather }
      slotGo (gatherFull (setSlot s e i (some x)) e i) e i

/-- 64 ROUTE cycles without a contiguous write. -/
def putFlush (s : State) (e : Nat) : State :=
  (getPort s e).slots.foldl (fun s q =>
    match slotOf s e q.1 with
    | some x =>
      x.gather.foldl (fun s g => sendPut s e q.1 g) (setSlot s e q.1 (some { x with gather := [] }))
    | none => s) s

/-- Bytes that a write and a PUT share. -/
def putShare (r : PortWait) (n : Nat) (q : Put) : Nat :=
  min (4 * r.first + n) (q.start + q.data.length) - max (4 * r.first) q.start

/-- A PUT is over: its writes count down, or are refused. -/
def putDone (s : State) (e i : Nat) (x : ReelSlot) (q : Put) (ok : Bool) : State :=
  let share (r : PortWait) : Nat := putShare r (4 * r.pkt.payload.length) q
  let fin (r : PortWait) : Bool := decide (0 < share r) && (!ok || decide (r.left ≤ share r))
  let done := x.writes.filter fin
  let left := (x.writes.filter fun r => !fin r).map fun r => { r with left := r.left - share r }
  let s := setSlot s e i (some { x with puts := x.puts.erase q, writes := left })
  done.foldl (fun s r => portWriteReply s e r (if ok then 0 else 0x0903)) s

/-- PUT_ACK (R366): of a slot's write, or of a keyframe copy. -/
def putAck (s : State) (e : Nat) (m : List Byte) : State :=
  let reel := getLe m 4 3
  let i := reel % 128
  let st := getLe m 2 2
  let start := getLe m 8 4 * 2 ^ 32 + getLe m 12 4
  let mine := match slotForReel s e reel with
    | some x => (x.puts.find? fun (q : Put) => q.start == start).map fun q => (x, q)
    | none => none
  match mine with
  | none =>
    match (getPort s e).copyPuts.find? fun (q : Nat × Put) => q.1 == reel && q.2.start == start with
    | some q => copyPutAck s e reel st q.2
    | none => s
  | some (x, q) =>
      if st = 5 ∧ q.resent = false then
        let s := setSlot s e i (some { x with puts := x.puts.map fun r => if r = q then { q with resent := true } else r })
        putOut s e x.reel q
      else putDone s e i x q (decide (st = 0))

/-! ### The reel layer and the link (R362, R368) -/

/-- Refuses every write that waits, under a version that carries no PUT; keyframe copies that wait fail with them. -/
def writesRefused (s : State) (e : Nat) : State :=
  let p := getPort s e
  let s := p.copyPuts.foldl (fun s q => copyPutFail s e q.1) (setPort s e { p with copyPuts := [] })
  p.slots.foldl (fun s q =>
    match slotOf s e q.1 with
    | some x =>
      x.writes.foldl (fun s r => portWriteReply s e r 0x0903)
        (setSlot s e q.1 (some { x with writes := [], gather := [], puts := [] }))
    | none => s) s

/-- LINK_UP of a STREAM port with its reel version, once for each link-up (R370). -/
def upShown (s : State) (e v : Nat) : State :=
  let p := getPort s e
  if p.upPending then upEvent (setPort s e { p with upPending := false }) e v else s

/-- RHELLO_ACK (R362). -/
def rhelloAck (s : State) (e : Nat) (m : List Byte) : State :=
  let v := getLe m 12 1
  let p := getPort s e
  if 1 ≤ v ∧ v ≤ 3 then
    let s := upShown (setPort s e { p with reelver := BitVec.ofNat 2 v, reelUp := true }) e v
    let s := if v = 1 then writesRefused s e else (getPort s e).copyPuts.foldl (fun s q => putOut s e q.1 q.2) s
    let s := (getPort s e).slots.foldl (fun s q =>
      match slotOf s e q.1 with
      | some x => if x.held then s else sendReel s e 3 x.reel 0 0 []
      | none => s) s
    refetchBegin s e
  else
    let s := upShown (setPort s e { p with reelver := 0, reelUp := false }) e 0
    p.slots.foldl (fun s q => slotHold s e q.1 4 0 0) s

/-- The reel layer at link down (R368): checked blocks stay, incomplete ones are dropped. -/
def reelLinkDown (s : State) (e : Nat) : State :=
  let p := getPort s e
  setPort s e { p with
    reelUp := false, reelver := 0
    slots := p.slots.map fun q => (q.1, q.2.map fun x => { x with
      acked := false, requested := [], dropping := [], credit := 0, data := x.data.filter (·.checked) })
    refetch := p.refetch.map fun r => { r with maxblk := 0, asked := false, data := [], bad := false } }

end Sys2Proof.Machine
end

