-- ==== Sys2Proof/Machine/FabricOps.lean ====
section
/-! DEFINITION. The fabric layer: packets, the destination table, gateways, windows, flows, discovery
(R372 to R400, R449 to R452). -/

namespace Sys2Proof.Machine

open Sys2Proof

/-! ### Header fields (R375) -/

def fbType (m : List Byte) : Nat := getLe m 0 1

def fbLen (m : List Byte) : Nat := getLe m 2 2

def fbDst (m : List Byte) : Nat := getLe m 4 2

def fbSrc (m : List Byte) : Nat := getLe m 6 2

def fbHops (m : List Byte) : Nat := getLe m 8 1

def fbSlate (m : List Byte) : Nat := getLe m 10 2

def fbInc (m : List Byte) : Nat := getLe m 12 2

def fbWin (m : List Byte) : Nat := getLe m 14 2

def fbSeq (m : List Byte) : Nat := getLe m 16 4

def fbOff (m : List Byte) : Nat := getLe m 20 4

def fbStatus (m : List Byte) : Nat := getLe m 24 2

def fbXy (m : List Byte) : Nat := getLe m 26 3

def fbTag (m : List Byte) : Nat := getLe m 29 1

def fbGw (m : List Byte) : Nat := getLe m 30 1

/-- Payload of a fabric packet. -/
def fbPay (m : List Byte) : List Byte := m.drop 32

/-- LEN outside the range of the packet's type, or an unlisted type (R376). -/
def fbLenBad (m : List Byte) : Bool :=
  let n := fbLen m
  match fbType m with
  | 0x01 => n != 24
  | 0x02 => n != 18
  | 0x03 => n != 155
  | 0x04 => n != 20
  | 0x05 => n != 20
  | 0x10 => decide (n < 4) || decide (480 < n) || decide (n % 4 ≠ 0)
  | 0x11 => n != 0
  | _ => true

/-- A 16-bit field holds an engine ID that R7 lists. -/
def engListed (v : Nat) : Bool := decide (v ≤ 20479) || v == 0x7FFF

/-- A payload holds a reserved bit that is not zero, or an engine ID that R7 reserves (R379, R380). -/
def fbPayBad (m : List Byte) : Bool :=
  let b := m.drop 32
  match fbType m with
  | 0x01 => !engListed (getLe b 2 2) || decide (4 ≤ getLe b 6 2) || decide (getLe b 16 8 ≠ 0)
  | 0x03 => !engListed (getLe b 18 2) || (b.drop 35).any fun x => decide (8 ≤ x.toNat)
  | 0x04 => !engListed (getLe b 18 2)
  | 0x05 => !engListed (getLe b 18 2)
  | _ => false

/-- A malformed packet: its length, a reserved field, a reserved engine ID or an unlisted gateway port (R7, R10, R376). -/
def fbMalformed (m : List Byte) : Bool :=
  fbLenBad m || m.length != 32 + fbLen m || decide (16 ≤ getLe m 1 1) || !engListed (fbDst m)
    || !engListed (fbSrc m) || decide (getLe m 9 1 ≠ 0) || decide (2 ^ 12 ≤ fbSlate m) || decide (2 ^ 14 ≤ fbWin m)
    || decide (2 ^ 18 ≤ fbXy m) || decide (119 < fbGw m) || decide (getLe m 31 1 ≠ 0) || fbPayBad m

/-- Discovery types (R373). -/
def fbDisc (m : List Byte) : Bool := decide (2 ≤ fbType m) && decide (fbType m ≤ 5)

/-- Class of a fabric packet (R376). -/
def fbClass (m : List Byte) : Nat := if fbType m = 0x10 then 1 else 2

/-- The module's engine ID, and whether it is assigned. -/
def engId (s : State) : Nat := s.fabric.engId.toNat

def assigned (s : State) : Bool := engId s != 0x7FFF

def countMalf (s : State) : State := { s with fabric := { s.fabric with malf := satAdd 0xFFFFFFFF s.fabric.malf 1 } }

/-! ### Sending (R377, R378) -/

/-- Fabric version of a port's link, 0 when none (R379). -/
def fabVer (p : Port) : Nat := bits p.peer0.toNat 24 4

/-- The port carries fabric packets. -/
def fabUp (s : State) (e : Nat) : Bool := (getPort s e).role && decide ((getPort s e).link = .up)

/-- The packet can be expressed in the version of a port's link (R378). -/
def fabFits (s : State) (out : Nat) (m : List Byte) : Bool :=
  let v := fabVer (getPort s out)
  v == 2 || (v == 1 && decide (fbWin m < 4096))

/-- Sends a packet out of a port, in the form of its link's version. FHELLO crosses a link that has no version yet; nothing else that
the version cannot express is sent (R378, R379; log entry 102). -/
def fabSend (s : State) (e : Nat) (m : List Byte) : State :=
  if fbType m = 1 ∨ fabFits s e m = true then sendData s e (fbClass m) (putLe m 1 1 (fabVer (getPort s e))) else s

/-- A tag that none of the port's mesh writes uses. -/
def portTag (p : Port) : Option Nat := (List.range 256).find? fun t => !p.inWrites.any fun w => w.tag == t

/-- Plane of a fabric packet on the mesh (R377). -/
def fbPlane (m : List Byte) : Nat := if fbType m = 0x11 then fbSrc m % 2 else fbDst m % 2

/-- Words of a packet, its last bytes filled with zeros. -/
def fbWords (m : List Byte) : List Word := wordsOfBytes (m ++ List.replicate ((4 - m.length % 4) % 4) 0)

/-- Carries a packet from port `e` to port `out` over the mesh (R377). -/
def fabCross (s : State) (e out : Nat) (m : List Byte) : State :=
  let p := getPort s e
  let t := (portTag p).getD 0
  let s := setPort s e { p with inWrites := p.inWrites ++ [⟨m.take 32, t, 0, true, []⟩] }
  inject s (portHome e) (fbPlane m) edgeInjector
    ⟨mkHdr 0xB ⟨3, fbPlane m, lowCore (portHome out), lowCore (portHome e), fbSlate m, 0⟩ (fbWords m).length false
      0x18000000 (t * 256), fbWords m, 2 ^ 16 + e⟩

/-- Sends a packet held by port `e` out of port `out`. -/
def fabOut (s : State) (e out : Nat) (m : List Byte) : State := if out = e then fabSend s e m else fabCross s e out m

/-! ### The destination table (R384, R386) -/

/-- Port that a table word's choice names. -/
def choiceOf (w : Word) (sel : Nat) : Nat := bits w.toNat (7 * sel) 7

def destWord (s : State) (eng : Nat) : Word := smapGet 0x0FFFFFFF s.fabric.dest eng

/-- What a lookup gives: a port, or the cause of NO_ROUTE. -/
def fabLookup (s : State) (target hops : Nat) : Option Nat × Nat :=
  let w := destWord s target
  let out := choiceOf w (bits w.toNat 28 2)
  if !w.getLsbD 31 || !fabUp s out then (none, 1)
  else if hops = 0 then (none, 2)
  else (some out, 0)

/-- A WWRITE of this module, or its WACK, carries an incarnation that a cut has retired (R460). -/
def retiredPkt (s : State) (m : List Byte) : Bool :=
  let v := getSlate s (fbSlate m)
  fbSrc m == engId s && (retired s (fbSlate m) || decide (v.inc.toNat ≠ fbInc m))

/-- A fabric packet of a retired incarnation is discarded: it is counted in FAB_STALE and among its cut's (R460, R468). -/
def dropRetired (s : State) (m : List Byte) : State :=
  countRetired { s with fabric := { s.fabric with stale := satAdd 0xFFFFFFFF s.fabric.stale 1 } } (fbSlate m)

/-- Completes the origin write that a WACK names (R390, R391, R452). -/
def gatewayDone (s : State) (e : Nat) (m : List Byte) : State :=
  let p := getPort s e
  match p.outWrites.find? fun o =>
    o.seq == fbSeq m && bits (pArg2 o.pkt.hdr) 8 8 == fbTag m && pSrc o.pkt.hdr == fbXy m with
  | none =>
    let s := { s with fabric := { s.fabric with late := satAdd 0xFFFFFFFF s.fabric.late 1 } }
    if retiredPkt s m then dropRetired s m else s
  | some o =>
    portWriteReply (setPort s e { p with outWrites := p.outWrites.erase o }) e ⟨o.pkt, o.plane, 0, 0⟩
      (if fbStatus m = 0x0501 then 0 else fbStatus m)

/-- A WACK that port `e` holds (R376, R386, R390). An unassigned module discards it (R373), and so does one whose link cannot
express it (R378). -/
def routeWack (s : State) (e : Nat) (m : List Byte) : State :=
  if !assigned s then countMalf s
  else if fbSrc m = engId s then
    if fbGw m = e then gatewayDone s e m else fabCross s e (fbGw m) m
  else
    match fabLookup s (fbSrc m) (fbHops m) with
    | (none, cause) => noRoute s e (fbSrc m) cause
    | (some out, _) =>
      let m := putLe m 8 1 (fbHops m - 1)
      if fabFits s out m then fabOut s e out m else countNoroute s

/-- The WACK of a write (R375, R376). -/
def wackOf (m : List Byte) (status : Nat) : List Byte :=
  putLe (putLe (putLe (putLe (m.take 32) 0 1 0x11) 2 2 0) 8 1 8) 24 2 status

/-- Answers a write with a WACK. -/
def sendWack (s : State) (e : Nat) (m : List Byte) (status : Nat) : State := routeWack s e (wackOf m status)

/-! ### Flows (R394, R397, R451) -/

/-- Flow of a write into a window of an owner (R394). -/
def flowOf (m : List Byte) (owner : Nat) : FlowKey := (fbSrc m, fbSlate m, owner)

/-- 0x5043 (R397, R401). -/
def frozenEvent (s : State) (f : FlowKey) (reason : Nat) : State :=
  raiseEv s 0x5043 2 ⟨none, some f.2.2, none⟩ [(30, 2, f.1), (32, 2, f.2.1), (34, 2, f.2.2), (36, 1, reason)]

/-- Counts a denial; the eighth without a gap of 1 ms freezes the flow (R397). -/
def countDenial (s : State) (f : FlowKey) : State × Bool :=
  let old := s.fabric.denials.find? fun d => d.flow == f
  let n := match old with
    | some d => if now s < d.last + 1000000 then d.count + 1 else 1
    | none => 1
  let ev := match old with | some d => d.event | none => none
  let say := match ev with | some t => decide (t + 1000000000 ≤ now s) | none => true
  let d : Denial := ⟨f, n, now s, if say then some (now s) else ev⟩
  let s := { s with fabric := { s.fabric with denials := d :: s.fabric.denials.filter fun d => d.flow != f } }
  if n = 8 then
    if s.fabric.frozen.length < 256 then
      (frozenEvent { s with fabric := { s.fabric with frozen := s.fabric.frozen ++ [f] } } f 1, say)
    else (frozenEvent s f 2, say)
  else (s, say)

/-- A denied write (R394): its events, its count, its WACK. -/
def denyWrite (s : State) (e : Nat) (m : List Byte) (owner reason : Nat) : State :=
  let f := flowOf m owner
  let say := match s.fabric.denials.find? fun d => d.flow == f with
    | some d => (match d.event with | some t => decide (t + 1000000000 ≤ now s) | none => true)
    | none => true
  let s := if say then raiseEv s 0x5042 1 ⟨none, some owner, none⟩
      [(28, 1, e), (30, 2, fbWin m), (32, 2, fbSrc m), (34, 2, fbSlate m), (36, 1, reason), (40, 4, fbOff m)]
    else s
  sendWack (countDenial s f).1 e m 0x0702

/-- Replaces a flow record, or adds it. -/
def putFlow (l : List FlowRec) (r : FlowRec) : List FlowRec :=
  if l.any fun x => x.flow == r.flow then l.map fun x => if x.flow = r.flow then r else x else l ++ [r]

def setFlow (s : State) (r : FlowRec) : State := { s with fabric := { s.fabric with flows := putFlow s.fabric.flows r } }

/-- How R451 judges a write. -/
inductive Judged where
  | full
  | stale (r : FlowRec)
  | dup (r : FlowRec)
  | older (r : FlowRec)
  | fresh (r : FlowRec)
deriving DecidableEq, Repr

/-- The judgement of a write against its flow's record (R451). -/
def judge (s : State) (f : FlowKey) (inc seq : Nat) : Judged :=
  let run := seq / 2 ^ 20
  let bit := seq % 2 ^ 20
  let old := s.fabric.flows.find? fun r => r.flow == f
  match old with
  | none => if 256 ≤ s.fabric.flows.length then .full else .fresh ⟨f, inc, run, [bit], none⟩
  | some r =>
    let ahead := (inc + 65536 - r.inc) % 65536
    if 32768 ≤ ahead then .stale r
    else
      let r := if ahead = 0 then r else if run = r.run then { r with inc := inc } else { r with inc := inc, run := run, map := [] }
      let up := (run + 4096 - r.run) % 4096
      if 2048 ≤ up then .older r
      else
        let r := if up = 0 then r else { r with run := run, map := [] }
        if r.map.contains bit then .dup r else .fresh { r with map := bit :: r.map }

/-- A write whose application is under way at some port, with the same flow and SEQ. -/
def sameWrite (m : List Byte) (owner : Nat) (w : InWrite) : Bool :=
  !w.fwd && flowOf w.hdr w.slate == flowOf m owner && fbSeq w.hdr == fbSeq m

def countDup (s : State) : State := { s with fabric := { s.fabric with dup := satAdd 0xFFFFFFFF s.fabric.dup 1 } }

/-- A duplicate (R451): its WACK waits for the original's end. -/
def duplicateWrite (s : State) (e : Nat) (m : List Byte) (owner : Nat) : State :=
  let s := countDup s
  match s.ports.find? fun q => q.2.inWrites.any (sameWrite m owner) with
  | some q =>
    let ws := q.2.inWrites.map fun w => if sameWrite m owner w then { w with dups := w.dups ++ [m.take 32] } else w
    setPort s q.1 { q.2 with inWrites := ws }
  | none => sendWack s e m 0x0501

/-- A write of an older incarnation (R451). -/
def staleWrite (s : State) (r : FlowRec) (m : List Byte) : State :=
  let say := match r.event with | some t => decide (t + 1000000000 ≤ now s) | none => true
  let s := { s with fabric := { s.fabric with stale := satAdd 0xFFFFFFFF s.fabric.stale 1 } }
  if say then
    raiseEv (setFlow s { r with event := some (now s) }) 0x7004 1 ⟨none, some r.flow.2.2, none⟩
      [(28, 2, r.flow.1), (30, 2, r.flow.2.1), (32, 2, fbInc m), (34, 2, r.inc)]
  else s

/-- An accepted write goes to memory as a MEM_WR of the owning slate (R395). -/
def applyWrite (s : State) (e : Nat) (m : List Byte) (w : FabWindow) : State :=
  let p := getPort s e
  let t := (portTag p).getD 0
  let ws := wordsOfBytes (fbPay m)
  let arg := w.base + fbOff m + (if w.space = 3 then 2 ^ 28 else 0)
  let s := setPort s e { p with inWrites := p.inWrites ++ [⟨m.take 32, t, w.slate, false, []⟩] }
  inject s (portHome e) (fbDst m % 2) edgeInjector
    ⟨mkHdr 0xB ⟨3, fbDst m % 2, lowCore w.cl, lowCore (portHome e), w.slate, 0⟩ ws.length false arg (t * 256), ws, 2 ^ 16 + e⟩

/-- The window of a number. -/
def winOf (s : State) (n : Nat) : FabWindow := smapGet .free s.fabric.windows n

/-- A peer entry admits a source (R393). -/
def peerFits (m : List Byte) (q : Nat × Nat) : Bool := q.1 == fbSrc m && (q.2 == 0xFFF || q.2 == fbSlate m)

/-- A WWRITE addressed to this module (R394, R395). -/
def windowWrite (s : State) (e : Nat) (m : List Byte) : State :=
  let w := winOf s (fbWin m)
  if w.state ≠ .free ∧ s.fabric.frozen.contains (flowOf m w.slate) then sendWack s e m 0x0703
  else if w.state ≠ .opened then sendWack s e m 0x0701
  else if !w.peers.any (peerFits m) then denyWrite s e m w.slate 1
  else if w.len < fbOff m + fbLen m / 4 then denyWrite s e m w.slate 2
  else
    match judge s (flowOf m w.slate) (fbInc m) (fbSeq m) with
    | .full => sendWack s e m 0x0301
    | .stale r => staleWrite s r m
    | .older r => sendWack (countDup (setFlow s r)) e m 0x0501
    | .dup r => duplicateWrite (setFlow s r) e m w.slate
    | .fresh r => applyWrite (setFlow s r) e m w

/-- The application of a write has ended (R395, R451). -/
def writeEnded (s : State) (e : Nat) (w : InWrite) (status : Nat) : State :=
  let f := flowOf w.hdr w.slate
  let s := if status = 0 then s else
    match s.fabric.flows.find? fun r => r.flow == f with
    | some r => setFlow s { r with map := r.map.filter (· != fbSeq w.hdr % 2 ^ 20) }
    | none => s
  let s := sendWack s e w.hdr status
  w.dups.foldl (fun s d => sendWack s e d 0x0501) s

/-- A MEM_WR of a port is acknowledged or returned (R312, R395): `status` of the acknowledgement. -/
def portAck (s : State) (e tag status : Nat) : State :=
  let p := getPort s e
  match p.inWrites.find? fun w => w.tag == tag with
  | none => s
  | some w =>
    let s := setPort s e { p with inWrites := p.inWrites.erase w }
    if w.fwd then
      if status ≠ 0 ∧ fbType w.hdr = 0x10 then sendWack s e w.hdr status else s
    else writeEnded s e w status

/-- A WWRITE that port `e` holds (R386, R390). An unassigned module forwards and takes none (R373). -/
def routeWrite (s : State) (e : Nat) (m : List Byte) : State :=
  if !assigned s then countMalf s
  else if fbDst m = engId s then windowWrite s e m
  else
    match fabLookup s (fbDst m) (fbHops m) with
    | (none, cause) => sendWack (noRoute s e (fbDst m) cause) e m 0x0705
    | (some out, _) =>
      let m := putLe m 8 1 (fbHops m - 1)
      if fabFits s out m then fabOut s e out m
      else sendWack (norouteEvent s e (fbDst m) 4) e m 0x0102

/-! ### Origin writes (R389, R390, R449) -/

/-- The call sheet of a core holds a WINDOW handle. -/
def hasWindow (c : Core) : Bool := c.sheet.isSome && (List.range 64).any fun h => (hEntry c h).space == 4

/-- Index of a core's call sheet among those of its slate that hold a WINDOW handle, in directory order (R449). -/
def windowIndex (s : State) (x : Scene) (k : Nat) : Nat :=
  match x.cores.find? fun p => p.1 == k with
  | none => 0
  | some (_, slot, _) =>
    (x.cores.filter fun p => x.slots.getD p.2.1 0 == x.slots.getD slot 0 && hasWindow (getCore s p.1)).findIdx fun p => p.1 == k

/-- Run number of the slate a core's call sheet is bound to. -/
def runOf (x : Scene) (k : Nat) : Nat :=
  match x.cores.find? fun p => p.1 == k with
  | some (_, slot, _) => x.runs.getD slot 0
  | none => 0

/-- The fabric header a gateway builds (R390). -/
def originHdr (s : State) (e : Nat) (p : Packet) (seq : Nat) : List Byte :=
  let w0 := (p.payload.getD 0 0).toNat
  record 32 [(0, 1, 0x10), (1, 1, 2), (2, 2, 4 * (p.payload.length - 2)), (4, 2, w0 % 2 ^ 15), (6, 2, engId s), (8, 1, 8),
    (10, 2, pSlate p.hdr), (12, 2, (getSlate s (pSlate p.hdr)).inc.toNat), (14, 2, bits w0 16 14), (16, 4, seq),
    (20, 4, (p.payload.getD 1 0).toNat), (26, 3, pSrc p.hdr), (29, 1, bits (pArg2 p.hdr) 8 8), (30, 1, e)]

/-- An origin MEM_WR at its gateway port. -/
def originWrite (s : State) (e : Nat) (p : Packet) (plane : Nat) : State :=
  let k := pSrc p.hdr
  let w : PortWait := ⟨p, plane, 0, 0⟩
  let dst := bits (p.payload.getD 0 0).toNat 0 15
  if !assigned s then portWriteReply (noRoute s e dst 3) e w 0x0705
  else
    match sceneOf s (getCore s k) with
    | none => portWriteReply (countRetired s (pSlate p.hdr)) e w 0x0402
    | some x =>
      let o := ((x.winCount.find? fun q => q.1 == k).map (·.2)).getD 0
      if 4096 ≤ o then portWriteReply s e w 0x0301
      else
        let seq := runOf x k * 2 ^ 20 + windowIndex s x k * 2 ^ 12 + o
        let s := setScene s { x with winCount := (k, o + 1) :: x.winCount.filter fun q => q.1 != k }
        let q := getPort s e
        let s := setPort s e { q with
          outWrites := q.outWrites ++ [⟨seq, dst, bits (p.payload.getD 0 0).toNat 16 14, p, plane⟩] }
        routeWrite s e (originHdr s e p seq ++ wordsBytes (p.payload.drop 2))

/-- A window write times out (R391). -/
def outTimeout (s : State) (e : Nat) (o : OutWrite) : State :=
  let p := getPort s e
  let n := (p.outWrites.filter fun x => x.dst == o.dst).length
  let s := match oncePerSec s 0x44 o.dst with
    | (s', true) => raiseEv s' 0x5044 1 noFrame [(28, 1, e), (30, 2, o.dst), (32, 2, o.win), (34, 2, n)]
    | (s', false) => s'
  let q := getPort s e
  portWriteReply (setPort s e { q with outWrites := q.outWrites.erase o }) e ⟨o.pkt, o.plane, 0, 0⟩ 0x0601

/-! ### Peers (R379) -/

/-- A fabric header of a type that is not routed by the table. -/
def fbHdr (typ len dst src hops status : Nat) : List Byte :=
  record 32 [(0, 1, typ), (2, 2, len), (4, 2, dst), (6, 2, src), (8, 1, hops), (24, 2, status)]

/-- Sends FHELLO. -/
def sendFhello (s : State) (e : Nat) : State :=
  if fabUp s e then
    fabSend s e (fbHdr 1 24 0 0 0 0 ++ record 24
      [(0, 1, 1), (1, 1, 2), (2, 2, engId s), (4, 1, e), (5, 1, 1), (6, 2, 3), (8, 8, s.otp.serial.toNat)])
  else s

/-- FHELLO on every link, as at each change of FAB_ID. -/
def fhelloAll (s : State) : State := (List.range 120).foldl sendFhello s

/-- Sets the engine ID; event 0x5041 and FHELLO follow (R379, R381, R382). -/
def setEngId (s : State) (id from0 : Nat) : State :=
  let old := engId s
  let s := { s with fabric := { s.fabric with engId := BitVec.ofNat 15 id } }
  fhelloAll (raiseEv s 0x5041 1 noFrame [(28, 1, from0), (30, 2, old), (32, 2, id)])

/-- A received FHELLO. -/
def fhelloIn (s : State) (e : Nat) (m : List Byte) : State :=
  let b := fbPay m
  let lo := max 1 (getLe b 0 1)
  let hi := min 2 (getLe b 1 1)
  let v := if lo ≤ hi then hi else 0
  let p := getPort s e
  let p' := { p with
    peer0 := BitVec.ofNat 32 (getLe b 2 2 % 2 ^ 15 + 2 ^ 15 + getLe b 4 1 % 2 ^ 7 * 2 ^ 16 + v * 2 ^ 24)
    peerSerial := BitVec.ofNat 64 (getLe b 8 8), peerGen := BitVec.ofNat 8 (getLe b 5 1) }
  let s := setPort s e p'
  if p'.peer0 = p.peer0 ∧ p'.peerSerial = p.peerSerial ∧ p'.peerGen = p.peerGen then s
  else raiseEv s 0x5040 0 noFrame
    [(28, 1, e), (29, 1, v), (30, 2, getLe b 2 2), (32, 8, getLe b 8 8), (40, 1, getLe b 4 1), (41, 1, getLe b 5 1)]

/-! ### Discovery (R380, R381) -/

/-- The DISC_RSP payload after the route. -/
def discInfo (s : State) : List Byte :=
  record 17 [(0, 2, engId s), (2, 8, s.otp.serial.toNat), (10, 2, s.otp.device.toNat), (12, 1, s.otp.revision.toNat),
    (13, 1, 1), (14, 1, 2), (15, 1, 1), (16, 1, 2)]
  ++ (List.range 120).map fun e =>
    let p := getPort s e
    let l := match p.link with | .disabled => 0 | .training => 1 | .up => 2 | .mismatch => 3
    BitVec.ofNat 8 (l + if p.role then 4 else 0)

/-- A discovery answer, on its way back to the hop before. -/
def discAnswer (s : State) (typ : Nat) (m : List Byte) (rest : List Byte) (status : Nat) : List Byte :=
  let route := putLe ((fbPay m).take 18) 1 1 (getLe (fbPay m) 1 1 - 1)
  fbHdr typ (route.length + rest.length) 0x7FFF (engId s) (getLe (fbPay m) 0 1) status ++ route ++ rest

/-- Sends a discovery answer on its way back: out of the port it came by. -/
def discBack (s : State) (e typ : Nat) (m : List Byte) (rest : List Byte) (status : Nat) : State :=
  fabSend s e (discAnswer s typ m rest status)

/-- The walk of a packet handed over to port `e` ends there, its link having gone down since: DISC_RSP goes back by the ingress port
recorded at this hop (R380). -/
def discStop (s : State) (e : Nat) (m : List Byte) : State :=
  let i := getLe m 33 1 - 1
  fabOut s e (getLe m (42 + i) 1) (discAnswer s 3 (putLe m 33 1 i) (discInfo s) 0x0705)

/-- The engine ID that an ID_ASSIGN carries is taken by an unassigned target (R381). -/
def idAssignHere (s : State) (e : Nat) (m : List Byte) : State :=
  if assigned s then discBack s e 5 m (leBytes 2 (engId s)) 0x0202
  else
    let s := setEngId s (getLe (fbPay m) 18 2) e
    discBack s e 5 m (leBytes 2 (engId s)) 0

/-- DISC_REQ and ID_ASSIGN at a module: recorded, then answered or sent on (R380). -/
def discWalk (s : State) (e : Nat) (m : List Byte) : State :=
  let i := getLe m 33 1
  let m := if i < 8 then putLe m (42 + i) 1 e else m
  if fbHops m = 0 then
    if fbType m = 2 then discBack s e 3 m (discInfo s) 0 else idAssignHere s e m
  else
    let out := getLe m (34 + i) 1
    if i < getLe m 32 1 ∧ i < 8 ∧ out < 120 ∧ fabUp s out = true then
      fabOut s e out (putLe (putLe m 33 1 (i + 1)) 8 1 (fbHops m - 1))
    else discBack s e 3 m (discInfo s) 0x0705

/-- The discovery command ends with a payload (R380). -/
def discDone (s : State) (m : List Byte) : State :=
  match s.works.discovery with
  | none => s
  | some (cmd, addr, _) =>
    let s := { s with works := { s.works with discovery := none } }
    let s := hostWrite s cmd.port addr.toNat (fbPay m)
    finish s cmd (fbStatus m) []

/-- DISC_RSP and ID_ASSIGN_ACK at a module: at the origin the command ends, elsewhere they go on (R380). -/
def discReturn (s : State) (e : Nat) (m : List Byte) : State :=
  let i := getLe m 33 1
  if i = 0 then discDone s m
  else
    let out := getLe m (42 + i) 1
    if i < 8 ∧ out < 120 ∧ fabUp s out = true then fabOut s e out (putLe (putLe m 33 1 (i - 1)) 8 1 (fbHops m - 1)) else s

/-! ### Reception (R373, R376) -/

/-- Splits a Vexaz payload into fabric packets; what is left over is kept as one. -/
def fabSplit : Nat → List Byte → List (List Byte)
  | 0, _ => []
  | fuel + 1, bs =>
    if bs.isEmpty then []
    else
      let n := 32 + fbLen bs
      if bs.length < n then [bs] else bs.take n :: fabSplit fuel (bs.drop n)

/-- A fabric packet received on a port: malformed ones and those that R373 refuses are discarded, the others wait for
their rows. -/
def fabIn (s : State) (e cls : Nat) (m : List Byte) : State :=
  if fbMalformed m then
    match oncePerSec (countMalf s) 0x47 0 with
    | (s', true) => raiseEv s' 0x5047 2 noFrame [(28, 1, e), (32, 32, leNat ((m ++ List.replicate 32 0).take 32))]
    | (s', false) => s'
  else if fbType m ≠ 1 ∧ (if fbDisc m then decide (assigned s = false ∧ fbDst m ≠ 0x7FFF) else decide (assigned s = false) || decide (fbDst m = 0x7FFF)) = true then
    countMalf s
  else
    let p := getPort s e
    setPort s e { p with msgs := p.msgs ++ [(cls, m)] }

/-- What a port holds that a row of a type may take: an FHELLO is handled before what came after it. -/
def fabSeen (p : Port) (typ : Nat) : List (Nat × List Byte) :=
  if typ = 1 then p.msgs else p.msgs.takeWhile fun m => fbType m.2 != 1

/-- The first packet of a type that a port holds: from its link, or handed over
by another port. The state without it, the packet, and the mesh packet that carried it. -/
def fabTake (s : State) (e typ : Nat) : Option (State × List Byte × Option (Packet × Nat)) :=
  let p := getPort s e
  match (fabSeen p typ).find? fun m => fbType m.2 == typ && (m.1 != 0) with
  | some m => some (setPort s e { p with msgs := p.msgs.erase m }, m.2, none)
  | none =>
    let form (q : Packet × Nat) : List Byte :=
      let b := wordsBytes q.1.payload
      b.take (32 + fbLen b)
    match p.inbox.find? fun q => decide (2 ^ 16 ≤ q.1.note) && pType q.1.hdr == 0xB && fbType (form q) == typ with
    | some q => some (setPort s e { p with inbox := p.inbox.erase q }, form q, some q)
    | none => none

/-- A packet handed over to port `e` leaves by its link. Where the link is down, or cannot express the packet, it ends as R378, R380 and
R386 say of its type; an unassigned module forwards discovery alone (R373). -/
def fabLeave (s : State) (e : Nat) (m : List Byte) : State :=
  let typ := fbType m
  if !assigned s && !fbDisc m then countMalf s
  else if typ = 0x10 ∧ retiredPkt s m = true then dropRetired s m
  else if typ = 0x11 ∧ fbSrc m = engId s then gatewayDone s e m
  else if !fabUp s e then
    if typ = 0x10 then sendWack (noRoute s e (fbDst m) 1) e m 0x0705
    else if typ = 0x11 then noRoute s e (fbSrc m) 1
    else if typ = 2 ∨ typ = 4 then discStop s e m
    else s
  else if typ = 0x10 ∧ fabFits s e m = false then sendWack (norouteEvent s e (fbDst m) 4) e m 0x0102
  else if typ = 0x11 ∧ fabFits s e m = false then countNoroute s
  else fabSend s e m

/-- A row of the fabric layer: a packet from the link is handled, but for one other than FHELLO on a link that has no fabric version,
which carries none (R379, log entry 102). One handed over by another port is acknowledged and goes out, or, for a WACK of this gateway,
is handled. -/
def fabRow (s : State) (e typ : Nat) (act : State → List Byte → State) : State :=
  if (portTag (getPort s e)).isNone then s
  else
    match fabTake s e typ with
    | none => s
    | some (s', m, none) => pfcCheck (if typ = 1 ∨ fabVer (getPort s e) ≠ 0 then act s' m else s') e
    | some (s', m, some q) => fabLeave (portWriteReply s' e ⟨q.1, q.2, 0, 0⟩ 0) e m

/-! ### Windows that close (R396, R451) -/

/-- Every accepted write into a window has been applied. -/
def windowQuiet (s : State) (n : Nat) : Bool :=
  !s.ports.any fun q => q.2.inWrites.any fun w => !w.fwd && fbWin w.hdr == n

/-- A window that is not FREE lists a flow's source under its owner. -/
def flowNeeded (l : SMap FabWindow) (r : FlowRec) : Bool :=
  l.any fun w => w.2.state != .free && w.2.slate == r.flow.2.2 && w.2.peers.any fun q => q.1 == r.flow.1

/-- Frees the flow records whose owner holds no window listing their source. -/
def flowsTrim (s : State) : State :=
  { s with fabric := { s.fabric with flows := s.fabric.flows.filter (flowNeeded s.fabric.windows) } }

/-- A CLOSING window becomes FREE. -/
def windowFree (s : State) (n : Nat) : State :=
  flowsTrim { s with fabric := { s.fabric with windows := smapSet .free s.fabric.windows n .free } }

/-- A window starts to close. -/
def windowShut (s : State) (n : Nat) : State :=
  let w := winOf s n
  if w.state = .opened then
    { s with fabric := { s.fabric with windows := smapSet .free s.fabric.windows n { w with state := .closing } } }
  else s

/-! ### ROUTE_ALTERNATE (R387) -/

/-- The next choice after `sel` whose port is up. -/
def nextChoice (s : State) (w : Word) (sel : Nat) : Option Nat :=
  [1, 2, 3].findSome? fun d =>
    let c := (sel + d) % 4
    if choiceOf w c < 120 ∧ fabUp s (choiceOf w c) = true then some c else none

/-- Entries that used a port that went down move to their next choice; one 0x5045 tells of the link-down, whether any moved or not. -/
def routeAlternate (s : State) (e : Nat) : State :=
  let hit := s.fabric.dest.filter fun q => q.2.getLsbD 31 && choiceOf q.2 (bits q.2.toNat 28 2) == e
  let moved := hit.filter fun q => (nextChoice s q.2 (bits q.2.toNat 28 2)).isSome
  let dest := s.fabric.dest.map fun q =>
    if q.2.getLsbD 31 && choiceOf q.2 (bits q.2.toNat 28 2) == e then
      match nextChoice s q.2 (bits q.2.toNat 28 2) with
      | some c => (q.1, BitVec.ofNat 32 (q.2.toNat - bits q.2.toNat 28 2 * 2 ^ 28 + c * 2 ^ 28))
      | none => q
    else q
  raiseEv { s with fabric := { s.fabric with dest := dest } } 0x5045 1 noFrame
    [(28, 1, e), (30, 2, moved.length), (32, 2, hit.length - moved.length)]

/-- ROUTE_ALTERNATE, where it is armed, acts on the link-down of a FABRIC port (R387). -/
def routeFallback (s : State) (e : Nat) : State :=
  if (getPolicy s 6).armed && (getPort s e).role then routeAlternate s e else s

end Sys2Proof.Machine
end

