-- ==== Sys2Proof/Machine/ImageOps.lean ====
section
/-! DEFINITION. Storyboard images: their records, and the checks of R195, R208, R255, R271 to R276. -/

namespace Sys2Proof.Machine

open Sys2Proof

/-! ### Records (R271 to R273) -/

/-- Word `i` of an image. -/
def iw (m : List Word) (i : Nat) : Nat := (m.getD i 0).toNat

def imLength (m : List Word) : Nat := iw m 1

def imScenes (m : List Word) : Nat := bits (iw m 2) 0 11

/-- Word `j` of scene record `i`, and its offset. -/
def scOff (m : List Word) (i : Nat) : Nat := iw m 3 + 16 * i

def scW (m : List Word) (i j : Nat) : Nat := iw m (scOff m i + j)

def scNumber (m : List Word) (i : Nat) : Nat := bits (scW m i 0) 0 16

def scRects (m : List Word) (i : Nat) : Nat := bits (scW m i 0) 16 5 + 1

def scCut (m : List Word) (i : Nat) : Bool := (scW m i 0).testBit 21

def scSlots (m : List Word) (i : Nat) : Nat := bits (scW m i 0) 22 6 + 1

def scSheets (m : List Word) (i : Nat) : Nat := bits (scW m i 2) 0 18

def scDirFirst (m : List Word) (i : Nat) : Nat := scW m i 3

def scEdges (m : List Word) (i : Nat) : Nat := scW m i 4

def scClaps (m : List Word) (i : Nat) : Nat := bits (scW m i 5) 0 16

def scKeeps (m : List Word) (i : Nat) : Nat := bits (scW m i 5) 16 7

/-- KF_DEST: 0 in place, 1 host memory, 2 reel store. -/
def scKf (m : List Word) (i : Nat) : Nat := bits (scW m i 5) 23 2

def scResumes (m : List Word) (i : Nat) : Nat := bits (scW m i 5) 25 5

def scReels (m : List Word) (i : Nat) : Nat := bits (scW m i 9) 0 16

/-- Offset of directory entry `j` of scene `i`. -/
def dirOff (m : List Word) (i j : Nat) : Nat := iw m 4 + 2 * (scDirFirst m i + j)

/-- A scene's directory: core as the image names it, and offset of its call sheet. -/
def dirOf (m : List Word) (i : Nat) : List (Nat × Nat) :=
  (List.range (scSheets m i)).map fun j => (bits (iw m (dirOff m i j)) 0 18, iw m (dirOff m i j + 1))

/-- A scene's rectangle words. -/
def rectsOf (m : List Word) (i : Nat) : List Nat := (List.range (scRects m i)).map fun j => iw m (scW m i 1 + j)

/-- The cluster lies in a rectangle. -/
def inRect (r cl : Nat) : Bool :=
  decide (bits r 0 6 ≤ cl % 64) && decide (cl % 64 ≤ bits r 12 6) && decide (bits r 6 6 ≤ cl / 64) && decide (cl / 64 ≤ bits r 18 6)

/-- The clusters of a rectangle. -/
def rectCls (r : Nat) : List Nat :=
  (List.range (bits r 18 6 + 1 - bits r 6 6)).flatMap fun y =>
    (List.range (bits r 12 6 + 1 - bits r 0 6)).map fun x => (bits r 6 6 + y) * 64 + (bits r 0 6 + x)

def rectSlot (r : Nat) : Nat := bits r 24 6

def standin (r : Nat) : Bool := r.testBit 30

/-- A scene's region: all its rectangles, stand-ins included (R478). -/
def regionIm (m : List Word) (i : Nat) : List Nat := (rectsOf m i).flatMap rectCls

/-- Slot of a core's cluster among the rectangles that are not stand-ins. -/
def slotOfCore (m : List Word) (i k : Nat) : Option Nat :=
  ((rectsOf m i).find? fun r => !standin r && inRect r (clOf k)).map rectSlot

/-- The cluster lies in a rectangle of the slot. -/
def slotHolds (m : List Word) (i slot cl : Nat) : Bool := (rectsOf m i).any fun r => decide (rectSlot r = slot) && inRect r cl

/-- A clapper initialiser: address, EXPECT, slot. -/
def clapInits (m : List Word) (i : Nat) : List (Nat × Nat × Nat) :=
  (List.range (scClaps m i)).map fun j =>
    let w := iw m (scW m i 6 + 2 * j + 1)
    (iw m (scW m i 6 + 2 * j), bits w 0 16, bits w 16 6)

/-- A keep range: space, slot, first word, words, target. -/
structure Keep where
  space : Nat
  slot : Nat
  base : Nat
  len : Nat
  target : Nat
deriving DecidableEq, Repr

/-- `n` keep ranges at an offset. -/
def keepsAt (m : List Word) (off n : Nat) : List Keep :=
  (List.range n).map fun j =>
    ⟨bits (iw m (off + 4 * j)) 0 3, bits (iw m (off + 4 * j)) 3 6, iw m (off + 4 * j + 1), iw m (off + 4 * j + 2),
      iw m (off + 4 * j + 3)⟩

def keepsOf (m : List Word) (i : Nat) : List Keep := keepsAt m (scW m i 7) (scKeeps m i)

/-- Offset of resume point `r`. -/
def resOff (m : List Word) (i r : Nat) : Nat := scW m i 8 + 4 * r

def resAddr (m : List Word) (i r : Nat) : Nat := iw m (resOff m i r)

def resPhase (m : List Word) (i r : Nat) : Nat := bits (iw m (resOff m i r + 1)) 0 16

def resKeeps (m : List Word) (i r : Nat) : List Keep :=
  keepsAt m (iw m (resOff m i r + 2)) (bits (iw m (resOff m i r + 1)) 16 7)

/-- Entry PC of directory entry `j` at a resume point. -/
def resPc (m : List Word) (i r j : Nat) : Nat := bits (iw m (iw m (resOff m i r + 3) + j / 2)) (16 * (j % 2)) 16

/-- A scene's reels: ID, port, blocks. -/
def reelsOf (m : List Word) (i : Nat) : List (Nat × Nat × Nat) :=
  (List.range (scReels m i)).map fun j =>
    let w := iw m (scW m i 10 + 2 * j)
    (bits w 0 24, bits w 24 7, iw m (scW m i 10 + 2 * j + 1))

/-! ### Call sheets (R192 to R195, R208, R255) -/

/-- The words of the call sheet at an offset: 400 and its program. -/
def sheetAt (m : List Word) (off : Nat) : List Word := (m.drop off).take (400 + bits (iw m (off + 1)) 12 13)

/-- First of the listed offsets whose test fails. -/
def firstBad (l : List (Nat × Bool)) : Option Nat := (l.find? fun p => !p.2).map (·.1)

/-- Reserved bits at `lo` and above are zero. -/
def high0 (w lo : Nat) : Bool := decide (w / 2 ^ lo = 0)

/-- Header words that differ from R193. -/
def sheetHeader (m : List Word) (o : Nat) : List (Nat × Bool) :=
  let w (i : Nat) := iw m (o + i)
  [(o, decide (w 0 = 0x0001CA11)),
   (o + 1, high0 (w 1) 25 && decide (1 ≤ bits (w 1) 12 13) && decide (bits (w 1) 12 13 ≤ 4096)
      && decide (bits (w 1) 0 12 < bits (w 1) 12 13)),
   (o + 2, high0 (w 2) 28),
   (o + 3, high0 (w 3) 7 && (decide (bits (w 3) 0 5 = 0) || decide (16 ≤ bits (w 3) 0 5))),
   (o + 4, decide (w 4 = 0)), (o + 5, decide (w 5 = 0)), (o + 6, decide (w 6 = 0)), (o + 7, decide (w 7 = 0))]

/-- Counter bindings: reserved bits, kinds of R179, and no two of one kind and index. -/
def sheetBinds (m : List Word) (o : Nat) : List (Nat × Bool) :=
  (List.range 16).map fun i =>
    let w := iw m (o + 56 + i)
    (o + 56 + i, high0 w 8 && decide (bits w 0 4 ≤ 3)
      && (decide (bits w 0 4 = 0) || !(List.range i).any fun j => decide (bits (iw m (o + 56 + j)) 0 8 = bits w 0 8)))

/-- Receive queue words (R194, R255). -/
def sheetQueues (m : List Word) (o : Nat) : List (Nat × Bool) :=
  (List.range 16).flatMap fun q =>
    let a := o + 72 + 2 * q
    let w := iw m a
    let p := iw m (a + 1)
    let mode := bits w 1 2
    [(a, if w.testBit 0 then high0 w 16 && decide (mode ≠ 3)
          && (decide (mode ≠ 2) ||
            (decide (q % 2 = 0) && !(iw m (a + 2)).testBit 0 && decide (bits w 3 7 = bits p 17 7)))
        else decide (w = 0)),
     (a + 1, if w.testBit 0 ∧ mode = 2 then
          high0 p 24 && (!p.testBit 16 || decide (bits p 17 7 % 2 = 1))
            && decide (bits p 0 16 + 33 < limitOf (bits (iw m (o + 3)) 5 2))
        else decide (p = 0))]

/-- Output edge words (R194, R195). -/
def sheetEdges (m : List Word) (o : Nat) : List (Nat × Bool) :=
  (List.range 16).flatMap fun e =>
    let a := o + 104 + 2 * e
    let w := iw m a
    let x := iw m (a + 1)
    [(a, if x.testBit 0 then high0 w 25 else decide (w = 0)),
     (a + 1, if x.testBit 0 then high0 x 15
          && (decide (bits w 23 2 ≠ 0) || decide (bits x 2 7 < 16))
          && (!x.testBit 1 || (List.range 16).any fun i => decide (bits (iw m (o + 56 + i)) 0 8 = 3 + 16 * e))
        else decide (x = 0))]

/-- A handle entry, SLATE and GEN apart (R208): first word that differs. -/
def sheetHandle (m : List Word) (o h : Nat) : List (Nat × Bool) :=
  let a := o + 136 + 4 * h
  let e := hEntryOf (iw m a) (iw m (a + 1)) (iw m (a + 2)) (iw m (a + 3))
  let split := bits (iw m (o + 3)) 5 2
  if e.space = 0 then
    (List.range 4).map fun i => (a + i, decide (if i = 0 then bits (iw m a) 0 8 = 0 else iw m (a + i) = 0))
  else
    [(a, decide (e.space ≤ 5) && decide (bits (iw m a) 7 1 = 0)
        && (!e.cached || ((e.space == 2 || e.space == 3) && decide (split ≠ 0)))),
     (a + 2, decide (1 ≤ e.len) && decide (e.base + e.len ≤ 2 ^ 32)
        && (decide (e.space ≠ 1) || decide (e.base + e.len ≤ limitOf split))
        && (decide (e.space ≠ 2) || decide (e.base + e.len ≤ cmWords))),
     (a + 3, match e.space with
        | 1 => decide (e.target = 0)
        | 2 => clTargetOk e.target
        | 3 => decide (e.target < 4096)
        | 4 => decide (e.target < 2 ^ 29)
        | 5 => decide (bits e.target 7 1 = 0)
        | _ => true)]

def sheetHandles (m : List Word) (o : Nat) : List (Nat × Bool) := (List.range 64).flatMap fun h => sheetHandle m o h

/-- Stand-in words (R192). -/
def sheetStandins (m : List Word) (o : Nat) : List (Nat × Bool) :=
  (List.range 8).map fun i => (o + 392 + i, decide (bits (iw m (o + 392 + i)) 18 13 = 0))

/-- The checks of R195 and R208 that do not depend on the binding: the offset of the first word that fails. -/
def sheetBad (m : List Word) (o : Nat) : Option Nat :=
  firstBad (sheetHeader m o ++ sheetBinds m o ++ sheetQueues m o ++ sheetEdges m o ++ sheetHandles m o ++ sheetStandins m o)

/-! ### The checks of R276 -/

/-- A list of `n` units of `k` words at an offset lies within the image. -/
def within (m : List Word) (off n k : Nat) : Bool := decide (off + n * k ≤ imLength m)

/-- Header (R271). -/
def imHeader (m : List Word) : List (Nat × Bool) :=
  [(0, decide (bits (iw m 0) 0 16 = 0x5B0A)), (0, decide (bits (iw m 0) 16 8 = 1)),
   (7, decide (crc32c ((m.set 7 0).flatMap fun w => leBytes 4 w.toNat) = iw m 7)),
   (0, high0 (iw m 0) 24), (2, high0 (iw m 2) 11 && decide (1 ≤ imScenes m) && decide (imScenes m ≤ 1024)),
   (5, decide (iw m 5 = 0)), (6, decide (iw m 6 = 0)), (3, within m (iw m 3) (imScenes m) 16)]

/-- Keep range words at an offset. -/
def keepForm (m : List Word) (off n : Nat) : List (Nat × Bool) :=
  (List.range n).map fun j =>
    let w := iw m (off + 4 * j)
    (off + 4 * j, high0 w 9 && decide (1 ≤ bits w 0 3) && decide (bits w 0 3 ≤ 3))

/-- A scene's record, then its lists (R272, R273). -/
def sceneForm (m : List Word) (i : Nat) : List (Nat × Bool) :=
  let a := scOff m i
  [(a, high0 (scW m i 0) 28), (a + 1, within m (scW m i 1) (scRects m i) 1),
   (a + 2, high0 (scW m i 2) 18 && decide (1 ≤ scSheets m i) && decide (scSheets m i ≤ 229376)),
   (a + 3, within m (dirOff m i 0) (scSheets m i) 2),
   (a + 5, high0 (scW m i 5) 30 && decide (scKeeps m i ≤ 64) && decide (scKf m i ≠ 3) && decide (scResumes m i ≤ 16)),
   (a + 6, within m (scW m i 6) (scClaps m i) 2), (a + 7, within m (scW m i 7) (scKeeps m i) 4),
   (a + 8, within m (scW m i 8) (scResumes m i) 4), (a + 9, high0 (scW m i 9) 16),
   (a + 10, within m (scW m i 10) (scReels m i) 2), (a + 11, decide (scW m i 11 = 0)), (a + 12, decide (scW m i 12 = 0)),
   (a + 13, decide (scW m i 13 = 0)), (a + 14, decide (scW m i 14 = 0)), (a + 15, decide (scW m i 15 = 0))]

/-- The auxiliary entries and call sheet extents of a scene. -/
def sceneLists (m : List Word) (i : Nat) : List (Nat × Bool) :=
  ((List.range (scRects m i)).map fun j => (scW m i 1 + j, decide (bits (iw m (scW m i 1 + j)) 31 1 = 0)))
  ++ ((List.range (scSheets m i)).flatMap fun j =>
      let d := dirOff m i j
      let o := iw m (d + 1)
      [(d, high0 (iw m d) 18),
       (d + 1, within m o 1 400 && within m o 1 (400 + bits (iw m (o + 1)) 12 13))])
  ++ ((List.range (scClaps m i)).flatMap fun j =>
      let c := scW m i 6 + 2 * j
      [(c, high0 (iw m c) 22), (c + 1, high0 (iw m (c + 1)) 22)])
  ++ keepForm m (scW m i 7) (scKeeps m i)
  ++ ((List.range (scResumes m i)).flatMap fun r =>
      let o := resOff m i r
      let n := bits (iw m (o + 1)) 16 7
      [(o, high0 (iw m o) 22), (o + 1, high0 (iw m (o + 1)) 23 && decide (1 ≤ n) && decide (n ≤ 64)),
       (o + 2, within m (iw m (o + 2)) n 4), (o + 3, within m (iw m (o + 3)) (ceilDiv (scSheets m i) 2) 1)]
      ++ keepForm m (iw m (o + 2)) n)
  ++ ((List.range (scReels m i)).map fun j => (scW m i 10 + 2 * j, high0 (iw m (scW m i 10 + 2 * j)) 31))

/-- Rectangles outside the grid, or overlapping an earlier one. -/
def sceneRects (m : List Word) (i : Nat) : List (Nat × Bool) :=
  (List.range (scRects m i)).map fun j =>
    let r := iw m (scW m i 1 + j)
    (scW m i 1 + j, decide (bits r 0 6 ≤ bits r 12 6) && decide (bits r 6 6 ≤ bits r 18 6) && decide (bits r 18 6 < 56)
      && !(List.range j).any fun l =>
        let q := iw m (scW m i 1 + l)
        decide (bits q 0 6 ≤ bits r 12 6) && decide (bits r 0 6 ≤ bits q 12 6)
          && decide (bits q 6 6 ≤ bits r 18 6) && decide (bits r 6 6 ≤ bits q 18 6))

/-- SLOT of the keep ranges at an offset. -/
def keepSlots (m : List Word) (i off n : Nat) : List (Nat × Bool) :=
  (List.range n).map fun j => (off + 4 * j, decide (bits (iw m (off + 4 * j)) 3 6 < scSlots m i))

/-- Slots out of range, or without a rectangle of their own. -/
def sceneSlots (m : List Word) (i : Nat) : List (Nat × Bool) :=
  ((List.range (scRects m i)).map fun j => (scW m i 1 + j, decide (rectSlot (iw m (scW m i 1 + j)) < scSlots m i)))
  ++ ((List.range (scClaps m i)).map fun j =>
      let a := scW m i 6 + 2 * j + 1
      (a, decide (bits (iw m a) 16 6 < scSlots m i)))
  ++ keepSlots m i (scW m i 7) (scKeeps m i)
  ++ ((List.range (scResumes m i)).flatMap fun r =>
      keepSlots m i (iw m (resOff m i r + 2)) (bits (iw m (resOff m i r + 1)) 16 7))
  ++ (List.range (scSlots m i)).map fun t =>
      (scOff m i, (rectsOf m i).any fun r => decide (rectSlot r = t) && !standin r)

/-- Call sheets that fail their own checks, or whose SCENE differs. -/
def sceneSheets (m : List Word) (i : Nat) : List (Nat × Bool) :=
  (dirOf m i).map fun d =>
    match sheetBad m d.2 with
    | some w => (w, false)
    | none => (d.2 + 2, decide (bits (iw m (d.2 + 2)) 12 16 = scNumber m i))

/-- Templates that hold a SLATE or a GEN (R274). -/
def sceneTemplates (m : List Word) (i : Nat) : List (Nat × Bool) :=
  (dirOf m i).flatMap fun d =>
    (d.2 + 2, decide (bits (iw m (d.2 + 2)) 0 12 = 0)) ::
      (List.range 64).map fun h => (d.2 + 136 + 4 * h, high0 (iw m (d.2 + 136 + 4 * h)) 8)

/-- Cores outside the scene's rectangles, or named twice. -/
def sceneCores (m : List Word) (i : Nat) : List (Nat × Bool) :=
  let ks := (dirOf m i).map (·.1)
  (List.range ks.length).map fun j =>
    let k := ks.getD j 0
    (dirOff m i j, xyOk k && (slotOfCore m i k).isSome && !(ks.take j).contains k)

/-- Destinations of edges. -/
def sceneEdgeDst (m : List Word) (i : Nat) : List (Nat × Bool) :=
  (dirOf m i).flatMap fun d => (List.range 16).map fun e =>
    let a := d.2 + 104 + 2 * e
    let k := bits (iw m a) 0 18
    (a, !(iw m (a + 1)).testBit 0 || ((dirOf m i).any (fun x => x.1 == k) && slotOfCore m i k == slotOfCore m i d.1))

/-- Queues that edges deliver to. -/
def sceneEdgeQ (m : List Word) (i : Nat) : List (Nat × Bool) :=
  (dirOf m i).flatMap fun d => (List.range 16).flatMap fun e =>
    let a := d.2 + 104 + 2 * e
    let w := iw m a
    let o := (((dirOf m i).find? fun x => x.1 == bits w 0 18).map (·.2)).getD 0
    let q := iw m (o + 72 + 2 * bits w 18 4)
    let on := (iw m (a + 1)).testBit 0
    [(a, !on || q.testBit 0), (a + 1, !on || decide (bits (iw m (a + 1)) 2 7 = bits q 3 7))]

/-- Enabled edges of a scene. -/
def edgeCount (m : List Word) (i : Nat) : Nat :=
  ((dirOf m i).flatMap fun d => (List.range 16).filter fun e => (iw m (d.2 + 105 + 2 * e)).testBit 0).length

/-- REEL handles whose reel is not listed. -/
def sceneReels (m : List Word) (i : Nat) : List (Nat × Bool) :=
  (dirOf m i).flatMap fun d => (List.range 64).map fun h =>
    let a := d.2 + 136 + 4 * h
    let t := iw m (a + 3)
    (a + 3, decide (bits (iw m a) 0 3 ≠ 5) || (reelsOf m i).any fun r => r.1 == bits t 8 24 && r.2.1 == bits t 0 7)

/-- A keep range lies in clusters of its slot. -/
def keepPlaced (m : List Word) (i : Nat) (q : Keep) : Bool :=
  if q.space = 1 then xyOk q.target && high0 q.target 18 && slotHolds m i q.slot (clOf q.target)
  else clTargetOk q.target && slotHolds m i q.slot (clOfTarget q.target)

/-- Keep ranges at an offset that lie elsewhere. -/
def keepsPlaced (m : List Word) (i off n : Nat) : List (Nat × Bool) :=
  (List.range n).map fun j => (off + 4 * j, match keepsAt m (off + 4 * j) 1 with | q :: _ => keepPlaced m i q | [] => true)

/-- Clapper initialisers and keep ranges outside their slots. -/
def scenePlaces (m : List Word) (i : Nat) : List (Nat × Bool) :=
  ((List.range (scClaps m i)).map fun j =>
    let a := scW m i 6 + 2 * j
    (a, slotHolds m i (bits (iw m (a + 1)) 16 6) (bits (iw m a) 16 6 * 64 + bits (iw m a) 10 6)))
  ++ keepsPlaced m i (scW m i 7) (scKeeps m i)
  ++ (List.range (scResumes m i)).flatMap fun r =>
      keepsPlaced m i (iw m (resOff m i r + 2)) (bits (iw m (resOff m i r + 1)) 16 7)

/-- A check of every scene, in order. -/
def eachScene (m : List Word) (f : List Word → Nat → List (Nat × Bool)) : Option Nat :=
  (List.range (imScenes m)).findSome? fun i => firstBad (f m i)

/-- The first check of R276 that fails, LENGTH and the read apart: the word offset reported. A later check reads only
what the earlier ones have found to lie within the image. -/
def imageBad (m : List Word) : Option Nat :=
  [fun m => firstBad (imHeader m), (eachScene · sceneForm), (eachScene · sceneLists), (eachScene · sceneRects),
   (eachScene · sceneSlots), (eachScene · sceneSheets), (eachScene · sceneTemplates), (eachScene · sceneCores),
   (eachScene · sceneEdgeDst), (eachScene · sceneEdgeQ),
   (eachScene · fun m i => [(scOff m i + 4, decide (edgeCount m i = scEdges m i))]),
   (eachScene · sceneReels), (eachScene · scenePlaces),
   (eachScene · fun m i => [(scOff m i + 5, decide (scResumes m i = 0) || decide (scKf m i ≠ 0))])].findSome? fun f => f m

end Sys2Proof.Machine
end

