-- ==== Sys2Proof/Machine/GafferOps.lean ====
section
/-! DEFINITION. The gaffers' ceiling, shares and learned demands (R520 to R530). Powers are whole watts. -/

namespace Sys2Proof.Machine

open Sys2Proof

/-- Power factor k_n of a frame, in thousandths (R521). -/
def powerFactor (s : State) (f n : Nat) : Nat := (smapGet typicalFactor s.otp.powerFactor f).getD n 0

/-- Factory stop-0 full-activity power of a frame: R530's example unless its OTP says otherwise (log entry 4). -/
def fullPower (s : State) (f : Nat) : Nat := smapGet 1357 s.otp.fullW f

/-- The power stack measures P_IN and P_ST (R520): two free values. -/
def measure (s : State) : State :=
  let a : BitVec 17 := Config.freeValue s.freeCtr
  let b : BitVec 17 := Config.freeValue (s.freeCtr + 1)
  { s with freeCtr := s.freeCtr + 2, power := { s.power with pIn := a.toNat, pSt := b.toNat } }

/-- B × η. -/
def budgetStack (s : State) : Nat := s.power.budget * s.power.pSt / s.power.pIn

/-- The stack ceiling P_C in W and the term that sets it: 0 76 kW, 1 B × η, 2 P_Q (R525). -/
def ceiling (s : State) : Nat × Nat :=
  let b := budgetStack s
  let q := s.power.pQ
  if 76000 ≤ b ∧ 76000 ≤ q then (76000 * 95 / 100, 0)
  else if b ≤ q then (b * 95 / 100, 1)
  else (q * 95 / 100, 2)

/-- Scene signature (R527). -/
def signature (m : List Word) (i : Nat) : Word :=
  BitVec.ofNat 32 (crc32c ((((m.drop (scOff m i)).take 16) ++ (m.drop (scW m i 1)).take (scRects m i)).flatMap
    fun w => leBytes 4 w.toNat))

/-- Image of a storyboard. -/
def imageOf (s : State) (sbn : Nat) : List Word :=
  match smapGet none s.storyboards sbn with
  | some b => b.words
  | none => []

/-- Frames of a region. -/
def framesOf (region : List Nat) : List Nat := (region.map frOf).eraseDups

/-- Learned demand A_f of a frame for a signature. -/
def learnedOf (s : State) (sig : Word) (f : Nat) : Nat :=
  match s.power.learned.find? fun e => e.1 == sig with
  | some e => smapGet (fullPower s f) e.2 f
  | none => fullPower s f

/-- Scenes that run or are about to. -/
def runningScenes (s : State) : List Scene :=
  s.scenes.filter fun x => x.phase == .running || (x.phase == .admitting && decide (2 ≤ x.stage))

/-- Demand of a frame: A_f of its running scene, or the sum of those that share it, each scaled by its clusters. -/
def frameDemand (s : State) (f : Nat) : Nat :=
  match (runningScenes s).filter fun x => x.region.any fun cl => frOf cl == f with
  | [x] => learnedOf s (signature (imageOf s x.sbn) x.idx) f
  | xs => xs.foldl (fun a x =>
      a + learnedOf s (signature (imageOf s x.sbn) x.idx) f * (x.region.filter fun cl => frOf cl == f).length / 64) 0

/-- Water-fill: every frame the same power, except those whose demand lies below it. -/
def waterFill : Nat → Nat → List (Nat × Nat) → List (Nat × Nat)
  | 0, _, _ => []
  | fuel + 1, spare, ds =>
    if ds.isEmpty then []
    else
      let lvl := spare / ds.length
      let low := ds.filter fun d => decide (d.2 ≤ lvl)
      if low.isEmpty then ds.map fun d => (d.1, lvl)
      else low ++ waterFill fuel (spare - low.foldl (fun a d => a + d.2) 0) (ds.filter fun d => decide (lvl < d.2))

/-- The sharing of R528, at each admission and each close. -/
def shareOut (s : State) : State :=
  let s := measure s
  let busy := framesOf ((runningScenes s).flatMap (·.region))
  let total := s.frames.foldl (fun a q => a + q.2.power) 0
  let idle := s.frames.foldl (fun a q => if busy.contains q.1 then a else a + q.2.power) 0
  let spare := (ceiling s).1 - (s.power.pSt - total) - idle
  (waterFill (busy.length + 1) spare (busy.map fun f => (f, frameDemand s f))).foldl (fun s q =>
    setFrame s q.1 { getFrame s q.1 with share := q.2, demand := frameDemand s q.1 }) s

/-- The fastest stop from `n` on whose power fits the share, or 15. -/
def stopFor (s : State) (f a share : Nat) : Nat → Nat → Nat
  | 0, _ => 15
  | fuel + 1, n => if n < 15 ∧ share * 1000 < a * powerFactor s f n then stopFor s f a share fuel (n + 1) else min n 15

/-- Frames of a scene start it at the stop their share allows, and its energy marks are taken (R527, R528). -/
def startFrames (s : State) (x : Scene) : State :=
  let s := shareOut s
  let s := (framesOf x.region).foldl (fun s f =>
    let r := getFrame s f
    setFrame s f { r with stop := BitVec.ofNat 4 (stopFor s f r.demand r.share 16 r.limit.toNat) }) s
  let mark := (framesOf x.region).map fun f => (f, (getFrame s f).energy.toNat, (getFrame s f).ktime)
  { s with scenes := s.scenes.map fun y => if sameScene y x then { y with frameMark := mark } else y }

/-- What a frame's energy during a run teaches (R527). -/
def learnFrame (s : State) (sig : Word) (q : Nat × Nat × Nat) : Nat × Nat :=
  let r := getFrame s q.1
  let a := learnedOf s sig q.1
  let kt := r.ktime - q.2.2
  let new := (r.energy.toNat - q.2.1) * 1000 / kt
  (q.1, if kt = 0 then a else ((a : Int) + ((new : Int) - a) / 4).toNat)

/-- A run closes: demands are learned (R527). -/
def learnRun (s : State) (x : Scene) : State :=
  let sig := signature (imageOf s x.sbn) x.idx
  let new := x.frameMark.map (learnFrame s sig)
  let old := match s.power.learned.find? fun e => e.1 == sig with | some e => e.2 | none => []
  let tab := new.foldl (fun t q => smapPut t q.1 q.2) old
  { s with power := { s.power with learned := ((sig, tab) :: s.power.learned.filter fun e => e.1 != sig).take 1024 } }

/-! ### Energy of vaults and ports (R21, R541) -/

/-- The slate has work at a vault or a port: a VAULT range, a reel slot, or a window write that awaits its WACK. -/
def usesUnits (s : State) (n : Nat) : Bool :=
  (getSlate s n).ranges.any (fun r => r.space == 3)
    || s.ports.any fun q => q.2.slots.any (fun x => match x.2 with | some y => y.slate == n | none => false)
      || q.2.outWrites.any fun o => pSlate o.pkt.hdr == n

/-- A slate's counter has grown since it was last read by its shares of the vaults and ports that work for it: a free amount, their
rails having no row of their own. -/
def growSlate (s : State) (n : Nat) : State :=
  if usesUnits s n then
    let v : BitVec 32 := Config.freeValue s.freeCtr
    setSlate { s with freeCtr := s.freeCtr + 1 } n { getSlate s n with energy := (getSlate s n).energy + v.setWidth 64 }
  else s

end Sys2Proof.Machine
end

