-- ==== Sys2Proof/Machine/KeepOps.lean ====
section
/-! DEFINITION. Storyboards as loaded and remapped, keep ranges, and keyframe copies (R274, R291 to R296, R331, R478). -/

namespace Sys2Proof.Machine

open Sys2Proof

/-! ### Storyboards -/

def getBoard (s : State) (n : Nat) : Option Storyboard := smapGet none s.storyboards n

def setBoard (s : State) (n : Nat) (b : Option Storyboard) : State :=
  { s with storyboards := smapSet none s.storyboards n b }

/-- On a variant without vaults, the image of a storyboard is read again over the owner port at an admission (R275). An image that
no longer passes the checks of R276 makes the storyboard unknown to that admission (log entry 34). -/
def imageAgain (s : State) (p : HostPort) (n : Nat) : State × Bool :=
  match getBoard s n with
  | some b =>
    if noVaults s ∧ b.vault = none then
      let ws := wordsOfBytes (ramBytes (getHost s p).mem b.host.toNat (4 * b.words.length))
      if (imageBad ws).isSome then (s, false) else (setBoard s n (some { b with words := ws }), true)
    else (s, true)
  | none => (s, true)

/-- A core of a scene after the scene's substitutions, in the order they were made (R478). -/
def followCore (b : Storyboard) (idx k : Nat) : Nat :=
  b.substs.foldl (fun k q => if q.1 = idx ∧ q.2.1 = k then q.2.2 else k) k

/-- The call sheets of a scene as placed: core, slot, offset. -/
def placedSheets (b : Storyboard) (idx : Nat) : List (Nat × Nat × Nat) :=
  (dirOf b.words idx).map fun d => (followCore b idx d.1, (slotOfCore b.words idx d.1).getD 0, d.2)

/-- One word of a call sheet with its binding written in (R274, R478); `entry` replaces ENTRY_PC (R294). -/
def bindWord (b : Storyboard) (idx slate gen : Nat) (entry : Option Nat) (off i : Nat) (w : Word) : Word :=
  let v := w.toNat
  if i = 1 then
    match entry with
    | some pc => BitVec.ofNat 32 (v / 2 ^ 12 * 2 ^ 12 + pc % 2 ^ 12)
    | none => w
  else if i = 2 then BitVec.ofNat 32 (v / 2 ^ 12 * 2 ^ 12 + slate)
  else if 104 ≤ i ∧ i < 136 ∧ i % 2 = 0 ∧ (iw b.words (off + i + 1)).testBit 0 = true then
    BitVec.ofNat 32 (v / 2 ^ 18 * 2 ^ 18 + followCore b idx (v % 2 ^ 18))
  else if 136 ≤ i ∧ i < 392 ∧ i % 4 = 0 ∧ v % 8 ≠ 0 then
    BitVec.ofNat 32 (v % 2 ^ 8 + slate * 2 ^ 8 + gen * 2 ^ 20)
  else w

/-- A call sheet as installed: its words and its program. -/
def boundSheet (b : Storyboard) (idx slate gen : Nat) (entry : Option Nat) (off : Nat) : List Word :=
  (sheetAt b.words off).mapIdx (bindWord b idx slate gen entry off)

/-- Handle `h` of a call sheet. -/
def sheetEntryOf (ws : List Word) (h : Nat) : HEntry :=
  hEntryOf (iw ws (136 + 4 * h)) (iw ws (137 + 4 * h)) (iw ws (138 + 4 * h)) (iw ws (139 + 4 * h))

/-! ### Keep ranges -/

def keepPlace (b : Storyboard) (idx : Nat) (q : Keep) : Place :=
  if q.space = 1 then (1, followCore b idx (q.target % 2 ^ 18), q.base, q.len) else (q.space, clOfTarget q.target, q.base, q.len)

/-- A handle's place, on core `k`. -/
def handlePlace (k : Nat) (e : HEntry) : Place :=
  if e.space = 1 then (1, k, e.base, e.len) else (e.space, clOfTarget e.target, e.base, e.len)

/-- Two places share a word. -/
def placesMeet (a b : Place) : Bool :=
  a.1 == b.1 && a.2.1 == b.2.1 && decide (a.2.2.1 < b.2.2.1 + b.2.2.2) && decide (b.2.2.1 < a.2.2.1 + a.2.2.2)

/-- The keep ranges of an admitted or queued scene. -/
def sceneKeeps (s : State) (x : Scene) : List Place :=
  match getBoard s x.sbn with
  | some b => (keepsOf b.words x.idx).map (keepPlace b x.idx)
  | none => []

/-- A management copy reads a place. A word that fails its parity is reported and delivers nothing (R205, R226); a vault read
takes its turn at the port, and a line that fails its CRC is repaired first or fails the read (R325, R334, R335). -/
def placeRead (s : State) (p : HostPort) (a : Place) : State × RdOut :=
  let w := a.2.2.1
  let n := a.2.2.2
  if a.1 = 1 then
    let m := (getCore s a.2.1).sp
    match badWord m w n with
    | some b => (spError s a.2.1 0 b (ramLanes m b) id, .err)
    | none => (s, .ok (ramWords m w n))
  else if a.1 = 2 then
    let m := (getCl s a.2.1).mem
    match badWord m w n with
    | some b => (raiseEv s 0x2012 2 noFrame (cmDetail a.2.1 b (ramLanes m b) 66), .err)
    | none => (s, .ok (ramWords m w n))
  else if vaultTurn (getCl s a.2.1).vault { user := .mgmt p 0xF, w := w, len := n, data := none } then
    vaultRead s a.2.1 w n 3 0xFF none
  else (s, .wait)

/-- A management write of a place. A vault write takes its turn at the port, and a line it covers in part is checked first
(R325, R327). -/
def placeWrite (s : State) (p : HostPort) (a : Place) (ws : List Word) : State × RdOut :=
  let w := a.2.2.1
  if a.1 = 1 then
    let c := getCore s a.2.1
    (setCore s a.2.1 { c with sp := ramPutWords c.sp w ws }, .ok [])
  else if a.1 = 2 then
    let c := getCl s a.2.1
    (setCl s a.2.1 { c with mem := ramPutWords c.mem w ws }, .ok [])
  else if vaultTurn (getCl s a.2.1).vault { user := .mgmt p 0xF, w := w, len := ws.length, data := some ws } then
    vaultWrite s a.2.1 w ws 0xFF none
  else (s, .wait)

/-! ### Areas of a keyframe destination (R295) -/

/-- Bytes of keep ranges. -/
def keepsBytes (l : List Place) : Nat := l.foldl (fun a p => a + 4 * p.2.2.2) 0

/-- Keep ranges with their byte offsets in an area, each on a 64-byte boundary. -/
def keepLayout : List Place → Nat → List (Nat × Place)
  | [], _ => []
  | p :: ps, a => (a, p) :: keepLayout ps (a + ceilDiv (4 * p.2.2.2) 64 * 64)

/-- Bytes of an area: the largest byte total of a keyframe's ranges, rounded up to 4,096. -/
def areaBytes (b : Storyboard) (idx : Nat) : Nat :=
  let sizes := keepsBytes ((keepsOf b.words idx).map (keepPlace b idx)) ::
    (List.range (scResumes b.words idx)).map fun r => keepsBytes ((resKeeps b.words idx r).map (keepPlace b idx))
  ceilDiv (sizes.foldl max 0) 4096 * 4096

/-- The keep ranges of a keyframe: of the boundary, or of a resume point. -/
def frameKeeps (b : Storyboard) (idx : Nat) (point : Option Nat) : List Place :=
  match point with
  | none => (keepsOf b.words idx).map (keepPlace b idx)
  | some r => (resKeeps b.words idx r).map (keepPlace b idx)

/-- A copied range leaves for its destination: over the owner port, or in PUTs to the reel store. -/
def copyOut (s : State) (p : HostPort) (kf : KfDest) (off : Nat) (bs : List Byte) : State :=
  match kf with
  | .inPlace => s
  | .host a => hostWrite s p (a.toNat + off) bs
  | .reel id port => sendCopyPuts s port id off bs (bs.length / 8192 + 1)

/-- Reads bytes of a keyframe copy back. -/
def copyIn (s : State) (p : HostPort) (kf : KfDest) (off n : Nat) : List Byte :=
  match kf with
  | .inPlace => []
  | .host a => ramBytes (getHost s p).mem (a.toNat + off) n
  | .reel id port => ramBytes (smapGet Ram.zero s.reelCopies (reelKey port id)) off n

/-- Copies what is left of a job, in its order: a range that waits for its vault stays, and one that cannot be read fails the
copy. A vault line that is not repaired gives VAULT_CRC; a range whose word fails its parity never reaches its completion
point, so the copy ends with TIMEOUT (R280). -/
def copyRanges (s : State) (j : CopyJob) : List (Nat × Place) → State × CopyJob
  | [] => (s, { j with left := [] })
  | q :: qs =>
    match placeRead s j.port q.2 with
    | (s, .ok ws) => copyRanges (copyOut s j.port j.kf q.1 (wordsBytes ws)) j qs
    | (s, .wait) => (s, { j with left := q :: qs })
    | (s, .err) => (s, { j with left := q :: qs, status := if q.2.1 = 3 then 0x0901 else 0x0601 })

/-- What a copy does next: one to host memory waits while the owner port is down, and one to a store whose version carries no
PUT fails (R362). -/
def copyStep (s : State) (j : CopyJob) : State × CopyJob :=
  if j.status ≠ 0 then (s, j)
  else
    match j.kf with
    | .inPlace => (s, { j with left := [] })
    | .host _ => if (getHost s j.port).linkUp then copyRanges s j j.left else (s, j)
    | .reel _ e => if (getPort s e).reelUp ∧ (getPort s e).reelver = 1 then (s, { j with status := 0x0903 }) else copyRanges s j j.left

/-- The copy under way for a scene. -/
def copyJob (s : State) (kind : CopyKind) (sbn idx : Nat) : Option CopyJob :=
  s.works.copies.find? fun j => decide (j.kind = kind) && j.sbn == sbn && j.idx == idx

/-- Takes a copy on as far as it goes, and answers it. -/
def copyWork (s : State) (j : CopyJob) : State × CopyJob :=
  let (s, j') := copyStep s j
  ({ s with works := { s.works with copies := s.works.copies.map fun t => if t = j then j' else t } }, j')

/-- A keyframe copy starts: what it is, the scene and its key, the owner port, the destination, the keyframe and its area. -/
def copyStart (s : State) (kind : CopyKind) (b : Storyboard) (sbn idx key : Nat) (p : HostPort) (kf : KfDest)
    (point : Option Nat) (area : Nat) : State :=
  let j : CopyJob :=
    { kind := kind, sbn := sbn, idx := key, port := p, kf := kf
      left := keepLayout (frameKeeps b idx point) (area * areaBytes b idx), status := 0 }
  (copyWork { s with works := { s.works with copies := s.works.copies ++ [j] } } j).1

/-- Every byte of a copy has reached its completion point: visible in host memory, or acknowledged by the store (R231). -/
def copyDone (s : State) (j : CopyJob) : Bool :=
  j.left.isEmpty && decide (j.status = 0) && (match j.kf with
    | .reel id e => (getPort s e).copyPuts.all fun q => q.1 != id
    | _ => true)

/-- A copy is over. PUTs of its reel that no other copy needs go with it. -/
def copyDrop (s : State) (j : CopyJob) : State :=
  let left := s.works.copies.erase j
  let s := { s with works := { s.works with copies := left } }
  match j.kf with
  | .reel id e =>
    if left.any fun t => decide (t.kf = j.kf) then s
    else
      let p := getPort s e
      setPort s e { p with copyPuts := p.copyPuts.filter fun q => q.1 != id }
  | _ => s

/-- The copies of a scene that an admission or a resume point started are over. -/
def copiesEnd (s : State) (sbn key : Nat) : State :=
  (s.works.copies.filter fun j => j.sbn == sbn && j.idx == key && decide (j.kind ≠ .take)).foldl copyDrop s

/-- Restores ranges from a keyframe, in their order (R456). The answer says whether all are back, one waits for its vault, or
one could not be written. -/
def copyBack (s : State) (p : HostPort) (kf : KfDest) : List (Nat × Place) → State × RdOut
  | [] => (s, .ok [])
  | q :: qs =>
    match placeWrite s p q.2 (wordsOfBytes (copyIn s p kf q.1 (4 * q.2.2.2.2))) with
    | (s, .ok _) => copyBack s p kf qs
    | (s, out) => (s, out)

/-- The slate of a keep range. -/
def keepSlate (x : Scene) (q : Keep) : Nat := x.slots.getD q.slot 0

/-- Registers the VAULT keep ranges of a scene with their copies as origin (R331). -/
def registerKeeps (s : State) (b : Storyboard) (x : Scene) (p : HostPort) : State :=
  let ks := keepsOf b.words x.idx
  let at0 := keepLayout (ks.map (keepPlace b x.idx)) 0
  (ks.zip at0).foldl (fun s q =>
    if q.1.space ≠ 3 then s
    else
      let e : ImmEntry :=
        { kind := 1, hport := decide (p = .B), eport := 0, slate := BitVec.ofNat 12 (keepSlate x q.1)
          base := BitVec.ofNat 32 q.1.base, len := BitVec.ofNat 32 q.1.len, originLo := 0, originHi := 0 }
      match x.kf with
      | .inPlace => s
      | .host a =>
        let o := a.toNat + q.2.1
        immRegister s (clOfTarget q.1.target)
          { e with originLo := BitVec.ofNat 32 o, originHi := BitVec.ofNat 32 (o / 2 ^ 32) }
      | .reel id port =>
        immRegister s (clOfTarget q.1.target)
          { e with kind := 2, hport := false, eport := BitVec.ofNat 7 port, originLo := BitVec.ofNat 32 id
                   originHi := BitVec.ofNat 32 q.2.1 }) s

/-- An immutable-range entry whose origin lies in a keyframe destination of `n` bytes. -/
def immFrom (p : HostPort) (kf : KfDest) (n : Nat) (e : ImmEntry) : Bool :=
  let o := e.originLo.toNat + e.originHi.toNat * 2 ^ 32
  match kf with
  | .inPlace => false
  | .host a => decide (e.kind = 1) && decide (e.hport = decide (p = .B)) && decide (a.toNat ≤ o) && decide (o < a.toNat + n)
  | .reel id port => decide (e.kind = 2) && decide (e.eport.toNat = port) && decide (bits e.originLo.toNat 0 24 = id)
      && decide (e.originHi.toNat < n)

/-- Bytes of a keyframe destination. -/
def destBytes (b : Storyboard) (idx : Nat) : Nat := areaBytes b idx * (if scResumes b.words idx = 0 then 1 else 3)

end Sys2Proof.Machine
end

