-- ==== Sys2Proof/Machine/SceneOps.lean ====
section
/-! DEFINITION. Installing, starting and closing scenes, their epochs, residual words and completions
(R22, R195, R243, R256, R279 to R287, R441, R449). -/

namespace Sys2Proof.Machine

open Sys2Proof

/-! ### Cores (R195, R213, R218, R243, R256, R438) -/

/-- Zeroes the local state of a core. -/
def zeroLocal (c : Core) : Core :=
  { c with sp := .zero, cache := [], plru := [], cacheBad := [], planeBad := [], acc := [], accBad := [], tiles := []
           istore := .zero
           queues := c.queues.map fun q => { q with entries := [], pending := none, lastv := 0, window := none } }

/-- Descriptors and everything recorded of them are abandoned, and the cache is discarded (R103, R169, R213, R218,
R235). -/
def abandonWork (c : Core) : Core :=
  { c with mx := [], tiles := [], acc := [], accBad := [], fusedRows := [], mxStop := 0, mxPos0 := 0, mxPos1 := 0
           vx := [], vxOut := [], vxStop := 0, vxPos0 := 0, vxPos1 := 0, dma := [], dmaPos := 0, sbEntries := [], deadTags := usedTags c
           cache := [], plru := [], cacheBad := [] }

/-- A queue as an installation leaves it (R243, R244, R287). -/
def activeQueue (c : Core) (epoch : BitVec 4) (slate n : Nat) : RxQueue :=
  let w := queueW0 c n
  let base : RxQueue := { RxQueue.reset with qgen := (getQ c n).qgen }
  if w.testBit 0 then
    { base with state := .active, mode := BitVec.ofNat 2 (bits w 1 2), epoch := epoch, slate := BitVec.ofNat 12 slate }
  else base

/-- Activates the queues of an installed call sheet. -/
def activateQueues (c : Core) (epoch : BitVec 4) (slate : Nat) : Core :=
  { c with queues := Vector.ofFn fun n : Fin 16 => activeQueue c epoch slate n.val }

/-- Installs a call sheet on a core (R195, R211, R438). -/
def installCore (c : Core) (ws : List Word) (slate gen : Nat) (epoch : BitVec 4) (sc : Nat × Nat) : Core :=
  let c := if c.localOwner = some slate then c else zeroLocal c
  let c := { c with
    mxStop := 0
    mxPos0 := 0
    mxPos1 := 0
    vxStop := 0
    vxPos0 := 0
    vxPos1 := 0
    dmaPos := 0
    tiles := []
    sbEntries := []
    sheet := some (ws.take 400)
    split := BitVec.ofNat 2 (bits (iw ws 3) 5 2)
    istore := ramPutWords c.istore 0 (ws.drop 400)
    localOwner := some slate
    hgen := BitVec.ofNat 12 gen
    epoch := epoch
    scene := some sc
    started := false
    order := false
    wait := .none
    cause := 0
    g := Vector.ofFn fun i : Fin 16 => ws.getD (8 + i.val) 0
    c := Vector.ofFn fun i : Fin 16 => ws.getD (24 + i.val) 0
    cthr := Vector.ofFn fun i : Fin 16 => ws.getD (40 + i.val) 0
    cbind := Vector.ofFn fun i : Fin 16 => ws.getD (56 + i.val) 0
    s := Vector.replicate 8 0
    tmo := false
    ur := false
    reelRef := []
    pc := BitVec.ofNat 12 (bits (iw ws 1) 0 12) }
  activateQueues c epoch slate

/-- A core of a closing scene goes IDLE and leaves the scene (R197, R244). FENCED and FADED cores keep their state. -/
def leaveScene (s : State) (k : Nat) : State :=
  let c := getCore s k
  let busy := c.mode = .running ∨ c.mode = .held ∨ c.mode = .frozen
  let c := if busy then { retireQueues (abandonWork c) with mode := .idle, cause := 0, wait := .none, started := true } else c
  setCore s k { c with scene := none, order := false }

/-- Scratchpad word of the contributor table of a COMBINING queue (R255). -/
def combTab (c : Core) (n : Nat) : Nat := bits (queueW1 c n) 0 16

/-- Contributor table of a COMBINING queue as the core's scratchpad holds it (R255). -/
def combTable (c : Core) (n : Nat) : List Nat := (ramWords c.sp (combTab c n) 34).map (·.toNat)

/-- Bits set in a word. -/
def popCount (w : Nat) : Nat := ((List.range 32).filter w.testBit).length

/-- A malformed contributor table (R256). -/
def tableBad (c : Core) (n : Nat) (slots : List Nat) : Bool :=
  let t := combTable c n
  let w0 := t.getD 0 0
  let mask := t.getD 1 0
  let used := (List.range 32).filter mask.testBit
  let ids := used.map fun i => slots.getD i 0
  decide (bits w0 0 6 = 0) || decide (32 < bits w0 0 6) || decide (bits w0 0 6 ≠ popCount mask) || decide (bits w0 14 18 ≠ 0)
    || ((List.range 32).any fun i => decide (bits (t.getD (2 + i) 0) 22 10 ≠ 0))
    || (!combA48 c n && decide (bits w0 6 8 ≠ 0))
    || (used.any fun i => !xyOk (bits (t.getD (2 + i) 0) 0 18))
    || decide (ids.eraseDups.length ≠ ids.length)

/-- The queue reads its table at its core's scene start; slots follow the scene's substitutions (R256, R478). A table word
that fails its parity stops the queue unit (R205), and the table stays unread. -/
def startQueue (s : State) (k n : Nat) : State :=
  let c := getCore s k
  let q := getQ c n
  if q.state = .active ∧ q.mode = 2 ∧ q.window = none then
    match badWord c.sp (combTab c n) 34 with
    | some b => spError s k 0 b (ramLanes c.sp b) stopCue
    | none =>
    let t := combTable c n
    let follow (w : Nat) : Nat :=
      match c.scene with
      | some (b, i) => (match getBoard s b with | some st => followCore st (i % 1024) (bits w 0 18) | none => bits w 0 18) + bits w 18 4 * 2 ^ 18
      | none => bits w 0 22
    let slots := (List.range 32).map fun i => follow (t.getD (2 + i) 0)
    if tableBad c n slots then
      let s := setCore s k (setQ c n { q with state := .disabled })
      let detail := [(28, 3, k), (31, 1, n), (32, 1, 0x10), (33, 1, 0xFF), (36, 1, q.epoch.toNat)]
      if c.mode = .frozen then coreEv s k 0x7025 2 detail else violate s k 0x17 0x7025 detail
    else
      let w : Window :=
        { expect := bits (t.getD 0 0) 0 6, xc := signedOf 8 (bits (t.getD 0 0) 6 8), mask := BitVec.ofNat 32 (t.getD 1 0)
          slots := slots.map (BitVec.ofNat 32), arrived := 0, planes := 0, elems := [], released := false, taken := 0, dups := 0, bad := [] }
      setCore s k (setQ c n { q with window := some (windowClear (combA48 c n) (combLen c n) w) })
  else s

/-- Every COMBINING queue of a core that has not read its table reads it. -/
def startTables (s : State) (k : Nat) : State := (List.range 16).foldl (fun s n => startQueue s k n) s

/-- A core enters RUNNING in the cycle its start order reaches it (R279, R197). -/
def startCore (s : State) (k : Nat) : State :=
  let c := getCore s k
  startTables (setCore s k { c with mode := .running, cause := 0, started := true, wdCycles := 0 }) k

/-! ### Epochs (R282) -/

/-- The epoch may be used in a cluster. -/
def epochFree (s : State) (e cl : Nat) : Bool :=
  let c := getCl s cl
  (match c.lastEpoch with | some l => decide (l.toNat ≠ e) | none => true)
  && (match smapGet none c.closings e with | some t => decide (t + 32768 ≤ now s) | none => true)

/-- The epoch of the next scene of a region, if one qualifies. -/
def nextEpoch (s : State) (region : List Nat) : Option Nat :=
  ((List.range 16).map fun i => (s.epochNext.toNat + i) % 16).find? fun e => region.all (epochFree s e)

/-! ### Slates (R441) -/

def setMode (s : State) (n : Nat) (m : SlateMode) : State := setSlate s n { getSlate s n with mode := m }

/-- A HALTED scene of the slate other than the one given. -/
def otherHalted (s : State) (n : Nat) (x : Scene) : Bool :=
  (scenesOf s n).any fun y => y.phase == .halted && !sameScene y x

/-- A scene with the slate bound reaches ACCEPTED or resumes. -/
def slateRuns (s : State) (x : Scene) (n : Nat) : State :=
  match (getSlate s n).mode with
  | .opened => setMode s n .running
  | .held => if otherHalted s n x then s else setMode (setSlate s n { getSlate s n with faultHeld := false }) n .running
  | _ => s

/-- A scene the slate was bound to has closed without replay; `halted` says that it was HALTED. -/
def slateClosed (s : State) (halted : Bool) (n : Nat) : State :=
  let rest := scenesOf s n
  match (getSlate s n).mode with
  | .running => if rest.isEmpty then setMode s n .opened else s
  | .held =>
    if !halted || rest.any (fun y => y.phase == .halted) then s
    else setMode (setSlate s n { getSlate s n with faultHeld := false }) n (if rest.isEmpty then .opened else .running)
  | _ => s

/-! ### Closing (R281, R285 to R287, R357) -/

/-- The event frame of a scene: slot 0's slate, the scene number and its epoch. -/
def sceneFrame (x : Scene) : EvFrame := ⟨none, (boundSlates x).head?, some (x.number, x.epoch.toNat)⟩

/-- Residual words of a core's queues: queue, words, packets. -/
def residOf (c : Core) (e : BitVec 4) : List (Nat × Nat × Nat) :=
  (List.range 16).filterMap fun n =>
    if (getQ c n).epoch = e ∧ (getQ c n).state ≠ .disabled ∧ qWords c n ≠ 0 then some (n, qWords c n, qPkts c n) else none

/-- Records the residual words of a core in Q_RESID_n. -/
def residPut (c : Core) (e : BitVec 4) : Core :=
  (residOf c e).foldl (fun c r =>
    setQ c r.1 { getQ c r.1 with resid := BitVec.ofNat 32 (r.2.1 % 2 ^ 8 + r.2.2 % 2 ^ 8 * 2 ^ 8 + e.toNat * 2 ^ 16) }) c

/-- Residual words of a scene: core, queue, words. -/
def sceneResid (s : State) (x : Scene) : List (Nat × Nat × Nat) :=
  x.cores.flatMap fun p => (residOf (getCore s p.1) x.epoch).map fun r => (p.1, r.1, r.2.1)

/-- Total of residual words. -/
def residTotal (l : List (Nat × Nat × Nat)) : Nat := l.foldl (fun a r => a + r.2.2) 0

/-- Detail of 0x3030 and 0x3031. Where no queue of a cut scene holds residual words, R287 gives bytes 40 to 43 no value: the
model shows CORE_XY 0x3FFFF and queue 0 (DESIGN CHOICE, log entry 98). -/
def residDetail (x : Scene) (l : List (Nat × Nat × Nat)) : List (Nat × Nat × Nat) :=
  let f := l.headD (0x3FFFF, 0, 0)
  [(28, 2, x.sbn), (30, 2, x.idx), (32, 4, residTotal l), (36, 4, l.length), (40, 3, f.1), (43, 1, f.2.1)]

/-- Releases the reel slots of a scene. -/
def releaseReels (s : State) (x : Scene) : State :=
  s.ports.foldl (fun s q =>
    (getPort s q.1).slots.foldl (fun s r =>
      match slotOf s q.1 r.1 with
      | some y => if y.sbn = x.sbn ∧ y.idx = scKey x then reelRelease s q.1 r.1 else s
      | none => s) s) s

/-- Notes the closing time of a scene's epoch in every cluster of its region. -/
def noteClosing (s : State) (x : Scene) : State :=
  x.region.foldl (fun s cl =>
    let c := getCl s cl
    setCl s cl { c with closings := smapSet none c.closings x.epoch.toNat (some (now s)) }) s

/-- Closed runs with a scene's slots added; a slate's earlier keyframes are kept beside the new one (R293). -/
def noteClosed (l : List ClosedRun) (x : Scene) (n : Nat) : List ClosedRun :=
  let mine (q : ClosedRun) : Bool := q.sbn == x.sbn && q.idx == x.idx && q.slate == n
  let old := match l.find? mine with | some q => q.kfs | none => []
  { sbn := x.sbn, idx := x.idx, slate := n, port := x.cmd.port, kfs := (x.kf :: old).eraseDups } :: l.filter fun q => !mine q

/-- The scene leaves the list: region and keep ranges are free (R281). Residual words are recorded when `keep` is set. -/
def dropScene (s : State) (x : Scene) (keep : Bool) : State :=
  let s := x.cores.foldl (fun s p =>
    let s := if keep then setCore s p.1 (residPut (getCore s p.1) x.epoch) else s
    leaveScene s p.1) s
  let s := noteClosing (releaseReels (copiesEnd s x.sbn (scKey x)) x) x
  let s := learnRun s x
  let s := { s with
    scenes := s.scenes.filter fun y => !sameScene y x
    closedScenes := (boundSlates x).foldl (fun l n => noteClosed l x n) s.closedScenes }
  shareOut s

/-! ### Unfinished SCENE_RUN commands (R281, R453, R456, R457) -/

/-- The entry of a slate for a scene. -/
def unfinishedFor (s : State) (sbn idx n : Nat) : Option Unfinished :=
  s.unfinished.find? fun u => u.sbn == sbn && u.idx == idx && u.slate == n

/-- Replaces the entry of a slate for a scene. -/
def setUnfinished (s : State) (u : Unfinished) : State :=
  { s with unfinished := s.unfinished.map fun v => if v.sbn = u.sbn ∧ v.idx = u.idx ∧ v.slate = u.slate then u else v }

/-- The work of a scene is complete for its slates: their entries go, and the command completes when none is left. -/
def finishRun (s : State) (x : Scene) (resid : Nat) : State :=
  let mine (u : Unfinished) : Bool := u.sbn == x.sbn && u.idx == x.idx && (boundSlates x).contains u.slate
  match s.unfinished.find? mine with
  | none => s
  | some u =>
    let left := s.unfinished.filter fun v => !mine v
    let total := u.residual + resid
    if left.any fun v => decide (v.cmd = u.cmd) then
      { s with unfinished := left.map fun v => if v.cmd = u.cmd then { v with residual := total } else v }
    else complete { s with unfinished := left } u.cmd 0 true u.replays [(28, 4, total)]

/-- REPLAY's own scene closes: what AUTO_REPLAY or hang recovery waits for is settled by their rows. -/
def slatesClosed (s : State) (x : Scene) (halted : Bool) : State := (boundSlates x).foldl (fun s n => slateClosed s halted n) s

/-- The DRAIN close of an ENDED scene (R285). -/
def drainClose (s : State) (x : Scene) : State :=
  let l := sceneResid s x
  let s := if l.isEmpty then s else raiseEv s 0x3030 1 (sceneFrame x) (residDetail x l)
  let s := finishRun (dropScene s x true) x (residTotal l)
  slatesClosed s x false

/-- The close of an ENDED or HALTED scene by a CUT change (R286). A HALTED scene's SCENE_RUN stays unfinished. -/
def cutClose (s : State) (x : Scene) : State :=
  let l := sceneResid s x
  let s := raiseEv s 0x3031 0 (sceneFrame x) (residDetail x l)
  let s := dropScene s x true
  let s := if x.phase = .ended then finishRun s x (residTotal l) else s
  slatesClosed s x (x.phase == .halted)

/-- Every core with a call sheet is IDLE after HALT. -/
def allHalted (s : State) (x : Scene) : Bool :=
  x.cores.all fun p => let c := getCore s p.1; decide (c.mode = .idle) && c.started

/-- A RUNNING scene whose cores are all IDLE is ENDED; an ENDED scene whose marks have all come closes (R281, R285). -/
def sceneCheck (s : State) (sbn key : Nat) : State :=
  match findScene s sbn key with
  | none => s
  | some x =>
    let x := if x.phase = .running ∧ allHalted s x = true then { x with phase := .ended } else x
    let s := setScene s x
    if x.phase = .ended ∧ x.nedge ≤ x.marks then drainClose s x else s

/-! ### Checks of SCENE_RUN and REPLAY (R24, R278, R357, R450) -/

/-- Regions overlap. -/
def regionsMeet (a b : List Nat) : Bool := a.any b.contains

/-- The scenes that a CUT change closes (R286), in ascending scene index. -/
def cutScenes (s : State) (region : List Nat) : List Scene :=
  (s.scenes.filter fun y => (y.phase == .ended || y.phase == .halted) && regionsMeet y.region region).mergeSort
    fun a b => decide (a.idx ≤ b.idx)

/-- A slate check of orders 2 to 4. -/
def slateStatus (s : State) (p : HostPort) (ns : List Nat) : Nat :=
  if ns.any fun n => (getSlate s n).mode != .free && (getSlate s n).owner != p then 0x0203
  else if ns.any fun n => (getSlate s n).mode == .frozen || (getSlate s n).mode == .cutting then 0x0401
  else if ns.any fun n => (getSlate s n).mode == .free || (getSlate s n).mode == .scrubbing then 0x0402
  else 0

/-- A range of a slate holds a place (R437). -/
def slateOwns (s : State) (n : Nat) (p : Place) : Bool :=
  (getSlate s n).ranges.any fun r =>
    r.space == p.1 && r.cl == p.2.1 && decide (r.base ≤ p.2.2.1) && decide (p.2.2.1 + p.2.2.2 ≤ r.base + r.len)

/-- The checks of order 10 that depend on the binding (R324, R437); the others were made at the load. -/
def sheetRefused (s : State) (slate : Nat) (ws : List Word) : Bool :=
  (List.range 64).any fun h =>
    let e := sheetEntryOf ws h
    (e.space == 2 && !slateOwns s slate (handlePlace 0 e))
    || (e.space == 3 && (noVaults s || decide (vaultWords s < e.base + e.len) || (getCl s (clOfTarget e.target)).vault.offline
        || !slateOwns s slate (handlePlace 0 e)))

/-- A call sheet holds a WINDOW handle. -/
def sheetWindow (ws : List Word) : Bool := (List.range 64).any fun h => (sheetEntryOf ws h).space == 4

/-- What a scene to be admitted is checked with. -/
structure Candidate where
  scene : Scene
  board : Storyboard
  /-- An entry PC of the replayed resume point's PC table does not lie below its call sheet's PLEN (R195, R294). -/
  pcBad : Bool
  /-- Bound call sheets: core, slate, words. -/
  sheets : List (Nat × Nat × List Word)

/-- The reels a scene opens: those it lists, or for a REPLAY those its slate's call sheets name. -/
def partReels (q : Candidate) : List (Nat × Nat × Nat) :=
  let all := reelsOf q.board.words q.scene.idx
  if q.scene.part = 0 then all
  else all.filter fun r => q.sheets.any fun t => (List.range 64).any fun h =>
    let e := sheetEntryOf t.2.2 h
    decide (e.space = 5) && decide (e.target = r.1 * 2 ^ 8 + r.2.1)

/-- Two reels want one slot of one port (R357). -/
def reelClash (a b : Nat × Nat × Nat) : Bool := a.2.1 == b.2.1 && a.1 != b.1 && a.1 % 128 == b.1 % 128

/-- The reels of a run that waits for its admission. -/
def runReels (s : State) (x : Scene) : List (Nat × Nat × Nat) :=
  match getBoard s x.sbn with
  | some b => reelsOf b.words x.idx
  | none => []

/-- A fade of the cluster has begun, so that it counts as dark (R536). -/
def fading (s : State) (cl : Nat) : Bool := s.works.fades.any fun w => w.off && w.clusters.contains cl

/-- Orders 5 to 10 of R278, and R357 and R450. `cut`: CHANGE resolves to CUT; `fresh`: not a REPLAY. Every scene admitted and not
CLOSED, HALTED and ENDED scenes among them, and every run that waits for its admission counts among the 64 of R24: the rule says
'running' and R281 speaks of overlap alone (DESIGN CHOICE, log entry 56). -/
def admitStatus (s : State) (q : Candidate) (cut fresh : Bool) : Nat :=
  let x := q.scene
  let closing := if cut then cutScenes s x.region else []
  let gone (y : Scene) : Bool := closing.any (sameScene y)
  let live := (s.scenes ++ s.queuedRuns).filter fun y => !gone y
  let pw := q.sheets.flatMap fun t => (List.range 64).filterMap fun h =>
    let e := sheetEntryOf t.2.2 h
    if e.space ≠ 0 ∧ e.pw = true then some (handlePlace t.1 e) else none
  let own := sceneKeeps s x
  let others := live.flatMap (sceneKeeps s)
  let winSlates := (q.sheets.filter fun t => sheetWindow t.2.2).map (·.2.1)
  let reels := partReels q
  let named := q.sheets.flatMap fun t => (List.range 64).filterMap fun h =>
    let e := sheetEntryOf t.2.2 h
    if e.space = 5 then some e.target else none
  if live.any (fun y => regionsMeet y.region x.region && y.phase != .ended) then 0x0301
  else if 64 ≤ live.length then 0x0301
  else if x.region.any fun cl => isDark s cl || fading s cl then 0x0301
  else if live.any (fun y => sameScene y x && y.phase != .ended) then 0x0301
  else if fresh && (boundSlates x).any (fun n => (getSlate s n).mode == .held) then 0x0301
  else if q.sheets.any fun t => decide ((getCore s t.1).mode = .fenced) || !goodCore s t.1 then 0x0103
  else if pw.any fun a => own.any (placesMeet a) then 0x0103
  else if pw.any fun a => others.any (placesMeet a) then 0x0301
  else if q.sheets.any fun t =>
      let c := getCore s t.1
      decide (c.mode ≠ .idle) && c.sheet.isSome && decide (sheetSplit c ≠ bits (iw t.2.2 3) 5 2)
        && !(closing.any fun y => y.cores.any fun p => p.1 == t.1) then 0x0302
  else if q.pcBad || q.sheets.any fun t => sheetRefused s t.2.1 t.2.2 then 0x0103
  else if named.any fun t => decide (1 < (named.filter (· == t)).length) then 0x0103
  else if reels.any fun r => (match slotOf s r.2.1 (r.1 % 128) with
      | some y => decide (y.reel ≠ r.1) && !(closing.any fun z => z.sbn == y.sbn && scKey z == y.idx)
      | none => false) || (reels ++ s.queuedRuns.flatMap (runReels s)).any (reelClash r) then 0x0301
  else if (boundSlates x).any fun n => decide (256 < (winSlates.filter (· == n)).length) then 0x0103
  else if (boundSlates x).any fun n => winSlates.contains n && live.any fun y =>
      y.slots.contains n && y.cores.any fun p => decide (sheetSlate (getCore s p.1) = some n) && hasWindow (getCore s p.1) then 0x0301
  else 0

/-- The scene with its call sheets bound: every slot, or the slots of one slate for a REPLAY. -/
def candidate (s : State) (b : Storyboard) (x : Scene) : Candidate :=
  let entry (j : Nat) : Option Nat := x.latest.map fun r => resPc b.words x.idx r j
  let bound := ((placedSheets b x.idx).mapIdx fun j p => (p, entry j)).filter fun t => decide (x.slots.getD t.1.2.1 0xFFFF < 4096)
  let cores := bound.map (·.1)
  let sheets := bound.map fun t =>
    let n := x.slots.getD t.1.2.1 0
    (t.1.1, n, boundSheet b x.idx n (getSlate s n).hgen.toNat t.2 t.1.2.2)
  let pcBad := bound.any fun t => match t.2 with
    | some pc => decide (bits (iw b.words (t.1.2.2 + 1)) 12 13 ≤ pc)
    | none => false
  let region := ((rectsOf b.words x.idx).filter fun r => decide (x.slots.getD (rectSlot r) 0xFFFF < 4096)).flatMap rectCls
  let nedge := (sheets.flatMap fun t => (List.range 16).filter fun e => (iw t.2.2 (105 + 2 * e)).testBit 0).length
  ⟨{ x with cores := cores, region := region, nedge := nedge }, b, pcBad, sheets⟩

/-- A new scene that has not been admitted. -/
def newScene (m : List Word) (sbn idx : Nat) (slots : List Nat) (kf : KfDest) (cmd : CmdRef) : Scene :=
  { sbn := sbn, idx := idx, part := 0, phase := .admitting, stage := 0, number := scNumber m idx, epoch := 0, slots := slots, runs := []
    cores := [], region := [], nedge := 0, marks := 0, kf := kf, latest := none, area := 0, copying := none, replay := none
    cut := false, cmd := cmd, replays := 0, residual := 0, progress := false, lastProgress := 0, hung := false, winCount := [], winMark := []
    restoring := false, frameMark := [] }

/-! ### Admission (R279, R280, R449) -/

/-- Run numbers of the slots of a scene, and the slates after they are taken (R449). -/
def takeRuns (s : State) (x : Scene) : State × List Nat :=
  let runs := x.slots.map fun n => if n < 4096 then (getSlate s n).runNext.toNat else 0
  ((boundSlates x).foldl (fun s n =>
    let v := getSlate s n
    setSlate s n { v with runNext := v.runNext + 1 }) s, runs)

/-- Writes the clapper initialisers of the slots bound (step 3); `on` false sets them back to zero (R280). -/
def putClaps (s : State) (b : Storyboard) (x : Scene) (on : Bool) : State :=
  (clapInits b.words x.idx).foldl (fun s q =>
    let n := x.slots.getD q.2.2 0xFFFF
    if n < 4096 then
      let cl := bits q.1 16 6 * 64 + bits q.1 10 6
      let c := getCl s cl
      let w := cmWords + 2 * bits q.1 0 10
      let ws := if on then [BitVec.ofNat 32 q.2.1, BitVec.ofNat 32 (n * 2 ^ 16)] else [0, 0]
      setCl s cl { c with mem := ramPutWords c.mem w ws }
    else s) s

/-- The slate of the call sheet that names a reel, or slot 0's. -/
def reelSlate (q : Candidate) (r : Nat × Nat × Nat) : Nat :=
  match q.sheets.find? fun t => (List.range 64).any fun h =>
      let e := sheetEntryOf t.2.2 h
      decide (e.space = 5) && decide (e.target = r.1 * 2 ^ 8 + r.2.1) with
  | some t => t.2.1
  | none => (boundSlates q.scene).headD 0

/-- Steps 1 to 5 of R279. -/
def admitInstall (s : State) (q : Candidate) (epoch : Nat) : State × Scene :=
  let ep := BitVec.ofNat 4 epoch
  let (s, runs) := if q.scene.replay.isSome then (s, q.scene.runs) else takeRuns s q.scene
  let x := { q.scene with epoch := ep, runs := runs, stage := 1 }
  let s := { s with epochNext := ep + 1 }
  let s := x.region.foldl (fun s cl => setCl s cl { getCl s cl with lastEpoch := some ep }) s
  let s := q.sheets.foldl (fun s t =>
    setCore s t.1 (installCore (getCore s t.1) t.2.2 t.2.1 (getSlate s t.2.1).hgen.toNat ep (x.sbn, scKey x))) s
  let s := putClaps s q.board x true
  let s := (partReels q).foldl (fun s r => reelBind s r.2.1 r.1 (reelSlate q r) x.sbn (scKey x) r.2.2) s
  ({ s with scenes := s.scenes ++ [x] }, x)

/-- Slates that hold a scene back from its start: FROZEN, CUTTING. -/
def startHeld (s : State) (x : Scene) : Bool :=
  (boundSlates x).any fun n => (getSlate s n).mode == .frozen || (getSlate s n).mode == .cutting

/-- Admission reaches ACCEPTED (R279, R331, R441, R453, R456). -/
def admitAccept (s : State) (x : Scene) (copied : Bool) : State :=
  let x := { x with stage := 2, lastProgress := now s }
  let s := setScene s x
  let s := match getBoard s x.sbn with
    | some b => if copied then registerKeeps s b x x.cmd.port else s
    | none => s
  let s := match x.replay with
    | some (n, cmd) =>
      let s := match unfinishedFor s x.sbn x.idx n with
        | some u => { s with unfinished := s.unfinished.map fun v => if v.cmd = u.cmd then { v with replays := u.replays + 1 } else v }
        | none => s
      match cmd with
      | some r => finish s r 0 []
      | none => s
    | none =>
      let add : List Unfinished := (boundSlates x).map fun n =>
        { cmd := x.cmd, slate := n, sbn := x.sbn, idx := x.idx, run := x.runs.getD (x.slots.findIdx (· == n)) 0, replays := 0
          number := x.number, kf := x.kf, latest := none, area := 0, slots := x.slots, residual := 0, winMark := [] }
      let old := s.unfinished.filter fun u => !(u.sbn == x.sbn && u.idx == x.idx && (boundSlates x).contains u.slate)
      accept { s with unfinished := old ++ add } x.cmd [(24, 2, x.runs.getD 0 0)]
  let s := (boundSlates x).foldl (fun s n => slateRuns s x n) s
  let s := startFrames s x
  if startHeld s x then
    match findScene s x.sbn (scKey x) with
    | some y => (boundSlates y).foldl (fun s n => holdSlate s n 0) (haltScene s y)
    | none => s
  else s

/-- Admission of a queued scene: steps 1 to 5, and the start of step 6 (R279). It waits for an ENDED scene in its
region and for an epoch. A replay from a resume point keeps the boundary copy it has (R295). -/
def admitScene (s : State) (sbn idx : Nat) : State :=
  match s.queuedRuns.find? fun y => y.sbn == sbn && y.idx == idx && !y.restoring with
  | none => s
  | some x =>
    match getBoard s sbn with
    | none => s
    | some b =>
      let q := candidate s b x
      if s.scenes.any (fun y => regionsMeet y.region q.scene.region || sameScene y x) then s
      else
        match nextEpoch s q.scene.region with
        | none => s
        | some e =>
          let s := { s with queuedRuns := s.queuedRuns.erase x }
          let (s, y) := admitInstall s q e
          if y.kf = .inPlace ∨ y.latest.isSome = true then admitAccept s y false
          else copyStart s .admission b sbn idx (scKey y) y.cmd.port y.kf none 0

/-- The scene whose copies of step 6 are under way. -/
def copyingScene (s : State) (sbn idx : Nat) : Option (Scene × Storyboard) :=
  match s.scenes.find? (fun x => x.sbn == sbn && x.idx == idx && x.phase == .admitting && x.stage == 1), getBoard s sbn with
  | some x, some b => some (x, b)
  | _, _ => none

/-- Undoes steps 5 to 1 of an admission (R280). -/
def admitUndo (s : State) (b : Storyboard) (x : Scene) : State :=
  let s := releaseReels (copiesEnd s x.sbn (scKey x)) x
  let s := x.cores.foldl (fun s p =>
    let c := retireQueues (getCore s p.1)
    setCore s p.1 { c with sheet := none, scene := none, order := false }) s
  let s := noteClosing (putClaps s b x false) x
  { s with scenes := s.scenes.filter fun y => !sameScene y x }

/-- Step 6 fails, with the status the copy has failed with or the one reported (R280). -/
def admitFail (s : State) (b : Storyboard) (x : Scene) (reported : Nat) : State :=
  let own := match copyJob s .admission x.sbn (scKey x) with | some j => j.status | none => 0
  let status := if own = 0 then reported else own
  let s := admitUndo s b x
  match x.replay with
  | some (_, some r) => finish s r status []
  | some (_, none) => s
  | none => finish s x.cmd status []

/-- The pins that carry the scene-start strobe pulse (R279, R582). -/
def sceneStrobe (s : State) : State :=
  s.pins.foldl (fun s q => if q.2.func = 7 then emit s (.pulse q.1) else s) s

/-- The start order reaches a core. -/
def sceneStartCore (s : State) (k : Nat) : State :=
  let c := getCore s k
  match sceneOf s c with
  | none => s
  | some x =>
    if c.mode ≠ .idle ∨ c.started = true ∨ c.sheet.isNone = true then s
    else if x.stage = 2 ∧ x.phase = .admitting then
      if s.clock.hold then s
      else startCore (sceneStrobe (setScene s { x with stage := 3, phase := .running })) k
    else if x.stage = 3 then startCore s k
    else s

end Sys2Proof.Machine
end

