-- ==== Sys2Proof/Machine/HostOps.lean ====
section
/-! DEFINITION. The mailbox: consuming a command and the checks every command passes (R411 to R429, R548, R599, R600). -/

namespace Sys2Proof.Machine

open Sys2Proof

/-! ### Records -/

/-- `n` bytes of PARAM from record byte `off` (R416). -/
def pb (r : CmdRec) (off n : Nat) : Nat := bits r.param.toNat (8 * (off - 36)) (8 * n)

/-- Bit `i` of record byte `off`. -/
def pbit (r : CmdRec) (off i : Nat) : Bool := r.param.getLsbD (8 * (off - 36) + i)

/-- Every PARAM bit outside the named fields (record byte, first bit, bits) is zero (R10, R601). -/
def rsvOk (r : CmdRec) (fs : List (Nat × Nat × Nat)) : Bool :=
  let used := fs.foldl (fun m f => m ||| ((2 ^ f.2.2 - 1) * 2 ^ (8 * (f.1 - 36) + f.2.1))) 0
  decide (r.param.toNat ||| used = used)

/-- Bytes of the parameter buffer. -/
def bufBytes (r : CmdRec) : List Byte := r.buffer.getD []

/-- What a completion of the record copies (R417). -/
def refOf (opcode : Nat) (p : HostPort) (r : CmdRec) : CmdRef :=
  ⟨p, opcode, r.slate.toNat + (if r.modul then 2 ^ 12 else 0), r.cseq⟩

/-! ### Consumption (R411, R414, R416, R548) -/

/-- Commands accepted over a port whose final completion is still owed. -/
def owedCmds (s : State) (p : HostPort) : List CmdRef :=
  let all := s.unfinished.map (·.cmd) ++ s.queuedRuns.map (·.cmd) ++ (s.scenes.filter fun x => x.stage == 1).map (·.cmd)
    ++ (s.scenes ++ s.queuedRuns).filterMap (fun x => x.replay.bind (·.2)) ++ s.works.takes.map (·.cmd) ++ s.works.load.map (·.cmd) ++ s.works.fades.filterMap (·.cmd)
    ++ s.works.dailies.filterMap (·.cmd) ++ s.works.resets.filterMap (·.cmd)
    ++ s.works.clock.filterMap (·.cmd)
    ++ (s.works.discovery.map (·.1)).toList ++ s.works.windowClose.map (·.1)
    ++ s.slates.flatMap (fun q => match q.2.cut with | some c => c.cmd :: (c.also ++ c.owed) | none => []) ++ (s.boot.load.map (·.1)).toList
  (all.filter fun c => c.port == p).eraseDups

/-- The completion ring has room for one more record beside every completion owed (R414). -/
def cplRoom (s : State) (p : HostPort) : Bool :=
  let r := (getHost s p).cpl
  let late := (s.works.late.filter fun c => c.1.port == p).length
  decide (ringUsed r + 64 * ((owedCmds s p).length + (heldCpl s p).length + late + 1) ≤ ringSize r)

/-- The mailbox opcodes of R599. -/
def opcodes : List Nat :=
  [0x0001, 0x0002, 0x0003, 0x0100, 0x0101, 0x0102, 0x0201, 0x0202, 0x0203, 0x0204, 0x0301, 0x0302, 0x0303, 0x0304, 0x0305, 0x0306,
    0x0307, 0x0400, 0x0401, 0x0402, 0x0403, 0x0404, 0x0405, 0x0500, 0x0501, 0x0502, 0x0503, 0x0504, 0x0600, 0x0601, 0x0602, 0x0603,
    0x0604, 0x0700, 0x0701, 0x0800]

/-- A write that a port has sent through its aperture waits at a vault (R409). -/
def aperPending (s : State) (p : HostPort) : Bool :=
  let mine (r : VaultReq) : Bool := match r.user, r.data with
    | .mgmt q _, some _ => q == p
    | _, _ => false
  s.clusters.any fun c => (c.2.vault.queue ++ c.2.vault.waiting ++ (c.2.vault.locked.bind (·.req)).toList).any mine

/-- Opcodes that firmware consumes before MODULE_READY (R548). -/
def earlyOpcodes : List Nat := [0x0001, 0x0002, 0x0003, 0x0101, 0x0600, 0x0203, 0x0504]

/-- The record is consumed before MODULE_READY: a listed opcode, or a wafer or module RESET (R489, R548). -/
def earlyCmd (opcode : Nat) (r : CmdRec) : Bool := earlyOpcodes.contains opcode || (opcode == 0x0604 && decide (4 ≤ pb r 36 1))

/-- Consumption of the ring pauses at the record (R548). -/
def startPause (s : State) (opcode : Nat) (r : CmdRec) : Bool :=
  (s.boot.fw == .loading || s.boot.fw == .failed) && !earlyCmd opcode r

/-- The continuity record has room for what a command may leave: 65,536 unfinished commands, and 16,384 held completions of the port
(R453). -/
def recordRoom (s : State) (p : HostPort) : Bool := decide (s.unfinished.length < 65536) && decide ((heldCpl s p).length < 16384)

/-- The module consumes the record at the ring's TAIL. A command begins its checks when the port's aperture writes are visible
(R410). -/
def cmdReady (s : State) (p : HostPort) (opcode : Nat) (r : CmdRec) : Bool :=
  let h := getHost s p
  h.linkUp && h.cmd.en && !h.cmd.stop && decide (64 ≤ ringUsed h.cmd) && cplRoom s p && !startPause s opcode r && !aperPending s p
    && recordRoom s p

/-- CMD_TAIL passes the record. -/
def consumeCmd (s : State) (p : HostPort) : State :=
  let h := getHost s p
  setHost s p { h with cmd := { h.cmd with tail := h.cmd.tail + 64, seq := h.cmd.seq + 1 } }

/-- A ring of a port is stopped: 0x6010 and the error vector (R428, R434, R435). -/
def ringViolation (s : State) (p : HostPort) (cause ring value : Nat) : State :=
  let h := getHost s p
  let h := if ring = 0 then { h with cmd := { h.cmd with stop := true } }
    else if ring = 1 then { h with cpl := { h.cpl with stop := true } }
    else { h with evt := { h.evt with stop := true } }
  let s := raiseEv (setHost s p h) 0x6010 2 noFrame [(28, 1, portNo p), (29, 1, cause), (30, 1, ring), (32, 4, value)]
  fireVector s p (getHost s p).errVec.toNat

/-! ### Checks (R421 to R425, R600) -/

/-- A mailbox opcode as R599 lists it: number, lowest version (major, minor), whether this record is per-slate, whether it
needs module authority, and the buffer bytes its parameters need. -/
structure CmdSpec where
  opcode : Nat
  ver : Nat × Nat
  perSlate : Bool
  auth : Bool
  need : Nat

/-- Order 1: the record header or a reserved field is wrong. -/
def headerBad (s : State) (p : HostPort) (r : CmdRec) : Bool :=
  r.hdrType != 1 || r.len != 56 || r.seq != (getHost s p).cmd.seq || r.scopeRsv != 0 || r.rsv != 0

/-- Order 2: no session, or the record's version is not the session's. HELLO names no session. -/
def versionBad (s : State) (p : HostPort) (m : CmdSpec) (r : CmdRec) : Bool :=
  m.opcode != 1 && (match (getHost s p).session with
    | none => true
    | some v => v.1 != r.ifMajor.toNat || v.2 != r.ifMinor.toNat)

/-- Order 3: not listed, not served by the boot ROM, or above the session's version (R599, R600). -/
def opcodeBad (s : State) (p : HostPort) (m : CmdSpec) : Bool :=
  !opcodes.contains m.opcode || (s.boot.fw == .rom && m.opcode != 1 && m.opcode != 0x0100)
  || (m.opcode != 1 && (match (getHost s p).session with
    | none => true
    | some v => decide (v.1 < m.ver.1) || (v.1 == m.ver.1 && decide (v.2 < m.ver.2))))

/-- Order 4: MOD, or the parameter buffer. The buffer of a FW_LOAD is read after ACCEPTED (R550). -/
def bufferBad (m : CmdSpec) (r : CmdRec) : Bool :=
  (if m.perSlate then r.modul else !r.modul || r.slate != 0)
  || decide (0x1000000 < r.dataLen.toNat) || (r.dataAddr == 0 && r.dataLen != 0) || decide (r.dataLen.toNat < m.need)
  || m.opcode != 0x0100 && (match r.buffer with | none => r.dataLen != 0 | some b => decide (b.length ≠ r.dataLen.toNat))

/-- How a CSEQ stands to the next expected value (R421): 0 in sequence, 1 duplicate, 2 gap, 3 stale. -/
def seqJudge (next c : Word) : Nat :=
  let d := (c - next).toNat
  if d = 0 then 0 else if 2 ^ 32 - 256 ≤ d then 1 else if d ≤ 2 ^ 31 then 2 else 3

/-- The sequence space of a command: next expected CSEQ and the outcomes of its last 256 commands. -/
def seqSpace (s : State) (p : HostPort) (m : CmdSpec) (r : CmdRec) : Word × List (Word × Nat × Bool) :=
  if m.perSlate then ((getSlate s r.slate.toNat).nextCseq, (getSlate s r.slate.toNat).outcomes)
  else ((getHost s p).nextCseq, (getHost s p).outcomes)

/-- The space's next expected CSEQ advances; until the command completes, a duplicate of it carries ACCEPTED (R421). -/
def seqAdvance (s : State) (p : HostPort) (m : CmdSpec) (r : CmdRec) : State :=
  if m.perSlate then
    let v := getSlate s r.slate.toNat
    setSlate s r.slate.toNat
      { v with nextCseq := v.nextCseq + 1, outcomes := lastOutcomes (noteOutcome v.outcomes r.cseq 1 false) (v.nextCseq + 1) }
  else
    let h := getHost s p
    setHost s p
      { h with nextCseq := h.nextCseq + 1, outcomes := lastOutcomes (noteOutcome h.outcomes r.cseq 1 false) (h.nextCseq + 1) }

/-- A completion that consumes no CSEQ and is no outcome of the space. -/
def turnAway (s : State) (r : CmdRef) (st : Nat) (res : List (Nat × Nat × Nat)) : State :=
  postCpl s r.port (cplRecord r st true 0 res)

/-- Status a duplicate carries: its original's, or a free value where the space holds no outcome of that CSEQ. -/
def duplicate (s : State) (ref : CmdRef) (os : List (Word × Nat × Bool)) : State :=
  match os.find? fun o => o.1 == ref.cseq with
  | some o => turnAway s ref 0x0501 [(24, 2, if o.2.2 then o.2.1 else 1)]
  | none =>
    let v : BitVec 16 := Config.freeValue s.freeCtr
    turnAway { s with freeCtr := s.freeCtr + 1 } ref 0x0501 [(24, 2, v.toNat)]

/-- A stale CSEQ in a slate space freezes the port for the slate (R428, R464). -/
def hostFreeze (s : State) (p : HostPort) (ref : CmdRef) (n : Nat) (next : Word) : State :=
  let h := getHost s p
  let first := !h.frozenFor.contains n
  let s := if first then setHost s p { h with frozenFor := n :: h.frozenFor } else s
  let s := raiseEv s 0x6011 2 ⟨none, some n, none⟩
    [(28, 1, portNo p), (30, 2, n), (32, 4, ref.cseq.toNat), (36, 4, next.toNat)]
  let s := fireVector s p (getHost s p).errVec.toNat
  let s := if first then freezeSlate s n [(28, 1, 2), (29, 1, portNo p)] else s
  turnAway s ref 0x0401 []

/-- Orders 6 to 8 of R423, and what a CUTTING or SCRUBBING slate refuses (R442, R458), or 0. -/
def laterStatus (s : State) (p : HostPort) (m : CmdSpec) (r : CmdRec) : Nat :=
  let n := r.slate.toNat
  if m.perSlate && (getHost s p).frozenFor.contains n && m.opcode != 0x0202 && m.opcode != 0x0203 && m.opcode != 0x0204 then 0x0401
  else if m.auth && s.authority != some p then 0x0201
  else if m.perSlate && (getSlate s n).mode != .free && (getSlate s n).owner != p then 0x0203
  else if m.perSlate && (getSlate s n).mode == .cutting && m.opcode != 0x0202 && m.opcode != 0x0203 then 0x0401
  else if m.perSlate && (getSlate s n).mode == .scrubbing && m.opcode != 0x0203 then 0x0402
  else 0

/-- Order 5 and on. A command of a FREE slate has no space (R421); a SLATE_OPEN of a slate that is not OPEN or RUNNING for
the port is not judged against one (R440). -/
def judgeCmd (m : CmdSpec) (p : HostPort) (r : CmdRec) (body : CmdRef → State → State) (s : State) : State :=
  let ref := refOf m.opcode p r
  let free := m.perSlate && (getSlate s r.slate.toNat).mode == .free
  let open1 := m.opcode == 0x0201 && !(((getSlate s r.slate.toNat).mode == .opened || (getSlate s r.slate.toNat).mode == .running)
    && (getSlate s r.slate.toNat).owner == p)
  if m.opcode = 1 ∨ open1 = true then body ref s
  else if free then
    if m.opcode = 0x0203 then
      match laterStatus s p m r with
      | 0 => body ref s
      | st => turnAway s ref st []
    else turnAway s ref 0x0402 []
  else
    let sp := seqSpace s p m r
    match seqJudge sp.1 r.cseq with
    | 0 =>
      let s := seqAdvance s p m r
      match laterStatus s p m r with
      | 0 => body ref s
      | st => finish s ref st []
    | 1 => duplicate s ref sp.2
    | 2 => turnAway s ref 0x0502 []
    | _ =>
      if m.perSlate then hostFreeze s p ref r.slate.toNat sp.1
      else duplicate s ref []

/-- The specification a record is judged by on a row: the row's own where the record carries its opcode, that of an unlisted opcode, or
none where the opcode is another row's (R416). -/
def specFor (m : CmdSpec) (r : CmdRec) : Option CmdSpec :=
  if r.opcode.toNat = m.opcode then some m
  else if opcodes.contains r.opcode.toNat then none
  else some { m with opcode := r.opcode.toNat }

/-- A mailbox command of a known specification: consumed if the module takes the record at TAIL, then checked in the orders of R423. -/
def mailboxAs (m : CmdSpec) (p : HostPort) (r : CmdRec) (body : CmdRef → State → State) (s : State) : State :=
  if cmdReady s p m.opcode r then
    let tail := (getHost s p).cmd.tail
    let bad := headerBad s p r
    let s := consumeCmd s p
    let ref := refOf m.opcode p r
    if bad then ringViolation s p 1 0 tail.toNat
    else if versionBad s p m r then turnAway s ref 0x0102 []
    else if opcodeBad s p m then turnAway s ref 0x0101 []
    else if bufferBad m r then turnAway s ref 0x0103 []
    else judgeCmd m p r body s
  else s

/-- A mailbox row: its record's OPCODE picks the command. -/
def mailbox (m : CmdSpec) (p : HostPort) (r : CmdRec) (body : CmdRef → State → State) (s : State) : State :=
  match specFor m r with
  | some m => mailboxAs m p r body s
  | none => s

/-! ### Authority (R426) -/

/-- 0x6030 AUTHORITY_CHANGED. -/
def authorityEv (s : State) (p : HostPort) (holder cause : Nat) : State :=
  raiseEv s 0x6030 0 noFrame [(28, 1, portNo p), (29, 1, holder), (30, 1, cause)]

/-- A port loses authority it holds. -/
def loseAuthority (s : State) (p : HostPort) (cause : Nat) : State :=
  if s.authority = some p then authorityEv { s with authority := none } p 2 cause else s

/-- A session ends (R420, R426): link loss 3, a new HELLO or the start of firmware 4, controller reset 5. -/
def endSession (s : State) (p : HostPort) (cause : Nat) : State :=
  loseAuthority (setHost s p { getHost s p with session := none }) p cause

end Sys2Proof.Machine
end

