-- ==== Sys2Proof/Machine/ReplayOps.lean ====
section
/-! DEFINITION. Replays, substitutions and fault halts (R456, R457, R474 to R480). -/

namespace Sys2Proof.Machine

open Sys2Proof

/-! ### Records of unfinished work -/

/-- What a REPLAY or REMAP of a slate's scene goes by: port, run, slots, keyframe destination, latest resume point and its
area, and the gateway counts there. -/
structure RunRecord where
  cmd : CmdRef
  number : Nat
  run : Nat
  slots : List Nat
  kf : KfDest
  latest : Option Nat
  area : Nat
  winMark : List (Nat × Nat)
deriving DecidableEq, Repr

/-- The record of an admitted scene for one slate bound to it. -/
def recordOfScene (x : Scene) (n : Nat) : RunRecord :=
  { cmd := x.cmd, number := x.number, run := x.runs.getD (x.slots.findIdx (· == n)) 0, slots := x.slots, kf := x.kf
    latest := x.latest, area := x.area, winMark := x.winMark }

/-- The record of an unfinished command. -/
def recordOfUnfinished (u : Unfinished) : RunRecord :=
  { cmd := u.cmd, number := u.number, run := u.run, slots := u.slots, kf := u.kf, latest := u.latest, area := u.area
    winMark := u.winMark }

/-- The admitted scene of a storyboard and index that a slate is bound to. -/
def sceneFor (s : State) (sbn idx n : Nat) : Option Scene :=
  s.scenes.find? fun x => x.sbn == sbn && x.idx == idx && x.slots.contains n

/-- The scene is HALTED with the slate bound, or recorded as unfinished for it (R456, R477). A scene that is admitted for
the slate and not HALTED is neither. -/
def runRecord (s : State) (sbn idx n : Nat) : Option RunRecord :=
  match sceneFor s sbn idx n with
  | some x => if x.phase = .halted then some (recordOfScene x n) else none
  | none => (unfinishedFor s sbn idx n).map recordOfUnfinished

/-! ### REPLAY (R456, R457) -/

/-- A replay ordered by a command, by AUTO_REPLAY or by hang recovery: who, which scene, whether from the boundary
keyframe, the cause of 0xB033, and the command. -/
structure ReplayAsk where
  port : HostPort
  slate : Nat
  sbn : Nat
  idx : Nat
  boundary : Bool
  cause : Nat
  cmd : Option CmdRef

/-- Closes a HALTED scene for a replay: what its slates' records say is brought up to date first. -/
def replayClose (s : State) (sbn idx n : Nat) : State :=
  match sceneFor s sbn idx n with
  | some x =>
    if x.phase = .halted then
      let s := { s with unfinished := s.unfinished.map fun u =>
        if u.sbn = sbn ∧ u.idx = idx ∧ (boundSlates x).contains u.slate = true then
          { u with latest := x.latest, area := x.area, winMark := x.winMark } else u }
      dropScene s x false
    else s
  | none => s

/-- Replays of a slate's command so far. -/
def replaysOf (s : State) (sbn idx n : Nat) : Nat :=
  match unfinishedFor s sbn idx n with
  | some u => u.replays
  | none => 0

/-- COUNT of AUTO_REPLAY (R472). -/
def replayCount (s : State) : Nat := getLe (getPolicy s 1).args 0 1

/-- FROM of AUTO_REPLAY: boundary. -/
def replayFrom (s : State) : Bool := decide (getLe (getPolicy s 1).args 1 1 % 2 = 1)

/-- 0xB033 REPLAY_STARTED. -/
def replayEvent (s : State) (a : ReplayAsk) (q : RunRecord) : State :=
  raiseEv s 0xB033 1 ⟨none, some a.slate, some (q.number, 0)⟩
    [(28, 2, a.sbn), (30, 2, a.idx), (32, 2, q.run), (34, 1, if a.boundary then 1 else 0), (35, 1, a.cause),
      (36, 1, replayCount s - (replaysOf s a.sbn a.idx a.slate + 1))]

/-- The scene that a replay admits: the slate's slots alone, with the run they had. -/
def replayScene (b : Storyboard) (a : ReplayAsk) (q : RunRecord) : Scene :=
  let slots := q.slots.map fun n => if n = a.slate then n else 0xFFFF
  let x := newScene b.words a.sbn a.idx slots q.kf q.cmd
  { x with
    number := q.number
    part := a.slate + 1
    runs := slots.map fun n => if n = a.slate then q.run else 0
    latest := if a.boundary then none else q.latest
    area := if a.boundary then 0 else q.area
    winCount := if a.boundary then [] else q.winMark
    winMark := if a.boundary then [] else q.winMark
    replay := some (a.slate, a.cmd)
    restoring := decide (q.kf ≠ .inPlace) }

/-- A replay from a record: the HALTED scene closes, the admission is checked, and the replay waits for its restore and
its admission. The answer is the refusing status, or 0. -/
def replayRun (s : State) (b : Storyboard) (a : ReplayAsk) (q : RunRecord) : State × Nat :=
  let (s, good) := imageAgain s a.port a.sbn
  if !good then (s, 0x0103)
  else
  let b := (getBoard s a.sbn).getD b
  let s := replayClose s a.sbn a.idx a.slate
  let x := replayScene b a q
  let cand := candidate s b x
  let cut := scCut b.words a.idx
  let st := match slateStatus s a.port [a.slate] with
    | 0 => admitStatus s cand cut false
    | n => n
  if st ≠ 0 then (s, st)
  else
    let s := if cut then (cutScenes s cand.scene.region).foldl cutClose s else s
    let s := match a.cmd with | some r => accept s r [] | none => s
    (replayEvent { s with queuedRuns := s.queuedRuns ++ [cand.scene] } a q, 0)

/-- A replay by the module's own record. -/
def replayOrder (s : State) (a : ReplayAsk) : State × Nat :=
  if s.clock.hold then (s, 0x0801)
  else
    match getBoard s a.sbn, runRecord s a.sbn a.idx a.slate with
    | some b, some q => replayRun s b a q
    | _, _ => (s, 0x0103)

/-- Restores the keep ranges of the replayed slots from their copy (R456): the answer is that of the writes. -/
def replayRestore (s : State) (b : Storyboard) (x : Scene) : State × RdOut :=
  let ks := match x.latest with
    | none => keepsOf b.words x.idx
    | some r => resKeeps b.words x.idx r
  let at0 := keepLayout (ks.map (keepPlace b x.idx)) (x.area * areaBytes b x.idx)
  copyBack s x.cmd.port x.kf
    (((ks.zip at0).filter fun q => decide (x.slots.getD q.1.slot 0xFFFF < 4096)).map (·.2))

/-! ### Substitutions (R477 to R479) -/

/-- Slots of a record bound to a slate. -/
def slotsOf (q : RunRecord) (n : Nat) : List Nat := (List.range q.slots.length).filter fun i => q.slots.getD i 0xFFFF == n

/-- What a new core fails: a status, or 0. `off` is where the call sheet lies in the image. -/
def newCoreStatus (s : State) (b : Storyboard) (idx slot old new : Nat) : Nat :=
  if !xyOk new || decide ((getCore s new).mode = .fenced) || !goodCore s new || isDark s (clOf new) then 0x0103
  else if !((rectsOf b.words idx).any fun r => decide (rectSlot r = slot) && inRect r (clOf new)) then 0x0103
  else if (placedSheets b idx).any (fun p => p.1 == new && p.1 != old)
      || (s.scenes.any fun y => y.cores.any fun p => p.1 == new && p.1 != old) then 0x0301
  else 0

/-- The stand-ins a call sheet lists, in order (R192). -/
def standinsOf (b : Storyboard) (off : Nat) : List Nat :=
  ((List.range 8).map fun i => iw b.words (off + 392 + i)).filterMap fun w => if w.testBit 31 then some (w % 2 ^ 18) else none

/-- Checks of REMAP in their order: the status, or the new core. -/
def remapCheck (s : State) (b : Storyboard) (q : RunRecord) (idx n old new : Nat) : Nat × Nat :=
  match (placedSheets b idx).find? fun p => p.1 == old && (slotsOf q n).contains p.2.1 with
  | none => (0x0103, 0)
  | some p =>
    if (getCore s old).mode ≠ .fenced ∧ isDark s (clOf old) = false then (0x0103, 0)
    else if q.kf = .inPlace ∧ (keepsOf b.words idx).any (fun k => k.space == 1 && followCore b idx (k.target % 2 ^ 18) == old) then
      (0x0103, 0)
    else
      let pick := if new = 0x3FFFF then (standinsOf b p.2.2).find? fun c => newCoreStatus s b idx p.2.1 old c == 0 else some new
      match pick with
      | none => (0x0103, 0)
      | some c =>
        match newCoreStatus s b idx p.2.1 old c with
        | 0 => if 64 ≤ (b.substs.filter fun t => t.1 == idx).length then (0x0301, 0) else (0, c)
        | st => (st, 0)

/-- REMAP: records the substitution and raises 0xB032. The answer is the status and the new core. -/
def remapOrder (s : State) (sbn idx n old new cause : Nat) : State × Nat × Nat :=
  match getBoard s sbn, runRecord s sbn idx n with
  | some b, some q =>
    match remapCheck s b q idx n old new with
    | (0, c) =>
      let s := setBoard s sbn (some { b with substs := b.substs ++ [(idx, old, c)] })
      (raiseEv s 0xB032 1 ⟨none, some n, some (q.number, 0)⟩
        [(28, 4, old), (32, 4, c), (36, 2, sbn), (38, 2, idx), (40, 1, cause)], 0, c)
    | (st, _) => (s, st, 0)
  | _, _ => (s, 0x0103, 0)

/-! ### AUTO_REPLAY (R480) -/

/-- The scenes of a slate that a fault halt has halted and that await a replay: storyboard, scene. -/
def haltedRuns (s : State) (n : Nat) : List (Nat × Nat) :=
  (s.unfinished.filter fun u => u.slate == n && (runRecord s u.sbn u.idx n).isSome).map fun u => (u.sbn, u.idx)

/-- None of the slate's call sheets in the scene names a FENCED core. -/
def noFenced (s : State) (sbn idx n : Nat) : Bool :=
  match getBoard s sbn, runRecord s sbn idx n with
  | some b, some q => (placedSheets b idx).all fun p =>
      !(slotsOf q n).contains p.2.1 || decide ((getCore s p.1).mode ≠ .fenced)
  | _, _ => false

/-- The runs of a slate that AUTO_REPLAY would replay now, and those that have no replay left. -/
def autoReplays (s : State) (n : Nat) : List (Nat × Nat) × List (Nat × Nat) :=
  if (getPolicy s 1).armed = true ∧ (getSlate s n).mode = .held ∧ (getSlate s n).faultHeld = true then
    let l := (haltedRuns s n).filter fun q => noFenced s q.1 q.2 n
    (l.filter fun q => decide (replaysOf s q.1 q.2 n < replayCount s),
     l.filter fun q => decide (replayCount s ≤ replaysOf s q.1 q.2 n))
  else ([], [])

/-- AUTO_REPLAY acts for a slate. -/
def autoReplay (s : State) (n : Nat) : State :=
  let p := autoReplays s n
  let s := p.2.foldl (fun s q =>
    let run := match runRecord s q.1 q.2 n with | some r => r.run | none => 0
    raiseEv s 0xB034 2 ⟨none, some n, none⟩ [(28, 2, q.1), (30, 2, q.2), (32, 2, run), (34, 1, replayCount s)]) s
  p.1.foldl (fun s q => (replayOrder s
    { port := (getSlate s n).owner, slate := n, sbn := q.1, idx := q.2, boundary := replayFrom s, cause := 1, cmd := none }).1) s

/-! ### Fault halts (R474, R475, R602) -/

/-- A core becomes FENCED (R197, R244): its work is abandoned and the floor plan changes (R559). -/
def fenceCore (s : State) (k : Nat) : State :=
  let c := getCore s k
  if c.mode = .fenced then s
  else bumpFloor (setCore s k
    { retireQueues (abandonWork c) with mode := .fenced, cause := 0, wait := .none, order := false, fencedInService := true })

/-- Slates that a halt of a slate's scenes would hold. -/
def wouldHold (s : State) (n : Nat) : List Nat :=
  (((scenesOf s n).filter fun x => x.phase != .halted).flatMap boundSlates).eraseDups.filter fun m =>
    (getSlate s m).mode == .running || (getSlate s m).mode == .opened

/-- Marks slates as held by a fault halt (R480). -/
def markFaultHeld (s : State) (ns : List Nat) : State :=
  ns.foldl (fun s n => setSlate s n { getSlate s n with faultHeld := true }) s

/-- The scene that 0xB030 names: the detection's, or a halted scene of the slate. -/
def faultScene (s : State) (d : Detection) (n : Nat) : Option Scene :=
  let own := match d.scene with
    | some (b, i) => findScene s b i
    | none => none
  match own with
  | some x => if x.slots.contains n then some x else (scenesOf s n).head?
  | none => (scenesOf s n).head?

/-- AUTO_STANDIN: a fenced core's call sheet goes to its first alternate (R479). The answer says whether it did. -/
def autoStandin (s : State) (k n : Nat) : State × Bool :=
  if (getPolicy s 2).armed then
    match (scenesOf s n).find? fun x => x.phase == .halted && x.cores.any fun p => p.1 == k && x.slots.getD p.2.1 0xFFFF == n with
    | some x =>
      let r := remapOrder s x.sbn x.idx n k 0x3FFFF 1
      (r.1, decide (r.2.1 = 0))
    | none => (s, false)
  else (s, false)

/-- A fault halt for one slate. -/
def faultHaltSlate (s : State) (d : Detection) (n : Nat) : State :=
  let held := wouldHold s n
  let x := faultScene s d n
  let s := markFaultHeld (haltSlateScenes s n 1) held
  let core := d.cls = 1
  let s := match d.core with | some k => if core then fenceCore s k else s | none => s
  let (s, moved) := match d.core with
    | some k => if core then autoStandin s k n else (s, false)
    | none => (s, false)
  let replays := (autoReplays s n).1
  let kf := match x with
    | some y => (match y.latest with | some r => r | none => 0xFF)
    | none => 0xFF
  let s := raiseEv s 0xB030 2 ⟨d.core, some n, x.map fun y => (y.number, y.epoch.toNat)⟩
    [(28, 2, d.code), (30, 1, 1 + (if core then 2 else 0) + (if moved then 4 else 0) + (if replays.isEmpty then 0 else 8)),
      (31, 1, d.cls), (32, 3, d.core.getD 0x3FFFF), (36, 2, (x.map (·.sbn)).getD 0), (38, 2, (x.map (·.idx)).getD 0),
      (40, 2, (x.map fun y => y.runs.getD (y.slots.findIdx (· == n)) 0).getD 0), (42, 1, kf), (43, 1, held.length)]
  held.foldl autoReplay (if held.contains n then s else autoReplay s n)

/-- A fault halt (R475). A fault that names no slate but a core fault still fences its core. -/
def faultHalt (s : State) (d : Detection) : State :=
  match d.slates.filter fun n => (getSlate s n).mode != .free with
  | [] => match d.core with
    | some k => if d.cls = 1 then fenceCore s k else s
    | none => s
  | ns => ns.foldl (fun s n => faultHaltSlate s d n) s

end Sys2Proof.Machine
end

