-- ==== Sys2Proof/Machine/BoardOps.lean ====
section
/-! DEFINITION. What the scene commands check and do (R275 to R281, R292, R293, R456, R477, R603). -/

namespace Sys2Proof.Machine

open Sys2Proof

/-! ### STORYBOARD_LOAD (R275, R276, R331, R601) -/

/-- VAULT destination of a load: cluster and word offset. -/
def loadVault (r : CmdRec) : Option (Nat × Nat) :=
  if pb r 36 1 = 1 then some (clOfTarget (pb r 40 4), pb r 44 4) else none

/-- The storyboard a load replaces. -/
def loadReplaces (r : CmdRec) : Option Nat := if pbit r 37 0 then some (pb r 38 1) else none

/-- A scene of the storyboard is admitted or queued. -/
def boardBusy (s : State) (n : Nat) : Bool := (s.scenes ++ s.queuedRuns).any fun x => x.sbn == n

/-- A storyboard may be replaced by a slate: 0, or a status. -/
def replaceStatus (s : State) (slate n : Nat) : Nat :=
  match getBoard s n with
  | some b => if b.slate ≠ slate then 0x0103 else if boardBusy s n then 0x0301 else 0
  | none => 0x0103

/-- Storyboards held, and loads that will add one. -/
def boardCount (s : State) : Nat := s.storyboards.length + (s.works.load.filter fun l => l.sbn.isNone).length

/-- Checks of STORYBOARD_LOAD before its image is read: a status, or 0. -/
def loadStatus (s : State) (slate : Nat) (r : CmdRec) : Nat :=
  if !rsvOk r [(36, 0, 1), (37, 0, 1), (38, 0, 8), (40, 0, 12), (44, 0, 32), (48, 0, 64)] || r.dataAddr != 0 then 0x0103
  else if pb r 36 1 = 1 ∧ (noVaults s = true ∨ clTargetOk (pb r 40 4) = false) then 0x0103
  else match loadReplaces r with
    | some n => replaceStatus s slate n
    | none => if 256 ≤ boardCount s then 0x0301 else 0

/-- STORYBOARD_LOAD: the work of reading and checking the image begins. -/
def loadBegin (slate : Nat) (r : CmdRec) (ref : CmdRef) (s : State) : State :=
  match loadStatus s slate r with
  | 0 =>
    let w : LoadWork := { cmd := ref, slate := slate, vault := loadVault r, host := BitVec.ofNat 64 (pb r 48 8), sbn := loadReplaces r }
    accept { s with works := { s.works with load := s.works.load ++ [w] } } ref []
  | st => finish s ref st []

/-- The image's words lie wholly in one vault range of the slate. -/
def loadFits (s : State) (w : LoadWork) (len : Nat) : Bool :=
  match w.vault with
  | none => true
  | some (cl, off) => slateOwns s w.slate (3, cl, off, len)

/-- The word offset of the first check of R276 that the words read fail. -/
def loadBad (s : State) (w : LoadWork) (words : Option (List Word)) : Option Nat :=
  match words with
  | none => some 0
  | some ws =>
    if ws.length < 2 then some ws.length
    else if imLength ws < 8 || !loadFits s w (imLength ws) then some 1
    else if ws.length < imLength ws then some ws.length
    else imageBad (ws.take (imLength ws))

/-- Lowest number that no storyboard has. -/
def freeBoard (s : State) : Nat := ((List.range 256).find? fun n => (getBoard s n).isNone).getD 0

/-- The image is written to its vault, in the port's order (R325, R327). -/
def vaultImage (s : State) (w : LoadWork) (ws : List Word) : State × RdOut :=
  match w.vault with
  | none => (s, .ok [])
  | some (cl, off) => placeWrite s w.cmd.port (3, cl, off, ws.length) ws

/-- The range of an image in a vault is registered (R331). -/
def vaultRegister (s : State) (w : LoadWork) (ws : List Word) : State :=
  match w.vault with
  | none => s
  | some (cl, off) =>
    immRegister s cl
      { kind := 1, hport := decide (w.cmd.port = .B), eport := 0, slate := BitVec.ofNat 12 w.slate, base := BitVec.ofNat 32 off
        len := BitVec.ofNat 32 ws.length, originLo := BitVec.ofNat 32 w.host.toNat
        originHi := BitVec.ofNat 32 (w.host.toNat / 2 ^ 32) }

/-- An image that stays in host memory: what lies at its address there is what has been read. -/
def imageSeen (s : State) (w : LoadWork) (ws : List Word) : State :=
  if w.vault.isNone then hostWrite s w.cmd.port w.host.toNat (wordsBytes ws) else s

/-- The immutable range of a storyboard that is replaced or discarded returns to FREE (R332). -/
def boardForget (s : State) (n : Nat) : State :=
  match getBoard s n with
  | some b =>
    let s := setBoard s n none
    match b.vault with
    | some (cl, off) => immFreeWhere s fun c e => decide (c = cl) && decide (e.kind = 1) && decide (e.base.toNat = off)
        && decide (e.len.toNat = b.words.length)
    | none => s
  | none => s

/-- STORYBOARD_LOAD_DONE: the image has been read, or its read failed. A vault destination whose port has no turn for the write
yet leaves the load as it is, and one whose line cannot be written ends it (R335). -/
def loadEnd (s0 : State) (slate : Nat) (words : Option (List Word)) : State :=
  match s0.works.load.find? fun w => w.slate == slate with
  | none => s0
  | some w =>
    let s := { s0 with works := { s0.works with load := s0.works.load.erase w } }
    match loadBad s w words with
    | some o => finish s w.cmd 0x0103 [(28, 4, o)]
    | none =>
      let st := match w.sbn with
        | some n => replaceStatus s slate n
        | none => 0
      if st ≠ 0 then finish s w.cmd st []
      else
        let ws := match words with | some l => l.take (imLength l) | none => []
        let n := w.sbn.getD (freeBoard s)
        match vaultImage s w ws with
        | (s, .wait) => { s with works := { s.works with load := s0.works.load } }
        | (s, .err) => finish s w.cmd 0x0901 []
        | (s, .ok _) =>
          let s := imageSeen (vaultRegister (boardForget s n) w ws) w ws
          let s := setBoard s n (some { slate := slate, words := ws, vault := w.vault, host := w.host, substs := [] })
          finish s w.cmd 0 [(24, 1, n)]

/-! ### SCENE_RUN (R277 to R281, R601) -/

/-- The storyboard and scene a command names, when the slate loaded it. -/
def namedScene (s : State) (slate : Nat) (r : CmdRec) : Option (Storyboard × Nat × Nat) :=
  match getBoard s (pb r 36 1) with
  | some b => if b.slate = slate ∧ pb r 38 2 < imScenes b.words then some (b, pb r 36 1, pb r 38 2) else none
  | none => none

/-- Buffer bytes that SCENE_RUN needs: an entry for each slot. -/
def runNeed (s : State) (r : CmdRec) : Nat :=
  match namedScene s r.slate.toNat r with
  | some q => 2 * scSlots q.1.words q.2.2
  | none => 0

/-- Slate bindings of the buffer. -/
def runSlots (r : CmdRec) : List Nat := (List.range (r.dataLen.toNat / 2)).map fun i => getLe (bufBytes r) (2 * i) 2

/-- A keyframe destination as bytes 40 to 48 give it (R601), for KF_DEST `kf`; `none` when missing or malformed. -/
def kfParam (r : CmdRec) (kf : Nat) : Option KfDest :=
  if kf = 0 then some .inPlace
  else if kf = 1 then
    if pbit r 48 0 = false ∧ pb r 40 8 ≠ 0 then some (.host (BitVec.ofNat 64 (pb r 40 8))) else none
  else if pbit r 48 0 = true ∧ pb r 40 8 / 2 ^ 31 = 0 ∧ bits (pb r 40 8) 24 7 < 120 then
    some (.reel (bits (pb r 40 8) 0 24) (bits (pb r 40 8) 24 7))
  else none

/-- Fields of SCENE_RUN. -/
def runFields : List (Nat × Nat × Nat) := [(36, 0, 8), (37, 0, 3), (38, 0, 16), (40, 0, 64), (48, 0, 1)]

/-- Order 1 of R278. On a variant without vaults, a scene with keep ranges and no destination lacks one (R340). -/
def runOrder1 (s : State) (r : CmdRec) : Option (Storyboard × Scene) :=
  match namedScene s r.slate.toNat r with
  | none => none
  | some (b, sbn, idx) =>
    let slots := runSlots r
    match kfParam r (scKf b.words idx) with
    | none => none
    | some kf =>
      if kf = .inPlace ∧ noVaults s = true ∧ scKeeps b.words idx ≠ 0 then none
      else if rsvOk r runFields = true ∧ pb r 37 1 % 4 ≠ 3 ∧ r.dataLen.toNat = 2 * scSlots b.words idx
          ∧ slots.all (fun n => decide (n < 4096)) = true ∧ slots.getD 0 0 = b.slate then
        some (b, newScene b.words sbn idx slots kf ⟨.A, 0, 0, 0⟩)
      else none

/-- CHANGE resolves to CUT (R277). -/
def runCut (b : Storyboard) (r : CmdRec) (idx : Nat) : Bool :=
  if pb r 37 1 % 4 = 0 then scCut b.words idx else decide (pb r 37 1 % 4 = 2)

/-- SCENE_RUN with RESUME = 0: the image read again where it has to be (R275), the checks, the closes of R286, and the queue of
admissions. -/
def runBegin (p : HostPort) (r : CmdRec) (ref : CmdRef) (s : State) : State :=
  if s.clock.hold then finish s ref 0x0801 []
  else
    let (s, good) := imageAgain s p (pb r 36 1)
    match if good then runOrder1 s r else none with
    | none => finish s ref 0x0103 []
    | some (b, x) =>
      let x := { x with cmd := ref }
      let cut := runCut b r x.idx
      let cand := candidate s b x
      let st := match slateStatus s p (boundSlates x) with
        | 0 => admitStatus s cand cut true
        | n => n
      if st ≠ 0 then finish s ref st []
      else
        let s := if cut then (cutScenes s cand.scene.region).foldl cutClose s else s
        { s with queuedRuns := s.queuedRuns ++ [{ cand.scene with cut := cut }] }

/-- A HELD core is released to RUNNING at its PC (R103, R169, R197, R235). -/
def releaseCore (s : State) (k : Nat) : State :=
  let c := getCore s k
  let c := { c with order := false }
  if c.mode = .held ∧ (c.cause = 1 ∨ c.cause = 2 ∨ c.cause = 3) then
    startTables (setCore s k { c with
      mode := .running
      cause := 0
      started := true
      mxStop := 0
      vxStop := 0
      dma := c.dma.map fun d => { d with stopped := false, fault := false }
      wdCycles := 0 }) k
  else setCore s k c

/-- Every slot bound in `y` is bound to the same slate in `x`. -/
def slotsMatch (y x : Scene) : Bool :=
  decide (y.slots.length = x.slots.length) && (y.slots.zip x.slots).all fun q => q.1 == q.2 || q.1 == 0xFFFF

/-- Orders 5 and 6 for a resume: the scene does not count as overlapping itself, and counts once among the 64 of R24. -/
def resumeStatus (s : State) (x : Scene) (found : Option Scene) : Nat :=
  match found with
  | none => 0x0103
  | some y =>
    let live := (s.scenes ++ s.queuedRuns).filter fun z => !sameScene z y
    if y.cores.any (fun p => let c := getCore s p.1; c.mode == .held && (c.cause == 4 || c.cause == 5))
      || y.region.any (isDark s) || decide (64 ≤ live.length) || live.any (fun z => regionsMeet z.region y.region) then 0x0301
    else if y.phase ≠ .halted ∨ slotsMatch y x = false
      ∨ y.cores.any (fun p => let c := getCore s p.1
          c.mode == .fenced || c.mode == .frozen || c.sheet.isNone || c.scene != some (y.sbn, scKey y)) = true then 0x0103
    else 0

/-- SCENE_RUN with RESUME = 1 (R278, R281, R441). -/
def resumeRun (p : HostPort) (r : CmdRec) (ref : CmdRef) (s : State) : State :=
  if s.clock.hold then finish s ref 0x0801 []
  else
    match runOrder1 s r with
    | none => finish s ref 0x0103 []
    | some (_, x) =>
      let found := (s.scenes.find? fun y => y.sbn == x.sbn && y.idx == x.idx && slotsMatch y x && y.phase == .halted).or
        (s.scenes.find? fun y => y.sbn == x.sbn && y.idx == x.idx)
      let st := match slateStatus s p (boundSlates x) with
        | 0 => resumeStatus s x found
        | n => n
      if st ≠ 0 then finish s ref st []
      else
        match found with
        | none => finish s ref 0x0103 []
        | some y =>
          let s := accept s ref []
          let s := y.cores.foldl (fun s p => releaseCore s p.1) s
          let y := { y with phase := .running, lastProgress := now s }
          let s := setScene s y
          let s := (boundSlates y).foldl (fun s n => slateRuns s y n) s
          sceneCheck (finish s ref 0 []) y.sbn (scKey y)

/-! ### SCENE_HALT, KEYFRAME_TAKE, KEYFRAME_RELEASE (R292, R293, R603) -/

/-- The scene that SCENE_HALT or KEYFRAME_TAKE names, in one of the phases given. -/
def phaseScene (s : State) (r : CmdRec) (ps : List ScenePhase) : Option Scene :=
  match namedScene s r.slate.toNat r with
  | some (_, sbn, idx) => s.scenes.find? fun x => x.sbn == sbn && x.idx == idx && ps.contains x.phase
  | none => none

/-- SCENE_HALT. -/
def haltCmd (p : HostPort) (r : CmdRec) (ref : CmdRef) (s : State) : State :=
  match phaseScene s r [.running, .ended] with
  | some x =>
    if rsvOk r [(36, 0, 8), (38, 0, 16)] = false then finish s ref 0x0103 []
    else if (boundSlates x).any fun n => (getSlate s n).owner != p then finish s ref 0x0203 []
    else
      let s := haltScene (accept s ref []) x
      finish ((boundSlates x).foldl (fun s n => holdSlate s n 5) s) ref 0 []
  | none => finish s ref 0x0103 []

/-- KEYFRAME_TAKE. -/
def takeCmd (r : CmdRec) (ref : CmdRef) (s : State) : State :=
  match phaseScene s r [.running, .halted, .ended], kfParam r (if pbit r 48 0 then 2 else 1) with
  | some x, some kf =>
    if rsvOk r [(36, 0, 8), (38, 0, 16), (40, 0, 64), (48, 0, 1)] then
      let s := accept { s with works := { s.works with takes := s.works.takes ++ [⟨ref, x.sbn, x.idx, kf⟩] } } ref []
      match getBoard s x.sbn with
      | some b => copyStart s .take b x.sbn x.idx x.idx ref.port kf none 0
      | none => s
    else finish s ref 0x0103 []
  | _, _ => finish s ref 0x0103 []

/-- KEYFRAME_TAKE_DONE: the copy has ended, or has failed with a status of its own or the one given. With OK it goes on first,
and completes only when every byte has reached its completion point. -/
def takeEnd (s : State) (sbn idx status : Nat) : State :=
  match s.works.takes.find? fun t => t.sbn == sbn && t.idx == idx with
  | none => s
  | some t =>
    let ended (s : State) (st : Nat) : State := finish { s with works := { s.works with takes := s.works.takes.erase t } } t.cmd st []
    match copyJob s .take sbn idx with
    | none => ended s status
    | some j =>
      if j.status = 0 ∧ status = 0 then
        match copyWork s j with
        | (s, j) =>
          if copyDone s j then ended (copyDrop s j) 0
          else if j.status ≠ 0 then ended (copyDrop s j) j.status
          else s
      else ended (copyDrop s j) (if j.status = 0 then status else j.status)

/-- Entries that a release frees. -/
def releasedEntries (q : ClosedRun) (bytes : Nat) (e : ImmEntry) : Bool :=
  decide (e.slate.toNat = q.slate) && q.kfs.any fun kf => immFrom q.port kf bytes e

/-- KEYFRAME_RELEASE. -/
def releaseCmd (r : CmdRec) (ref : CmdRef) (s : State) : State :=
  let n := r.slate.toNat
  let sbn := pb r 36 1
  let idx := pb r 38 2
  let live := s.scenes.any fun x => x.sbn == sbn && x.idx == idx && x.slots.contains n
  let run := s.closedScenes.find? fun q => q.sbn == sbn && q.idx == idx && q.slate == n
  match getBoard s sbn with
  | none => finish s ref 0x0103 []
  | some b =>
    if rsvOk r [(36, 0, 8), (38, 0, 16)] = false ∨ imScenes b.words ≤ idx ∨ (run.isNone = true ∧ live = false
        ∧ (unfinishedFor s sbn idx n).isNone = true) then finish s ref 0x0103 []
    else if live ∨ (unfinishedFor s sbn idx n).isSome then finish s ref 0x0301 []
    else
      match run with
      | none => finish s ref 0x0103 []
      | some q =>
        let pick := releasedEntries q (destBytes b idx)
        let freed := s.clusters.foldl (fun a c => a + (c.2.vault.imm.filter pick).length) 0
        let s := immFreeWhere s fun _ e => pick e
        let s := { s with closedScenes := s.closedScenes.map fun t => if t = q then { q with kfs := [] } else t }
        finish s ref 0 [(24, 4, freed)]

/-! ### REPLAY and REMAP commands (R456, R477) -/

/-- The run a COLD replay names: slot 0 alone, as no record tells the slots (R455). -/
def coldRecord (s : State) (n : Nat) (r : CmdRec) (ref : CmdRef) (b : Storyboard) : Option RunRecord :=
  let idx := pb r 38 2
  let kf := if scKf b.words idx = 0 then some .inPlace
    else if scKf b.words idx = 1 then some (.host (BitVec.ofNat 64 (pb r 48 8)))
    else if pb r 48 8 / 2 ^ 31 = 0 ∧ bits (pb r 48 8) 24 7 < 120 then some (.reel (bits (pb r 48 8) 0 24) (bits (pb r 48 8) 24 7))
    else none
  let base : RunRecord := match runRecord s (pb r 36 1) idx n with
    | some q => q
    | none =>
      { cmd := ref, number := scNumber b.words idx, run := 0
        slots := (List.range (scSlots b.words idx)).map fun i => if i = 0 then n else 0xFFFF
        kf := .inPlace, latest := none, area := 0, winMark := [] }
  match kf with
  | some k => if imScenes b.words ≤ idx then none else some { base with run := pb r 40 2, kf := k, latest := none, area := 0, winMark := [] }
  | none => none

/-- REPLAY. -/
def replayCmd (p : HostPort) (r : CmdRec) (ref : CmdRef) (s : State) : State :=
  if s.clock.hold then finish s ref 0x0801 []
  else
    let n := r.slate.toNat
    let sbn := pb r 36 1
    let idx := pb r 38 2
    let cold := pbit r 37 1
    let a : ReplayAsk := { port := p, slate := n, sbn := sbn, idx := idx, boundary := pbit r 37 0, cause := 0, cmd := some ref }
    match getBoard s sbn with
    | none => finish s ref 0x0103 []
    | some b =>
      let q := if cold then
          (match sceneFor s sbn idx n with
            | some x => if x.phase = .halted then coldRecord s n r ref b else none
            | none => if b.slate = n ∨ (unfinishedFor s sbn idx n).isSome then coldRecord s n r ref b else none)
        else runRecord s sbn idx n
      match q with
      | none => finish s ref 0x0103 []
      | some q =>
        if rsvOk r [(36, 0, 8), (37, 0, 2), (38, 0, 16), (40, 0, 12), (48, 0, 64)] then
          let s := setSlate s n { getSlate s n with faultHeld := false }
          match replayRun s b a q with
          | (s, 0) => s
          | (s, st) => finish s ref st []
        else finish s ref 0x0103 []

/-- KEYFRAME_RESTORE_DONE: the keep ranges are back, or the restore failed. One whose vault has no turn for it yet goes on
later. -/
def restoreEnd (s : State) (sbn idx status : Nat) : State :=
  match s.queuedRuns.find? fun x => x.sbn == sbn && x.idx == idx && x.restoring with
  | none => s
  | some x =>
    let fail (s : State) (st : Nat) : State :=
      let s := { s with queuedRuns := s.queuedRuns.erase x }
      match x.replay with
      | some (_, some ref) => finish s ref st []
      | _ => s
    if status = 0 then
      let back (s : State) : State :=
        { s with queuedRuns := s.queuedRuns.map fun y => if y = x then { y with restoring := false } else y }
      match getBoard s sbn with
      | none => back s
      | some b =>
        match replayRestore s b x with
        | (s, .ok _) => back s
        | (s, .wait) => s
        | (s, .err) => fail s 0x0901
    else fail s status

/-- REMAP. AUTO_REPLAY tests its conditions again after it (R480). -/
def remapCmd (r : CmdRec) (ref : CmdRef) (s : State) : State :=
  let n := r.slate.toNat
  if rsvOk r [(36, 0, 8), (38, 0, 16), (40, 0, 18), (44, 0, 18)] then
    match remapOrder s (pb r 36 1) (pb r 38 2) n (pb r 40 4) (pb r 44 4) 0 with
    | (s, 0, c) => autoReplay (finish s ref 0 [(24, 4, c)]) n
    | (s, st, _) => finish s ref st []
  else finish s ref 0x0103 []

end Sys2Proof.Machine
end

