-- ==== Sys2Proof/Machine/LinkOps.lean ====
section
/-! DEFINITION. Reception on an edge port: frames, Vexaz packets, link-up and link-down (R347 to R353). -/

namespace Sys2Proof.Machine

open Sys2Proof

/-! ### Frames (R347) -/

/-- A big-endian number. -/
def beNat (bs : List Byte) : Nat := leNat bs.reverse

/-- The frame is for this port: destination, 802.1Q tag, VID and EtherType. -/
def frameForPort (s : State) (e : Nat) (f : List Byte) : Bool :=
  let p := getPort s e
  let dst := beNat (f.take 6)
  (dst == portMac s e || dst == 0xFFFFFFFFFFFF) && beNat ((f.drop 12).take 2) == 0x8100
    && beNat ((f.drop 14).take 2) % 4096 == p.vid.toNat && beNat ((f.drop 16).take 2) == p.etype.toNat

/-! ### Vexaz packets (R350, R351) -/

def vxType (m : List Byte) : Nat := getLe m 0 1 / 16

def vxClass (m : List Byte) : Nat := getLe m 1 1 % 4

def vxLen (m : List Byte) : Nat := getLe m 2 2

def vxSeq (m : List Byte) : Word := BitVec.ofNat 32 (getLe m 4 4)

def vxAck (m : List Byte) : Word := BitVec.ofNat 32 (getLe m 8 4)

def vxAckCl (m : List Byte) : Nat := getLe m 12 1 % 4

/-- Payload of a Vexaz packet. -/
def vxPay (m : List Byte) : List Byte := (m.drop 16).take (vxLen m)

/-- A packet whose check fails, whose TYPE is unlisted, or whose reserved field is not zero, those of the payload of INIT and INIT_ACK
among them (R352). -/
def vexazBad (m : List Byte) : Bool :=
  decide (m.length < 20 + vxLen m) || decide (9174 < vxLen m)
    || decide (crc32c (m.take (16 + vxLen m)) ≠ getLe m (16 + vxLen m) 4)
    || decide (vxType m = 0) || decide (6 < vxType m) || decide (4 ≤ getLe m 1 1) || decide (4 ≤ getLe m 12 1)
    || decide (getLe m 13 3 ≠ 0) || (decide (vxType m = 3) && decide (vxClass m = 3))
    || (decide (vxType m ≤ 2) && (decide (vxLen m ≠ 24) || decide (getLe m 23 1 ≠ 0) || decide (getLe m 32 8 ≠ 0)))

/-- Sends one NAK after an accepted packet, naming the SEQ expected. -/
def sendNak (s : State) (e cls : Nat) : State :=
  let p := getPort s e
  let r := rxOf p cls
  if r.nakSent || decide (2 < cls) || decide (p.link ≠ .up) then s
  else sendCtl (setPort s e (setRx p cls { r with nakSent := true })) e ⟨5, r.expected.toNat, 0, cls, []⟩

/-- Discards a packet that fails a check: it is counted, and NAKed in the class its priority names. -/
def vexazDiscard (s : State) (e pcp : Nat) : State :=
  let p := getPort s e
  sendNak (setPort s e { p with discard := satAdd 0xFFFF p.discard 1 }) e pcp

/-- Takes the oldest received packet when it is of a type, or fails a check. -/
def withVexaz (s : State) (e typ : Nat) (act : State → List Byte → State) : State :=
  let p := getPort s e
  match p.rxq with
  | [] => s
  | (pcp, m) :: rest =>
    if vexazBad m then vexazDiscard (setPort s e { p with rxq := rest }) e pcp
    else if vxType m = typ then act (setPort s e { p with rxq := rest }) m
    else s

/-! ### Link-up (R352) -/

/-- The 24-byte payload of INIT and INIT_ACK. -/
def initPay (s : State) (e v : Nat) : List Byte :=
  let p := getPort s e
  record 24 [(0, 1, 1), (1, 1, 2), (2, 1, if p.role then 2 else 1), (3, 1, lanesOf p), (4, 2, e), (6, 1, v),
    (8, 8, s.otp.serial.toNat)]

/-- Sends INIT. -/
def sendInit (s : State) (e : Nat) : State := sendCtl s e ⟨1, 0, 0, 0, initPay s e 0⟩

/-- The highest version within both ranges, or 0. -/
def initVersion (vmin vmax : Nat) : Nat :=
  let lo := max 1 vmin
  let hi := min 2 vmax
  if lo ≤ hi then hi else 0

/-- The link is up: RHELLO or FHELLO is sent, and LINK_UP raised, for a STREAM port once RHELLO_ACK gives the reel version it shows
(R370, log entry 101). -/
def linkUp (s : State) (e v : Nat) : State :=
  let p := getPort s e
  let s := setPort s e { p with link := .up, vlver := BitVec.ofNat 2 v, upPending := !p.role }
  if p.role then sendFhello (upEvent s e 0) e else sendReel s e 1 0 0 (1 + 3 * 256) []

/-- Once INIT_ACK has been sent and received, the link comes up or is mismatched. -/
def linkTry (s : State) (e : Nat) : State :=
  let p := getPort s e
  match p.ackSent, p.ackRcvd with
  | some v, some (v', role, lanes, vmax) =>
    if p.link = .up ∨ p.pcs = false then s
    else if v = v' ∧ v ≠ 0 ∧ lanes = lanesOf p ∧ role = (if p.role then 2 else 0) then linkUp s e v
    else
      let s := setPort s e { p with link := .mismatch, mismatched := true }
      if p.mismatched then s
      else raiseEv s 0x5003 1 noFrame [(28, 1, e), (29, 1, role), (30, 1, lanes), (31, 1, vmax)]
  | _, _ => s

/-- An INIT_ACK has been sent, unless a pause holds it back. -/
def initAckSent (s : State) (e v : Nat) : State :=
  if (getPort s e).paused.getD 3 false then s else linkTry (setPort s e { getPort s e with ackSent := some v }) e

/-- A received INIT is answered. -/
def initIn (s : State) (e : Nat) (m : List Byte) : State :=
  let v := initVersion (getLe (vxPay m) 0 1) (getLe (vxPay m) 1 1)
  initAckSent (sendCtl s e ⟨2, 0, 0, 0, initPay s e v⟩) e v

/-- The pause of priority 3 is over: what it held back is sent, in order (R349). -/
def ctlFlush (s : State) (e : Nat) : State :=
  let p := getPort s e
  if p.paused.getD 3 false then s
  else
    p.ctlHeld.foldl (fun s c =>
      let s := sendCtl s e c
      if c.typ = 2 then initAckSent s e (getLe c.payload 6 1) else s) (setPort s e { p with ctlHeld := [] })

/-- A received INIT_ACK. -/
def initAckIn (s : State) (e : Nat) (m : List Byte) : State :=
  let b := vxPay m
  linkTry (setPort s e { getPort s e with
    ackRcvd := some (getLe b 6 1, getLe b 2 1, getLe b 3 1, getLe b 1 1) }) e

/-! ### Link-down (R353) -/

/-- What every link-down does: sequence spaces restart and unacknowledged packets are dropped. -/
def linkReset (s : State) (e : Nat) : State :=
  let p := getPort s e
  let up := p.link = .up
  let s := setPort s e { p with
    link := if p.enable then .training else .disabled
    vlver := 0, ackSent := none, ackRcvd := none
    tx := List.replicate 3 ⟨0, [], [], 0⟩, rx := List.replicate 3 ⟨0, false, 0⟩
    rxq := [], msgs := [], paused := List.replicate 4 false, ctlHeld := [], upPending := false
    peer0 := 0x7FFF, peerSerial := 0, peerGen := 0 }
  if up then
    let s := if p.role then s else reelLinkDown s e
    pfcCheck (routeFallback s e) e
  else s

/-- LINK_DOWN (R353): cause 1 PCS or FEC lock, 2 resend limit; the port fault of R474 starts no containment. -/
def linkDown (s : State) (e cause : Nat) : State :=
  let s := linkReset s e
  raiseEv s 0x5002 2 noFrame [(28, 1, e), (29, 1, cause)]

/-! ### DATA, acknowledgements, resends (R351) -/

/-- An accepted payload goes to the layer of the port's role. -/
def payloadIn (s : State) (e cls : Nat) (b : List Byte) : State :=
  let p := getPort s e
  if cls = 0 then if p.role then s else setPort s e { p with msgs := p.msgs ++ [(0, b)] }
  else if p.role then (fabSplit 300 b).foldl (fun s m => fabIn s e cls m) s
  else s

/-- A DATA packet. -/
def dataIn (s : State) (e : Nat) (m : List Byte) : State :=
  if (getPort s e).link ≠ .up then s
  else
    let cls := vxClass m
    let s := if vxAckCl m ≤ 2 then ackAdvance s e (vxAckCl m) (vxAck m) else s
    let p := getPort s e
    let r := rxOf p cls
    if vxSeq m = r.expected then
      let s := setPort s e (setRx p cls ⟨r.expected + 1, false, r.unreported + 1⟩)
      let s := payloadIn s e cls (vxPay m)
      let s := if 32 ≤ (rxOf (getPort s e) cls).unreported then sendAck s e cls 4 else s
      pfcCheck s e
    else sendNak s e cls

/-- ACK and IDLE. -/
def ackIn (s : State) (e : Nat) (m : List Byte) : State :=
  if (getPort s e).link = .up ∧ vxAckCl m ≤ 2 then ackAdvance s e (vxAckCl m) (vxAck m) else s

/-- Resends the kept packets of a class from a SEQ, in order: a stream pause in stops at the first message it holds back (R356). When
sixteen resends in a row have brought no advance, the link goes down. -/
def resendFrom (s : State) (e cls : Nat) (seq : Word) : State :=
  let p := getPort s e
  let t := txOf p cls
  let l := (t.unacked.filter fun u => decide ((u.1 - seq).toNat < 2 ^ 31)).takeWhile fun u =>
    !(pausedIn s e && decide (cls = 0) && pauseStops u.2)
  if l.isEmpty || !maySend p cls then s
  else if 16 ≤ t.resends then linkDown s e 2
  else
    let s := setPort s e (setTx { p with resent := satAdd 0xFFFF p.resent l.length } cls { t with resends := t.resends + 1 })
    l.foldl (fun s u => sendDataPkt s e cls u.1 u.2) s

/-- NAK. -/
def nakIn (s : State) (e : Nat) (m : List Byte) : State :=
  if (getPort s e).link = .up ∧ vxAckCl m ≤ 2 then resendFrom s e (vxAckCl m) (vxSeq m) else s

/-- RETRY_T has passed without an advance: resend from the oldest packet. -/
def retryIn (s : State) (e cls : Nat) : State :=
  match (txOf (getPort s e) cls).unacked with
  | [] => s
  | (q, _) :: _ => if (getPort s e).link = .up then resendFrom s e cls q else s

/-- A reel message that no table lists: too short, a TYPE the store does not send, or a reserved field that is not zero (R360, R361). -/
def reelBad (m : List Byte) : Bool :=
  let t := getLe m 0 1
  decide (m.length < 16) || !([2, 4, 6, 9, 12].contains t) || decide (getLe m 1 1 / 2 ≠ 0) || decide (getLe m 7 1 ≠ 0)
    || (decide (t ≠ 6) && decide (getLe m 1 1 ≠ 0)) || (decide (t = 2) && (decide (getLe m 8 4 ≠ 0) || decide (getLe m 13 3 ≠ 0)))
    || (decide (t = 9) && decide (getLe m 12 4 ≠ 0))

/-- Takes the oldest reel message of a type. One that no table lists is discarded (R10: no consequence is stated; log entry 101). -/
def withReel (s : State) (e typ : Nat) (act : State → List Byte → State) : State :=
  let p := getPort s e
  match p.msgs with
  | (0, m) :: rest =>
    if reelBad m then pfcCheck (setPort s e { p with msgs := rest }) e
    else if getLe m 0 1 = typ then pfcCheck (act (setPort s e { p with msgs := rest }) m) e else s
  | _ => s

/-- Takes the oldest mesh packet of a port that a test picks. -/
def withInbox (s : State) (e : Nat) (pick : Packet → Bool) (act : State → Packet → Nat → State) : State :=
  let p := getPort s e
  match p.inbox.find? fun q => pick q.1 with
  | some q => act (setPort s e { p with inbox := p.inbox.erase q }) q.1 q.2
  | none => s

end Sys2Proof.Machine
end

