-- ==== Sys2Proof/Machine/RegOps.lean ====
section
/-! DEFINITION. The control-block and BAR0 registers of the module: reads, with their read-clear effects, and writes by
access code (R9, R320, R342, R371, R402, R435, R468, R517, R546, R567, R586, R607). -/

namespace Sys2Proof.Machine

open Sys2Proof

/-! ### Clock nodes (R498, R499, R502, R517) -/

/-- Number of a clock unit. -/
def unitKey : ClockUnit → Nat
  | .node k => clKey k * 4
  | .island k => clKey k * 4 + 1
  | .inject k => clKey k * 4 + 3
  | .frame f => 2 ^ 16 + frKey f
  | .refrec => 2 ^ 20
  | .refloc => 2 ^ 20 + 1

/-- The unit has qualified and not failed. -/
def unitOk (s : State) (u : Nat) : Bool := smapGet none s.clock.units u == some false

/-- Rows of the powered array. -/
def gridRows (s : State) : Nat := if s.otp.device = 0x0480 then 48 else 56

/-- A boundary cluster, which holds an injection synthesizer (R499). -/
def isBoundary (s : State) (cl : Nat) : Bool :=
  decide (cl / 64 < gridRows s) && (cl % 64 == 0 || cl % 64 == 63 || cl / 64 == 0 || cl / 64 + 1 == gridRows s)

/-- The node runs and has qualified. -/
def nodeRuns (s : State) (cl : Nat) : Bool := unitOk s (cl * 4)

/-- Trim of a node's coupling weight from a neighbour, `i` counting N, E, S, W; zero at the edge and towards a fused or
faded cluster. -/
def nodeWeight (s : State) (cl i : Nat) : Nat :=
  let d : PortDir := if i = 0 then .n else if i = 1 then .e else if i = 2 then .s else .w
  match beyond cl d with
  | none => 0
  | some c =>
    if fusedCl s c || (getCl s c).dark == .gated || !nodeRuns s cl || !nodeRuns s c then 0
    else bits (smapGet (Config.trim cl) s.otp.trims cl).toNat (4 * i) 4

/-- CLK_NODE. -/
def clkNodeVal (s : State) (cl : Nat) : Nat :=
  ((List.range 4).foldl (fun a i => a + nodeWeight s cl i * 2 ^ (4 * i)) 0) + (getFrame s (frOf cl)).stop.toNat * 2 ^ 16
    + bitAt (nodeRuns s cl) 20 + bitAt (decide ((getCl s cl).dark = .tripped)) 21
    + bitAt (isBoundary s cl && unitOk s (cl * 4 + 3) && !s.clock.hold) 22

/-! ### Cluster block (R320, R342, R402, R517, R546) -/

/-- SEAM_UNI of a router: bits N, E, S, W. -/
def seamUni (s : State) (cl : Nat) : Nat :=
  let x := cl % 64
  let y := cl / 64
  let cross (b : Bool) (sm : Nat) : Bool := b && !s.splice.contains sm
  bitAt (cross (y % 8 == 7 && decide (y < 55)) (49 + y / 8 * 8 + x / 8)) 0
    + bitAt (cross (x % 8 == 7 && decide (x < 63)) (y / 8 * 7 + x / 8)) 1
    + bitAt (cross (y % 8 == 0 && decide (0 < y)) (49 + (y / 8 - 1) * 8 + x / 8)) 2
    + bitAt (cross (x % 8 == 0 && decide (0 < x)) (y / 8 * 7 + x / 8 - 1)) 3

/-- RT registers of a plane, `o` counting from the plane's first. -/
def readRouter (s : State) (cl pl o : Nat) : Nat × State :=
  let r := routerOf s cl pl
  if o = 0x00 then
    (bitAt (isDark s cl) 0 + bitAt (fenced s cl) 1 + bitAt (isDetour s cl) 2 + seamUni s cl * 2 ^ 8, s)
  else if o = 0x04 then (r.darkret, setRouter s cl pl fun r => { r with darkret := 0 })
  else if o = 0x08 then (r.crcErr + r.malf * 2 ^ 16, setRouter s cl pl fun r => { r with crcErr := 0, malf := 0 })
  else if o = 0x0C then (r.flits, setRouter s cl pl fun r => { r with flits := 0 })
  else (0, s)

def vaultModeNo : VaultMode → Nat
  | .absent => 0
  | .active => 1
  | .hardHold => 2
  | .selfRefresh => 3

/-- Word `i` of VT_IMM_n. -/
def immWord (e : ImmEntry) (i : Nat) : Nat :=
  if i = 0 then e.kind.toNat + bitAt e.hport 2 + e.eport.toNat * 2 ^ 3 + e.slate.toNat * 2 ^ 10
  else if i = 1 then e.base.toNat
  else if i = 2 then e.len.toNat
  else if i = 3 then e.originLo.toNat
  else if i = 4 then e.originHi.toNat
  else 0

/-- VT registers. -/
def readVault (s : State) (cl off : Nat) : Nat × State :=
  let v := (getCl s cl).vault
  if noVaults s then (0, s)
  else if off = 0x100 then
    (vaultModeNo v.mode + v.band * 2 ^ 2 + bitAt v.offline 4 + v.temp.toNat * 2 ^ 8, s)
  else if off = 0x104 then (bitAt v.patrolEn 0 + v.patrolExp.toNat * 2, s)
  else if off = 0x108 then (v.crcErr, setVault s cl { v with crcErr := 0 })
  else if off = 0x10C then (v.refetchDone + v.refetchFailed * 2 ^ 16, setVault s cl { v with refetchDone := 0, refetchFailed := 0 })
  else if off = 0x110 then (v.errlog.toNat, s)
  else if off = 0x114 then (v.immFull, setVault s cl { v with immFull := 0 })
  else if 0x200 ≤ off ∧ off < 0x400 then (immWord (v.imm.getD ((off - 0x200) / 32) .free) (off % 32 / 4), s)
  else (0, s)

/-- CL_THERM: the sample, SOFT and RETAIN it holds, with TRIP and FADED as the cluster stands. -/
def thermVal (s : State) (cl : Nat) : Nat :=
  let c := getCl s cl
  bits c.therm.toNat 0 9 + bitAt (decide (c.dark = .tripped)) 9 + bitAt (decide (c.dark = .gated)) 10
    + bitAt (decide (c.dark = .gated) && c.therm.getLsbD 11) 11

def readClusterReg (s : State) (cl off : Nat) : Nat × State :=
  if off < 0x80 then readRouter s cl (off / 0x40) (off % 0x40)
  else if off = 0x180 then ((getCl s cl).gwPort.toNat, s)
  else if off = 0x1A0 then (clkNodeVal s cl, s)
  else if off = 0x1C0 then (thermVal s cl, s)
  else readVault s cl off

/-! ### Port, fabric, frame, clock and power blocks -/

def linkNo : LinkState → Nat
  | .disabled => 0
  | .training => 1
  | .up => 2
  | .mismatch => 3

def readPortReg (s : State) (e off : Nat) : Nat × State :=
  let p := getPort s e
  if off = 0x00 then
    (linkNo p.link + bitAt p.lanes4 2 + bitAt p.role 3 + p.vlver.toNat * 2 ^ 4 + p.reelver.toNat * 2 ^ 6 + bitAt p.pfcTx 8
      + bitAt (pausedIn s e) 9, s)
  else if off = 0x04 then (rxBytes p, s)
  else if off = 0x08 then (p.discard + p.resent * 2 ^ 16, setPort s e { p with discard := 0, resent := 0 })
  else if off = 0x0C then (p.fcsErr, setPort s e { p with fcsErr := 0 })
  else if off = 0x10 then (p.xoffTx + p.xoffRx * 2 ^ 16, setPort s e { p with xoffTx := 0, xoffRx := 0 })
  else if off = 0x14 then
    (p.slots.length + (p.slots.filter fun q => match q.2 with | some x => x.held | none => false).length * 2 ^ 8
      + p.retries * 2 ^ 16, setPort s e { p with retries := 0 })
  else if off = 0x18 then (p.peer0.toNat, s)
  else if off = 0x1C then (bits p.peerSerial.toNat 0 32, s)
  else (0, s)

def readFabricReg (s : State) (off : Nat) : Nat × State :=
  let f := s.fabric
  if off = 0x00 then (f.engId.toNat, s)
  else if off = 0x04 then (f.tmo.toNat, s)
  else if off = 0x08 then (f.noroute, { s with fabric := { f with noroute := 0 } })
  else if off = 0x0C then (f.late, { s with fabric := { f with late := 0 } })
  else if off = 0x10 then (f.malf, { s with fabric := { f with malf := 0 } })
  else if off = 0x14 then (f.frozen.length, s)
  else if off = 0x18 then (f.dup, { s with fabric := { f with dup := 0 } })
  else if off = 0x1C then (f.stale, { s with fabric := { f with stale := 0 } })
  else (0, s)

def readFrameReg (s : State) (f off : Nat) : Nat × State :=
  let r := getFrame s f
  if off = 0x00 then (r.stop.toNat + r.limit.toNat * 2 ^ 4 + r.reason.toNat * 2 ^ 8 + r.share * 2 ^ 16, s)
  else if off = 0x04 then (r.droops, setFrame s f { r with droops := 0 })
  else (0, s)

def readClockReg (s : State) (off : Nat) : Nat × State :=
  let c := s.clock
  if off = 0x00 then
    (bitAt c.refrec 0 + c.port * 2 + bitAt c.hold 8 + bitAt c.locked 9 + bitAt (c.qualifying || !s.works.clock.isEmpty) 10
      + bitAt c.holdover 11 + bitAt c.reflocOk 12, s)
  else if off = 0x04 then (c.holds, { s with clock := { c with holds := 0 } })
  else if off = 0x08 then (c.timeNs.toNat, s)
  else (0, s)

/-- Lease remaining in ms. -/
def leaseLeft (s : State) : Nat := match s.power.lease with | some t => (t - now s) / 1000000 | none => 0

def readPowerReg (s : State) (off : Nat) : Nat × State :=
  let w := s.power
  if off = 0x00 then (w.budget / 10 + bitAt w.lease.isSome 14 + bitAt w.fallback 15, s)
  else if off = 0x04 then (leaseLeft s, s)
  else if off = 0x08 then (w.pIn / 10 + w.volts * 2 ^ 16, s)
  else if off = 0x0C then (if w.pIn = 0 then 0 else (ceiling s).1 / 10 + (ceiling s).2 * 2 ^ 14, s)
  else if 0x40 ≤ off ∧ off < 0x80 ∧ off % 8 = 0 then ((w.thrNs.toList.getD ((off - 0x40) / 8) 0).toNat, s)
  else (0, s)

/-! ### BAR0 (R435, R567, R586, R607) -/

def fwNo : FwState → Nat
  | .rom => 0
  | .loading => 1
  | .running => 2
  | .failed => 3

/-- Whether an output or a received level shows a pin asserted. -/
def pinLevels (s : State) : Nat := (List.range 8).foldl (fun a i => a + bitAt (getPin s i).level i) 0

def pinFuncs (s : State) : Nat := (List.range 8).foldl (fun a i => a + (getPin s i).func % 8 * 2 ^ (3 * i)) 0

def bootStatus (s : State) : Nat :=
  (if s.boot.ready then 0xA else s.boot.step % 16) + bitAt s.boot.fast 4 + s.boot.scopes.toNat * 2 ^ 5 + s.otp.svn * 2 ^ 8
    + (List.range 4).foldl (fun a i =>
        a + bitAt ((s.otp.fwKeys.getD i none).isSome && !(s.otp.revoked.getD i false)) (16 + i)) 0

def ringCtrlVal (h : HPort) : Nat :=
  bitAt h.cmd.en 0 + bitAt h.cpl.en 1 + bitAt h.evt.en 2 + bitAt h.cmd.stop 3 + bitAt h.cpl.stop 4 + bitAt h.evt.stop 5
    + h.cmd.log2 * 2 ^ 8 + h.cpl.log2 * 2 ^ 16 + h.evt.log2 * 2 ^ 24

/-- Lower or upper dword of a 64-bit register at `base`. -/
def dwordAt (v base off : Nat) : Nat := if off = base then v % 2 ^ 32 else v / 2 ^ 32

/-- A word of the MSI-X table; vector control reads masked until it is written. -/
def msixWord (h : HPort) (i : Nat) : Word := smapGet (if i % 4 = 3 then 1 else 0) h.msix i

def readBar0 (s : State) (p : HostPort) (off : Nat) : Nat × State :=
  let h := getHost s p
  if off = 0x0 then (fwNo s.boot.fw + s.boot.ifHi.1 * 2 ^ 8 + s.boot.ifHi.2 * 2 ^ 16, s)
  else if off = 0x4 then
    ((match h.session with | some v => v.1 + v.2 * 2 ^ 8 + 2 ^ 16 | none => 0) + bitAt (decide (s.authority = some p)) 17
      + bitAt (decide (s.authority = some (otherPort p))) 18, s)
  else if off = 0x8 then (s.heartbeat.toNat, s)
  else if off = 0x10 then (bootStatus s, s)
  else if off = 0x14 then (if s.boot.fw = .rom then 0 else s.boot.fwver.toNat, s)
  else if off = 0x20 then (pinLevels s + pinFuncs s * 2 ^ 8, s)
  else if off = 0x28 then (bits s.tcap.toNat 0 32, setHost s p { h with tcapHi := BitVec.ofNat 32 (s.tcap.toNat / 2 ^ 32) })
  else if off = 0x2C then (h.tcapHi.toNat, s)
  else if off = 0x100 then (ringCtrlVal h, s)
  else if off = 0x108 ∨ off = 0x10C then (dwordAt h.cmd.base.toNat 0x108 off, s)
  else if off = 0x110 then (h.cmd.head.toNat, s)
  else if off = 0x114 then (h.cmd.tail.toNat, s)
  else if off = 0x118 ∨ off = 0x11C then (dwordAt h.cpl.base.toNat 0x118 off, s)
  else if off = 0x120 then (h.cpl.head.toNat, s)
  else if off = 0x124 then (h.cpl.tail.toNat, s)
  else if off = 0x128 ∨ off = 0x12C then (dwordAt h.cpl.shadow.toNat 0x128 off, s)
  else if off = 0x130 ∨ off = 0x134 then (dwordAt h.evt.base.toNat 0x130 off, s)
  else if off = 0x138 then (h.evt.head.toNat, s)
  else if off = 0x13C then (h.evt.tail.toNat, s)
  else if off = 0x140 ∨ off = 0x144 then (dwordAt h.evt.shadow.toNat 0x140 off, s)
  else if off = 0x148 then (h.evtLost, setHost s p { h with evtLost := 0 })
  else if off = 0x180 then (h.cplVec.toNat + h.evtVec.toNat * 2 ^ 8 + h.errVec.toNat * 2 ^ 16, s)
  else if off = 0x184 then (h.irqMod.toNat, s)
  else if off = 0x200 then (h.frozenFor.length + (match h.frozenFor with | [] => 0 | a :: l => l.foldl min a) * 2 ^ 16, s)
  else if off = 0x300 then (h.aperMiss, setHost s p { h with aperMiss := 0 })
  else if 0x10000 ≤ off ∧ off < 0x10400 ∧ off % 4 = 0 then ((msixWord h ((off - 0x10000) / 4)).toNat, s)
  else if off = 0x11000 ∨ off = 0x11004 then (dwordAt h.pba.toNat 0x11000 off, s)
  else (0, s)

/-- A read of a register: its value, and the state after the read's clears. -/
def readReg (s : State) : RegLoc → Nat × State
  | .bar0 p off => readBar0 s p off
  | .core c off =>
    let r := readCoreReg (getCore s (coreKey c)) off
    (r.1.toNat, setCore s (coreKey c) r.2)
  | .cluster k off => readClusterReg s (clKey k) off
  | .frame f off => readFrameReg s (frKey f) off
  | .port e off => readPortReg s e.val off
  | .fabric off => readFabricReg s off
  | .clock off => readClockReg s off
  | .power off => readPowerReg s off

/-! ### Writes -/

/-- A 64-bit register with one dword written; `low` bits below are ignored. -/
def putDword (v : DWord) (base off : Nat) (w : Word) : DWord :=
  if off = base then BitVec.ofNat 64 (v.toNat / 2 ^ 32 * 2 ^ 32 + w.toNat)
  else BitVec.ofNat 64 (v.toNat % 2 ^ 32 + w.toNat * 2 ^ 32)

/-- A ring's base or shadow is written, unless the ring is enabled (R412). -/
def ringBase (r : Ring) (base off : Nat) (w : Word) : Ring := if r.en then r else { r with base := putDword r.base base off w }

def ringShadow (r : Ring) (base off : Nat) (w : Word) : Ring :=
  if r.en then r else { r with shadow := putDword r.shadow base off w }

/-- One ring's bits of a RING_CTRL write: enable, log2 SIZE (R412, R435). -/
def ringCtrl (r : Ring) (en : Bool) (log2 : Nat) : Ring :=
  let r := if r.en ∨ log2 < 7 ∨ 18 < log2 then r else { r with log2 := log2 }
  if en then
    if r.en then r else { r with en := true, head := 0, tail := 0, seq := 0, unsignalled := 0 }
  else { r with en := false, stop := false }

/-- A RING_CTRL write. -/
def ringCtrlWrite (h : HPort) (v : Word) : HPort :=
  { h with
    cmd := ringCtrl h.cmd (v.getLsbD 0) (bits v.toNat 8 5)
    cpl := ringCtrl h.cpl (v.getLsbD 1) (bits v.toNat 16 5)
    evt := ringCtrl h.evt (v.getLsbD 2) (bits v.toNat 24 5) }

/-- Some enable bit changes from 0 to 1, or from 1 to 0. -/
def ringRises (h : HPort) (v : Word) : Bool :=
  (v.getLsbD 0 && !h.cmd.en) || (v.getLsbD 1 && !h.cpl.en) || (v.getLsbD 2 && !h.evt.en)

def ringFalls (h : HPort) (v : Word) : Bool :=
  (!v.getLsbD 0 && h.cmd.en) || (!v.getLsbD 1 && h.cpl.en) || (!v.getLsbD 2 && h.evt.en)

/-- A vector whose mask is lifted fires if it is pending (R407). -/
def unmask (s : State) (p : HostPort) (i : Nat) : State :=
  let h := getHost s p
  if h.pba.getLsbD i && !msixMasked h i then emit (setHost s p { h with pba := h.pba &&& ~~~((1 : DWord) <<< i) }) (.msix p i) else s

/-- A BAR0 write that has no row of its own. -/
def writeBar0 (s : State) (p : HostPort) (off : Nat) (w : Word) : State :=
  let h := getHost s p
  if off = 0x100 then if ringRises h w || ringFalls h w then s else setHost s p (ringCtrlWrite h w)
  else if off = 0x108 ∨ off = 0x10C then setHost s p { h with cmd := ringBase h.cmd 0x108 off w }
  else if off = 0x118 ∨ off = 0x11C then setHost s p { h with cpl := ringBase h.cpl 0x118 off w }
  else if off = 0x128 ∨ off = 0x12C then setHost s p { h with cpl := ringShadow h.cpl 0x128 off w }
  else if off = 0x130 ∨ off = 0x134 then setHost s p { h with evt := ringBase h.evt 0x130 off w }
  else if off = 0x140 ∨ off = 0x144 then setHost s p { h with evt := ringShadow h.evt 0x140 off w }
  else if off = 0x180 then
    setHost s p { h with cplVec := BitVec.ofNat 6 w.toNat, evtVec := BitVec.ofNat 6 (w.toNat / 2 ^ 8), errVec := BitVec.ofNat 6 (w.toNat / 2 ^ 16) }
  else if off = 0x184 then setHost s p { h with irqMod := w }
  else if 0x10000 ≤ off ∧ off < 0x10400 ∧ off % 4 = 0 then
    let i := (off - 0x10000) / 4
    unmask (setHost s p { h with msix := smapSet (if i % 4 = 3 then 1 else 0) h.msix i w }) p (i / 4)
  else s

/-- A write of VT_CTRL or VT_ERRLOG (R342). -/
def writeVaultReg (s : State) (cl off v : Nat) : State :=
  let t := (getCl s cl).vault
  if noVaults s then s
  else if off = 0x104 then
    let x := bits v 1 4
    setVault s cl { t with patrolEn := v.testBit 0, patrolExp := if x < 8 then t.patrolExp else BitVec.ofNat 4 x }
  else if off = 0x110 then if v.testBit 31 then setVault s cl { t with errlog := t.errlog &&& 0x7FFFFFFF } else s
  else s

/-- A write of a register by its access codes: BAR0 by host software, control blocks by the management plane. -/
def writeReg (s : State) (loc : RegLoc) (v : DWord) : State :=
  match loc with
  | .bar0 p off => writeBar0 s p off (BitVec.ofNat 32 v.toNat)
  | .core c off => setCore s (coreKey c) (writeCoreReg (getCore s (coreKey c)) off v.toNat (s.boot.scopes.getLsbD 1))
  | .cluster k off => writeVaultReg s (clKey k) off v.toNat
  | _ => s

end Sys2Proof.Machine
end

