-- ==== Sys2Proof/Machine/Aperture.lean ====
section
/-! DEFINITION. The BAR2 aperture of a host port: its pages, and reads and writes through them (R407 to R410). -/

namespace Sys2Proof.Machine

open Sys2Proof

/-- Words of an aperture page. -/
def pageWords : Nat := 1048576

def getPage (s : State) (p : HostPort) (g : Nat) : Option Page := smapGet none (getHost s p).pages g

def setPage (s : State) (p : HostPort) (g : Nat) (v : Option Page) : State :=
  let h := getHost s p
  setHost s p { h with pages := smapSet none h.pages g v }

/-! ### MAP_APERTURE (R408) -/

/-- The range of a MAP_APERTURE lies in memory of its kind that the slate owns. -/
def mapRangeOk (s : State) (slate space target base len : Nat) : Bool :=
  if space = 1 then xyOk target && decide (target < 2 ^ 18) && decide (base + len ≤ 40960) && decide ((getCore s target).localOwner = some slate)
  else
    clTargetOk target && decide (base + len ≤ if space = 2 then cmWords else vaultWords s)
      && slateOwns s slate (space, clOfTarget target, base, len)

/-- The first condition of R408 that holds, as a status, or 0. -/
def mapStatus (s : State) (p : HostPort) (r : CmdRec) : Nat :=
  let page := pb r 36 2
  let count := pb r 38 2
  let space := pb r 40 1
  let len := pb r 52 4
  if rsvOk r [(36, 0, 12), (38, 0, 16), (40, 0, 8), (44, 0, 96)] = false ∨ count = 0 ∨ 64 < count ∨ 4096 < page + count ∨ 3 < space then 0x0103
  else if space ≠ 0 ∧ (len = 0 ∨ count * pageWords < len ∨ mapRangeOk s r.slate.toNat space (pb r 44 4) (pb r 48 4) len = false) then 0x0103
  else if (List.range count).any fun k => match getPage s p (page + k) with
      | some q => decide (q.slate ≠ r.slate.toNat)
      | none => false then 0x0301
  else 0

/-- What page PAGE + k maps. -/
def pageOf (r : CmdRec) (k : Nat) : Option Page :=
  if pb r 40 1 = 0 then none
  else some
    { slate := r.slate.toNat, space := pb r 40 1, target := pb r 44 4, base := pb r 48 4 + k * pageWords
      len := min pageWords (pb r 52 4 - k * pageWords) }

/-- MAP_APERTURE's own work. -/
def mapBody (p : HostPort) (r : CmdRec) (ref : CmdRef) (s : State) : State :=
  match mapStatus s p r with
  | 0 => finish ((List.range (pb r 38 2)).foldl (fun s k => setPage s p (pb r 36 2 + k) (pageOf r k)) s) ref 0 []
  | st => finish s ref st []

/-- MAP_APERTURE (R408). -/
def execMapAperture (p : HostPort) (r : CmdRec) (s : State) : Host.Outcome State Fault Refusal :=
  .next (mailbox ⟨0x0405, (2, 0), true, false, 0⟩ p r (mapBody p r) s)

/-- The pages of a slate are unmapped on both ports (R408, R458). -/
def unmapSlate (s : State) (n : Nat) : State :=
  let drop (h : HPort) : HPort := { h with pages := h.pages.filter fun q => match q.2 with
    | some g => decide (g.slate ≠ n)
    | none => true }
  { s with portA := drop s.portA, portB := drop s.portB }

/-! ### Accesses (R409, R410) -/

/-- The word that an aperture offset reaches: space, core or cluster, word. LOCAL memory that has passed to another slate
and memory of a dark cluster are not reached. -/
def aperWord (s : State) (p : HostPort) (off : Nat) : Option (Nat × Nat × Nat) :=
  let w := off % 4194304 / 4
  match getPage s p (off / 4194304) with
  | none => none
  | some g =>
    if g.len ≤ w then none
    else if g.space = 1 then
      if (getCore s g.target).localOwner = some g.slate ∧ isDark s (clOf g.target) = false then some (1, g.target, g.base + w)
      else none
    else if g.space = 2 ∧ isDark s (clOfTarget g.target) = true then none
    else some (g.space, clOfTarget g.target, g.base + w)

/-- An unmapped access is counted, and reported once a second. -/
def aperMiss (s : State) (p : HostPort) (off : Nat) (write : Bool) : State :=
  let h := getHost s p
  let h := { h with aperMiss := satAdd 0xFFFFFFFF h.aperMiss 1 }
  let due := match h.aperEvent with | some t => decide (t + 1000000000 ≤ now s) | none => true
  if due then
    raiseEv (setHost s p { h with aperEvent := some (now s) }) 0x6012 1 noFrame
      [(28, 1, portNo p), (29, 1, if write then 1 else 0), (30, 2, off / 4194304), (32, 4, off % 4194304)]
  else setHost s p h

/-- A read that delivers no data: a free value in a poisoned completion. -/
def poisoned (s : State) (p : HostPort) : State :=
  emit { s with freeCtr := s.freeCtr + 1 } (.readData p (Config.freeValue s.freeCtr) true)

/-- A read of a mapped word. -/
def aperRead (s : State) (p : HostPort) (sp t w : Nat) : State :=
  if sp = 1 then
    let m := (getCore s t).sp
    if ramLanes m w = 0 then emit s (.readData p (ramWord m w) false)
    else poisoned (spError s t 0 w (ramLanes m w) id) p
  else if sp = 2 then
    let m := (getCl s t).mem
    if ramLanes m w = 0 then emit s (.readData p (ramWord m w) false)
    else poisoned (raiseEv s 0x2012 2 noFrame (cmDetail t w (ramLanes m w) 66)) p
  else vaultEnqueue s t { user := .mgmt p 0xF, w := w, len := 1, data := none }

/-- Bytes that byte enables name are written. -/
def ramPutLanes (m : Ram) (w : Nat) (be : BitVec 4) (v : Word) : Ram :=
  (List.range 4).foldl (fun m i => if be.getLsbD i then ramPutByte m (4 * w + i) (BitVec.ofNat 8 (bits v.toNat (8 * i) 8)) else m) m

/-- A write of a mapped word. -/
def aperWrite (s : State) (p : HostPort) (sp t w : Nat) (be : BitVec 4) (v : Word) : State :=
  if sp = 1 then
    let c := getCore s t
    setCore s t { c with sp := ramPutLanes c.sp w be v }
  else if sp = 2 then
    let c := getCl s t
    setCl s t { c with mem := ramPutLanes c.mem w be v }
  else vaultEnqueue s t { user := .mgmt p be, w := w, len := 1, data := some [v] }

/-- The port serves BAR2, and the offset lies in it. -/
def aperServed (s : State) (p : HostPort) (off : Nat) : Bool := (getHost s p).linkUp && decide (off < 2 ^ 34)

/-- APERTURE_READ (R409). -/
def execApertureRead (p : HostPort) (off : Nat) (s : State) : Host.Outcome State Fault Refusal :=
  .next (if aperServed s p off then
      match aperWord s p off with
      | some (sp, t, w) => aperRead s p sp t w
      | none => emit (aperMiss s p off false) (.readData p 0xFFFFFFFF false)
    else s)

/-- APERTURE_WRITE (R409). -/
def execApertureWrite (p : HostPort) (off : Nat) (be : BitVec 4) (v : Word) (s : State) : Host.Outcome State Fault Refusal :=
  .next (if aperServed s p off then
      match aperWord s p off with
      | some (sp, t, w) => aperWrite s p sp t w be v
      | none => aperMiss s p off true
    else s)

end Sys2Proof.Machine
end

