-- ==== Sys2Proof/Machine/ResetOps.lean ====
section
/-! DEFINITION. Resets of each domain, what a warm reset keeps, and how a domain comes back (R310, R338, R432, R454,
R488, R489, R494, R504, R547, R554). -/

namespace Sys2Proof.Machine

open Sys2Proof

/-! ### Core, cluster, frame, port (R488) -/

/-- State of a core after a reset of its domain (R197). -/
def resetMode (s : State) (k : Nat) (c : Core) : CoreMode :=
  if c.mode = .fenced then .fenced else if (getCl s (clOf k)).dark = .gated then .faded else .idle

/-- A core after a reset of its domain: registers as Core.reset has them, queues retired (R244), the stores' contents kept
but belonging to no slate (R438). -/
def coreAfter (m : CoreMode) (c : Core) : Core :=
  { Core.reset with
    mode := m
    fencedInService := c.fencedInService
    sp := c.sp
    istore := c.istore
    nextOp := c.nextOp
    queues := (retireQueues c).queues }

/-- Resets a core in its core domain. -/
def coreReset (s : State) (k : Nat) : State :=
  let c := getCore s k
  setCore s k (coreAfter (resetMode s k c) c)

/-- A write is applied at a reset, which leaves no time for a repair: on a line whose CRC does not match, the words are stored
and the line keeps its CRC error (DESIGN CHOICE, log entry 99). -/
def resetWrite (v : Vault) (r : VaultReq) : Vault :=
  match r.data with
  | none => v
  | some ws =>
    let ws := reqWords v r ws
    let ok := (linesOf r.w ws.length).filter fun l => !(partialLine r.w ws.length l && lineBad v l)
    immWritten (crcRenew { v with mem := ramPutWords v.mem r.w ws } ok) r.w ws.length

/-- A vault port enters self-refresh: every write it has accepted is applied, that of a line under repair first, and every read
is discarded (R338). -/
def vaultSleep (s : State) (cl : Nat) : State :=
  let v := (getCl s cl).vault
  let v := (((v.locked.bind (·.req)).toList) ++ v.queue).foldl resetWrite v
  refetchForget (setVault s cl { v with
    queue := [], waiting := [], locked := none, mode := if v.mode = .absent then .absent else .selfRefresh }) cl

/-- A vault leaves self-refresh; in band 3 it stays in hard hold (R330, R338). -/
def vaultWake (s : State) (cl : Nat) : State :=
  let v := (getCl s cl).vault
  if v.mode = .selfRefresh then setVault s cl { v with mode := if v.band = 3 then .hardHold else .active } else s

/-- A vault port after a reset: its control registers as reset leaves them, every immutable range FREE (R332, R342). -/
def vaultAfter (v : Vault) : Vault :=
  { Vault.reset with mem := v.mem, crc := v.crc, mode := v.mode, band := v.band, temp := v.temp, offline := v.offline, patrolLine := v.patrolLine }

/-- Resets a cluster domain: its cores, clapper unit, routers and vault port. The routers are dark until it is ready. -/
def clusterReset (s : State) (cl : Nat) : State :=
  let s := (coresOf cl).foldl coreReset s
  let s := vaultSleep s cl
  let c := getCl s cl
  let s := setCl s cl { c with
    vault := vaultAfter c.vault
    routers := Cluster.reset.routers
    arb := []
    turns := []
    dark := if c.dark = .lit then .resetting else c.dark }
  { s with mesh := s.mesh.filter fun f => f.cl != cl }

/-- The clusters of a frame. -/
def frameCls (f : Nat) : List Nat :=
  (List.range 64).map fun i => (f / 8 * 8 + i / 8) * 64 + (f % 8 * 8 + i % 8)

/-- A frame controller after its reset: the rail stays at its stop, limit, energy and the source node are kept (R488, R501, R523,
R541). -/
def frameAfter (r : Frame) : Frame :=
  { Frame.reset with stop := r.stop, limit := r.limit, energy := r.energy, ktime := r.ktime, source := r.source }

/-- The node runs and stays coupled: present, enabled, not faded. -/
def nodeLives (s : State) (cl : Nat) : Bool := !fusedCl s cl && !(fpCl s cl).disabled && (getCl s cl).dark != .gated

/-- The node from which a frame's synthesizer is fed: that of its enabled, unfaded cluster with the lowest index (R501). -/
def frameSource (s : State) (f : Nat) : Option Nat := (frameCls f).find? (nodeLives s)

/-- A frame's source stays while its node runs, and moves to the next when it has stopped (R501). -/
def settleSource (s : State) (f : Nat) : State :=
  let r := getFrame s f
  match r.source with
  | some cl => if nodeLives s cl then s else setFrame s f { r with source := frameSource s f }
  | none => setFrame s f { r with source := frameSource s f }

/-- Resets a frame domain. -/
def frameReset (s : State) (f : Nat) : State :=
  let s := (frameCls f).foldl clusterReset s
  setFrame s f (frameAfter (getFrame s f))

/-- Resets a port domain: the link goes down; PORT_CONFIG and reel slots are kept. -/
def portReset (s : State) (e : Nat) : State :=
  let s := setPort s e { getPort s e with pcs := false }
  if (getPort s e).link = .up then linkDown s e 1 else linkReset s e

/-- A cluster whose domain is ready again. -/
def clusterReady (s : State) (cl : Nat) : State :=
  let c := getCl s cl
  if c.dark = .resetting then vaultWake (setCl s cl { c with dark := .lit }) cl else s

/-! ### Wafer and module (R310, R432, R454, R488, R504) -/

/-- A scene that a warm reset abandons leaves its command in the record, for each slate bound to it (R453, R454). -/
def abandoned (x : Scene) : List Unfinished :=
  (boundSlates x).map fun n =>
    { cmd := x.cmd, slate := n, sbn := x.sbn, idx := x.idx, run := x.runs.getD (x.slots.findIdx (· == n)) 0, replays := 0
      number := x.number, kf := x.kf, latest := x.latest, area := x.area, slots := x.slots, residual := 0, winMark := x.winMark }

/-- The record of unfinished commands once every scene is abandoned. -/
def warmUnfinished (s : State) : List Unfinished :=
  let known (l : List Unfinished) (u : Unfinished) : Bool := l.any fun v => v.sbn == u.sbn && v.idx == u.idx && v.slate == u.slate
  let kept := s.unfinished.map fun u =>
    match s.scenes.find? fun x => x.sbn == u.sbn && x.idx == u.idx && x.slots.contains u.slate with
    | some x => { u with latest := x.latest, area := x.area, winMark := x.winMark }
    | none => u
  ((s.scenes ++ s.queuedRuns).flatMap abandoned).foldl (fun l u => if known l u then l else l ++ [u]) kept

/-- Every core and cluster after its frame has been powered down and up: memories zero, cores FENCED in service or bad
stay FENCED, vault contents held in self-refresh. -/
def waferCores (s : State) : State :=
  let core (q : Nat × Core) : Nat × Core :=
    (q.1, { Core.reset with mode := if q.2.mode = .fenced then .fenced else .idle, fencedInService := q.2.fencedInService
                            nextOp := q.2.nextOp })
  let s := { s with cores := (s.cores.map core).filter fun q => q.2 != Core.reset }
  let s := s.clusters.foldl (fun s q => vaultSleep s q.1) s
  let cluster (q : Nat × Cluster) : Nat × Cluster :=
    (q.1, { Cluster.reset with vault := vaultAfter q.2.vault, gwPort := q.2.gwPort })
  { s with clusters := (s.clusters.map cluster).filter fun q => q.2 != Cluster.reset }

/-- Every port after a reset of the wafer: no link, no slot, nothing in flight. -/
def waferPorts (s : State) : State :=
  let port (q : Nat × Port) : Nat × Port :=
    (q.1, { Port.reset with
      enable := q.2.enable, role := q.2.role, lanes4 := q.2.lanes4, etype := q.2.etype, vid := q.2.vid, srcMac := q.2.srcMac
      dstMac := q.2.dstMac, highWm := q.2.highWm, lowWm := q.2.lowWm, retryT := q.2.retryT
      link := if q.2.enable then .training else .disabled })
  { s with ports := (s.ports.map port).filter fun q => q.2 != Port.reset }

/-- A reset of the wafer domain. The module controller, its sessions and the continuity record are kept; every scene is
abandoned; start-up begins again at the fast path, or at step 6 without a floor plan (R548, R555). -/
def waferReset (s : State) : State :=
  let un := warmUnfinished s
  let down := (s.ports.filter fun q => q.2.link == .up).map (·.1)
  let s := waferPorts (waferCores s)
  let s := { s with
    scenes := [], queuedRuns := [], hangs := [], detections := [], unfinished := un
    works := { s.works with copies := s.works.copies.filter fun j => decide (j.kind = .take) }
    mesh := [], routeFence := none, splice := []
    frames := (s.frames.map fun q => (q.1, { frameAfter q.2 with stop := 0, source := none })).filter fun q => q.2 != Frame.reset
    clock := { s.clock with locked := false, units := s.clock.units.filter fun q => decide (2 ^ 20 ≤ q.1) }
    boot := { s.boot with ready := false, waferUp := false, fast := s.floor.built, step := 6, fw := .loading } }
  flushLate (down.foldl (fun s e => raiseEv (routeFallback s e) 0x5002 2 noFrame [(28, 1, e), (29, 1, 1)]) s)

/-- A frame number as parameters give it. -/
def frameOk (s : State) (t : Nat) : Bool := decide (t < 64) && decide (t / 8 < 7) && !fusedCl s (t / 8 * 8 * 64)

/-- Frames of the module. -/
def frames (s : State) : List Nat := (List.range 56).filter (frameOk s)

/-- Step 6 of R547, or step 2 of the fast path: frames are powered at stop 15 once the coolant allows it (R572), and
the source node of each is chosen (R501). What
follows, step 8 or the fast path's own steps, ends with a row of its own. -/
def powerFrames (s : State) : State :=
  if s.coolantOk then
    let s := (frames s).foldl (fun s f => setFrame s f { getFrame s f with stop := 15, source := frameSource s f }) s
    { s with boot := { s.boot with step := if s.boot.fast then 7 else 8 } }
  else { s with boot := { s.boot with step := 6 } }

/-- The TIME counter starts again; times recorded against it go with it (R504). -/
def timeRestart (s : State) : State :=
  let left (t : Nat) : Nat := t - now s
  { s with
    clock := { s.clock with timeNs := 0, holdSince := 0 }
    power := { s.power with lease := s.power.lease.map left, coolantEvent := none, boundary := 0 }
    frames := (s.frames.map fun q => (q.1, { q.2 with droopEvent := none })).filter fun q => q.2 != Frame.reset
    clusters := (s.clusters.map fun q => (q.1, { q.2 with closings := [] })).filter fun q => q.2 != Cluster.reset
    fabric := { s.fabric with limits := [], denials := [], flows := s.fabric.flows.map fun r => { r with event := none } }
    portA := { s.portA with aperEvent := none }
    portB := { s.portB with aperEvent := none }
    scenes := s.scenes.map fun x => { x with lastProgress := 0 } }

/-- A host port in the boot ROM state: rings disabled, its registers at reset; link, MSI-X table, pages, frozen slates and
the outcomes of its commands are kept (R432, R453, R454). -/
def hportAfter (h : HPort) : HPort :=
  { HPort.reset with
    pci := h.pci
    linkUp := h.linkUp
    rate := h.rate
    width := h.width
    nextCseq := h.nextCseq
    outcomes := h.outcomes
    frozenFor := h.frozenFor
    pages := h.pages
    msix := h.msix
    pba := h.pba
    spdm := { Spdm.none with nonceCtr := h.spdm.nonceCtr }
    mem := h.mem }

/-- Measurement `i` extended by a digest (R554). -/
def extendMeas (s : State) (i : Fin 5) (d : List Byte) : State :=
  { s with boot := { s.boot with meas := s.boot.meas.set i (Config.sha512 (s.boot.meas[i] ++ d)) } }

/-- A reset of the module controller: sessions end, rings are disabled, EPOCH_NEXT is zero, the boot ROM serves both ports
(R282, R432, R494). -/
def controllerReset (s : State) (cause : Nat) : State :=
  let s := endSession (endSession s .A 5) .B 5
  let s := { s with
    epochNext := 0
    portA := hportAfter s.portA
    portB := hportAfter s.portB
    boot := { s.boot with
      fw := .rom, step := 2, fast := false, ready := false, fwver := 0, calWait := 0, svnBumped := none, load := none
      ifLo := (2, 0), ifHi := (2, 0), nonce := none, resetCause := some (cause, s.heartbeat.toNat) } }
  extendMeas s 0 Config.romDigest

/-- A warm reset of the module: the wafer, then the controller. The selection returns to REFLOC, debug scopes close, the
measurements start again (R504, R554, R565), and storyboards in host memory are gone (R454). -/
def moduleWarm (s : State) : State :=
  let s := waferReset s
  let s := { s with
    boot := { s.boot with meas := Vector.replicate 5 (List.replicate 64 0), scopes := 0 }
    storyboards := s.storyboards.filter fun q => match q.2 with | some b => b.vault.isSome | none => false
    clock := { s.clock with refrec := false, port := 0, hold := false, holdover := false, engaged := none, qualifying := false } }
  controllerReset s 2

/-- A cold reset of the module: everything is as after power is applied, but for the fuses, the links and what lies outside
(R339, R455, R488). -/
def moduleCold (s : State) : State :=
  let port (h : HPort) : HPort :=
    { HPort.reset with pci := h.pci, linkUp := h.linkUp, rate := h.rate, width := h.width, msix := h.msix, pba := h.pba, mem := h.mem }
  { State.reset with
    pending := s.pending
    freeCtr := s.freeCtr
    emitted := s.emitted
    portA := port s.portA
    portB := port s.portB
    otp := s.otp
    reelCopies := s.reelCopies
    powered := s.powered
    inletEn := s.inletEn
    coolantOk := s.coolantOk
    boot := { State.reset.boot with resetCause := some (3, s.heartbeat.toNat) } }

/-! ### RESET (R425, R489) -/

/-- DOMAIN and target of a RESET record. -/
def resetDomain (r : CmdRec) : Nat := pb r 36 1

def resetTarget (r : CmdRec) : Nat := pb r 40 4

/-- The target core holds a call sheet, so that the reset is a per-slate command. -/
def resetSheet (s : State) (r : CmdRec) : Option Nat :=
  if resetDomain r = 0 ∧ xyOk (resetTarget r) = true then sheetSlate (getCore s (resetTarget r)) else none

/-- The scope of a RESET: an impossible buffer length stands for a slate that is not the call sheet's. -/
def resetSpec (s : State) (r : CmdRec) : CmdSpec :=
  match resetSheet s r with
  | some n => ⟨0x0604, (2, 0), true, false, if r.slate.toNat = n then 0 else 2 ^ 32⟩
  | none => ⟨0x0604, (2, 0), false, true, 0⟩

/-- The target exists. -/
def targetOk (s : State) (d t : Nat) : Bool :=
  match d with
  | 0 => xyOk t && decide (t < 2 ^ 18) && !fusedCl s (clOf t)
  | 1 => clTargetOk t && !fusedCl s (clOfTarget t)
  | 2 => frameOk s t
  | 3 => decide (t < 120) && !removedPort s t
  | _ => true

/-- Cores of a core, cluster or frame domain. -/
def domainCores (d t : Nat) : List Nat :=
  match d with
  | 0 => [t]
  | 1 => coresOf (clOfTarget t)
  | 2 => (frameCls t).flatMap coresOf
  | _ => []

/-- The effect of a reset of a domain. -/
def domainReset (s : State) (d mode t : Nat) : State :=
  match d with
  | 0 => coreReset s t
  | 1 => clusterReset s (clOfTarget t)
  | 2 => frameReset s t
  | 3 => portReset s t
  | 4 => powerFrames (waferReset s)
  | _ => if mode = 1 then moduleCold s else moduleWarm s

/-- RESET's own work. -/
def resetBody (r : CmdRec) (ref : CmdRef) (s : State) : State :=
  let d := resetDomain r
  let t := resetTarget r
  let mode := if d = 5 then pb r 37 1 else 0
  if rsvOk r [(36, 0, 8), (37, 0, 8), (40, 0, 32)] = false ∨ 5 < d ∨ 1 < mode ∨ targetOk s d t = false then finish s ref 0x0103 []
  else if (domainCores d t).any fun k => decide ((getCore s k).mode = .running) then finish s ref 0x0301 []
  else
    let w : ResetWork := { cmd := some ref, domain := d, mode := mode, target := t, since := now s }
    let s := domainReset (accept s ref []) d mode t
    let w := if d = 5 then { w with since := 0, cmd := if mode = 1 then none else some ref } else w
    { s with works := { s.works with resets := s.works.resets ++ [w] } }

/-- RESET (R489). -/
def execReset (p : HostPort) (r : CmdRec) (s : State) : Host.Outcome State Fault Refusal :=
  .next (mailbox (resetSpec s r) p r (resetBody r) s)

/-- A domain comes back: its clusters' routers are no longer dark. -/
def domainReady (s : State) (d t : Nat) : State :=
  match d with
  | 1 => clusterReady s (clOfTarget t)
  | 2 => (frameCls t).foldl clusterReady s
  | _ => s

/-- 0xB040 and the command's completion (R489, R496). -/
def resetEnd (s : State) (w : ResetWork) : State :=
  let s := domainReady { s with works := { s.works with resets := s.works.resets.erase w } } w.domain w.target
  let s := raiseEv s 0xB040 1 noFrame [(28, 1, w.domain), (29, 1, w.mode), (32, 4, w.target), (36, 4, (now s - w.since) / 1000)]
  match w.cmd with
  | some ref => finish s ref 0 []
  | none => s

end Sys2Proof.Machine
end

