-- ==== Sys2Proof/Machine/DailiesOps.lean ====
section
/-! DEFINITION. The dailies image: header, core, cluster and clapper records (R462, R486, R487). -/

namespace Sys2Proof.Machine

open Sys2Proof

/-! ### Core record -/

/-- The slate a core's fields belong to: its call sheet's, or its local state's. -/
def fieldSlate (c : Core) : Option Nat := (sheetSlate c).or c.localOwner

/-- Fields of the slate are shown to a port (R462). -/
def dailiesShow (s : State) (p : HostPort) (n : Option Nat) : Bool :=
  match n with
  | none => true
  | some n => decide ((getSlate s n).owner = p) && decide ((getSlate s n).mode ≠ .scrubbing)

/-- Dwords as bytes. -/
def dwords (l : List Nat) : List Byte := l.flatMap fun v => leBytes 4 v

/-- Registers in bytes 304 to 367. -/
def dailiesRegs : List Nat :=
  [0xA0, 0xA4, 0xA8, 0xAC, 0x00, 0x04, 0x08, 0x20, 0x24, 0x28, 0xD4, 0xD8, 0xCC, 0xDC, 0xC0, 0xD0]

/-- Engine and descriptor address of an operation: engine 1 matrix, 2 vector, 3 DMA. -/
def opPlace (c : Core) (op : Nat) : Nat × Nat :=
  match c.mx.find? fun d => d.op == op with
  | some d => (1, d.addr)
  | none =>
    match c.vx.find? fun d => d.op == op with
    | some d => (2, d.addr)
    | none =>
      match c.dma.find? fun d => d.op == op with
      | some d => (3, d.addr)
      | none => (0, 0)

/-- A scoreboard entry's 16 bytes. -/
def sbBytes (c : Core) (e : SbEntry) : List Byte :=
  dwords [e.space + bitAt e.write 8, e.lo, e.hi, (opPlace c e.op).1 + (opPlace c e.op).2 * 2 ^ 8]

/-- The 8 oldest entries of a queue, in 8 places. -/
def oldEntries (c : Core) (n : Nat) : List (Option QEntry) := (List.range 8).map fun i => (getQ c n).entries[i]?

/-- The side byte of an entry. -/
def sideByte (e : Option QEntry) : Byte :=
  match e with
  | some e => BitVec.ofNat 8 (bitAt e.endMark 0 + bitAt e.gap 1 + e.epoch.toNat * 2 ^ 2)
  | none => 0

/-- Payload of an entry's place. -/
def entryWord (e : Option QEntry) : Nat :=
  match e with
  | some e => e.payload.toNat
  | none => 0

/-- Bytes, or zeroes in their place where they are not shown. -/
def shown (b : Bool) (l : List Byte) : List Byte := if b then l else List.replicate l.length 0

/-- Descriptor addresses of executing and waiting slots. -/
def slotAddrs (c : Core) : List Nat :=
  let two (l : List Nat) : List Nat := [l.getD 0 0, l.getD 1 0]
  two (c.mx.map (·.addr)) ++ two (c.vx.map (·.addr)) ++ two (c.dma.map (·.addr))

/-- The 2,048-byte record of a core. -/
def coreRecord (s : State) (p : HostPort) (k : Nat) : List Byte :=
  let c := getCore s k
  let v := dailiesShow s p (fieldSlate c)
  let qs := (List.range 16).map (oldEntries c)
  leBytes 4 k ++ leBytes 2 ((sheetSlate c).getD 0x8000) ++ leBytes 2 (sheetScene c) ++ leBytes 8 (now s)
    ++ shown v (dwords ((c.g.toList ++ c.s.toList ++ c.c.toList).map (·.toNat)))
    ++ dwords ((c.cthr.toList ++ c.cbind.toList).map (·.toNat))
    ++ dwords (dailiesRegs.map fun o => (readCoreReg c o).1.toNat)
    ++ dwords ((List.range 32).map fun i => (readCoreReg c (0x100 + 4 * i)).1.toNat)
    ++ dwords ((List.range 16).map fun n => (getQ c n).resid.toNat)
    ++ ((c.sbEntries.take 32).flatMap (sbBytes c)) ++ List.replicate (512 - 16 * (c.sbEntries.take 32).length) 0
    ++ shown v (dwords (qs.flatMap fun q => q.map entryWord) ++ qs.flatMap fun q => q.map sideByte)
    ++ dwords (slotAddrs c) ++ List.replicate 312 0

/-! ### Cluster and clapper records -/

/-- The 256-byte record of a cluster: RT_* of both planes, VT_STATUS to VT_REFETCH, FAB_GW. -/
def clusterRecord (s : State) (cl : Nat) : List Byte :=
  let l := dwords (((List.range 32).map (4 * ·) ++ [0x100, 0x104, 0x108, 0x10C, 0x180]).map fun o => (readClusterReg s cl o).1)
  l ++ List.replicate (256 - l.length) 0

/-- A clapper's entry: its address and its two words. -/
def clapRecord (s : State) (a : Nat) : List Byte :=
  let m := (getCl s (bits a 16 6 * 64 + bits a 10 6)).mem
  let w := cmWords + 2 * bits a 0 10
  dwords [a, (ramWord m w).toNat, (ramWord m (w + 1)).toNat, 0]

/-- Clappers of scenes. -/
def scenesClaps (s : State) (xs : List Scene) : List Nat :=
  (xs.flatMap fun x => match getBoard s x.sbn with
    | some b => (clapInits b.words x.idx).map (·.1)
    | none => []).eraseDups

/-! ### The image -/

/-- What an image shows. -/
structure DailiesAsk where
  port : HostPort
  cause : Nat
  cores : List Nat
  cls : List Nat
  claps : List Nat

/-- Bytes of an image. -/
def imageSize (a : DailiesAsk) : Nat := 64 + 2048 * a.cores.length + 256 * a.cls.length + 16 * a.claps.length

/-- The image, latched now. -/
def dailiesImage (s : State) (a : DailiesAsk) : List Byte :=
  record 64 [(0, 4, 0x31594C44), (4, 4, a.cause), (8, 4, a.cores.length), (12, 4, a.cls.length), (16, 4, a.claps.length), (24, 8, now s)]
    ++ a.cores.flatMap (coreRecord s a.port) ++ a.cls.flatMap (clusterRecord s) ++ a.claps.flatMap (clapRecord s)

/-- Core sites of clusters, in ascending CORE_XY. -/
def sitesOf (cls : List Nat) : List Nat := (cls.flatMap coresOf).mergeSort fun a b => decide (a ≤ b)

/-- Cores that hold a call sheet of a slate. -/
def slateCores (s : State) (n : Nat) : List Nat := (s.cores.filter fun q => sheetSlate q.2 == some n).map (·.1)

/-- The image of a slate's cores within a rectangle; 0 stands for every cluster. -/
def slateAsk (s : State) (p : HostPort) (cause n rect : Nat) : DailiesAsk :=
  let cores := (slateCores s n).filter fun k => decide (rect = 0) || inRect rect (clOf k)
  { port := p, cause := cause, cores := cores, cls := (cores.map clOf).eraseDups.mergeSort fun a b => decide (a ≤ b)
    claps := scenesClaps s (scenesOf s n) }

/-- The image of the module within a rectangle. -/
def moduleAsk (s : State) (p : HostPort) (rect : Nat) : DailiesAsk :=
  let cls := (List.range 3584).filter fun cl => !fusedCl s cl && (decide (rect = 0) || inRect rect cl)
  { port := p, cause := 1, cores := sitesOf cls, cls := cls, claps := scenesClaps s (s.scenes.filter admitted) }

/-- The image of a hung scene: every core and cluster of its region (R484). -/
def hangAsk (s : State) (p : HostPort) (x : Scene) : DailiesAsk :=
  let cls := x.region.eraseDups.mergeSort fun a b => decide (a ≤ b)
  { port := p, cause := 2, cores := sitesOf cls, cls := cls, claps := scenesClaps s [x] }

/-- The writing of an image begins. -/
def dailiesStart (s : State) (a : DailiesAsk) (addr : Nat) (cmd : Option CmdRef) (cut : Option Nat) (hang : Option (Nat × Nat)) :
    State :=
  let w : DailiesWork :=
    { cmd := cmd, cut := cut, hang := hang, port := a.port, addr := BitVec.ofNat 64 addr, image := dailiesImage s a
      cores := a.cores.length }
  { s with works := { s.works with dailies := s.works.dailies ++ [w] } }

/-- An image has been written: 0xB002, and the command's completion. -/
def dailiesEnd (s : State) (w : DailiesWork) : State :=
  let s := { s with works := { s.works with dailies := s.works.dailies.erase w } }
  let s := hostWrite s w.port w.addr.toNat w.image
  let cause := if w.cut.isSome then 3 else if w.hang.isSome then 2 else 1
  let s := raiseEv s 0xB002 0 noFrame
    [(28, 1, portNo w.port), (29, 1, cause), (32, 4, w.cores), (36, 8, w.image.length), (44, 8, w.addr.toNat)]
  match w.cmd with
  | some r => finish s r 0 []
  | none => s

/-! ### DAILIES_COLLECT -/

/-- A rectangle word: corners in order, inside the grid, no bit above (R273). -/
def rectWordOk (r : Nat) : Bool :=
  decide (bits r 0 6 ≤ bits r 12 6) && decide (bits r 6 6 ≤ bits r 18 6) && decide (bits r 18 6 < 56)

/-- The scope of a DAILIES_COLLECT record. -/
def dailiesSpec (r : CmdRec) : CmdSpec := ⟨0x0603, (2, 0), decide (pb r 36 1 = 0), false, 0⟩

/-- DAILIES_COLLECT's own work. -/
def dailiesBody (p : HostPort) (r : CmdRec) (ref : CmdRef) (s : State) : State :=
  let rect := pb r 40 4
  let a := if pb r 36 1 = 0 then slateAsk s p 1 r.slate.toNat rect else moduleAsk s p rect
  if rsvOk r [(36, 0, 8), (40, 0, 24), (48, 0, 64), (56, 0, 32)] = false ∨ 1 < pb r 36 1 ∨ (rect ≠ 0 ∧ rectWordOk rect = false)
    ∨ pb r 48 8 = 0 ∨ pb r 56 4 < imageSize a then finish s ref 0x0103 []
  else dailiesStart (accept s ref []) a (pb r 48 8) (some ref) none none

/-- DAILIES_COLLECT (R486). -/
def execDailiesCollect (p : HostPort) (r : CmdRec) (s : State) : Host.Outcome State Fault Refusal :=
  .next (mailbox (dailiesSpec r) p r (dailiesBody p r) s)

end Sys2Proof.Machine
end

