-- ==== Sys2Proof/Machine/FaultOps.lean ====
section
/-! DEFINITION. Policies, fences, and the watch for hangs with its recovery (R472, R473, R483 to R485, R493, R494, R602). -/

namespace Sys2Proof.Machine

open Sys2Proof

/-! ### Policies (R472, R473) -/

/-- Fields that a policy's ARGS may use. -/
def policyFields (r : CmdRec) : List (Nat × Nat × Nat) :=
  match pb r 36 1 with
  | 1 => [(40, 0, 8), (41, 0, 1)]
  | 3 => (40, 0, 8) :: (List.range (pb r 40 1)).map fun i => (44 + 4 * i, 0, 24)
  | 4 => [(40, 0, 32)]
  | 7 => [(40, 0, 192)]
  | _ => []

/-- The ARGS are in range for their policy. -/
def policyRange (s : State) (r : CmdRec) : Bool :=
  match pb r 36 1 with
  | 1 => decide (1 ≤ pb r 40 1) && decide (pb r 40 1 ≤ 15)
  | 2 => true
  | 3 =>
    decide (1 ≤ pb r 40 1) && decide (pb r 40 1 ≤ 5) && (List.range (pb r 40 1)).all fun i =>
      rectWordOk (pb r (44 + 4 * i) 4) && (rectCls (pb r (44 + 4 * i) 4)).all fun cl => !fusedCl s cl
  | 4 => decide (30000 ≤ pb r 40 4) && decide (pb r 40 4 ≤ 84000)
  | 5 => true
  | 6 => true
  | 7 => decide (100 ≤ pb r 40 4) && decide (pb r 40 4 ≤ 600000)
  | _ => false

/-- Argument bytes of a record. -/
def argBytes (r : CmdRec) : List Byte := leBytes 24 (pb r 40 24)

/-- POLICY_SET's parameters are refused. -/
def policyBad (s : State) (r : CmdRec) : Bool :=
  let code := pb r 36 1
  decide (code = 0) || decide (7 < code) || decide (1 < pb r 37 1) || decide (pb r 38 2 ≠ 0)
    || (if pb r 37 1 = 0 then decide (pb r 40 24 ≠ 0)
        else !policyRange s r || !rsvOk r ([(36, 0, 8), (37, 0, 8)] ++ policyFields r))

/-- POLICY_SET's own work. -/
def policyBody (r : CmdRec) (ref : CmdRef) (s : State) : State :=
  if policyBad s r then finish s ref 0x0103 []
  else
    let old := getPolicy s (pb r 36 1)
    finish (setPolicy s (pb r 36 1) ⟨decide (pb r 37 1 = 1), argBytes r⟩) ref 0
      [(24, 1, bitAt old.armed 0), (25, 24, leNat old.args)]

/-! ### Fences (R602) -/

/-- The core belongs to an admitted scene that has not closed. -/
def inScene (s : State) (k : Nat) : Bool := match sceneOf s (getCore s k) with | some x => admitted x | none => false

/-- CORE_XY of FENCE_CORE and UNFENCE_CORE names a core of the module. -/
def fenceTarget (s : State) (r : CmdRec) : Bool :=
  rsvOk r [(40, 0, 18)] && xyOk (pb r 40 4) && !fusedCl s (clOf (pb r 40 4))

/-- FENCE_CORE's own work. -/
def fenceBody (r : CmdRec) (ref : CmdRef) (s : State) : State :=
  let k := pb r 40 4
  if fenceTarget s r then
    let s := accept s ref []
    let c := getCore s k
    let s := if inScene s k then faultHalt s ⟨0, 1, some k, (sheetSlate c).toList, c.scene⟩ else fenceCore s k
    finish s ref 0 []
  else finish s ref 0x0103 []

/-- UNFENCE_CORE's own work. -/
def unfenceBody (r : CmdRec) (ref : CmdRef) (s : State) : State :=
  let k := pb r 40 4
  let c := getCore s k
  if fenceTarget s r = false ∨ c.mode ≠ .fenced ∨ c.fencedInService = false ∨ goodCore s k = false then finish s ref 0x0103 []
  else
    let m : CoreMode := if (getCl s (clOf k)).dark = .gated then .faded else .idle
    finish (bumpFloor (setCore s k { c with mode := m, fencedInService := false })) ref 0 []

/-! ### Hangs (R483, R484) -/

/-- Arguments of HANG: timeout in ms, area length, areas of ports A and B. -/
def hangArgs (s : State) : Nat × Nat × Nat × Nat :=
  let a := (getPolicy s 7).args
  (getLe a 0 4, getLe a 4 4, getLe a 8 8, getLe a 16 8)

/-- The dailies area of a port. -/
def hangArea (s : State) (p : HostPort) : Nat :=
  match p with
  | .A => (hangArgs s).2.2.1
  | .B => (hangArgs s).2.2.2

/-- Recovery follows: AUTO_REPLAY is armed, and each bound slate's owner port has an area large enough. -/
def hangRecovers (s : State) (x : Scene) : Bool :=
  (getPolicy s 1).armed && (boundSlates x).all fun n =>
    let p := (getSlate s n).owner
    hangArea s p != 0 && decide (imageSize (hangAsk s p x) ≤ (hangArgs s).2.1)

/-- A progress report: a scene that has made progress is not hung, and its time is taken. -/
def progressReport (s : State) : State :=
  { s with scenes := s.scenes.map fun x => if x.progress then { x with progress := false, lastProgress := now s, hung := false } else x }

/-- The recovery that now replays a part scene as its suspect. -/
def suspectOf (s : State) (x : Scene) : Option HangWork :=
  s.hangs.find? fun h => h.sbn == x.sbn && h.idx == x.idx && decide (0 < x.part) && decide (h.current = some (x.part - 1))

/-- 0xB001. -/
def hangEvent (s : State) (x : Scene) (action : Nat) : State :=
  raiseEv s 0xB001 2 (sceneFrame x)
    [(28, 2, x.sbn), (30, 2, x.idx), (32, 4, max (hangArgs s).1 ((now s - x.lastProgress) / 1000000)), (36, 2, (boundSlates x).length),
      (38, 1, action)]

/-- Recovery begins: the scene is halted, its slates are held, and its dailies are latched. -/
def hangRecover (s : State) (x : Scene) : State :=
  let s := (boundSlates x).foldl (fun s n => holdSlate s n 3) (haltScene s x)
  let ns := (boundSlates x).mergeSort fun a b => decide (a ≤ b)
  let s := ns.foldl (fun s n =>
    let p := (getSlate s n).owner
    dailiesStart s (hangAsk s p x) (hangArea s p) none none (some (x.sbn, scKey x))) s
  { s with hangs := s.hangs ++
    [{ sbn := x.sbn, idx := x.idx, suspects := ns, current := none, guilty := [], total := ns.length, resetting := [] }] }

/-- A scene is declared hung. -/
def hangDeclare (s : State) (sbn idx : Nat) : State :=
  match s.scenes.find? fun x => x.sbn == sbn && x.idx == idx && (x.phase == .running || x.phase == .ended) && !x.hung && !x.progress with
  | none => s
  | some x =>
    if (getPolicy s 7).armed = false then s
    else
      let s := setScene s { x with hung := true }
      let x := { x with hung := true }
      if (suspectOf s x).isSome then hangEvent s x 1
      else if hangRecovers s x then hangRecover (hangEvent s x 1) x
      else hangEvent s x 0

/-! ### Resets and suspects of a recovery (R484, R485) -/

/-- Replaces a recovery by what a function makes of it. -/
def setHang (s : State) (h : HangWork) (f : HangWork → HangWork) : State :=
  { s with hangs := s.hangs.map fun y => if y.sbn = h.sbn ∧ y.idx = h.idx then f y else y }

/-- The recovery as it stands. -/
def getHang (s : State) (h : HangWork) : Option HangWork := s.hangs.find? fun y => y.sbn == h.sbn && y.idx == h.idx

/-- The recovery is over: 0xB004 when no suspect hung again. -/
def hangOver (s : State) (h : HangWork) : State :=
  let s := { s with hangs := s.hangs.filter fun y => !(y.sbn == h.sbn && y.idx == h.idx) }
  if h.guilty.isEmpty then raiseEv s 0xB004 1 noFrame [(28, 2, h.sbn), (30, 2, h.idx), (34, 1, h.total)] else s

/-- The next suspect is replayed from its latest keyframe; one with no replay left, or whose replay is refused, is passed
over (R480, R484). -/
def nextSuspect (s : State) (h : HangWork) : List Nat → State
  | [] => hangOver s h
  | n :: rest =>
    let s := setHang s h fun y => { y with suspects := rest, current := none }
    let run := match runRecord s h.sbn h.idx n with | some q => q.run | none => 0
    if replayCount s ≤ replaysOf s h.sbn h.idx n then
      nextSuspect (raiseEv s 0xB034 2 ⟨none, some n, none⟩ [(28, 2, h.sbn), (30, 2, h.idx), (32, 2, run), (34, 1, replayCount s)]) h rest
    else
      match replayOrder s { port := (getSlate s n).owner, slate := n, sbn := h.sbn, idx := h.idx, boundary := false, cause := 2, cmd := none } with
      | (s, 0) => setHang s h fun y => { y with current := some n }
      | (s, _) => nextSuspect s h rest

/-- The recovery goes on once no reset is under way and no suspect runs. -/
def hangGoOn (s : State) (h : HangWork) : State :=
  match getHang s h with
  | none => s
  | some y => if y.resetting.isEmpty && y.current.isNone then nextSuspect s y y.suspects else s

/-- Every core of a scene is reset in its core domain. -/
def hangResets (s : State) (h : HangWork) (x : Scene) : State :=
  let ks := x.cores.map (·.1)
  let s := ks.foldl coreReset s
  let w (k : Nat) : ResetWork := { cmd := none, domain := 0, mode := 0, target := k, since := now s }
  let s := { s with works := { s.works with resets := s.works.resets ++ ks.map w } }
  hangGoOn (setHang s h fun y => { y with resetting := y.resetting ++ ks }) h

/-- The dailies of a hung scene are all written: its cores are reset. -/
def hangDailies (s : State) (q : Nat × Nat) : State :=
  if s.works.dailies.any fun w => decide (w.hang = some q) then s
  else
    match s.hangs.find? fun h => h.sbn == q.1 && h.idx == q.2 % 1024, findScene s q.1 q.2 with
    | some h, some x => hangResets s h x
    | some h, none => hangGoOn s h
    | none, _ => s

/-- Cores whose reset has completed leave every recovery. -/
def hangReset (s : State) (done : Nat → Bool) : State :=
  let hs := s.hangs.filter fun h => h.resetting.any done
  let s := { s with hangs := s.hangs.map fun h => { h with resetting := h.resetting.filter fun k => !done k } }
  hs.foldl hangGoOn s

/-- A reset of a recovery or a cut completes: it belongs to no RESET, and raises no event of its own. -/
def quietReset (s : State) (w : ResetWork) : State :=
  let cl := clOfTarget w.target
  let s := { s with works := { s.works with resets := s.works.resets.erase w } }
  if w.domain = 0 then hangReset s fun k => k == w.target
  else
    let s := { s with works := { s.works with resets := s.works.resets.filter fun v =>
      !(v.cmd.isNone && v.domain == 0 && clOf v.target == cl) } }
    hangReset (domainReady s w.domain w.target) fun k => clOf k == cl

/-- The oldest reset completes. Wafer and module resets are ready with the module. -/
def resetsDone (s : State) : State :=
  match s.works.resets with
  | [] => s
  | w :: _ =>
    if 4 ≤ w.domain then if s.boot.ready then resetEnd s w else s
    else if w.cmd.isSome then resetEnd s w
    else quietReset s w

/-- A core of a recovery has not come back within 100 µs: its cluster is reset. -/
def coreEscalate (s : State) (k : Nat) : State :=
  match s.works.resets.find? fun w => w.cmd.isNone && w.domain == 0 && w.target == k with
  | none => s
  | some w =>
    if s.hangs.any fun h => h.resetting.contains k then
      let s := clusterReset s (clOf k)
      { s with works := { s.works with resets := s.works.resets.map fun v =>
        if v = w then { v with domain := 1, target := targetOfCl (clOf k), since := now s } else v } }
    else s

/-- The part scene of a suspect: admitted, admitting or queued. -/
def suspectScene (s : State) (h : HangWork) (n : Nat) : Option Scene :=
  (s.scenes ++ s.queuedRuns).find? fun x => x.sbn == h.sbn && x.idx == h.idx && x.part == n + 1

/-- A suspect has hung again: it is guilty. -/
def hangGuilty (s : State) (h : HangWork) (x : Scene) (n : Nat) : State :=
  let s := holdSlate (haltScene s x) n 3
  let s := raiseEv s 0xB003 2 ⟨none, some n, some (x.number, x.epoch.toNat)⟩ [(28, 2, h.sbn), (30, 2, h.idx), (32, 2, n), (34, 1, h.total)]
  hangResets (setHang s h fun y => { y with guilty := y.guilty ++ [n], current := none }) h x

/-- A suspect's replay has closed its scene or hung again. -/
def suspectEnded (s : State) (n : Nat) : State :=
  match s.hangs.find? fun h => h.current == some n with
  | none => s
  | some h =>
    match suspectScene s h n with
    | none => hangGoOn (setHang s h fun y => { y with current := none }) h
    | some x => if x.hung then hangGuilty s h x n else s

/-! ### Heartbeat and watchdog (R493, R494) -/

/-- 0xB000 to a port whose event ring is enabled. -/
def beatTo (s : State) (p : HostPort) (rcd : List Byte) : State := if (getHost s p).evt.en then postEvent s p rcd else s

/-- A heartbeat. -/
def beat (s : State) : State :=
  let s := { s with heartbeat := s.heartbeat + 1 }
  let rcd := evRecord s 0xB000 0 noFrame
    [(28, 4, s.heartbeat.toNat), (32, 4, (s.unfinished.map (·.cmd)).eraseDups.length), (36, 4, s.heldA.length + s.heldB.length)]
  beatTo (beatTo s .A rcd) .B rcd

end Sys2Proof.Machine
end

