-- ==== Sys2Proof/Machine/Faults.lean ====
section
/-! DEFINITION. Faults and recovery: policies, fences, fault halts, hangs, resets, heartbeat and watchdog
(R469 to R496, R602). -/

namespace Sys2Proof.Machine

open Sys2Proof

/-- A module-wide opcode that needs authority, served from version 2.0. -/
def moduleSpec (opcode need : Nat) : CmdSpec := ⟨opcode, (2, 0), false, true, need⟩

/-- POLICY_SET (R472, R473). -/
def execPolicySet (p : HostPort) (r : CmdRec) (s : State) : Host.Outcome State Fault Refusal :=
  .next (mailbox (moduleSpec 0x0600 0) p r (policyBody r) s)

/-- FENCE_CORE (R602). -/
def execFenceCore (p : HostPort) (r : CmdRec) (s : State) : Host.Outcome State Fault Refusal :=
  .next (mailbox (moduleSpec 0x0601 0) p r (fenceBody r) s)

/-- UNFENCE_CORE (R602). -/
def execUnfenceCore (p : HostPort) (r : CmdRec) (s : State) : Host.Outcome State Fault Refusal :=
  .next (mailbox (moduleSpec 0x0602 0) p r (unfenceBody r) s)

/-- RESET_DONE: the oldest reset's domain is ready again (R489). -/
def execResetDone (s : State) : Host.Outcome State Fault Refusal := .next (resetsDone s)

/-- FAULT_HALT: the management processor takes the oldest detection (R475). -/
def execFaultHalt (s : State) : Host.Outcome State Fault Refusal :=
  .next (match s.detections with
    | [] => s
    | d :: rest => faultHalt { s with detections := rest } d)

/-- HANG_PROGRESS_REPORT (R483). -/
def execHangProgressReport (s : State) : Host.Outcome State Fault Refusal := .next (progressReport s)

/-- HANG_DECLARED: HANG_TIMEOUT has passed without progress (R483, R484). -/
def execHangDeclared (sc : SceneId) (s : State) : Host.Outcome State Fault Refusal :=
  .next (hangDeclare s sc.sbn.val sc.idx.val)

/-- HANG_CORE_RESET_TIMEOUT (R484). -/
def execHangCoreResetTimeout (c : CoreId) (s : State) : Host.Outcome State Fault Refusal :=
  .next (coreEscalate s (coreKey c))

/-- HANG_SUSPECT_ENDED (R484, R485). -/
def execHangSuspectEnded (slate : SlateId) (s : State) : Host.Outcome State Fault Refusal :=
  .next (suspectEnded s slate.val)

/-- HEARTBEAT (R493). The boot ROM has none. -/
def execHeartbeat (s : State) : Host.Outcome State Fault Refusal := .next (if s.boot.fw = .rom then s else beat s)

/-- CONTROLLER_WATCHDOG: 1,000 ms without a restart reset the controller; the wafer runs on (R494). -/
def execControllerWatchdog (s : State) : Host.Outcome State Fault Refusal :=
  .next (if s.boot.fw = .rom then s else controllerReset { s with monFault := s.monFault ||| 16 } 1)

end Sys2Proof.Machine
end

