-- ==== Sys2Proof/Machine/PowerOps.lean ====
section
/-! DEFINITION. Budgets, corrections, energy, sensors, trips and fades (R513 to R515, R519 to R546, R584). -/

namespace Sys2Proof.Machine

open Sys2Proof

/-! ### Sensors (R532, R561, R562) -/

/-- The cluster is SOFT. -/
def isSoft (s : State) (cl : Nat) : Bool := (getCl s cl).therm.getLsbD 8

/-- The latest logic sample of a cluster in °C. -/
def lastSample (s : State) (cl : Nat) : Int := signedOf 8 (getCl s cl).therm.toNat

/-- A cluster counts as SOFT for its frame's stop: SOFT, or its vault in band 2 or above. -/
def softFor (s : State) (cl : Nat) : Bool := isSoft s cl || decide (2 ≤ (getCl s cl).vault.band)

/-- The frame has a SOFT cluster. -/
def frameSoft (s : State) (f : Nat) : Bool := (frameCls f).any (softFor s)

/-! ### Shares of energy (R541) -/

/-- An interval's energy shared among clusters: activity counts are not given, so every share is free within what is left,
and the last cluster takes the rest. -/
def splitEnergy {α : Type} (ctr : Nat) : Nat → List α → List (α × Nat)
  | _, [] => []
  | e, [cl] => [(cl, e)]
  | e, cl :: rest =>
    let v : BitVec 32 := Config.freeValue ctr
    let x := v.toNat % (e + 1)
    (cl, x) :: splitEnergy (ctr + 1) (e - x) rest

/-- The core executes work: its cue program runs, or an engine holds a descriptor. -/
def coreWorks (c : Core) : Bool := c.mode == .running || !c.mx.isEmpty || !c.vx.isEmpty || !c.dma.isEmpty

/-- The slates whose work cores of a cluster execute, and last the units that hold no slate: idle cores and the routers (R21). -/
def energyUsers (s : State) (cl : Nat) : List (Option Nat) :=
  (((coresOf cl).filter fun k => coreWorks (getCore s k)).filterMap fun k => (sheetSlate (getCore s k)).map some).eraseDups ++ [none]

/-- Adds to the energy of a slate; energy of no slate goes to none. -/
def chargeSlate (s : State) (q : Option Nat × Nat) : State :=
  match q.1 with
  | some n => setSlate s n { getSlate s n with energy := (getSlate s n).energy + BitVec.ofNat 64 q.2 }
  | none => s

/-- Adds to the energy of a cluster; it is shared among the slates that its cores work for, and what idle units draw (R21, R541): the
activity counts are not given, so each share is free. -/
def chargeCluster (s : State) (q : Nat × Nat) : State :=
  let e := BitVec.ofNat 64 q.2
  let w := s.power
  let us := energyUsers s q.1
  let s := { s with
    freeCtr := s.freeCtr + us.length
    power := { w with clusterEnergy := smapSet 0 w.clusterEnergy q.1 (smapGet 0 w.clusterEnergy q.1 + e) } }
  (splitEnergy (s.freeCtr - us.length) q.2 us).foldl chargeSlate s

/-- The clusters of a frame that the variant has. -/
def poweredCls (s : State) (f : Nat) : List Nat := (frameCls f).filter fun cl => !fusedCl s cl

/-- 50 µs of a frame's measured power in mW, in µJ. -/
def intervalEnergy (mw : Nat) : Nat := mw * 50 / 1000

/-- A frame's energy of one interval. -/
def chargeFrame (s : State) (f mw : Nat) : State :=
  let e := intervalEnergy mw
  let r := getFrame s f
  let s := setFrame s f { r with
    energy := r.energy + BitVec.ofNat 64 e
    ktime := r.ktime + powerFactor s f r.stop.toNat * 50
    power := mw / 1000 }
  let cls := poweredCls s f
  let parts := splitEnergy s.freeCtr e cls
  parts.foldl chargeCluster { s with freeCtr := s.freeCtr + cls.length }

/-! ### Correction (R523, R529, R540) -/

/-- The stop after a correction: a SOFT frame moves slower, the others by measured power against share. -/
def nextStop (s : State) (f mw : Nat) : Nat :=
  let r := getFrame s f
  let n := r.stop.toNat
  let k (i : Nat) : Nat := powerFactor s f i
  let slower := min 15 (n + 1)
  let m := if frameSoft s f ∨ r.share * 1000 < mw then slower
    else if 0 < n ∧ mw * k (n - 1) < r.share * 1000 * k n then n - 1
    else n
  max m r.limit.toNat

/-- The reason a frame is charged to, coded as r of THR_NS_r; 15 none. -/
def chargeReason (s : State) (f : Nat) : Nat :=
  let r := getFrame s f
  if r.stop = 0 then 15
  else if frameSoft s f then 2
  else if r.stop.toNat ≤ r.limit.toNat then 5
  else if (ceiling s).2 = 0 then 0
  else 1

/-- A reason grew during an interval. -/
def reasonHolds (s : State) (r : Nat) : Bool :=
  s.frames.any (fun q => q.2.reason.toNat == r)
    || (r == 3 && s.clusters.any fun q => q.2.dark == .tripped)
    || (r == 6 && s.clusters.any fun q => q.2.dark == .gated)
    || (r == 4 && s.frames.any fun q => q.2.stretched)
    || (r == 7 && s.clock.hold)

/-- THR_NS_r of one interval. -/
def chargeReasons (s : State) : State :=
  { s with power := { s.power with thrNs := Vector.ofFn fun i : Fin 8 =>
      s.power.thrNs[i] + if reasonHolds s i.val then 50000 else 0 } }

/-- The module gaffer's interval: P_IN and P_ST are measured and integrated, reasons grow, and shares shrink in proportion
while P_ST exceeds the ceiling (R529, R540, R541). -/
def moduleInterval (s : State) : State :=
  let s := chargeReasons (measure s)
  let w := s.power
  let s := { s with power := { w with
    boundary := now s
    inletEnergy := w.inletEnergy + BitVec.ofNat 64 (w.pIn * 50)
    stackEnergy := w.stackEnergy + BitVec.ofNat 64 (w.pSt * 50) } }
  let c := (ceiling s).1
  if c < s.power.pSt then
    { s with frames := s.frames.map fun q => (q.1, { q.2 with share := q.2.share * c / s.power.pSt }) }
  else s

/-- A frame's correction. A stop change that meets a stretch waits for its end. -/
def correctFrame (s : State) (f mw : Nat) : State :=
  let s := if f = 0 then moduleInterval s else s
  let s := chargeFrame s f mw
  let n := if (getFrame s f).stretched then (getFrame s f).stop.toNat else nextStop s f mw
  let s := setFrame s f { getFrame s f with stop := BitVec.ofNat 4 n }
  setFrame s f { getFrame s f with reason := BitVec.ofNat 4 (chargeReason s f) }

/-! ### Fade checks (R513, R535, R592) -/

/-- A FADE or UNFADE as a command, a pin or THERMAL_FADE orders it: rectangle words, RETAIN. -/
structure FadeAsk where
  rects : List Nat
  retain : Bool

/-- Clusters of the rectangles. -/
def askCls (a : FadeAsk) : List Nat := (a.rects.flatMap rectCls).eraseDups

/-- A rectangle lies in the grid and includes no fused cluster. -/
def fadeRectOk (s : State) (r : Nat) : Bool := rectWordOk r && decide (r / 2 ^ 24 = 0) && (rectCls r).all fun cl => !fusedCl s cl

/-- Neighbours of a cluster. -/
def neighbours (cl : Nat) : List Nat := [PortDir.n, .e, .s, .w].filterMap (beyond cl)

/-- Spreads from a frontier over nodes that live; the answer is the nodes reached. -/
def coupleSpread (lives : Nat → Bool) : Nat → List Nat → List Nat → List Nat
  | 0, _, seen => seen
  | fuel + 1, front, seen =>
    let new := ((front.flatMap neighbours).eraseDups).filter fun cl => lives cl && !seen.contains cl
    if new.isEmpty then seen else coupleSpread lives fuel new (new ++ seen)

/-- Every node left running keeps a coupling path to a running injection synthesizer (R513). -/
def coupled (s : State) (off : List Nat) : Bool :=
  let lives (cl : Nat) : Bool := nodeLives s cl && !off.contains cl
  let all := (List.range 3584).filter lives
  let edge := all.filter (isBoundary s)
  decide ((coupleSpread lives 3584 edge edge).length = all.length)

/-- The core lets its cluster be faded. -/
def coreQuiet (s : State) (k : Nat) : Bool := (getCore s k).mode == .idle || (getCore s k).mode == .fenced

/-- Scenes that are admitted or being admitted. -/
def liveScenes (s : State) : List Scene := s.scenes.filter fun x => x.phase != .closed

/-- Disabled clusters. -/
def disabledCls (s : State) : List Nat := (s.floor.clusters.filter fun q => q.2.disabled && !fusedCl s q.1).map (·.1)

/-- Clusters that the entries are to avoid: those the floor plan disables, those that are dark, those being faded, and `more`,
but none of `less` (R305). -/
def darkSet (s : State) (more less : List Nat) : List Nat :=
  let dark := (s.clusters.filter fun q => q.2.dark != .lit).map (·.1)
  let fades := (s.works.fades.filter (·.off)).flatMap (·.clusters)
  disabledCls s ++ ((dark ++ fades ++ more).eraseDups.filter fun cl => !less.contains cl && !(fpCl s cl).disabled)

/-- Once the clusters are dark, a route between two clusters of a scene's region gives RETURN. -/
def routesBreak (s : State) (off : List Nat) : Bool :=
  let t := { s with routeDark := darkSet s off [] }
  (liveScenes s).any fun x => x.region.any fun a => x.region.any fun b =>
    [0, 1].any fun pl => (routeEntry t pl a b false).isNone

/-- A cluster holds an owned range or local state of a slate that is not FREE. -/
def clusterOwned (s : State) (cl : Nat) : Bool :=
  ((heldSpaces s).any fun r => r.cl == cl)
    || (coresOf cl).any fun k => match (getCore s k).localOwner with
      | some n => (getSlate s n).mode != .free
      | none => false
where
  /-- Ranges of slates that are not FREE. -/
  heldSpaces (s : State) : List Range := s.slates.flatMap fun q => if q.2.mode = .free then [] else q.2.ranges

/-- The cluster is home to an enabled port (R343). -/
def homeClaimed (s : State) (cl : Nat) : Bool := s.ports.any fun q => q.2.enable && portHome q.1 == cl

/-- The rectangles wholly cover a frame that holds a claimed timer (R592). -/
def timerClaimed (s : State) (off : List Nat) : Bool :=
  s.pins.any fun q => match q.2.timer with
    | some f => (poweredCls s f).all off.contains
    | none => false

/-- The first check of R535 that fails, or 0. HOLD comes before the others. -/
def fadeStatus (s : State) (a : FadeAsk) : Nat :=
  let off := askCls a
  if s.clock.hold then 0x0801
  else if !a.rects.all (fadeRectOk s) then 0x0103
  else if !coupled s off then 0x0103
  else if off.any fun cl => (coresOf cl).any fun k => !coreQuiet s k then 0x0301
  else if off.any fun cl => (liveScenes s).any fun x => x.region.contains cl then 0x0301
  else if routesBreak s off then 0x0301
  else if !a.retain && off.any (clusterOwned s) then 0x0301
  else if off.any (homeClaimed s) then 0x0302
  else if timerClaimed s off then 0x0302
  else 0

/-- The checks of UNFADE (R537). -/
def unfadeStatus (s : State) (a : FadeAsk) : Nat :=
  if s.clock.hold then 0x0801
  else if !a.rects.all (fadeRectOk s) then 0x0103
  else if (askCls a).any fun cl => decide (90 ≤ lastSample s cl) then 0x0301
  else 0

/-! ### Fade (R313, R513, R536) -/

/-- A fade begins: the detours for the region and for every cluster dark now come into force under a route fence, and the region
counts as dark (R306, R536). -/
def fadeBegin (s : State) (a : FadeAsk) (cmd : Option CmdRef) (pin : Option Nat) (cause : Nat) : State :=
  let w : FadeWork :=
    { cmd := cmd, pin := pin, cause := cause, off := true, rects := a.rects.length, clusters := askCls a, retain := a.retain, since := now s }
  let new := darkSet s (askCls a) []
  fenceTo { s with works := { s.works with fades := s.works.fades ++ [w] } } new

/-- A core as a fade leaves it: with retention its stores and their owner are kept. -/
def fadedCore (retain : Bool) (c : Core) : Core :=
  let m : CoreMode := if c.mode = .fenced then .fenced else .faded
  let base : Core := { Core.reset with mode := m, fencedInService := c.fencedInService, nextOp := c.nextOp }
  if retain then
    { base with
      sp := c.sp
      istore := c.istore
      cache := c.cache
      plru := c.plru
      cacheBad := c.cacheBad
      planeBad := c.planeBad
      acc := c.acc
      accBad := c.accBad
      localOwner := c.localOwner
      queues := c.queues.map fun q => { RxQueue.reset with qgen := q.qgen, entries := q.entries } }
  else base

/-- Clock units of a cluster. -/
def clusterUnits (cl : Nat) : List Nat := [4 * cl, 4 * cl + 1, 4 * cl + 3]

/-- Units stop: they have to qualify again. -/
def stopUnits (s : State) (l : List Nat) : State :=
  { s with clock := { s.clock with units := s.clock.units.filter fun q => !l.contains q.1 } }

/-- Frozen flits of a tripped cluster are discarded as it is power-gated: 0x4020 (R313). -/
def discardFrozen (s : State) (cl : Nat) : State :=
  match s.mesh.filter fun f => f.cl == cl with
  | [] => s
  | f :: rest =>
    raiseEv { s with mesh := s.mesh.filter fun f => f.cl != cl } 0x4020 1 noFrame
      [(28, 2, targetOfCl cl), (30, 2, rest.length + 1), (32, 16, f.pkt.hdr.toNat)]

/-- RETAIN of CL_THERM. -/
def setRetain (t : Word) (b : Bool) : Word := if b then t ||| 0x800 else t &&& 0xFFFFF7FF

/-- One cluster of a fade. -/
def fadeCluster (retain : Bool) (s : State) (cl : Nat) : State :=
  let s := vaultSleep (discardFrozen s cl) cl
  let s := (coresOf cl).foldl (fun s k => setCore s k (fadedCore retain (getCore s k))) s
  let c := getCl s cl
  let s := setCl s cl { c with
    mem := if retain then c.mem else .zero
    routers := Cluster.reset.routers
    arb := []
    turns := []
    vault := vaultAfter c.vault
    dark := .gated
    therm := setRetain c.therm retain }
  bumpFloor (stopUnits s (clusterUnits cl))

/-- Routers of the region still hold flits that can leave. -/
def fadeFlits (s : State) (w : FadeWork) : Bool :=
  s.mesh.any fun f => w.clusters.contains f.cl && (getCl s f.cl).dark != .tripped

/-- 0x9040 and 0x9041. -/
def fadeEvent (s : State) (code : Nat) (w : FadeWork) (n : Nat) : State :=
  raiseEv s code 1 noFrame [(28, 1, w.rects), (29, 1, w.cause), (30, 1, bitAt w.retain 0), (32, 4, n), (36, 4, (now s - w.since) / 1000)]

/-! ### Unfade (R313, R514, R515, R538, R539) -/

/-- A tripped cluster's clocks restart: flits of packets whose slate was cut are discarded, the others go on, and cores held
by the trip are held as by an order. -/
def untrip (s : State) (cl : Nat) : State :=
  let cut := s.mesh.filter fun f => f.cl == cl && decide (2 ^ 20 ≤ f.pkt.note)
  let s := cut.foldl (fun s f =>
    setRouter (meshDrop s f) cl f.plane fun r => { r with darkret := satAdd 0xFFFFFFFF r.darkret 1 }) s
  let s := (coresOf cl).foldl (fun s k =>
    let c := getCore s k
    if c.mode = .held ∧ c.cause = 4 then setCore s k { c with cause := 1 } else s) s
  bumpFloor (setCl s cl { getCl s cl with dark := .lit })

/-- A router that runs again takes from its send buffers. -/
def injectAt (s : State) (cl : Nat) : State :=
  (s.mesh.filter fun f => f.cl == cl && f.inj.isSome).foldl (fun s f => injectGo s f.cl f.plane (vcOf f)) s

/-- Clusters of an order in a dark state. -/
def askDark (s : State) (a : FadeAsk) (d : Dark) : List Nat := (askCls a).filter fun cl => (getCl s cl).dark == d

/-- An unfade begins: tripped clusters run again at once, faded ones when their sequence has finished. -/
def unfadeBegin (s : State) (a : FadeAsk) (cmd : Option CmdRef) (pin : Option Nat) : State :=
  let trips := askDark s a .tripped
  let faded := askDark s a .gated
  let w : FadeWork :=
    { cmd := cmd, pin := pin, cause := 0, off := false, rects := a.rects.length, clusters := faded, retain := false, since := now s }
  let s := trips.foldl untrip s
  let s := if trips.any s.routeDark.contains then fenceTo s (darkSet s [] []) else trips.foldl (fun s cl => injectAt s cl) s
  let s := if trips.isEmpty then s else fadeEvent s 0x9041 w trips.length
  let s := faded.foldl (fun s cl => stopUnits s (clusterUnits cl)) s
  if faded.isEmpty then
    match cmd with
    | some r => finish s r 0 []
    | none => s
  else { s with works := { s.works with fades := s.works.fades ++ [w] } }

/-- A unit of the region has failed to qualify. -/
def unfadeFailed (s : State) (w : FadeWork) : Bool :=
  w.clusters.any fun cl => (clusterUnits cl).any fun u => smapGet none s.clock.units u == some true

/-- Units of a cluster have qualified. -/
def startUnits (s : State) (cl : Nat) : State :=
  let l := if isBoundary s cl then clusterUnits cl else [4 * cl, 4 * cl + 1]
  { s with clock := { s.clock with units := l.foldl (fun m u => smapSet none m u (some false)) s.clock.units } }

/-- A core of a cluster that is unfaded. -/
def unfadedCore (zero : Bool) (c : Core) : Core :=
  let c := if zero then { zeroLocal c with localOwner := none } else c
  if c.mode = .faded then { c with mode := .idle } else c

/-- One cluster of an unfade. -/
def unfadeCluster (s : State) (cl : Nat) : State :=
  let c := getCl s cl
  let zero := !c.therm.getLsbD 11
  let s := setCl s cl { c with
    dark := .lit
    mem := if zero then .zero else c.mem
    therm := setRetain c.therm false }
  let s := (coresOf cl).foldl (fun s k => setCore s k (unfadedCore zero (getCore s k))) s
  let s := vaultWake (startUnits s cl) cl
  bumpFloor s

/-! ### Orders of pins (R584) -/

/-- The rectangles and RETAIN of a FADE_REQ_IN pin. -/
def pinAsk (p : Pin) : FadeAsk := ⟨p.rects.map (·.toNat), decide (p.retain = 1)⟩

/-- A fade or unfade of a pin is under way. -/
def pinBusy (s : State) (n : Nat) : Bool := s.works.fades.any fun w => w.pin == some n

/-- The order of a pin's level: a fade while it is asserted, an unfade once it is released. A refused order is reported. -/
def pinOrder (s : State) (n : Nat) : State :=
  let p := getPin s n
  let s := setPin s n { p with applied := p.level, waiting := false }
  let a := pinAsk p
  let st := if p.level then fadeStatus s a else unfadeStatus s a
  if st ≠ 0 then raiseEv s 0x6040 1 noFrame [(28, 1, n), (29, 1, if p.level then 1 else 2), (30, 2, st)]
  else if p.level then fadeBegin s a none (some n) 0
  else unfadeBegin s a none (some n)

/-- An edge of a pin: its order, or a wait for the order that runs. -/
def pinEdge (s : State) (n : Nat) (level : Bool) : State :=
  let p := getPin s n
  let s := setPin s n { p with level := level }
  if p.level = level then s
  else if pinBusy s n then setPin s n { getPin s n with waiting := true }
  else pinOrder s n

/-- The pin's order has completed: the latest level is applied when it differs. -/
def pinNext (s : State) (pin : Option Nat) : State :=
  match pin with
  | none => s
  | some n =>
    let p := getPin s n
    if p.waiting ∧ p.level ≠ p.applied then pinOrder s n else setPin s n { p with waiting := false }

/-! ### Ends of fades -/

/-- A work leaves the list. -/
def dropFade (s : State) (w : FadeWork) : State := { s with works := { s.works with fades := s.works.fades.erase w } }

/-- The command of a fade completes. -/
def fadeReply (s : State) (w : FadeWork) (st : Nat) : State :=
  let s := match w.cmd with
    | some r => finish s r st []
    | none => s
  pinNext s w.pin

/-- The oldest fade's sequence has finished: its route fence is over, and no router of the region holds a flit. A frame whose source
node stops is fed from the next (R501). -/
def fadeEnd (s : State) : State :=
  let s := fenceStep s
  match s.works.fades.find? (·.off) with
  | none => s
  | some w =>
    if s.routeFence.isSome ∨ fadeFlits s w = true then s
    else
      let s := (framesOf w.clusters).foldl settleSource (w.clusters.foldl (fadeCluster w.retain) (dropFade s w))
      fadeReply (fadeEvent s 0x9040 w w.clusters.length) w 0

/-- The oldest unfade's sequence has finished, or a unit has failed. The route entries are restored under a fence first (R538). -/
def unfadeEnd (s : State) : State :=
  match s.works.fades.find? fun w => !w.off with
  | none => s
  | some w =>
    let t := dropFade s w
    if unfadeFailed s w then fadeReply t w 0x0601
    else
      let s := fenceTo (fenceStep s) (darkSet s [] w.clusters)
      if s.routeFence.isSome then s
      else 
        let s := (framesOf w.clusters).foldl settleSource (w.clusters.foldl unfadeCluster (dropFade s w))
        fadeReply (fadeEvent s 0x9041 w w.clusters.length) w 0

/-! ### THERMAL_FADE and trips (R533, R534) -/

/-- The rectangle of one cluster. -/
def oneRect (cl : Nat) : Nat := cl % 64 + cl / 64 * 2 ^ 6 + cl % 64 * 2 ^ 12 + cl / 64 * 2 ^ 18

/-- Rectangles in which THERMAL_FADE is allowed. -/
def thermalRects (s : State) : List Nat :=
  let a := (getPolicy s 3).args
  (List.range (getLe a 0 1)).map fun i => getLe a (4 + 4 * i) 4

/-- THERMAL_FADE fades a SOFT cluster once it may. -/
def thermalFade (s : State) (cl : Nat) : State :=
  let a : FadeAsk := ⟨[oneRect cl], false⟩
  if (getPolicy s 3).armed && isSoft s cl && (thermalRects s).any (fun r => inRect r cl) && decide ((getCl s cl).dark = .lit)
      && !(s.works.fades.any fun w => w.clusters.contains cl) && decide (fadeStatus s a = 0) then
    fadeBegin s a none none 1
  else s

/-- Slates of every scene with a core in the cluster. -/
def tripSlates (s : State) (cl : Nat) : List Nat :=
  ((s.scenes.filter fun x => admitted x && x.cores.any fun p => clOf p.1 == cl).flatMap boundSlates).eraseDups

/-- A packet of several flits from a neighbour, the last in its buffer: its tail may not have crossed yet. -/
def mayStraddle (cl : Nat) (f : Flight) (later : List Flight) : Bool :=
  f.cl == cl && f.inp != .loc && decide (1 < flitsOf f.pkt) && !later.any (sameBuffer f)

/-- Which packets a trip cuts (R313): whether a tail has crossed is a free value (log entry 80). The mesh with the cut
packets marked for discard, the cut packets, and the next free value. -/
def cutFlights (cl : Nat) : Nat → List Flight → List Flight × List Flight × Nat
  | n, [] => ([], [], n)
  | n, f :: l =>
    if mayStraddle cl f l then
      let r := cutFlights cl (n + 1) l
      if (Config.freeValue n : BitVec 1) = 1 then ({ f with pkt := { f.pkt with note := f.pkt.note + 2 ^ 20 } } :: r.1, f :: r.2.1, r.2.2)
      else (f :: r.1, r.2.1, r.2.2)
    else
      let r := cutFlights cl n l
      (f :: r.1, r.2.1, r.2.2)

/-- The neighbour reports a packet that a trip has cut, a fault of its source's scene (R313, R474). -/
def darkCut (cl : Nat) (s : State) (f : Flight) : State :=
  let s := raiseEv s 0x4021 2 noFrame [(28, 2, targetOfCl cl), (30, 1, f.plane), (32, 16, f.pkt.hdr.toNat)]
  let x := sceneAt s (clOf (pSrc f.pkt.hdr))
  detect s ⟨0x4021, 3, none, match x with | some x => boundSlates x | none => [], x.map fun x => (x.sbn, scKey x)⟩

/-- Packets that lie across the boundary of a tripped cluster are cut. -/
def cutPackets (s : State) (cl : Nat) : State :=
  let r := cutFlights cl s.freeCtr s.mesh
  r.2.1.foldl (darkCut cl) { s with mesh := r.1, freeCtr := r.2.2 }

/-- A hard trip. -/
def trip (s : State) (cl : Nat) (t : Int) : State :=
  let ns := tripSlates s cl
  let s := (coresOf cl).foldl (fun s k => if (getCore s k).mode = .running then setCore s k (holdCore (getCore s k) 4) else s) s
  let s := bumpFloor (setCl s cl { getCl s cl with dark := .tripped })
  let s := raiseEv s 0x9011 2 noFrame [(28, 2, targetOfCl cl), (30, 1, codeOf 8 t)]
  cutPackets (detect s ⟨0x9011, 5, none, ns, none⟩) cl

/-- A logic sample sets SOFT. -/
def softSample (s : State) (cl : Nat) (t : Int) : State :=
  let c := getCl s cl
  let was := c.therm.getLsbD 8
  let soft := decide (95 ≤ t) || (was && decide (93 ≤ t))
  let s := setCl s cl { c with therm := BitVec.ofNat 32 (codeOf 8 t + bitAt soft 8 + c.therm.toNat / 2 ^ 9 * 2 ^ 9) }
  let detail := [(28, 2, targetOfCl cl), (30, 1, codeOf 8 t)]
  if soft && !was then raiseEv s 0x9010 1 noFrame detail
  else if was && !soft then raiseEv s 0x9012 0 noFrame detail
  else s

/-- A logic sample of a cluster (R532 to R534). -/
def logicSample (s : State) (cl : Nat) (t : Int) : State :=
  let s := softSample s cl t
  let s := if 110 ≤ t ∧ (getCl s cl).dark = .lit then trip s cl t else s
  thermalFade s cl

/-! ### Budget (R524, R526, R530) -/

/-- POWER_BUDGET_SET's own work. -/
def budgetBody (r : CmdRec) (ref : CmdRef) (s : State) : State :=
  let b := pb r 36 4
  let ms := pb r 40 4
  if rsvOk r [(36, 0, 32), (40, 0, 32)] = false ∨ b < 30000 ∨ 84000 < b ∨ (ms ≠ 0 ∧ (ms < 100 ∨ 600000 < ms)) then finish s ref 0x0103 []
  else
    let old := s.power.budget
    let lease := if ms = 0 then none else some (now s + ms * 1000000)
    finish { s with power := { s.power with budget := b, lease := lease, fallback := false } } ref 0 [(24, 4, old)]

/-- The lease runs out. -/
def leaseOut (s : State) : State :=
  match s.power.lease with
  | none => s
  | some _ =>
    let old := s.power.budget
    let fb := (getPolicy s 4).armed
    let new := if fb then getLe (getPolicy s 4).args 0 4 else old
    raiseEv { s with power := { s.power with budget := new, lease := none, fallback := s.power.fallback || fb } } 0x9030 2 noFrame
      [(28, 4, old), (32, 4, new), (36, 1, bitAt fb 0)]

/-- Every frame of the variant is at stop 15, or at its limit where that is slower. -/
def allSlowest (s : State) : Bool :=
  (List.range 56).all fun f => !frameOk s f || (getFrame s f).stop == 15

/-- P_ST has exceeded P_C for 1 ms at the slowest stops: `mw` is P_ST in mW. -/
def budgetUnmet (s : State) (mw : Nat) : State :=
  let c := (ceiling s).1
  if allSlowest s ∧ c * 1000 < mw then
    raiseEv { s with power := { s.power with pSt := mw / 1000 } } 0x9031 2 noFrame [(28, 4, c), (32, 4, mw / 1000)]
  else s

/-! ### Droop (R531) -/

/-- Rail voltage of a frame's stop in mV: factory table and user offset, clamped (R521). -/
def stopMilliVolts (s : State) (f n : Nat) : Int :=
  let v : Int := ((smapGet typicalMilliVolts s.otp.milliVolts f).getD n 0 : Nat) + smapGet 0 s.boot.overlayV f
  max 550 (min 800 v)

/-- A rail falls 30 mV below its stop's voltage. -/
def droopIn (s : State) (f : Nat) (mv : Word16) : State :=
  let r := getFrame s f
  let low := decide ((mv.toNat : Int) ≤ stopMilliVolts s f r.stop.toNat - 30)
  if r.stretched || !low then s
  else
    let due := match r.droopEvent with | some t => decide (t + 1000000000 ≤ now s) | none => true
    let s' := setFrame s f { r with stretched := true, droops := satAdd 0xFFFFFFFF r.droops 1, droopEvent := if due then some (now s) else r.droopEvent }
    if due then raiseEv s' 0x9020 1 noFrame [(28, 1, f), (29, 1, r.stop.toNat), (32, 4, 0)] else s'

/-! ### Coolant and inlet (R519, R544) -/

/-- P_Q in W. -/
def coolantLimit (c : CoolantSample) : Nat :=
  let dT := (45 - c.tIn.toInt).toNat
  76000 * min 800 c.flow.toNat * min 15 dT / (800 * 15)

/-- A coolant sample. -/
def coolantIn (s : State) (c : CoolantSample) : State :=
  let ok := decide (720 ≤ c.flow.toNat) && decide (c.tIn.toInt ≤ 32)
  let q := coolantLimit c
  let s := { s with
    coolantOk := ok
    power := { s.power with flow := c.flow.toNat, tIn := c.tIn.toNat, tOut := c.tOut.toNat, pQ := q } }
  let s := if ok ∧ s.boot.fw = .loading ∧ s.boot.step = 6 then powerFrames s else s
  let due := match s.power.coolantEvent with | some t => decide (t + 1000000000 ≤ now s) | none => true
  if !ok && due then
    raiseEv { s with power := { s.power with coolantEvent := some (now s) } } 0x9002 2 noFrame
      [(28, 2, c.flow.toNat), (30, 1, c.tIn.toNat), (31, 1, c.tOut.toNat), (32, 4, q)]
  else s

/-- An inlet voltage slightly out of range for 1 ms. -/
def inletRange (s : State) (mv : Nat) : State :=
  let s := { s with power := { s.power with volts := mv / 1000 % 1024 } }
  if (690000 ≤ mv ∧ mv < 700000) ∨ (850000 < mv ∧ mv ≤ 870000) then
    raiseEv s 0x9001 2 noFrame [(28, 2, mv / 1000), (30, 1, if mv < 700000 then 1 else 2)]
  else s

/-- Power is lost: the module is dark, and nothing of its state remains (R339, R433). -/
def powerLost (s : State) : State :=
  let t := moduleCold { s with reelCopies := s.reelCopies }
  let dark (h : HPort) : HPort := { HPort.reset with mem := h.mem }
  { t with
    powered := false
    portA := dark t.portA
    portB := dark t.portB
    boot := State.reset.boot
    monFault := 0
    monAddr := none }

/-! ### Energy (R541, R542) -/

/-- Counters of a kind. -/
def energyRange (kind : Nat) : Nat :=
  match kind with
  | 0 => 1
  | 1 => 1
  | 2 => 56
  | 5 => 480
  | _ => 3584

/-- A counter that integrates a rail without a row of its own has grown by a free amount since it was last read. -/
def grown (ctr : Nat) (m : SMap DWord) (i : Nat) : DWord :=
  let v : BitVec 32 := Config.freeValue ctr
  smapGet 0 m i + v.setWidth 64

/-- Vault and port counters of a range advance to the latched boundary, and a slate's by its share of them. -/
def growEnergy (s : State) (kind first n : Nat) : State :=
  if kind = 4 then growSlate s first
  else if kind = 5 ∨ kind = 6 then
    let w := s.power
    let m := if kind = 5 then w.portEnergy else w.vaultEnergy
    let m := (List.range n).foldl (fun m i => smapSet 0 m (first + i) (grown (s.freeCtr + i) m (first + i))) m
    { s with freeCtr := s.freeCtr + n, power := if kind = 5 then { w with portEnergy := m } else { w with vaultEnergy := m } }
  else s

/-- One counter. -/
def energyOf (s : State) (kind i : Nat) : Nat :=
  match kind with
  | 0 => s.power.inletEnergy.toNat
  | 1 => s.power.stackEnergy.toNat
  | 2 => (getFrame s i).energy.toNat
  | 3 => (smapGet 0 s.power.clusterEnergy i).toNat
  | 4 => (getSlate s i).energy.toNat
  | 5 => (smapGet 0 s.power.portEnergy i).toNat
  | _ => (smapGet 0 s.power.vaultEnergy i).toNat

/-- ENERGY_READ is refused. -/
def energyBad (s : State) (r : CmdRec) : Bool :=
  let k := pb r 36 1
  let a := pb r 40 4
  let n := pb r 44 4
  !rsvOk r [(36, 0, 8), (40, 0, 32), (44, 0, 32), (48, 0, 64)] || decide (6 < k) || decide (n = 0) || decide (pb r 48 8 = 0)
    || (k == 6 && noVaults s) || (if k = 4 then decide (a ≠ r.slate.toNat) || decide (n ≠ 1) else decide (energyRange k < a + n))

/-- ENERGY_READ's own work. -/
def energyBody (p : HostPort) (r : CmdRec) (ref : CmdRef) (s : State) : State :=
  let k := pb r 36 1
  let a := pb r 40 4
  let n := pb r 44 4
  if energyBad s r then finish s ref 0x0103 []
  else
    let s := growEnergy s k a n
    let bs := (List.range n).flatMap fun i => leBytes 8 (energyOf s k (a + i))
    finish (hostWrite s p (pb r 48 8) bs) ref 0 [(24, 8, s.power.boundary)]

/-! ### Commands (R523, R535, R537) -/

/-- The rectangles and RETAIN of a record. -/
def askOf (r : CmdRec) : FadeAsk := ⟨(List.range (pb r 36 1)).map fun i => pb r (40 + 4 * i) 4, decide (pb r 37 1 = 1)⟩

/-- N, RETAIN or a reserved field is out of range. -/
def askBad (r : CmdRec) (unfade : Bool) : Bool :=
  let n := pb r 36 1
  decide (n = 0) || decide (5 < n) || decide ((if unfade then 0 else 1) < pb r 37 1)
    || !rsvOk r ([(36, 0, 8), (37, 0, 1)] ++ (List.range n).map fun i => (40 + 4 * i, 0, 32))

/-- FADE's own work. -/
def fadeBody (r : CmdRec) (ref : CmdRef) (s : State) : State :=
  if s.clock.hold then finish s ref 0x0801 []
  else if askBad r false then finish s ref 0x0103 []
  else
    match fadeStatus s (askOf r) with
    | 0 => fadeBegin (accept s ref []) (askOf r) (some ref) none 0
    | st => finish s ref st []

/-- UNFADE's own work. -/
def unfadeBody (r : CmdRec) (ref : CmdRef) (s : State) : State :=
  if s.clock.hold then finish s ref 0x0801 []
  else if askBad r true then finish s ref 0x0103 []
  else
    match unfadeStatus s (askOf r) with
    | 0 => unfadeBegin (accept s ref []) (askOf r) (some ref) none
    | st => finish s ref st []

/-- STOP_LIMIT_SET's own work. -/
def limitBody (r : CmdRec) (ref : CmdRef) (s : State) : State :=
  let f := pb r 36 1
  let l := pb r 37 1
  if rsvOk r [(36, 0, 8), (37, 0, 8)] = false ∨ 15 < l ∨ (f ≠ 0xFF ∧ frameOk s f = false) then finish s ref 0x0103 []
  else
    let fs := if f = 0xFF then (List.range 56).filter (frameOk s) else [f]
    finish (fs.foldl (fun s f => setFrame s f { getFrame s f with limit := BitVec.ofNat 4 l }) s) ref 0 []

end Sys2Proof.Machine
end

