-- ==== Sys2Proof/Machine/BootOps.lean ====
section
/-! DEFINITION. Start-up: images, the floor plan, MODULE_READY, calibration and debug unlock (R547 to R567). -/

namespace Sys2Proof.Machine

open Sys2Proof

/-! ### FW_LOAD and handover (R549 to R553) -/

/-- FW_LOAD's own work. -/
def fwLoadBody (r : CmdRec) (ref : CmdRef) (s : State) : State :=
  if s.boot.fw ≠ .rom ∨ s.boot.load.isSome = true then finish s ref 0x0301 []
  else if rsvOk r [(36, 0, 1), (40, 0, 32)] = false ∨ 60000 < pb r 40 4 then finish s ref 0x0103 []
  else
    let s := accept s ref []
    { s with boot := { s.boot with load := some (ref, pbit r 36 0, r.dataLen.toNat, pb r 40 4) } }

/-- Bit of DEVMASK that names a device ID. -/
def deviceBit (d : BitVec 16) : Nat :=
  if d = 0x0560 then 0 else if d = 0x0561 then 1 else if d = 0x0562 then 2 else 3

/-- The bytes are all zero. -/
def zeroBytes (b : List Byte) (off n : Nat) : Bool := ((b.drop off).take n).all (· == 0)

/-- M of an image: the digest that is signed and measured. -/
def imageDigest (b : List Byte) : List Byte := Config.sha512 (b.take 96 ++ b.drop 256)

/-- Reason 1: a header field is wrong. -/
def headerWrong (b : List Byte) (len : Nat) : Bool :=
  let body := getLe b 4 4
  decide (b.length < 256) || decide (getLe b 0 4 ≠ 0x31574651) || decide (body = 0) || decide (16776960 < body)
    || decide (len ≠ 256 + body) || decide (b.length ≠ len) || decide (3 < getLe b 13 1) || decide (64 < getLe b 12 1)
    || decide (15 < getLe b 14 2) || !zeroBytes b 20 76 || !zeroBytes b 160 96

/-- Reason of the first failing check of R550, or 0. -/
def imageReason (s : State) (b : List Byte) (len : Nat) : Nat :=
  let key := getLe b 13 1
  if headerWrong b len then 1
  else if bits (getLe b 14 2) (deviceBit s.otp.device) 1 = 0 then 2
  else
    match s.otp.fwKeys.getD key none with
    | none => 3
    | some k =>
      if s.otp.revoked.getD key false then 3
      else if Config.ed25519Verify k (imageDigest b) ((b.drop 96).take 64) = false then 4
      else if getLe b 12 1 < s.otp.svn then 5
      else 0

/-- 0xA040 BRINGUP_FAILED: FWSTATE 3 until a reset. -/
def bringupFailed (s : State) (cause step good disabled : Nat) : State :=
  let s := { s with boot := { s.boot with fw := .failed }, monFault := s.monFault ||| 2 }
  raiseEv s 0xA040 3 noFrame [(28, 1, cause), (29, 1, step), (32, 4, good), (36, 2, disabled)]

/-- Variant fuses agree with the table of R3 and with the memory wafer that is there (R556). -/
def variantOk (s : State) : Bool :=
  [0x0560, 0x0561, 0x0562, 0x0480].contains s.otp.device && (s.otp.memoryWafer == !noVaults s)

/-! ### The floor plan (R557 to R559) -/

/-- Set bits of a good-core map's complement. -/
def badCount (b : BitVec 64) : Nat := ((List.range 64).filter fun i => b.getLsbD i).length

/-- Clusters of the variant. -/
def allCls (s : State) : List Nat := (List.range 3584).filter fun cl => !fusedCl s cl

/-- Good cores. -/
def goodCount (s : State) : Nat :=
  (allCls s).length * 64 - s.floor.clusters.foldl (fun a q => if fusedCl s q.1 then a else a + if q.2.disabled then 64 else badCount q.2.bad) 0

/-- Good cores fenced in service. -/
def fencedCount (s : State) : Nat := (s.cores.filter fun q => q.2.mode == .fenced && goodCore s q.1).length

/-- The figure of R3. -/
def guaranteed (s : State) : Nat := if s.otp.device = 0x0480 then 191000 else 223000

/-- Seams of the variant. -/
def seamOk (s : State) (n : Nat) : Bool := s.otp.device != 0x0480 || !(decide (42 ≤ n ∧ n ≤ 48) || decide (89 ≤ n))

/-- Dead splice links of a seam, plane 0 and plane 1. -/
def seamDead (s : State) (n : Nat) : Byte × Byte := smapGet (0, 0) s.floor.dead n

/-- Seams that run in splice mode once routes are installed: those without a dead link (R310). -/
def spliceSeams (s : State) : List Nat := (List.range 97).filter fun n => seamOk s n && seamDead s n == (0, 0)

/-- Dead links in all. -/
def deadCount (l : SMap (Byte × Byte)) : Nat :=
  l.foldl (fun a q => a + badCount (q.2.1.setWidth 64) + badCount (q.2.2.setWidth 64)) 0

/-- Adds a bad core to the map of its cluster. -/
def addBad (m : SMap FpCluster) (k : Nat) : SMap FpCluster :=
  let c := smapGet ⟨0, false⟩ m (clOf k)
  smapSet ⟨0, false⟩ m (clOf k) { c with bad := c.bad ||| (1 <<< coreIdx k) }

/-- Adds dead links of a seam. -/
def addDead (m : SMap (Byte × Byte)) (q : Nat × Byte × Byte) : SMap (Byte × Byte) :=
  let d := smapGet (0, 0) m q.1
  smapSet (0, 0) m q.1 (d.1 ||| q.2.1, d.2 ||| q.2.2)

/-- One dead link of the factory's defect map. -/
def factoryLink (q : Nat × Nat) : Nat × Byte × Byte := (q.1, if q.2 < 8 then (1 <<< q.2, 0) else (0, 1 <<< (q.2 - 8)))

/-- The factory's part of the floor plan. -/
def factoryPlan (s : State) : FloorPlan :=
  { s.floor with
    clusters := s.otp.defectCores.foldl addBad []
    dead := (s.otp.defectLinks.map factoryLink).foldl addDead []
    offline := []
    badPorts := s.otp.defectPorts }

/-- The floor plan that BIST leaves. A cluster with fewer than 56 good cores is disabled, and its cores are bad. -/
def bistPlan (s : State) (b : BistResult) : FloorPlan :=
  let f := factoryPlan s
  let cls := (b.badCores.map coreKey).foldl addBad f.clusters
  { f with
    built := true
    clusters := cls.map fun q => if 8 < badCount q.2.bad then (q.1, ⟨BitVec.allOnes 64, true⟩) else q
    dead := (b.deadLinks.map fun q => (q.1.val, q.2)).foldl addDead f.dead
    offline := if noVaults s then [] else (b.badVaults.map clKey).eraseDups
    badPorts := (f.badPorts ++ b.badPorts.map (·.val)).eraseDups }

/-- 0xA020 for what BIST found beyond the factory's defects. -/
def bistEvent (s : State) (b : BistResult) : State :=
  let f := factoryPlan s
  let cores := ((b.badCores.map coreKey).eraseDups.filter fun k => !s.otp.defectCores.contains k).length
  let links := deadCount s.floor.dead - deadCount f.dead
  let ports := (s.floor.badPorts.filter fun e => !f.badPorts.contains e).length
  if cores = 0 ∧ links = 0 ∧ ports = 0 ∧ s.floor.offline = [] then s
  else raiseEv s 0xA020 1 noFrame
    [(28, 4, cores), (32, 2, (disabledCls s).length), (34, 2, links), (36, 2, s.floor.offline.length), (38, 1, ports)]

/-- Bad cores are FENCED (R197). -/
def fenceBad (s : State) : State :=
  s.floor.clusters.foldl (fun s q => (coresOf q.1).foldl (fun s k =>
    if goodCore s k then s else setCore s k { getCore s k with mode := .fenced }) s) s

/-- Vaults start: contents are whatever the vault test left, and those that failed are OFFLINE. -/
def startVaults (s : State) : State :=
  if noVaults s then s
  else (allCls s).foldl (fun s cl =>
    let v := (getCl s cl).vault
    setVault s cl { v with
      mode := if v.mode = .absent then .active else v.mode
      offline := s.floor.offline.contains cl }) s

/-! ### MODULE_READY (R454, R547, R555) -/

/-- The ports, seams and routes as the floor plan has them. -/
def startMesh (s : State) : State :=
  (frames s).foldl settleSource { s with splice := spliceSeams s, routeDark := disabledCls s }

/-- A slate after a warm reset (R454): HELD with unfinished work, else OPEN or FROZEN as it was. -/
def restoreSlate (s : State) (n : Nat) : State :=
  let v := getSlate s n
  let work := !(unfinishedOf s n).isEmpty
  let s := if v.mode = .running ∧ work = false then setSlate s n { v with mode := .opened } else s
  if work ∧ (v.mode = .opened ∨ v.mode = .running ∨ v.mode = .held) then
    let s := setSlate s n { v with mode := .held, faultHeld := true }
    let s := raiseEv s 0x7001 1 ⟨none, some n, none⟩
      [(28, 4, lowestCseq s n), (32, 4, (unfinishedOf s n).length), (36, 1, 2)]
    autoReplay s n
  else s

/-- MODULE_READY: 0xA001, and the restorations of R454. How long start-up took is not given. -/
def moduleReady (s : State) (path : Nat) : State :=
  let ms : BitVec 32 := Config.freeValue s.freeCtr
  let uni := ((List.range 97).filter fun n => seamOk s n && !s.splice.contains n).length
  let s := { s with
    freeCtr := s.freeCtr + 1
    boot := { s.boot with fw := .running, step := 10, ready := true, waferUp := true } }
  let s := raiseEv s 0xA001 0 noFrame
    [(28, 1, path), (32, 4, ms.toNat), (36, 4, goodCount s), (40, 2, (disabledCls s).length), (42, 2, uni)]
  (s.slates.map (·.1)).foldl restoreSlate s

/-- BIST has ended: the floor plan is built, and the module is ready unless a guarantee of R558 is unmet. -/
def bistEnd (s : State) (b : BistResult) : State :=
  let s := bistEvent { s with floor := bistPlan s b } b
  let good := goodCount s
  let off := (disabledCls s).length
  if 24 < off ∨ good - fencedCount s < guaranteed s then bringupFailed { s with boot := { s.boot with step := 9 } } 2 9 good off
  else moduleReady (startMesh (startVaults (fenceBad s))) 1

/-- The fast path has ended: vaults leave self-refresh, seams and routes are as the floor plan gives them. -/
def fastEnd (s : State) : State := moduleReady (startMesh ((allCls s).foldl vaultWake s)) 2

/-- The firmware finds what it has to start (R494, R547, R548, R555): a wafer that runs on, one with a floor plan, one
whose start-up a warm reset began again, or a cold one. -/
def startPath (s : State) (cold : Bool) : State :=
  if s.boot.waferUp then
    { s with boot := { s.boot with fw := .running, step := 10, ready := true } }
  else if s.floor.built then powerFrames { s with boot := { s.boot with fast := true, step := 6 } }
  else if cold then
    if variantOk s then
      let s := extendMeas { s with clock := { s.clock with refrec := false, port := 0 } } 2 (Config.fuseDigest s.otp.svn)
      if s.boot.calWait = 0 then powerFrames s else { s with boot := { s.boot with step := 5 } }
    else bringupFailed { s with boot := { s.boot with step := 4 } } 1 4 (goodCount s) (disabledCls s).length
  else powerFrames { s with boot := { s.boot with step := 6 } }

/-- A DOE exchange in progress on a port is aborted: a negotiation or a key exchange that has begun and not ended is forgotten, and host
software starts it again (R406, log entry 25). -/
def doeAbort (s : State) (p : HostPort) : State :=
  let h := getHost s p
  let v := h.spdm
  if v.phase = 1 ∨ v.phase = 2 then
    setHost s p { h with spdm := { Spdm.none with nonceCtr := v.nonceCtr, ideKeys := v.ideKeys, ideOn := v.ideOn } }
  else if v.phase = 4 then setHost s p { h with spdm := { v with phase := 3, session := 0, measMsgs := [] } }
  else s

/-- The firmware starts (R552 step 4). -/
def startFirmware (s : State) : State :=
  let s := doeAbort (doeAbort s .A) .B
  let cause := s.boot.resetCause
  let svn := s.boot.svnBumped
  let s := endSession (endSession s .A 4) .B 4
  let s := timeRestart { s with
    heartbeat := 0
    boot := { s.boot with fw := .loading, step := 4, resetCause := none, svnBumped := none } }
  let s := match svn with
    | some q => raiseEv s 0xA003 1 noFrame [(28, 1, q.1), (29, 1, q.2)]
    | none => s
  let s := match cause with
    | some q => raiseEv s 0xB041 1 noFrame [(28, 1, min 2 q.1), (32, 4, q.2)]
    | none => s
  startPath s (match cause with | some q => q.1 != 2 | none => true)

/-- Every check has passed: the steps of R552. -/
def handover (s : State) (ref : CmdRef) (commit : Bool) (calWait : Nat) (b : List Byte) : State :=
  let svn := getLe b 12 1
  let old := s.otp.svn
  let bump := commit && decide (old < svn)
  let s := if bump then { s with otp := { s.otp with svn := svn } } else s
  let s := extendMeas s 1 (imageDigest b)
  let s := finish s ref 0 [(24, 4, getLe b 8 4), (28, 1, s.otp.svn)]
  startFirmware { s with boot := { s.boot with
    load := none, calWait := calWait, fwver := BitVec.ofNat 32 (getLe b 8 4), svnBumped := if bump then some (old, svn) else none
    ifLo := (getLe b 17 1, getLe b 16 1), ifHi := (getLe b 19 1, getLe b 18 1) } }

/-- The image has been read over its port: it is checked, and the firmware starts or the boot ROM goes on serving. -/
def imageRead (s : State) (p : HostPort) (b : List Byte) : State :=
  match s.boot.load with
  | none => s
  | some (ref, commit, len, calWait) =>
    if ref.port ≠ p ∨ s.boot.fw ≠ .rom then s
    else
      match imageReason s b len with
      | 0 => handover s ref commit calWait b
      | reason => finish { s with boot := { s.boot with load := none } } ref 0x0103 [(24, 1, reason)]

/-- Step 5 of R547 ends. -/
def calWaitEnd (s : State) : State :=
  if s.boot.fw = .loading ∧ s.boot.step = 5 then powerFrames s else s

/-! ### CAL_LOAD (R561, R562) -/

/-- Towards zero to a multiple of a step, then clamped. -/
def calRound (v : Int) (step limit : Nat) : Int := max (-(limit : Int)) (min (limit : Int) (v.tdiv step * step))

/-- A lane's VALUE with each of its fields clamped. -/
def calLane (v : Nat) : Nat :=
  (List.range 3).foldl (fun a i => a + codeOf 8 (calRound (signedOf 8 (bits v (8 * i) 8)) 1 8) * 2 ^ (8 * i)) 0

/-- TYPE, INDEX and VALUE of entry `i`. -/
def calEntry (b : List Byte) (i : Nat) : Nat × Nat × Nat := (getLe b (8 * i) 1, getLe b (8 * i + 2) 2, getLe b (8 * i + 4) 4)

/-- An entry is listed and in range. -/
def calEntryOk (s : State) (b : List Byte) (i : Nat) : Bool :=
  let e := calEntry b i
  let x := e.2.1
  decide (getLe b (8 * i + 1) 1 = 0)
    && (match e.1 with
      | 1 => frameOk s x
      | 2 => (decide (x < 3584) && !fusedCl s x) || (decide (4096 ≤ x) && decide (x < 4096 + 3584) && !noVaults s)
      | 3 => decide (x < 960) && !removedPort s (x / 8) && decide (bits e.2.2 24 8 = 0)
      | _ => false)

/-- What an entry's VALUE becomes: 32 bits. -/
def calValue (e : Nat × Nat × Nat) : Nat :=
  match e.1 with
  | 1 => codeOf 32 (calRound (signedOf 32 e.2.2) 5 25)
  | 2 => codeOf 32 (calRound (signedOf 32 e.2.2) 25 200)
  | _ => calLane e.2.2

/-- An entry takes its place among the overlays. -/
def calApply (s : State) (e : Nat × Nat × Nat) : State :=
  let v := calValue e
  let t := s.boot
  match e.1 with
  | 1 => { s with boot := { t with overlayV := smapSet 0 t.overlayV e.2.1 (signedOf 32 v) } }
  | 2 => { s with boot := { t with overlayS := smapSet 0 t.overlayS e.2.1 (signedOf 32 v) } }
  | _ => { s with boot := { t with overlayL := smapSet 0 t.overlayL e.2.1 (BitVec.ofNat 24 v) } }

/-- CAL_LOAD's own work. -/
def calBody (r : CmdRec) (ref : CmdRef) (s : State) : State :=
  let b := bufBytes r
  let n := b.length / 8
  let es := (List.range n).map (calEntry b)
  if rsvOk r [(36, 0, 1)] = false ∨ b.length % 8 ≠ 0 ∨ n = 0 ∨ 8192 < n ∨ (List.range n).all (calEntryOk s b) = false then
    finish s ref 0x0103 []
  else
    let changed := (es.filter fun e => decide (calValue e ≠ e.2.2)).length
    let s := if pbit r 36 0 then { s with boot := { s.boot with overlayV := [], overlayS := [], overlayL := [] } } else s
    let s := extendMeas (es.foldl calApply s) 3 (Config.sha512 b)
    let s := finish s ref 0 [(24, 4, n), (28, 4, changed)]
    calWaitEnd (raiseEv s 0xA002 0 noFrame [(28, 4, n), (32, 4, changed), (36, 1, bitAt (pbit r 36 0) 0)])

/-! ### FLOORPLAN_READ (R559) -/

/-- State of a cluster in the image. -/
def fpStateNo (s : State) (cl : Nat) : Nat :=
  if fusedCl s cl then 1 else if (fpCl s cl).disabled then 2
  else if (getCl s cl).dark = .gated then 3 else if (getCl s cl).dark = .tripped then 4 else 0

/-- Vault of a cluster in the image. -/
def fpVaultNo (s : State) (cl : Nat) : Nat :=
  if noVaults s || fusedCl s cl then 0 else if (getCl s cl).vault.offline then 2 else 1

/-- Dead splice links that leave a cluster N and E on a plane. -/
def fpLinks (s : State) (cl pl : Nat) : Nat :=
  let x := cl % 64
  let y := cl / 64
  let dead (sm i : Nat) : Bool := if pl = 0 then (seamDead s sm).1.getLsbD i else (seamDead s sm).2.getLsbD i
  bitAt (y % 8 == 7 && decide (y < 55) && dead (49 + y / 8 * 8 + x / 8) (x % 8)) 0
    + bitAt (x % 8 == 7 && decide (x < 63) && dead (y / 8 * 7 + x / 8) (y % 8)) 1

/-- One cluster entry. -/
def fpClusterEntry (s : State) (cl : Nat) : List Byte :=
  let ks := coresOf cl
  let good := (List.range 64).foldl (fun a i => a + bitAt (goodCore s (ks.getD i 0)) i) 0
  let fenced := (List.range 64).foldl (fun a i =>
    a + bitAt ((getCore s (ks.getD i 0)).mode == .fenced && (getCore s (ks.getD i 0)).fencedInService) i) 0
  record 24 [(0, 8, good), (8, 8, fenced), (16, 1, fpStateNo s cl), (17, 1, fpVaultNo s cl),
    (18, 1, fpLinks s cl 0 + fpLinks s cl 1 * 2 ^ 4)]

/-- One port entry. -/
def fpPortEntry (s : State) (e : Nat) : List Byte :=
  record 4 [(0, 1, if removedPort s e then 0 else if s.floor.badPorts.contains e then 2 else 1)]

/-- One seam entry. -/
def fpSeamEntry (s : State) (n : Nat) : List Byte :=
  record 4 [(0, 1, if s.splice.contains n then 1 else 0), (1, 1, (seamDead s n).1.toNat), (2, 1, (seamDead s n).2.toNat)]

/-- The floor plan's image. -/
def fpImage (s : State) : List Byte :=
  let fused := 3584 - (allCls s).length
  let off := (disabledCls s).length
  record 64
    [(0, 4, 0x31504C46), (4, 2, s.otp.device.toNat), (8, 4, goodCount s), (12, 2, 3584 - fused - off), (14, 2, off), (16, 2, fused),
     (18, 2, deadCount s.floor.dead), (20, 2, s.floor.offline.length), (24, 4, s.floor.generation.toNat),
     (32, 8, s.floor.changed.toNat)]
    ++ (List.range 3584).flatMap (fpClusterEntry s) ++ (List.range 120).flatMap (fpPortEntry s) ++ (List.range 97).flatMap (fpSeamEntry s)

/-- FLOORPLAN_READ's own work. -/
def floorplanBody (p : HostPort) (r : CmdRec) (ref : CmdRef) (s : State) : State :=
  if rsvOk r [(40, 0, 64), (48, 0, 32)] = false ∨ pb r 48 4 < 86948 ∨ pb r 40 8 = 0 then finish s ref 0x0103 []
  else finish (hostWrite s p (pb r 40 8) (fpImage s)) ref 0 []

/-! ### DEBUG_UNLOCK (R565) -/

/-- Exactly `n` bytes of an opaque function's answer. -/
def exactly (n : Nat) (b : List Byte) : List Byte := (b ++ List.replicate n 0).take n

/-- Phase 0: a nonce is drawn. Any phase that is not listed is refused here. -/
def debugNonce (r : CmdRec) (ref : CmdRef) (s : State) : State :=
  if rsvOk r [(36, 0, 8)] = false ∨ pb r 36 1 ≠ 0 then finish s ref 0x0103 []
  else
    let n := exactly 32 (Config.nonce s.freeCtr)
    finish { s with freeCtr := s.freeCtr + 1, boot := { s.boot with nonce := some (n, now s) } } ref 0
      [(24, 32, leNat n), (56, 8, s.otp.serial.toNat)]

/-- The grant record: nonce, serial, SCOPE. -/
def grantRecord (s : State) (nonce : List Byte) (scope : Nat) : List Byte :=
  nonce ++ leBytes 8 s.otp.serial.toNat ++ leBytes 1 scope

/-- The request of phase 1 holds. -/
def grantOk (s : State) (r : CmdRec) (n : List Byte × Nat) : Bool :=
  let scope := pb r 37 1
  rsvOk r [(36, 0, 8), (37, 0, 3)] && decide (now s ≤ n.2 + 60000000000)
    && (match s.otp.debugKey with
      | some k => Config.ed25519Verify k (Config.sha512 (grantRecord s n.1 scope)) ((bufBytes r).take 64)
      | none => false)

/-- Phase 1: a grant. The nonce serves once. -/
def debugGrant (p : HostPort) (r : CmdRec) (ref : CmdRef) (s : State) : State :=
  match s.boot.nonce with
  | none => finish s ref 0x0103 []
  | some n =>
    let ok := grantOk s r n
    let s := { s with boot := { s.boot with nonce := none } }
    if ok then
      let scope := pb r 37 1
      let s := extendMeas s 4 (Config.sha512 (grantRecord s n.1 scope))
      let s := { s with boot := { s.boot with scopes := s.boot.scopes ||| BitVec.ofNat 3 scope } }
      let s := raiseEv s 0xA030 1 noFrame [(28, 1, scope), (29, 1, s.boot.scopes.toNat), (30, 1, portNo p)]
      finish s ref 0 []
    else finish s ref 0x0103 []

end Sys2Proof.Machine
end

