-- ==== Sys2Proof/Machine/Boot.lean ====
section
/-! DEFINITION. The rows of start-up, firmware, calibration and debug unlock (R547 to R570). -/

namespace Sys2Proof.Machine

open Sys2Proof

/-- FW_LOAD (R550, R551). -/
def execFwLoad (p : HostPort) (r : CmdRec) (s : State) : Host.Outcome State Fault Refusal :=
  .next (mailbox ⟨0x0100, (2, 0), false, false, 0⟩ p r (fwLoadBody r) s)

/-- FW_HANDOVER: the image has been read over the port (R550, R552). -/
def execFwHandover (p : HostPort) (image : List Byte) (s : State) : Host.Outcome State Fault Refusal :=
  .next (imageRead s p image)

/-- CAL_LOAD (R561). -/
def execCalLoad (p : HostPort) (r : CmdRec) (s : State) : Host.Outcome State Fault Refusal :=
  .next (mailbox (moduleSpec 0x0101 8) p r (calBody r) s)

/-- FLOORPLAN_READ (R559). -/
def execFloorplanRead (p : HostPort) (r : CmdRec) (s : State) : Host.Outcome State Fault Refusal :=
  .next (mailbox ⟨0x0102, (2, 0), false, false, 0⟩ p r (floorplanBody p r) s)

/-- CAL_WAIT_EXPIRY (R547 step 5, R550). -/
def execCalWaitExpiry (s : State) : Host.Outcome State Fault Refusal := .next (calWaitEnd s)

/-- BIST_COMPLETE (R547 steps 8 to 10, R557, R558). -/
def execBistComplete (bist : BistResult) (s : State) : Host.Outcome State Fault Refusal :=
  .next (if s.boot.fw = .loading ∧ s.boot.step = 8 then bistEnd s bist else s)

/-- FAST_PATH_DONE (R454, R555). -/
def execFastPathDone (s : State) : Host.Outcome State Fault Refusal :=
  .next (if s.boot.fw = .loading ∧ s.boot.step = 7 then fastEnd s else s)

/-- INLET_EN_CLOSE: closed for 20 ms, the loop starts the ramp (R570). -/
def execInletEnClose (s : State) : Host.Outcome State Fault Refusal := .next { s with inletEn := true }

/-- INLET_EN_OPEN: the feed is disconnected, which is loss of power (R339, R570). -/
def execInletEnOpen (s : State) : Host.Outcome State Fault Refusal :=
  .next (powerLost { s with inletEn := false })

/-- HOT_SWAP_RAMP_DONE: step 2 of R547. -/
def execHotSwapRampDone (s : State) : Host.Outcome State Fault Refusal :=
  .next (if s.inletEn && !s.powered then { s with powered := true } else s)

/-- DEBUG_UNLOCK_NONCE: phase 0 (R565). -/
def execDebugUnlockNonce (p : HostPort) (r : CmdRec) (s : State) : Host.Outcome State Fault Refusal :=
  .next (if pb r 36 1 = 1 then s else mailbox (moduleSpec 0x0800 0) p r (debugNonce r) s)

/-- DEBUG_UNLOCK_GRANT: phase 1 (R565). -/
def execDebugUnlockGrant (p : HostPort) (r : CmdRec) (s : State) : Host.Outcome State Fault Refusal :=
  .next (if pb r 36 1 = 1 then mailbox (moduleSpec 0x0800 64) p r (debugGrant p r) s else s)

end Sys2Proof.Machine
end

