-- ==== Sys2Proof/Machine/Clock.lean ====
section
/-! DEFINITION. The reference: qualification, selection, loss, HOLD and its end (R497 to R517). -/

namespace Sys2Proof.Machine

open Sys2Proof

/-! ### Units (R502) -/

/-- The unit number of a source. -/
def sourceUnit (refrec : Bool) : Nat := if refrec then 2 ^ 20 else 2 ^ 20 + 1

/-- A cluster's units have power: it is neither fused nor faded, or an unfade has started it. -/
def unitPower (s : State) (cl : Nat) : Bool :=
  !fusedCl s cl && (decide ((getCl s cl).dark ≠ .gated) || s.works.fades.any fun w => !w.off && w.clusters.contains cl)

/-- The unit exists and counts its own cycles. -/
def unitCounts (s : State) (u : ClockUnit) : Bool :=
  s.powered && (smapGet none s.clock.units (unitKey u)).isNone
    && (match u with
      | .node k => unitPower s (clKey k)
      | .island k => unitPower s (clKey k)
      | .inject k => unitPower s (clKey k) && isBoundary s (clKey k)
      | .frame f => frameOk s (frKey f)
      | .refrec => true
      | .refloc => true)

/-- A unit's count has ended: `failed` tells how. -/
def unitEnd (s : State) (u : Nat) (failed : Bool) : State :=
  { s with clock := { s.clock with units := smapSet none s.clock.units u (some failed) } }

/-- A unit starts its count again. -/
def unitRestart (s : State) (u : Nat) : State :=
  { s with clock := { s.clock with units := smapSet none s.clock.units u none } }

/-! ### Selection (R505, R510, R516) -/

/-- Number of a source. -/
def sourceNo (refrec : Bool) : Nat := bitAt refrec 0

/-- The new source is engaged: the selection changes and 0x8003 is raised. In HOLD it is the way out, and a return of the
lost source counts no more. -/
def selectSource (s : State) (w : ClockSelect CmdRef) : State :=
  let old := s.clock
  let port := if w.refrec then w.port else 0
  let way : WayOut := if w.cmd.isSome then .command else .policy
  let s := { s with clock := { old with
    refrec := w.refrec, port := port, qualifying := false
    engaged := if old.hold then some way else none } }
  let s := raiseEv s 0x8003 0 noFrame
    [(28, 1, sourceNo w.refrec), (29, 1, port), (30, 1, sourceNo old.refrec), (31, 1, old.port), (32, 1, if w.cmd.isSome then 0 else 1)]
  match w.cmd with
  | some ref => finish s ref 0 [(24, 1, sourceNo old.refrec), (25, 1, old.port)]
  | none => s

/-- Selections whose source has qualified are made, the oldest first. -/
def selectReady (s : State) : State :=
  s.works.clock.foldl (fun s w =>
    if s.works.clock.head? = some w ∧ unitOk s (sourceUnit w.refrec) = true then
      selectSource { s with works := { s.works with clock := s.works.clock.tail } } w
    else s) s

/-- A selection begins: the source counts its cycles unless it has qualified already. -/
def selectBegin (s : State) (w : ClockSelect CmdRef) : State :=
  let keep := unitOk s (sourceUnit w.refrec) && (!w.refrec || (s.clock.refrec && decide (s.clock.port = w.port)))
  let s := if keep then s else unitRestart s (sourceUnit w.refrec)
  selectReady { s with works := { s.works with clock := s.works.clock ++ [w] } }

/-- CLOCK_SOURCE_SELECT's own work. In HOLD every link is down (R509), and the test of the link is left out, as R512's
selection of REFREC in HOLD needs. -/
def clockSelectBody (r : CmdRec) (ref : CmdRef) (s : State) : State :=
  let src := pb r 36 1
  let port := pb r 37 1
  let bad := decide (src = 1) && (decide (119 < port) || removedPort s port
    || (!s.clock.hold && decide ((getPort s port).link ≠ .up)))
  if rsvOk r [(36, 0, 8), (37, 0, 8)] = false ∨ 1 < src ∨ bad = true then finish s ref 0x0103 []
  else selectBegin (accept s ref []) ⟨decide (src = 1), port, some ref⟩

/-- CLOCK_SOURCE_SELECT (R505). -/
def execClockSourceSelect (p : HostPort) (r : CmdRec) (s : State) : Host.Outcome State Fault Refusal :=
  .next (mailbox ⟨0x0701, (3, 1), false, true, 0⟩ p r (clockSelectBody r) s)

/-- CLOCK_SELECT_TIMEOUT: the oldest selection's source has not qualified within 10 ms (R505). -/
def execClockSelectTimeout (s : State) : Host.Outcome State Fault Refusal :=
  .next (match s.works.clock with
    | [] => s
    | w :: rest =>
      let s := { s with works := { s.works with clock := rest } }
      let s := match w.cmd with | some ref => finish s ref 0x0601 [] | none => s
      selectReady s)

/-! ### Loss and HOLD (R507 to R509) -/

/-- Sideband outputs take their inactive level; a hold-out pin is asserted (R508). -/
def pinsHold (s : State) (on : Bool) : State :=
  { s with pins := s.pins.map fun q =>
      if q.2.func = 6 then (q.1, { q.2 with level := on })
      else if q.2.func = 1 ∨ q.2.func = 3 ∨ q.2.func = 7 then (q.1, { q.2 with level := false })
      else q }

/-- The selected source has to qualify again. -/
def sourceGone (s : State) : State :=
  let c := s.clock
  let s := unitRestart s (sourceUnit c.refrec)
  { s with clock := { s.clock with
    engaged := none, qualifying := false
    reflocOk := s.clock.reflocOk && c.refrec } }

/-- An enabled port counts as having lost PCS lock (R509). -/
def portHold (s : State) (e : Nat) : State :=
  let p := getPort s e
  if p.enable then
    let s := setPort s e { p with pcs := false }
    linkDown s e 1
  else s

/-- CLOCK_FALLBACK selects REFLOC, unless the lost source is REFLOC or it has failed (R510, R512). -/
def clockFallback (s : State) : State :=
  if (getPolicy s 5).armed && s.clock.refrec && !s.clock.reflocFailed then selectBegin s ⟨false, 0, none⟩ else s

/-- Entry to HOLD, with REF_LOST's cause. -/
def enterHold (s : State) (cause : Nat) : State :=
  let c := s.clock
  let s := sourceGone s
  let s := pinsHold { s with clock := { s.clock with
    hold := true, locked := false, holdover := true, holds := satAdd 0xFFFFFFFF c.holds 1, holdSince := now s } } true
  let s := raiseEv s 0x8001 2 noFrame
    [(28, 1, sourceNo c.refrec), (29, 1, c.port), (30, 1, cause), (31, 1, bitAt (getPolicy s 5).armed 0)]
  let s := (s.ports.map (·.1)).foldl portHold s
  clockFallback s

/-- Loss of the selected source: entry to HOLD, or in HOLD a further loss. -/
def loseSource (s : State) (cause : Nat) : State := if s.clock.hold then sourceGone s else enterHold s cause

/-- Code of a cause, and whether it can be: CDR lock and link concern REFREC alone. -/
def refCauseNo : RefCause → Nat
  | .edges => 1
  | .cdr => 2
  | .link => 3

/-- The cause holds for the selected source. -/
def refCauseOk (s : State) : RefCause → Bool
  | .edges => true
  | .cdr => s.clock.refrec
  | .link => s.clock.refrec && !s.clock.hold && decide ((getPort s s.clock.port).link ≠ .up)

/-- REF_LOST (R507, R508). -/
def execRefLost (cause : RefCause) (s : State) : Host.Outcome State Fault Refusal :=
  .next (if s.powered && refCauseOk s cause then loseSource s (refCauseNo cause) else s)

/-- REFLOC_FAILED (R512). -/
def execReflocFailed (s : State) : Host.Outcome State Fault Refusal :=
  .next (if s.powered then
      let sel := !s.clock.refrec
      let s := unitRestart { s with clock := { s.clock with reflocOk := false, reflocFailed := true } } (sourceUnit false)
      let s := raiseEv s 0x8005 2 noFrame [(28, 1, bitAt sel 0)]
      if sel then loseSource s 1 else s
    else s)

/-! ### Qualification (R502, R510) -/

/-- A source has qualified: selections that wait for it are made, and in HOLD a return engages it. -/
def sourceQualified (s : State) (refrec : Bool) : State :=
  let s := if refrec then s else { s with clock := { s.clock with reflocOk := true, reflocFailed := false } }
  let s := if s.clock.hold && s.clock.qualifying && s.clock.refrec == refrec then
      { s with clock := { s.clock with qualifying := false, engaged := some .back } }
    else s
  selectReady s

/-- OSC_QUALIFIED (R502): the unit's outputs ungate. -/
def execOscQualified (u : ClockUnit) (s : State) : Host.Outcome State Fault Refusal :=
  .next (if unitCounts s u then
      let s := unitEnd s (unitKey u) false
      match u with
      | .refrec => sourceQualified s true
      | .refloc => sourceQualified s false
      | _ => s
    else s)

/-- Cluster and unit number of 0x8004: a frame synthesizer is named by its source's cluster (log entry 100). The spec gives none for the
two references. -/
def unitNo (s : State) : ClockUnit → Nat × Nat
  | .node k => (targetOfCl (clKey k), 0)
  | .island k => (targetOfCl (clKey k), 1)
  | .frame f => (targetOfCl ((getFrame s (frKey f)).source.getD (f.fy.val * 8 * 64 + f.fx.val * 8)), 2)
  | .inject k => (targetOfCl (clKey k), 3)
  | _ =>
    let a : BitVec 16 := Config.freeValue s.freeCtr
    let b : BitVec 8 := Config.freeValue (s.freeCtr + 1)
    (a.toNat, b.toNat)

/-- OSC_NOT_STABLE (R502): the unit has failed, and 0x8004 is raised. Its count is not given. -/
def execOscNotStable (u : ClockUnit) (s : State) : Host.Outcome State Fault Refusal :=
  .next (if unitCounts s u then
      let n : BitVec 14 := Config.freeValue (s.freeCtr + 2)
      let q := unitNo s u
      let s := unitEnd { s with freeCtr := s.freeCtr + 3 } (unitKey u) true
      let s := raiseEv s 0x8004 2 noFrame [(28, 2, q.1), (30, 1, q.2), (32, 4, n.toNat)]
      match u with
      | .refrec => if s.clock.refrec then { s with clock := { s.clock with qualifying := false } } else s
      | .refloc => if s.clock.refrec then s else { s with clock := { s.clock with qualifying := false } }
      | _ => s
    else s)

/-- REF_RETURN: the lost source shows edges again, and qualifies, unless a command or the policy has selected a source
(R510). -/
def execRefReturn (s : State) : Host.Outcome State Fault Refusal :=
  .next (if s.clock.hold && s.clock.engaged.isNone && s.works.clock.isEmpty && !s.clock.qualifying then
      let s := unitRestart s (sourceUnit s.clock.refrec)
      { s with clock := { s.clock with qualifying := true } }
    else s)

/-! ### Lock (R511) -/

/-- Code of a way out of HOLD. -/
def wayNo : WayOut → Nat
  | .back => 1
  | .command => 2
  | .policy => 3

/-- HOLD ends: start orders, outputs and transmitters are released, then 0x8002. -/
def leaveHold (s : State) (way : WayOut) : State :=
  let c := s.clock
  let s := { s with clock := { c with hold := false, locked := true, holdover := false, engaged := none } }
  let s := (List.range 15).foldl pauseOut (pinsHold s false)
  raiseEv s 0x8002 1 noFrame
    [(28, 1, sourceNo c.refrec), (29, 1, c.port), (30, 1, wayNo way), (32, 8, now s - c.holdSince)]

/-- MESH_LOCK: every injection synthesizer has counted in range on a qualified source. -/
def execMeshLock (s : State) : Host.Outcome State Fault Refusal :=
  .next (match s.clock.hold, s.clock.engaged with
    | true, some way => leaveHold s way
    | true, none => s
    | false, _ => if unitOk s (sourceUnit s.clock.refrec) then { s with clock := { s.clock with locked := true } } else s)

end Sys2Proof.Machine
end

