-- ==== Sys2Proof/Machine/CueOps.lean ====
section
/-! DEFINITION. Fetch, the illegal instruction check, and the common course of a cue instruction (R172 to R178). -/

namespace Sys2Proof.Machine

open Sys2Proof

/-! ### Instruction fields (R174) -/

def fOpc (w : Nat) : Nat := bits w 26 6

def fD (w : Nat) : Nat := bits w 22 4

def fA (w : Nat) : Nat := bits w 18 4

def fB (w : Nat) : Nat := bits w 14 4

def fH (w : Nat) : Nat := bits w 12 6

def fCond (w : Nat) : Nat := bits w 12 6

def fT (w : Nat) : Nat := bits w 0 12

def fImm18 (w : Nat) : Nat := bits w 0 18

/-- IMM18 sign-extended to 32 bits. -/
def fSimm18 (w : Nat) : Word := BitVec.ofInt 32 (signedOf 18 (bits w 0 18))

/-- IMM12 sign-extended to 32 bits. -/
def fSimm12 (w : Nat) : Word := BitVec.ofInt 32 (signedOf 12 (bits w 0 12))

/-- Bits [25:0] that an opcode of R175 does not use, `none` when the opcode is unlisted. BR has its own check. -/
def rsvMask (opc : Nat) : Option Nat :=
  if opc = 0x00 ∨ opc = 0x3B ∨ opc = 0x3D then some 0x3FFFFFF
  else if 0x01 ≤ opc ∧ opc ≤ 0x0D then some 0x3FFF
  else if opc = 0x10 ∨ opc = 0x11 ∨ opc = 0x12 ∨ opc = 0x13 ∨ opc = 0x18 ∨ opc = 0x20 ∨ opc = 0x21 ∨ opc = 0x36
      ∨ opc = 0x38 then some 0
  else if 0x14 ≤ opc ∧ opc ≤ 0x16 then some 0x3FFE0
  else if opc = 0x17 ∨ opc = 0x1A ∨ opc = 0x25 ∨ opc = 0x26 ∨ opc = 0x28 then some 0x3C0000
  else if opc = 0x19 then some 0x23FFFF
  else if opc = 0x1B ∨ opc = 0x24 then some 0x3FFFF
  else if opc = 0x27 then some 0x3FF0000
  else if opc = 0x29 then some 0x3C30000
  else if 0x2C ≤ opc ∧ opc ≤ 0x2E then some 0x3C00000
  else if opc = 0x30 ∨ opc = 0x34 then some 0x3C3FFE
  else if opc = 0x31 ∨ opc = 0x33 then some 0x3F000
  else if opc = 0x32 then some 0x3C3FFF
  else if opc = 0x37 then some 0x3C03FFF
  else if opc = 0x39 then some 0x3FFF000
  else if opc = 0x3A then some 0x3FF000
  else if opc = 0x3C then some 0x3FFFC00
  else none

/-- BR: an unlisted test, or a reserved field that is not zero (R176). -/
def brIllegal (w : Nat) : Bool :=
  let t := bits w 12 4
  if 8 ≤ t then true
  else if 6 ≤ t then decide (bits w 16 10 ≠ 0)
  else (w.testBit 16 && w.testBit 25) || (w.testBit 17 && decide (bits w 18 4 ≠ 0))

/-- The violations of R177 that precede an instruction's effect. -/
def cueIllegal (c : Core) (w : Nat) : Bool :=
  let opc := fOpc w
  match rsvMask opc with
  | none => true
  | some m =>
    decide (w % 2 ^ 26 &&& m ≠ 0)
    || (opc == 0x38 && brIllegal w)
    || (opc == 0x1A && decide (fImm18 w % 4 ≠ 0))
    || (opc == 0x3C && decide (bits w 8 2 = 3))
    || (opc == 0x30 && !(edgeW1 c (fB w)).testBit 0)
    || (opc == 0x31 && !(edgeW1 c (fD w)).testBit 0)
    || (opc == 0x32 && !(queueW0 c (fB w)).testBit 0)
    || (opc == 0x33 && !(queueW0 c (fD w)).testBit 0)

/-- The word at the PC. -/
def cueWord (c : Core) : Nat := (ramWord c.istore c.pc.toNat).toNat

/-- Detail of 0x7020 to 0x7024 (R200). -/
def cueDetail (pc : Nat) (cause word off : Nat) : List (Nat × Nat × Nat) :=
  [(28, 2, pc), (30, 1, cause), (32, 4, word), (36, 4, off)]

/-- A cue violation (R177, R182, R186, R191). -/
def cueViolate (s : State) (k : Nat) (cause : Nat) (code word off : Nat) : State :=
  violate s k (BitVec.ofNat 8 cause) code (cueDetail (getCore s k).pc.toNat cause word off)

/-- An instruction store parity error (R172). -/
def istoreError (s : State) (k lanes word : Nat) : State :=
  let c := getCore s k
  let s := setCore s k (holdCore c 0x05)
  let s := coreEv s k 0x2010 2 [(28, 2, c.pc.toNat), (30, 1, lanes), (32, 4, word)]
  coreFault s k 0x2010

/-- Execution continues at address `t`; an address at or beyond PLEN is a violation (R177). -/
def goTo (s : State) (k word t : Nat) : State :=
  let c := getCore s k
  let s' := setCore s k { c with pc := BitVec.ofNat 12 t, wait := .none }
  if t < sheetPlen c then s'
  else violate s' k 0x11 0x7021 (cueDetail c.pc.toNat 0x11 word t)

/-- Execution continues with the next instruction. -/
def goNext (s : State) (k word : Nat) : State := goTo s k word ((getCore s k).pc.toNat + 1)

/-- The cue core may start the instruction at its PC. -/
def cueReady (c : Core) : Bool := decide (c.mode = .running) && decide (c.wait = .none)

/-- One cue instruction row: fetch, the checks of R172 and R177, and the action when the fetched word has the row's
opcode. A word of another listed opcode is not this row's step (log entry 1). -/
def cueStep (k opc : Nat) (act : State → Nat → State) (s : State) : State :=
  let c := getCore s k
  if cueReady c then
    let w := cueWord c
    let lanes := ramLanes c.istore c.pc.toNat
    if lanes ≠ 0 then istoreError s k lanes w
    else if cueIllegal c w then cueViolate s k 0x10 0x7020 w 0
    else if fOpc w = opc then act s w
    else s
  else s

/-- The action of an instruction that writes gd and goes on. -/
def actG (k : Nat) (f : Core → Nat → Word) (s : State) (w : Nat) : State :=
  let c := getCore s k
  goNext (setCore s k (setG c (fD w) (f c w))) k w

/-- An instruction of two g registers. -/
def actGG (k : Nat) (f : Word → Word → Word) (s : State) (w : Nat) : State :=
  actG k (fun c w => f (gReg c (fA w)) (gReg c (fB w))) s w

/-- An instruction of a g register and an immediate. -/
def actGI (k : Nat) (imm : Nat → Word) (f : Word → Word → Word) (s : State) (w : Nat) : State :=
  actG k (fun c w => f (gReg c (fA w)) (imm w)) s w

/-- IMM18 zero-extended. -/
def fZimm18 (w : Nat) : Word := BitVec.ofNat 32 (fImm18 w)

/-- Signed and unsigned comparisons as words. -/
def sltW (a b : Word) : Word := if a.slt b then 1 else 0

def sltuW (a b : Word) : Word := if a.ult b then 1 else 0

/-- Logical and arithmetic shifts by the low five bits. -/
def shlW (a b : Word) : Word := a <<< (b.toNat % 32)

def shrW (a b : Word) : Word := a >>> (b.toNat % 32)

def sraW (a b : Word) : Word := a.sshiftRight (b.toNat % 32)

def minW (a b : Word) : Word := if a.slt b then a else b

def maxW (a b : Word) : Word := if a.slt b then b else a

/-- The operation at the PC waits on the scoreboard (R213, R214). Each attempt that finds it blocked counts at least the one
cycle in STALLS; how many cycles lie between attempts is a free value (log entry 28). -/
def scoreWait (s : State) (k : Nat) : State :=
  let (i, s) := freshIdx s
  let c := getCore s k
  setCore s k { c with
    wait := .score
    sbStalls := satAdd 0xFFFFFF c.sbStalls (1 + (Config.freeValue i : BitVec 24).toNat) }

/-- A handle and range that LD, ST, SENDB or RECVB uses: the check of R210, then the scoreboard of R214, then the
action. -/
def withRange (s : State) (k h : Nat) (u : HUse) (p : HPerm) (off n : Nat) (act : State → State) : State :=
  let c := getCore s k
  match handleCheck s k c h u p (spanOf off n) with
  | some r => handleFault s k c.pc.toNat h r
  | none =>
    if sbConflict c [rngOf c h (spanOf off n) (decide (p = .w))] then scoreWait s k
    else act s

/-- LD (R175). -/
def actLd (k : Nat) (s : State) (w : Nat) : State :=
  let c := getCore s k
  let off := (gReg c (fA w) + fSimm12 w).toNat
  withRange s k (fH w) .ldst .r off 1 fun s =>
    match memRead s k (hEntry c (fH w)) off 1 true stopCue with
    | (s', .ok ws) => goNext (setCore s' k (setG (getCore s' k) (fD w) (ws.getD 0 0))) k w
    | (s', _) => s'

/-- ST (R175). -/
def actSt (k : Nat) (s : State) (w : Nat) : State :=
  let c := getCore s k
  let off := (gReg c (fA w) + fSimm12 w).toNat
  withRange s k (fH w) .ldst .w off 1 fun s =>
    goNext (memWrite s k (hEntry c (fH w)) off [gReg c (fD w)] true) k w

/-- Credits of an edge cover `n` words, or its sends are not checked (R186). -/
def creditOk (c : Core) (e n : Nat) : Bool :=
  !(edgeW1 c e).testBit 1 ||
  match boundCtr c 3 e with
  | some i => decide ((n : Int) ≤ ctrVal c i)
  | none => false

/-- Value of the counter that R186 finds short. -/
def creditVal (c : Core) (e : Nat) : Nat :=
  match boundCtr c 3 e with
  | some i => (c.c.toList.getD i 0).toNat
  | none => 0

/-- The header of a packet on an edge (R298, R299). -/
def edgeHdr (c : Core) (k typ e n : Nat) (endm : Bool) : BitVec 128 :=
  let w := edgeW0 c e
  mkHdr typ ⟨bits w 23 2, bits w 22 1, bits w 0 18, k, (sheetSlate c).getD 0, c.epoch.toNat⟩ n endm
    (bits w 18 4 + e * 16) 0

/-- Sends words on an edge as one packet, and takes its credits (R179, R185). -/
def sendPacket (s : State) (k e : Nat) (ws : List Word) (endm : Bool) : State :=
  let c := getCore s k
  let s := injectFrom s k (bits (edgeW0 c e) 22 1) 1 ⟨edgeHdr c k 0 e ws.length endm, ws, c.pc.toNat⟩
  putCore s k (bindAdd (getCore s k) 3 e (-(ws.length : Int)))

/-- SEND (R185, R186). -/
def actSend (k : Nat) (s : State) (w : Nat) : State :=
  let c := getCore s k
  let e := fB w
  if creditOk c e 1 then goNext (sendPacket s k e [gReg c (fD w)] (w.testBit 0)) k w
  else cueViolate s k 0x15 0x7022 w (creditVal c e)

/-- SENDB (R185, R186). -/
def actSendb (k : Nat) (s : State) (w : Nat) : State :=
  let c := getCore s k
  let e := fD w
  let n := edgeRate c e
  let h := bits (edgeW1 c e) 9 6
  let off := (gReg c (fA w) + fSimm12 w).toNat
  if creditOk c e n then
    withRange s k h .queue .r off n fun s =>
      match memRead s k (hEntry c h) off n false stopCue with
      | (s', .ok ws) => goNext (sendPacket s' k e ws true) k w
      | (s', _) => s'
  else cueViolate s k 0x15 0x7022 w (creditVal c e)

/-- A pop that finds a parity error (R242). -/
def popError (s : State) (k q idx lanes : Nat) : State :=
  let s := coreEv s k 0x2013 2 [(28, 1, q), (29, 1, lanes), (30, 2, idx)]
  let s := coreFault s k 0x2013
  setCore s k (stopCue (getCore s k))

/-- Pops `m` words of queue `n`, setting UR, and hands them to what follows (R185, R240). -/
def withPops (s : State) (k n m : Nat) (act : State → List Word → State) : State :=
  match popBad (getCore s k) n m with
  | some (i, l) => popError s k n i l
  | none =>
    let (s', ps) := popCycles s k n 32 m []
    act (setCore s' k { getCore s' k with ur := ps.any (·.empty) }) (ps.map (·.word))

/-- RECV (R185, R240). -/
def actRecv (k : Nat) (s : State) (w : Nat) : State :=
  withPops s k (fB w) 1 fun s ws => goNext (setCore s k (setG (getCore s k) (fD w) (ws.getD 0 0))) k w

/-- RECVB (R185, R240). -/
def actRecvb (k : Nat) (s : State) (w : Nat) : State :=
  let c := getCore s k
  let q := fD w
  let n := queueRate c q
  let h := bits (queueW0 c q) 10 6
  let off := (gReg c (fA w) + fSimm12 w).toNat
  withRange s k h .queue .w off n fun s =>
    withPops s k q n fun s ws => goNext (memWrite s k (hEntry c h) off ws false) k w

/-! ### Clappers (R188 to R191) -/

/-- Cluster and byte address of a clapper. -/
def clapCl (a : Nat) : Nat := bits a 16 6 * 64 + bits a 10 6

def clapWord (a : Nat) : Nat := cmWords + 2 * bits a 0 10

/-- W0 and W1 of a clapper. -/
def clapW0 (s : State) (a : Nat) : Nat := (ramWord (getCl s (clapCl a)).mem (clapWord a)).toNat

def clapW1 (s : State) (a : Nat) : Nat := (ramWord (getCl s (clapCl a)).mem (clapWord a + 1)).toNat

/-- First word of a clapper that fails its parity (R226). -/
def clapError (s : State) (a : Nat) : Option Nat := badWord (getCl s (clapCl a)).mem (clapWord a) 2

/-- A clapper address that R191 refuses. Words that fail their parity say nothing of the slate and the count. -/
def clapBad (s : State) (c : Core) (a : Nat) : Bool :=
  decide (bits a 22 10 ≠ 0) || !(regionOf s c).contains (clapCl a)
  || ((clapError s a).isNone
    && (decide (some (bits (clapW1 s a) 16 12) ≠ sheetSlate c) || decide (bits (clapW0 s a) 0 16 = 0)))

/-- ARRIVE (R189, R191). -/
def actArrive (k : Nat) (s : State) (w : Nat) : State :=
  let c := getCore s k
  let a := (gReg c (fA w) + fSimm18 w).toNat
  if clapBad s c a then cueViolate s k 0x16 0x7023 w a
  else
    let s := setCore s k { c with wait := .arrive, clap := a }
    injectFrom s k 0 1
      ⟨mkHdr 6 ⟨0, 0, lowCore (clapCl a), k, (sheetSlate c).getD 0, c.epoch.toNat⟩ 0 false a 0, [], c.pc.toNat⟩

/-- Requester index of a core's read of cluster memory: its own, or the router port's in another cluster (R224). -/
def reqIdx (k cl : Nat) : Nat := if cl = clOf k then coreIdx k else 64

/-- CLWAIT (R190, R191). A parity error stops the core as any read of cluster memory does (R226). -/
def actClwait (k : Nat) (s : State) (w : Nat) : State :=
  let c := getCore s k
  let a := (gReg c (fA w)).toNat
  if clapBad s c a then cueViolate s k 0x16 0x7023 w a
  else match clapError s a with
  | some b => cmError s k (clapCl a) b (ramLanes (getCl s (clapCl a)).mem b) (reqIdx k (clapCl a)) stopCue
  | none =>
  if bits (clapW1 s a) 0 16 ≠ (gReg c (fB w)).toNat then goNext s k w
  else setCore s k { c with wait := .clapper, clap := a }

/-! ### Waits and branches -/

/-- The condition of the CWAIT, CWAITI or CWAITT at a word. -/
def waitMet (c : Core) (w : Nat) : Bool :=
  if fOpc w = 0x28 then decide ((fSimm18 w).toInt ≤ ctrVal c (fD w)) else maskMet c (bits w 0 16)

/-- CWAIT and CWAITI (R179, R180). -/
def actWait (k : Nat) (s : State) (w : Nat) : State :=
  let c := getCore s k
  if waitMet c w then goNext s k w else setCore s k { c with wait := .counters }

/-- CWAITT: TO is cleared when the wait is satisfied; a deadline of zero tests once (R180). -/
def actWaitt (k : Nat) (s : State) (w : Nat) : State :=
  let c := getCore s k
  if waitMet c w then goNext (setCore s k { c with tmo := false }) k w
  else if gReg c (fA w) = 0 then goNext (setCore s k { c with tmo := true }) k w
  else setCore s k { c with wait := .timed }

/-- The condition of a BR (R176). -/
def brTaken (c : Core) (w : Nat) : Bool :=
  let x := if w.testBit 16 then sReg c (bits w 22 3) else gReg c (fD w)
  let y : Word := if w.testBit 17 then 0 else gReg c (fA w)
  match bits w 12 4 with
  | 0 => decide (x = y)
  | 1 => decide (x ≠ y)
  | 2 => x.slt y
  | 3 => !x.slt y
  | 4 => x.ult y
  | 5 => !x.ult y
  | 6 => c.tmo
  | _ => c.ur

/-- Every word this core has sent has left its send buffer (R184). -/
def sendsLeft (s : State) (k : Nat) : Bool := !s.mesh.any fun f => match f.inj with
    | some i => f.cl == clOf k && i / 4 == coreIdx k
    | none => false

/-- Every descriptor has completed. -/
def enginesIdle (c : Core) : Bool := c.mx.isEmpty && c.vx.isEmpty && c.dma.isEmpty

/-- No write-back of this core waits at a vault port. -/
def writeBacksDone (s : State) (k : Nat) : Bool :=
  let v := (getCl s (clOf k)).vault
  (v.queue ++ v.waiting ++ (v.locked.bind (·.req)).toList).all fun r => decide (r.user ≠ .cache k) || r.data.isNone

/-- RDCCB (R181). -/
def actRdccb (k : Nat) (s : State) (w : Nat) : State :=
  let c := getCore s k
  let (v, c') := readCoreReg c (fImm18 w)
  goNext (setCore s k (setG c' (fD w) v)) k w

/-- QSTAT (R175): reading QSTAT_n clears its RC fields. -/
def actQstat (k : Nat) (s : State) (w : Nat) : State :=
  let c := getCore s k
  let n := fB w
  if w.testBit 0 then goNext (setCore s k (setG c (fD w) (qcountVal c n))) k w
  else goNext (setCore s k (setG (qstatClear c n) (fD w) (qstatVal c n))) k w

/-- EVENT (R177, R200). -/
def actEvent (k : Nat) (s : State) (w : Nat) : State :=
  let c := getCore s k
  goNext (coreEv s k (0x1F00 + bits w 0 8) (bits w 8 2)
    ([(28, 2, c.pc.toNat), (30, 1, bits w 0 8)] ++ (List.range 8).map fun i => (32 + 4 * i, 4, (gReg c i).toNat))) k w

/-- A counter instruction. -/
def actCtr (k : Nat) (f : Core → Nat → Core) (s : State) (w : Nat) : State :=
  goNext (putCore s k (f (getCore s k) w)) k w

end Sys2Proof.Machine
end

