-- ==== Sys2Proof/Machine/CueAlu.lean ====
section
/-! DEFINITION. The scalar instructions of the cue core (R175). -/

namespace Sys2Proof.Machine

open Sys2Proof

/-- NOP: no effect but the next PC. -/
def execNop (c : CoreId) (s : State) : Host.Outcome State Fault Refusal :=
  .next (cueStep (coreKey c) 0x00 (fun s w => goNext s (coreKey c) w) s)

/-- ADD: gd := ga + gb modulo 2^32. -/
def execAdd (c : CoreId) (s : State) : Host.Outcome State Fault Refusal :=
  .next (cueStep (coreKey c) 0x01 (actGG (coreKey c) (· + ·)) s)

/-- SUB: gd := ga - gb modulo 2^32. -/
def execSub (c : CoreId) (s : State) : Host.Outcome State Fault Refusal :=
  .next (cueStep (coreKey c) 0x02 (actGG (coreKey c) (· - ·)) s)

/-- AND: gd := ga and gb. -/
def execAnd (c : CoreId) (s : State) : Host.Outcome State Fault Refusal :=
  .next (cueStep (coreKey c) 0x03 (actGG (coreKey c) (· &&& ·)) s)

/-- OR: gd := ga or gb. -/
def execOr (c : CoreId) (s : State) : Host.Outcome State Fault Refusal :=
  .next (cueStep (coreKey c) 0x04 (actGG (coreKey c) (· ||| ·)) s)

/-- XOR: gd := ga xor gb. -/
def execXor (c : CoreId) (s : State) : Host.Outcome State Fault Refusal :=
  .next (cueStep (coreKey c) 0x05 (actGG (coreKey c) (· ^^^ ·)) s)

/-- SHL: gd := ga shifted left by gb[4:0]. -/
def execShl (c : CoreId) (s : State) : Host.Outcome State Fault Refusal :=
  .next (cueStep (coreKey c) 0x06 (actGG (coreKey c) shlW) s)

/-- SHR: gd := ga shifted right by gb[4:0], logical. -/
def execShr (c : CoreId) (s : State) : Host.Outcome State Fault Refusal :=
  .next (cueStep (coreKey c) 0x07 (actGG (coreKey c) shrW) s)

/-- SRA: gd := ga shifted right by gb[4:0], arithmetic. -/
def execSra (c : CoreId) (s : State) : Host.Outcome State Fault Refusal :=
  .next (cueStep (coreKey c) 0x08 (actGG (coreKey c) sraW) s)

/-- MUL: gd := low 32 bits of ga * gb. -/
def execMul (c : CoreId) (s : State) : Host.Outcome State Fault Refusal :=
  .next (cueStep (coreKey c) 0x09 (actGG (coreKey c) (· * ·)) s)

/-- SLT: gd := ga < gb, signed. -/
def execSlt (c : CoreId) (s : State) : Host.Outcome State Fault Refusal :=
  .next (cueStep (coreKey c) 0x0A (actGG (coreKey c) sltW) s)

/-- SLTU: gd := ga < gb, unsigned. -/
def execSltu (c : CoreId) (s : State) : Host.Outcome State Fault Refusal :=
  .next (cueStep (coreKey c) 0x0B (actGG (coreKey c) sltuW) s)

/-- MIN: signed minimum. -/
def execMin (c : CoreId) (s : State) : Host.Outcome State Fault Refusal :=
  .next (cueStep (coreKey c) 0x0C (actGG (coreKey c) minW) s)

/-- MAX: signed maximum. -/
def execMax (c : CoreId) (s : State) : Host.Outcome State Fault Refusal :=
  .next (cueStep (coreKey c) 0x0D (actGG (coreKey c) maxW) s)

/-- ADDI: gd := ga + IMM18. -/
def execAddi (c : CoreId) (s : State) : Host.Outcome State Fault Refusal :=
  .next (cueStep (coreKey c) 0x10 (actGI (coreKey c) fSimm18 (· + ·)) s)

/-- ANDI: gd := ga and IMM18, zero-extended. -/
def execAndi (c : CoreId) (s : State) : Host.Outcome State Fault Refusal :=
  .next (cueStep (coreKey c) 0x11 (actGI (coreKey c) fZimm18 (· &&& ·)) s)

/-- ORI: gd := ga or IMM18, zero-extended. -/
def execOri (c : CoreId) (s : State) : Host.Outcome State Fault Refusal :=
  .next (cueStep (coreKey c) 0x12 (actGI (coreKey c) fZimm18 (· ||| ·)) s)

/-- XORI: gd := ga xor IMM18, zero-extended. -/
def execXori (c : CoreId) (s : State) : Host.Outcome State Fault Refusal :=
  .next (cueStep (coreKey c) 0x13 (actGI (coreKey c) fZimm18 (· ^^^ ·)) s)

/-- SHLI: gd := ga shifted left by IMM18[4:0]. -/
def execShli (c : CoreId) (s : State) : Host.Outcome State Fault Refusal :=
  .next (cueStep (coreKey c) 0x14 (actGI (coreKey c) fZimm18 shlW) s)

/-- SHRI: gd := ga shifted right by IMM18[4:0], logical. -/
def execShri (c : CoreId) (s : State) : Host.Outcome State Fault Refusal :=
  .next (cueStep (coreKey c) 0x15 (actGI (coreKey c) fZimm18 shrW) s)

/-- SRAI: gd := ga shifted right by IMM18[4:0], arithmetic. -/
def execSrai (c : CoreId) (s : State) : Host.Outcome State Fault Refusal :=
  .next (cueStep (coreKey c) 0x16 (actGI (coreKey c) fZimm18 sraW) s)

/-- SLTI: gd := ga < IMM18, signed. -/
def execSlti (c : CoreId) (s : State) : Host.Outcome State Fault Refusal :=
  .next (cueStep (coreKey c) 0x18 (actGI (coreKey c) fSimm18 sltW) s)

/-- LUI: gd := IMM18 << 14. -/
def execLui (c : CoreId) (s : State) : Host.Outcome State Fault Refusal :=
  .next (cueStep (coreKey c) 0x17 (actG (coreKey c) fun _ w => BitVec.ofNat 32 (fImm18 w * 2 ^ 14)) s)

/-- MOVS: gd := s_k. -/
def execMovs (c : CoreId) (s : State) : Host.Outcome State Fault Refusal :=
  .next (cueStep (coreKey c) 0x19 (actG (coreKey c) fun co w => sReg co (bits w 18 3)) s)

/-- RDCTR: gd := c_k. -/
def execRdctr (c : CoreId) (s : State) : Host.Outcome State Fault Refusal :=
  .next (cueStep (coreKey c) 0x1B (actG (coreKey c) fun co w => co.c.toList.getD (fA w) 0) s)

/-- RDCCB: gd := core control block register (R181). -/
def execRdccb (c : CoreId) (s : State) : Host.Outcome State Fault Refusal :=
  .next (cueStep (coreKey c) 0x1A (actRdccb (coreKey c)) s)

/-- QSTAT: gd := QSTAT_n or QCOUNT_n. -/
def execQstat (c : CoreId) (s : State) : Host.Outcome State Fault Refusal :=
  .next (cueStep (coreKey c) 0x34 (actQstat (coreKey c)) s)

/-- LD: gd := word of a handle (R209, R210, R214). -/
def execLd (c : CoreId) (s : State) : Host.Outcome State Fault Refusal :=
  .next (cueStep (coreKey c) 0x20 (actLd (coreKey c)) s)

/-- ST: word of a handle := gd. -/
def execSt (c : CoreId) (s : State) : Host.Outcome State Fault Refusal :=
  .next (cueStep (coreKey c) 0x21 (actSt (coreKey c)) s)

/-- CSET: c_k := ga. -/
def execCset (c : CoreId) (s : State) : Host.Outcome State Fault Refusal :=
  .next (cueStep (coreKey c) 0x24 (actCtr (coreKey c) fun co w => ctrSet co (fD w) (gReg co (fA w))) s)

/-- CSETI: c_k := IMM18. -/
def execCseti (c : CoreId) (s : State) : Host.Outcome State Fault Refusal :=
  .next (cueStep (coreKey c) 0x25 (actCtr (coreKey c) fun co w => ctrSet co (fD w) (fSimm18 w)) s)

/-- CADD: c_k := c_k + IMM18, saturating (R173). -/
def execCadd (c : CoreId) (s : State) : Host.Outcome State Fault Refusal :=
  .next (cueStep (coreKey c) 0x26 (actCtr (coreKey c) fun co w => ctrAdd co (fD w) (fSimm18 w).toInt) s)

/-- SEND: one word on an output edge (R185, R186). -/
def execSend (c : CoreId) (s : State) : Host.Outcome State Fault Refusal :=
  .next (cueStep (coreKey c) 0x30 (actSend (coreKey c)) s)

/-- SENDB: the edge's RATE words as one packet (R185, R186). -/
def execSendb (c : CoreId) (s : State) : Host.Outcome State Fault Refusal :=
  .next (cueStep (coreKey c) 0x31 (actSendb (coreKey c)) s)

/-- RECV: pops one word (R185, R240). -/
def execRecv (c : CoreId) (s : State) : Host.Outcome State Fault Refusal :=
  .next (cueStep (coreKey c) 0x32 (actRecv (coreKey c)) s)

/-- RECVB: pops the queue's RATE words (R185, R240). -/
def execRecvb (c : CoreId) (s : State) : Host.Outcome State Fault Refusal :=
  .next (cueStep (coreKey c) 0x33 (actRecvb (coreKey c)) s)

/-- EVENT: raises an event (R200). -/
def execEvent (c : CoreId) (s : State) : Host.Outcome State Fault Refusal :=
  .next (cueStep (coreKey c) 0x3C (actEvent (coreKey c)) s)

/-- BR: branch when the condition holds (R176). -/
def execBr (c : CoreId) (s : State) : Host.Outcome State Fault Refusal :=
  .next (cueStep (coreKey c) 0x38 (fun s w => if brTaken (getCore s (coreKey c)) w then goTo s (coreKey c) w (fT w) else goNext s (coreKey c) w) s)

/-- JMP: branch. -/
def execJmp (c : CoreId) (s : State) : Host.Outcome State Fault Refusal :=
  .next (cueStep (coreKey c) 0x39 (fun s w => goTo s (coreKey c) w (fT w)) s)

/-- LOOP: gx := gx - 1; branch when gx is not zero. -/
def execLoop (c : CoreId) (s : State) : Host.Outcome State Fault Refusal :=
  .next (cueStep (coreKey c) 0x3A (fun s w =>
    let co := getCore s (coreKey c)
    let v := gReg co (fD w) - 1
    let s := setCore s (coreKey c) (setG co (fD w) v)
    if v ≠ 0 then goTo s (coreKey c) w (fT w) else goNext s (coreKey c) w) s)

end Sys2Proof.Machine
end

