-- ==== Sys2Proof/Machine/CueWaits.lean ====
section
/-! DEFINITION. The instructions that wait, and the events that end their waits (R178 to R200). -/

namespace Sys2Proof.Machine

open Sys2Proof

/-- CWAIT: waits until every counter of the mask has reached its threshold. -/
def execCwait (c : CoreId) (s : State) : Host.Outcome State Fault Refusal :=
  .next (cueStep (coreKey c) 0x27 (actWait (coreKey c)) s)

/-- CWAITI: waits until c_k ≥ IMM18. -/
def execCwaiti (c : CoreId) (s : State) : Host.Outcome State Fault Refusal :=
  .next (cueStep (coreKey c) 0x28 (actWait (coreKey c)) s)

/-- CWAITT: CWAIT with a deadline of ga CORE cycles. -/
def execCwaitt (c : CoreId) (s : State) : Host.Outcome State Fault Refusal :=
  .next (cueStep (coreKey c) 0x29 (actWaitt (coreKey c)) s)

/-- ARRIVE: sends an arrival to a clapper; its reply ends the instruction. -/
def execArrive (c : CoreId) (s : State) : Host.Outcome State Fault Refusal :=
  .next (cueStep (coreKey c) 0x36 (actArrive (coreKey c)) s)

/-- CLWAIT: waits until the clapper's phase differs from gb. -/
def execClwait (c : CoreId) (s : State) : Host.Outcome State Fault Refusal :=
  .next (cueStep (coreKey c) 0x37 (actClwait (coreKey c)) s)

/-- HALT: stops fetch; HALT_COMPLETE ends the call sheet (R196). -/
def execHalt (c : CoreId) (s : State) : Host.Outcome State Fault Refusal :=
  .next (cueStep (coreKey c) 0x3B (fun s _ => setCore s (coreKey c) { getCore s (coreKey c) with wait := .halt }) s)

/-- FENCE: waits for local completion (R184). -/
def execFence (c : CoreId) (s : State) : Host.Outcome State Fault Refusal :=
  .next (cueStep (coreKey c) 0x3D (fun s _ => setCore s (coreKey c) { getCore s (coreKey c) with wait := .fence }) s)

/-- A RUNNING core waits for counters, and its condition holds. -/
def counterWaitMet (c : Core) : Bool :=
  decide (c.mode = .running) && (decide (c.wait = .counters) || decide (c.wait = .timed)) && waitMet c (cueWord c)

/-- CWAIT_SATISFIED: a counter change satisfies the wait; a CWAITT clears TO (R180). -/
def execCwaitSatisfied (c : CoreId) (s : State) : Host.Outcome State Fault Refusal :=
  let k := coreKey c
  let co := getCore s k
  if counterWaitMet co then
    .next (goNext (setCore s k { co with tmo := if co.wait = .timed then false else co.tmo }) k (cueWord co))
  else .next s

/-- CWAITT_DEADLINE: the deadline passes; a wait satisfied by then wins, else TO is set (R180). -/
def execCwaittDeadline (c : CoreId) (s : State) : Host.Outcome State Fault Refusal :=
  let k := coreKey c
  let co := getCore s k
  if co.mode = .running ∧ co.wait = .timed then
    .next (goNext (setCore s k { co with tmo := !waitMet co (cueWord co) }) k (cueWord co))
  else .next s

/-- The conditions of R184 but the cache. -/
def localDone (s : State) (k : Nat) : Bool := enginesIdle (getCore s k) && sendsLeft s k

/-- FENCE_COMPLETE: with the engines and sends done, the cache is written back and emptied; when no write-back waits at
the vault port the instruction ends (R184, R218). -/
def execFenceComplete (c : CoreId) (s : State) : Host.Outcome State Fault Refusal :=
  let k := coreKey c
  let co := getCore s k
  if co.mode = .running ∧ co.wait = .fence ∧ localDone s k = true then
    let s' := cacheFlush s k
    .next (if (getCore s' k).mode = .running ∧ writeBacksDone s' k = true then goNext s' k (cueWord co) else s')
  else .next s

/-- NO_PROGRESS: the watchdog count reaches 2^WD_EXP (R199). -/
def execNoProgress (c : CoreId) (s : State) : Host.Outcome State Fault Refusal :=
  let k := coreKey c
  let co := getCore s k
  let e := sheetWdExp co
  if co.mode = .running ∧ e ≠ 0 ∧ co.wdCycles < 2 ^ e then
    .next (coreEv (setCore s k { co with wdCycles := 2 ^ e, wdog := true }) k 0xB010 1
      [(28, 2, co.pc.toNat), (30, 1, if co.wait = .none then 0xFF else fOpc (cueWord co)),
        (32, 4, co.lastMask.toNat), (36, 4, e)])
  else .next s

/-- CORE_HOLD_ORDER: a hold order reaches the core (R20, R197, R198). It never overtakes the start order. -/
def execCoreHoldOrder (c : CoreId) (s : State) : Host.Outcome State Fault Refusal :=
  let k := coreKey c
  let co := getCore s k
  if co.order then
    .next (if co.mode = .running then setCore s k (holdCore co 0x01)
      else if co.mode = .idle ∧ co.started = false then s
      else setCore s k { co with order := false })
  else .next s

end Sys2Proof.Machine
end

