-- ==== Sys2Proof/Machine/Dma.lean ====
section
/-! DEFINITION. The steps of the DMA engine (R227 to R235). -/

namespace Sys2Proof.Machine

open Sys2Proof

/-- DMA_ROW: the present row's pieces are issued (R229, R234). -/
def execDmaRow (c : CoreId) (s : State) : Host.Outcome State Fault Refusal :=
  let k := coreKey c
  match dmaNext (getCore s k) with
  | some d => .next (dmaRow k d.op d.row (dmRowLen d.words) s)
  | none => .next s

/-- The descriptor that completes next: the executing one when it can, else a waiting one whose deadline has expired (R231 to
R233). -/
def dmaEnding (s : State) (c : Core) : Option DmaRun :=
  match c.dma with
  | d :: ds => if dmaCanComplete s c d then some d else ds.find? (·.expired)
  | [] => none

/-- DMA_DESCRIPTOR_COMPLETE: nothing is in flight and no row is left, or none may follow (R231 to R233). -/
def execDmaDescriptorComplete (c : CoreId) (s : State) : Host.Outcome State Fault Refusal :=
  let k := coreKey c
  match dmaEnding s (getCore s k) with
  | some d => .next (dmaComplete s k d)
  | none => .next s

/-- The descriptors whose deadline runs. -/
def dmaTimed (c : Core) : List DmaRun := c.dma.filter fun d => df d.words 9 0 5 != 0 && !d.expired

/-- The deadline of a descriptor expires, unless it can complete now: then the completion wins (R233). -/
def dmaExpire (s : State) (k : Nat) (d : DmaRun) : State :=
  let c := getCore s k
  if c.dma.head? = some d ∧ dmaCanComplete s c d = true then s else setCore s k (setDma c { d with expired := true })

/-- DMA_DEADLINE: the deadline of a descriptor expires; no further row is issued (R233). The earlier issued one expires first
unless its deadline is the longer: then which comes first is a free value (log entry 98). -/
def execDmaDeadline (c : CoreId) (s : State) : Host.Outcome State Fault Refusal :=
  let k := coreKey c
  match dmaTimed (getCore s k) with
  | [] => .next s
  | [d] => .next (dmaExpire s k d)
  | d :: e :: _ =>
    if df d.words 9 0 5 ≤ df e.words 9 0 5 then .next (dmaExpire s k d)
    else
      let (i, s) := freshIdx s
      .next (dmaExpire s k (if (Config.freeValue i : BitVec 1) = 0 then d else e))

end Sys2Proof.Machine
end

