-- ==== Sys2Proof/Machine/Fabric.lean ====
section
/-! DEFINITION. The rows of the fabric layer (R379 to R397). -/

namespace Sys2Proof.Machine

open Sys2Proof

/-- FHELLO (R379). -/
def execFhello (e : EdgePort) (s : State) : Host.Outcome State Fault Refusal :=
  .next (fabRow s e.val 1 fun s m => fhelloIn s e.val m)

/-- FHELLO_REPEAT: every 1 s (R379). -/
def execFhelloRepeat (e : EdgePort) (s : State) : Host.Outcome State Fault Refusal := .next (sendFhello s e.val)

/-- DISC_REQ (R380). -/
def execDiscReq (e : EdgePort) (s : State) : Host.Outcome State Fault Refusal :=
  .next (fabRow s e.val 2 fun s m => discWalk s e.val m)

/-- DISC_RSP (R380). -/
def execDiscRsp (e : EdgePort) (s : State) : Host.Outcome State Fault Refusal :=
  .next (fabRow s e.val 3 fun s m => discReturn s e.val m)

/-- ID_ASSIGN (R381). -/
def execIdAssign (e : EdgePort) (s : State) : Host.Outcome State Fault Refusal :=
  .next (fabRow s e.val 4 fun s m => discWalk s e.val m)

/-- ID_ASSIGN_ACK (R380). -/
def execIdAssignAck (e : EdgePort) (s : State) : Host.Outcome State Fault Refusal :=
  .next (fabRow s e.val 5 fun s m => discReturn s e.val m)

/-- ORIGIN_WRITE: an origin MEM_WR handed to its gateway port (R390). -/
def execOriginWrite (e : EdgePort) (s : State) : Host.Outcome State Fault Refusal :=
  if (portTag (getPort s e.val)).isNone then .next s
  else
    .next (withInbox s e.val (fun p => pType p.hdr == 0xB && decide (2 ^ 28 ≤ pArg p.hdr) && decide (p.note < 2 ^ 16))
      fun s p pl => originWrite s e.val p pl)

/-- WWRITE (R386, R394). -/
def execWwrite (e : EdgePort) (s : State) : Host.Outcome State Fault Refusal :=
  .next (fabRow s e.val 0x10 fun s m => routeWrite s e.val m)

/-- WACK (R386, R390). -/
def execWack (e : EdgePort) (s : State) : Host.Outcome State Fault Refusal :=
  .next (fabRow s e.val 0x11 fun s m => routeWack s e.val m)

/-- FABRIC_TIMEOUT: no WACK within FAB_TMO of sending (R391). -/
def execFabricTimeout (e : EdgePort) (seq : Word) (s : State) : Host.Outcome State Fault Refusal :=
  match (getPort s e.val).outWrites.find? fun o => o.seq == seq.toNat with
  | some o => .next (outTimeout s e.val o)
  | none => .next s

/-- WINDOW_CLOSE_DONE: every write accepted before the close point has been applied: the window is FREE and the command
completes (R396). -/
def execWindowCloseDone (win : Fin 16384) (s : State) : Host.Outcome State Fault Refusal :=
  if (winOf s win.val).state = .closing ∧ windowQuiet s win.val = true then
    let s := windowFree s win.val
    let (done, left) := s.works.windowClose.partition fun w => w.2 == win.val
    .next (done.foldl (fun s w => finish s w.1 0 []) { s with works := { s.works with windowClose := left } })
  else .next s

end Sys2Proof.Machine
end

