-- ==== Sys2Proof/Machine/Scenes.lean ====
section
/-! DEFINITION. Storyboards, scenes and keyframes: commands and what follows them (R275 to R296, R456, R477, R603). -/

namespace Sys2Proof.Machine

open Sys2Proof

/-- A per-slate opcode served from version 2.0. -/
def slateSpec (opcode need : Nat) : CmdSpec := ⟨opcode, (2, 0), true, false, need⟩

/-- A per-slate opcode served from version 3.0. -/
def slateSpec3 (opcode : Nat) : CmdSpec := ⟨opcode, (3, 0), true, false, 0⟩

/-- STORYBOARD_LOAD (R275, R276). -/
def execStoryboardLoad (p : HostPort) (r : CmdRec) (s : State) : Host.Outcome State Fault Refusal :=
  .next (mailbox (slateSpec 0x0301 0) p r (loadBegin r.slate.toNat r) s)

/-- STORYBOARD_LOAD_DONE: the image's words, or an error of its read (R276). -/
def execStoryboardLoadDone (slate : SlateId) (words : Option (List Word)) (s : State) : Host.Outcome State Fault Refusal :=
  .next (loadEnd s slate.val words)

/-- SCENE_RUN with RESUME = 0 (R277, R278, R286). A record with RESUME set is SCENE_RUN_RESUME's. -/
def execSceneRun (p : HostPort) (r : CmdRec) (s : State) : Host.Outcome State Fault Refusal :=
  .next (if pbit r 37 2 then s else mailbox (slateSpec 0x0302 (runNeed s r)) p r (runBegin p r) s)

/-- SCENE_RUN with RESUME = 1 (R278, R281). -/
def execSceneRunResume (p : HostPort) (r : CmdRec) (s : State) : Host.Outcome State Fault Refusal :=
  .next (if pbit r 37 2 then mailbox (slateSpec 0x0302 (runNeed s r)) p r (resumeRun p r) s else s)

/-- SCENE_HALT (R603). -/
def execSceneHalt (p : HostPort) (r : CmdRec) (s : State) : Host.Outcome State Fault Refusal :=
  .next (mailbox (slateSpec 0x0303 0) p r (haltCmd p r) s)

/-- KEYFRAME_TAKE (R292). -/
def execKeyframeTake (p : HostPort) (r : CmdRec) (s : State) : Host.Outcome State Fault Refusal :=
  .next (mailbox (slateSpec3 0x0304) p r (takeCmd r) s)

/-- KEYFRAME_TAKE_DONE (R292). -/
def execKeyframeTakeDone (sc : SceneId) (status : Word16) (s : State) : Host.Outcome State Fault Refusal :=
  .next (takeEnd s sc.sbn.val sc.idx.val status.toNat)

/-- KEYFRAME_RELEASE (R293). -/
def execKeyframeRelease (p : HostPort) (r : CmdRec) (s : State) : Host.Outcome State Fault Refusal :=
  .next (mailbox (slateSpec3 0x0307) p r (releaseCmd r) s)

/-- REPLAY (R456). -/
def execReplay (p : HostPort) (r : CmdRec) (s : State) : Host.Outcome State Fault Refusal :=
  .next (mailbox (slateSpec 0x0305 0) p r (replayCmd p r) s)

/-- KEYFRAME_RESTORE_DONE (R456). -/
def execKeyframeRestoreDone (sc : SceneId) (status : Word16) (s : State) : Host.Outcome State Fault Refusal :=
  .next (restoreEnd s sc.sbn.val sc.idx.val status.toNat)

/-- REMAP (R477, R478). -/
def execRemap (p : HostPort) (r : CmdRec) (s : State) : Host.Outcome State Fault Refusal :=
  .next (mailbox (slateSpec3 0x0306) p r (remapCmd r) s)

/-- SCENE_ADMISSION: steps 1 to 5 of R279, and the start of step 6. -/
def execSceneAdmission (sc : SceneId) (s : State) : Host.Outcome State Fault Refusal :=
  .next (admitScene s sc.sbn.val sc.idx.val)

/-- ADMISSION_COPY_DONE: the copies of step 6 go on as far as they can; when every byte has reached its completion point,
ACCEPTED is posted (R279, R231). -/
def execAdmissionCopyDone (sc : SceneId) (s : State) : Host.Outcome State Fault Refusal :=
  .next (match copyingScene s sc.sbn.val sc.idx.val with
    | some (x, _) =>
      match copyJob s .admission x.sbn (scKey x) with
      | some j =>
        match copyWork s j with
        | (s, j) => if copyDone s j then admitAccept (copyDrop s j) x true else s
      | none => s
    | none => s)

/-- ADMISSION_COPY_FAILED: a copy of step 6 fails (R280). -/
def execAdmissionCopyFailed (sc : SceneId) (status : Word16) (s : State) : Host.Outcome State Fault Refusal :=
  .next (match copyingScene s sc.sbn.val sc.idx.val with
    | some (x, b) => admitFail s b x status.toNat
    | none => s)

/-- CORE_SCENE_START: the start order reaches a core (R279). -/
def execCoreSceneStart (c : CoreId) (s : State) : Host.Outcome State Fault Refusal :=
  .next (sceneStartCore s (coreKey c))

/-- End-of-scene marks on every enabled edge of a core (R283). -/
def sendMarks (s : State) (k : Nat) : State :=
  let c := getCore s k
  (List.range 16).foldl (fun s e =>
    if (edgeW1 c e).testBit 0 then injectFrom s k (bits (edgeW0 c e) 22 1) 1 ⟨edgeHdr c k 1 e 0 false, [], c.pc.toNat⟩ else s) s

/-- HALT_COMPLETE: the FENCE conditions hold; marks leave, the core goes IDLE and its queues retire (R196, R244, R283). -/
def execHaltComplete (c : CoreId) (s : State) : Host.Outcome State Fault Refusal :=
  let k := coreKey c
  let co := getCore s k
  .next (if co.mode = .running ∧ co.wait = .halt ∧ localDone s k = true then
      let s := cacheFlush s k
      if (getCore s k).mode = .running ∧ writeBacksDone s k = true then
        let s := sendMarks s k
        let s := setCore s k (retireQueues { getCore s k with mode := .idle, wait := .none, order := false })
        let s := noteProgress s co
        match co.scene with
        | some q => sceneCheck s q.1 q.2
        | none => s
      else s
    else s)

end Sys2Proof.Machine
end

