-- ==== Sys2Proof/Machine/FabricCmds.lean ====
section
/-! DEFINITION. The commands of the ports and the fabric: PORT_CONFIG, ROUTE_TABLE_WRITE, DISCOVERY_RUN, windows
(R354, R355, R380 to R385, R393, R396, R402, R601). -/

namespace Sys2Proof.Machine

open Sys2Proof

/-! ### PORT_CONFIG, port form (R354, R355) -/

/-- A valid route entry names the port. -/
def routeNames (s : State) (e : Nat) : Bool :=
  s.fabric.dest.any fun q => q.2.getLsbD 31 && [0, 1, 2, 3].any fun c => choiceOf q.2 c == e

/-- The port's role, lanes and buffers are claimed. -/
def portClaimed (s : State) (e : Nat) : Bool :=
  (getPort s e).slots.any (fun q => q.2.isSome) || routeNames s e || (s.clock.refrec && s.clock.port == e)
    || s.works.clock.any fun w => w.refrec && w.port == e

/-- A field's value, or its default where the field is 0. -/
def orDefault (v d : Nat) : Nat := if v = 0 then d else v

/-- Six bytes in network order. -/
def macParam (r : CmdRec) (off : Nat) : Nat := beNat (leBytes 6 (pb r off 6))

/-- Fields of the port form. -/
def portFields : List (Nat × Nat × Nat) :=
  [(36, 0, 8), (37, 0, 2), (38, 0, 8), (40, 0, 16), (42, 0, 16), (44, 0, 48), (50, 0, 48), (56, 0, 8), (57, 0, 8), (58, 0, 16)]

/-- The port form is refused with BAD_PARAM. -/
def portConfigBad (s : State) (r : CmdRec) : Bool :=
  let lanes := orDefault (pb r 38 1) 8
  let hi := orDefault (pb r 56 1) 48
  let lo := orDefault (pb r 57 1) 16
  let et := orDefault (pb r 40 2) 0x88B5
  let rt := orDefault (pb r 58 2) 50
  !rsvOk r portFields || decide (119 < pb r 36 1) || removedPort s (pb r 36 1) || (lanes != 4 && lanes != 8) || decide (et < 0x0600)
    || decide (4094 < pb r 42 2) || decide (63 < hi) || decide (63 < lo) || decide (hi ≤ lo) || decide (rt < 5) || decide (1000 < rt)

/-- The configuration a record gives a port. -/
def configured (p : Port) (r : CmdRec) : Port :=
  { p with
    enable := pbit r 37 0
    role := pbit r 37 1
    lanes4 := decide (pb r 38 1 = 4)
    etype := BitVec.ofNat 16 (orDefault (pb r 40 2) 0x88B5)
    vid := BitVec.ofNat 12 (pb r 42 2)
    srcMac := BitVec.ofNat 48 (macParam r 44)
    dstMac := BitVec.ofNat 48 (orDefault (macParam r 50) 0xFFFFFFFFFFFF)
    highWm := orDefault (pb r 56 1) 48
    lowWm := orDefault (pb r 57 1) 16
    retryT := orDefault (pb r 58 2) 50
    pcs := p.pcs && pbit r 37 0
    mismatched := false }

/-- The port changes its role or lane mode, or is disabled. -/
def portChanges (p q : Port) : Bool := p.role != q.role || p.lanes4 != q.lanes4 || (p.enable && !q.enable)

/-- The new configuration takes effect. A port that is disabled, or changes role or lanes, loses its link without an event
(R353); one that is enabled begins to train. -/
def portApply (s : State) (e : Nat) (q : Port) : State :=
  let p := getPort s e
  let s := if portChanges p q then linkReset s e else s
  let now0 := getPort s e
  let q := { q with
    link := if q.enable = false then .disabled else if now0.link = .up then .up else .training
    vlver := now0.vlver, ackSent := now0.ackSent, ackRcvd := now0.ackRcvd, tx := now0.tx, rx := now0.rx, rxq := now0.rxq
    msgs := now0.msgs, paused := now0.paused, pfcTx := now0.pfcTx, xoffTx := now0.xoffTx, reelUp := now0.reelUp
    slots := now0.slots, refetch := now0.refetch, peer0 := now0.peer0, peerSerial := now0.peerSerial, peerGen := now0.peerGen }
  pfcCheck (setPort s e q) e

/-- The port form's own work. -/
def portBody (r : CmdRec) (ref : CmdRef) (s : State) : State :=
  let e := pb r 36 1
  let q := configured (getPort s e) r
  if portConfigBad s r then finish s ref 0x0103 []
  else if portChanges (getPort s e) q && portClaimed s e then finish s ref 0x0302 []
  else finish (portApply s e q) ref 0 []

/-- PORT_CONFIG, port form. A record with byte 36 = 0xFF is the fabric form's. -/
def execPortConfig (p : HostPort) (r : CmdRec) (s : State) : Host.Outcome State Fault Refusal :=
  .next (if pb r 36 1 = 0xFF then s else mailbox (moduleSpec 0x0400 0) p r (portBody r) s)

/-! ### PORT_CONFIG, fabric form (R402, R601) -/

/-- The fabric form is refused. -/
def fabricFormBad (s : State) (r : CmdRec) : Bool :=
  let g := pb r 42 1
  !rsvOk r [(36, 0, 8), (40, 0, 16), (42, 0, 8), (43, 0, 1), (44, 0, 24)]
    || (pbit r 43 0 && (!rectWordOk (pb r 44 4) || (g != 0x7F && (decide (119 < g) || removedPort s g))))

/-- FAB_TMO takes 1 to 1,000 ms (other writes are ignored, R402). -/
def writeTmo (s : State) (v : Nat) : State :=
  if 1 ≤ v ∧ v ≤ 1000 then { s with fabric := { s.fabric with tmo := BitVec.ofNat 16 v } } else s

/-- The fabric form's own work: FAB_TMO, and FAB_GW of the clusters of a rectangle. -/
def fabricFormBody (r : CmdRec) (ref : CmdRef) (s : State) : State :=
  if fabricFormBad s r then finish s ref 0x0103 []
  else
    let s := writeTmo s (pb r 40 2)
    let s := if pbit r 43 0 then
        (rectCls (pb r 44 4)).foldl (fun s cl => setCl s cl { getCl s cl with gwPort := BitVec.ofNat 7 (pb r 42 1) }) s
      else s
    finish s ref 0 []

/-- PORT_CONFIG, fabric form. -/
def execPortConfigFabricForm (p : HostPort) (r : CmdRec) (s : State) : Host.Outcome State Fault Refusal :=
  .next (if pb r 36 1 = 0xFF then mailbox (moduleSpec 0x0400 0) p r (fabricFormBody r) s else s)

/-! ### ROUTE_TABLE_WRITE (R384, R385) -/

/-- Entry `i` of the buffer. -/
def routeWord (r : CmdRec) (i : Nat) : Word := BitVec.ofNat 32 (getLe (bufBytes r) (4 * i) 4)

/-- An entry may be stored: its ports are FABRIC ports, and a valid entry's choice names one. -/
def routeOk (s : State) (w : Word) : Bool :=
  !w.getLsbD 30 && ([0, 1, 2, 3].all fun c =>
      choiceOf w c == 0x7F || (decide (choiceOf w c < 120) && (getPort s (choiceOf w c)).role))
    && !(w.getLsbD 31 && choiceOf w (bits w.toNat 28 2) == 0x7F)

/-- ROUTE_TABLE_WRITE's own work. -/
def routeBody (r : CmdRec) (ref : CmdRef) (s : State) : State :=
  let first := pb r 36 2
  let n := pb r 38 2
  if rsvOk r [(36, 0, 16), (38, 0, 16)] = false ∨ n = 0 ∨ 1024 < n ∨ 20480 < first + n
    ∨ ((List.range n).all fun i => routeOk s (routeWord r i)) = false then finish s ref 0x0103 []
  else
    let dest := (List.range n).foldl (fun m i => smapSet 0x0FFFFFFF m (first + i) (routeWord r i)) s.fabric.dest
    finish { s with fabric := { s.fabric with dest := dest } } ref 0 []

/-- ROUTE_TABLE_WRITE (R385). -/
def execRouteTableWrite (p : HostPort) (r : CmdRec) (s : State) : Host.Outcome State Fault Refusal :=
  .next (mailbox (moduleSpec 0x0401 (4 * pb r 38 2)) p r (routeBody r) s)

/-! ### DISCOVERY_RUN (R380 to R382) -/

/-- Fields of DISCOVERY_RUN. -/
def discFields : List (Nat × Nat × Nat) := [(36, 0, 8), (37, 0, 8), (38, 0, 64), (46, 0, 16), (48, 0, 64)]

/-- PROBE and ASSIGN are refused. -/
def walkBad (r : CmdRec) : Bool :=
  !rsvOk r discFields || decide (3 < pb r 36 1) || decide (pb r 37 1 = 0) || decide (8 < pb r 37 1) || decide (pb r 48 8 = 0)
    || (decide (pb r 36 1 = 1) && decide (20479 < pb r 46 2))

/-- The packet that a walk sends from its origin, which is hop 0. -/
def walkPacket (s : State) (r : CmdRec) : List Byte :=
  let n := pb r 37 1
  let route := leBytes 1 n ++ leBytes 1 1 ++ leBytes 8 (pb r 38 8) ++ List.replicate 8 0
  if pb r 36 1 = 1 then fbHdr 4 20 0x7FFF (engId s) (n - 1) 0 ++ route ++ leBytes 2 (pb r 46 2)
  else fbHdr 2 18 0x7FFF (engId s) (n - 1) 0 ++ route

/-- PROBE and ASSIGN: the walk leaves, and the command waits for its answer. -/
def walkBody (r : CmdRec) (ref : CmdRef) (s : State) : State :=
  if walkBad r then finish s ref 0x0103 []
  else if s.works.discovery.isSome then finish s ref 0x0301 []
  else
    let s := accept s ref []
    let out := pb r 38 1
    if out < 120 ∧ fabUp s out = true then
      fabSend { s with works := { s.works with discovery := some (ref, BitVec.ofNat 64 (pb r 48 8), now s) } } out (walkPacket s r)
    else finish s ref 0x0705 []

/-- PROBE. It also answers an operation that the table does not list. -/
def execProbe (p : HostPort) (r : CmdRec) (s : State) : Host.Outcome State Fault Refusal :=
  .next (if pb r 36 1 = 0 ∨ 3 < pb r 36 1 then mailbox (moduleSpec 0x0402 0) p r (walkBody r) s else s)

/-- ASSIGN. -/
def execAssign (p : HostPort) (r : CmdRec) (s : State) : Host.Outcome State Fault Refusal :=
  .next (if pb r 36 1 = 1 then mailbox (moduleSpec 0x0402 0) p r (walkBody r) s else s)

/-- Windows or window writes keep the engine ID (R382). -/
def idBusy (s : State) : Bool :=
  s.fabric.windows.any (fun w => w.2.state != .free) || s.ports.any fun q => !q.2.outWrites.isEmpty

/-- SET_LOCAL and CLEAR_LOCAL: the engine ID changes. -/
def localBody (r : CmdRec) (id : Nat) (ref : CmdRef) (s : State) : State :=
  if rsvOk r discFields = false ∨ (id ≠ 0x7FFF ∧ 20479 < id) then finish s ref 0x0103 []
  else if idBusy s then finish s ref 0x0301 []
  else finish (setEngId (accept s ref []) id 0xFF) ref 0 []

/-- SET_LOCAL. The value 0x7FFF is CLEAR_LOCAL's alone. -/
def execSetLocal (p : HostPort) (r : CmdRec) (s : State) : Host.Outcome State Fault Refusal :=
  .next (if pb r 36 1 = 2 then mailbox (moduleSpec 0x0402 0) p r (localBody r (if pb r 46 2 = 0x7FFF then 0x8000 else pb r 46 2)) s
    else s)

/-- CLEAR_LOCAL. -/
def execClearLocal (p : HostPort) (r : CmdRec) (s : State) : Host.Outcome State Fault Refusal :=
  .next (if pb r 36 1 = 3 then mailbox (moduleSpec 0x0402 0) p r (localBody r 0x7FFF) s else s)

/-- DISCOVERY_TIMEOUT: no answer within 100 ms (R380). -/
def execDiscoveryTimeout (p : HostPort) (s : State) : Host.Outcome State Fault Refusal :=
  .next (match s.works.discovery with
    | some (cmd, _, _) => if cmd.port = p then finish { s with works := { s.works with discovery := none } } cmd 0x0601 [] else s
    | none => s)

/-! ### Windows (R393, R396) -/

/-- Peer `i` of the buffer: engine, slate. -/
def peerAt (r : CmdRec) (i : Nat) : Nat × Nat :=
  let v := getLe (bufBytes r) (4 * i) 4
  (bits v 0 15, bits v 16 12)

/-- A peer entry is well formed: an engine ID in range, reserved bits zero. -/
def peerOk (r : CmdRec) (i : Nat) : Bool :=
  let v := getLe (bufBytes r) (4 * i) 4
  decide (bits v 0 16 ≤ 20479) && decide (bits v 28 4 = 0)

/-- WINDOW_OPEN is refused with BAD_PARAM. -/
def windowBad (s : State) (r : CmdRec) : Bool :=
  let sp := pb r 36 1
  let t := pb r 38 2
  let base := pb r 40 4
  let len := pb r 44 4
  !rsvOk r [(36, 0, 8), (38, 0, 12), (40, 0, 32), (44, 0, 32), (48, 0, 8)] || decide (pb r 48 1 = 0) || decide (16 < pb r 48 1)
    || (sp != 2 && sp != 3) || (sp == 3 && noVaults s) || !clTargetOk t || decide (len = 0)
    || decide ((if sp = 2 then cmWords else vaultWords s) < base + len) || !slateOwns s r.slate.toNat (sp, clOfTarget t, base, len)
    || !(List.range (pb r 48 1)).all (peerOk r)

/-- The first FREE window above the one assigned last. -/
def nextWindow (s : State) : Option Nat :=
  ((List.range 16384).map fun i => (s.fabric.lastWin + 1 + i) % 16384).find? fun w => (winOf s w).state == .free

/-- WINDOW_OPEN's own work. -/
def windowOpenBody (r : CmdRec) (ref : CmdRef) (s : State) : State :=
  if windowBad s r then finish s ref 0x0103 []
  else
    match (if assigned s then nextWindow s else none) with
    | none => finish s ref 0x0301 []
    | some w =>
      let v : FabWindow :=
        { state := .opened, space := pb r 36 1, cl := clOfTarget (pb r 38 2), base := pb r 40 4, len := pb r 44 4
          slate := r.slate.toNat, peers := (List.range (pb r 48 1)).map (peerAt r) }
      finish { s with fabric := { s.fabric with windows := smapSet .free s.fabric.windows w v, lastWin := w } } ref 0 [(24, 2, w)]

/-- WINDOW_OPEN (R393). -/
def execWindowOpen (p : HostPort) (r : CmdRec) (s : State) : Host.Outcome State Fault Refusal :=
  .next (mailbox (slateSpec 0x0403 (4 * pb r 48 1)) p r (windowOpenBody r) s)

/-- WINDOW_CLOSE's own work. -/
def windowCloseBody (r : CmdRec) (ref : CmdRef) (s : State) : State :=
  let w := pb r 36 2
  if rsvOk r [(36, 0, 14)] = false ∨ (winOf s w).state ≠ .opened ∨ (winOf s w).slate ≠ r.slate.toNat then finish s ref 0x0103 []
  else
    let s := windowShut (accept s ref []) w
    { s with works := { s.works with windowClose := s.works.windowClose ++ [(ref, w)] } }

/-- WINDOW_CLOSE (R396). -/
def execWindowClose (p : HostPort) (r : CmdRec) (s : State) : Host.Outcome State Fault Refusal :=
  .next (mailbox (slateSpec 0x0404 0) p r (windowCloseBody r) s)

end Sys2Proof.Machine
end

