-- ==== Sys2Proof/Machine/Matrix.lean ====
section
/-! DEFINITION. The steps of the matrix engine: tile loads, passes, gather rows, exports and completion
(R73 to R131). -/

namespace Sys2Proof.Machine

open Sys2Proof

/-! ### Weight tiles -/

/-- The engine works: its core runs and no stop is in force (R103). -/
def mxGoing (c : Core) : Bool := decide (c.mode = .running) && decide (c.mxStop = 0)

/-- The descriptor whose tile the loader takes next: no load is under way (R79, R95). -/
def mxLoader (c : Core) : Option MxRun :=
  if mxGoing c && c.tiles.all (·.resident) then c.mx.find? fun d => decide (d.ldN < mxNt d) else none

/-- Loader's handle entry and tile offset for the next load. -/
def ldEntry (c : Core) (d : MxRun) : HEntry := hEntry c (df d.words 3 12 6)

def ldOff (d : MxRun) : Nat := mxTileOff d d.ldN d.ldK

/-- Bytes of a tile's header as memory holds them. -/
def peekHeader (s : State) (k : Nat) (e : HEntry) (off : Nat) : List Byte :=
  if e.space = 1 then ramBytes (getCore s k).sp (4 * (e.base + off)) 16
  else if e.space = 2 then ramBytes (getCl s (clOfTarget e.target)).mem (4 * (e.base + off)) 16
  else []

/-- Halves whose slots the loader waits for before it starts a load (R113). The header of a tile from a REEL is not known
before its first words have come: a load that may turn out to be of a DENSE tile of KSPAN 1 starts in the slots of one tile,
and takes those of the other half when its header asks for them. -/
def ldHalves (s : State) (k : Nat) (d : MxRun) : Nat :=
  if mxWf d = 2 ∨ mxKstep d = 0 then 1
  else
    let e := ldEntry (getCore s k) d
    if e.space = 5 then (if mxSparse d then 1 else 2) else tileHalves (peekHeader s k e (ldOff d))

/-- The access lies out of the reel's stream order (R359). -/
def reelOrderBad (c : Core) (h w : Nat) : Bool :=
  let ref := smapGet 0 c.reelRef h
  decide (w < ref) || decide (ref + 2 ^ 20 ≤ w)

/-- Words the loader asks a reel for at first: the whole tile when its length is known, else its header. -/
def ldTotal (d : MxRun) : Nat := if mxSparse d then 4 else denseLen (mxKstep d) (mxWf d) / 4

/-- The tiles of a load that begins. -/
def newTiles (d : MxRun) (slots : List (List Nat)) (total : Nat) : List Tile :=
  slots.zipIdx.map fun p => ⟨d.op, d.ldN, d.ldM, d.ldK, d.ldH + p.2, p.1, [], false, none, [], if p.2 = 0 then total else 0, 0⟩

/-- WEIGHT_TILE_LOAD_START (R73, R74, R113): slots become busy; a reel is asked for the tile's bytes (R358, R359). -/
def loadStart (s : State) (k : Nat) (d : MxRun) : State :=
  let c := getCore s k
  match freeSlots c (mxWf d) (ldHalves s k d) with
  | none => s
  | some slots =>
    let e := ldEntry c d
    let h := df d.words 3 12 6
    let clean := lanesClear c.planeBad slots.flatten.contains
    if e.space = 5 then
      let w := e.base + ldOff d
      if reelOrderBad c h w then
        let s := handleFault s k d.addr h (9, ldOff d)
        setCore s k { getCore s k with mxStop := 3 }
      else
        let ts := newTiles d slots (ldTotal d)
        let s := setCore s k { c with tiles := c.tiles ++ ts, planeBad := clean, reelRef := smapSet 0 c.reelRef h w }
        match ts with
        | t :: _ => tileSend s k h (ldOff d) (sameTile t) 64
        | [] => s
    else setCore s k { c with tiles := c.tiles ++ newTiles d slots 0, planeBad := clean }

/-- The load of a DENSE tile of KSPAN 1 from a REEL goes on in the slots of its other half, when they are free (R113). -/
def loadSecond (s : State) (k : Nat) : State :=
  let c := getCore s k
  match c.tiles.find? (tileHeld c), mxGoing c with
  | some t, true =>
    match freeSlots c (tFmt t.bytes) 1, c.mx.find? fun d => d.op == t.op with
    | some (slots :: _), some d =>
      let up : Tile := { t with half := 1, slots := slots, bytes := [], reads := [], total := 0, next := 0 }
      let s := setCore s k { c with tiles := c.tiles ++ [up], planeBad := lanesClear c.planeBad slots.contains }
      tileSend s k (df d.words 3 12 6) (mxTileOff d t.nT t.kT) (sameTile t) 64
    | _, _ => s
  | _, _ => s

/-- WEIGHT_TILE_LOAD_START (R74, R113): the next load begins, or one that waits for its other half goes on. -/
def execWeightTileLoadStart (c : CoreId) (s : State) : Host.Outcome State Fault Refusal :=
  match mxLoader (getCore s (coreKey c)) with
  | some d => .next (loadStart s (coreKey c) d)
  | none => .next (loadSecond s (coreKey c))

/-- Tiles whose load is under way: the first is the lower half. -/
def loadingTiles (c : Core) : List Tile := c.tiles.filter fun t => !t.resident

/-- Reads parts of a tile into its bytes, in order. -/
def loadParts (k : Nat) (e : HEntry) (off : Nat) : List (Nat × Nat) → State → List Byte → State × Option (List Byte)
  | [], s, bs => (s, some bs)
  | (_, 0) :: ps, s, bs => loadParts k e off ps s bs
  | (o, n) :: ps, s, bs =>
    match memRead s k e (off + o) n false (fun c => stopMx c 2) with
    | (s', .ok ws) => loadParts k e off ps s' (putBytesAt bs (4 * o) (wordsBytes ws))
    | (s', _) => (s', none)

/-- Reads a tile from memory as the loader does: its header, and unless that fails the parts of its body that the descriptor
needs (R94, R113). Bytes not read are zeros. -/
def loadBytes (s : State) (k : Nat) (d : MxRun) (e : HEntry) (off : Nat) : State × Option (List Byte) :=
  let u := mxLeft d d.ldK
  match memRead s k e off 4 false (fun c => stopMx c 2) with
  | (s1, .ok hd) =>
    let bs := wordsBytes hd
    loadParts k e off (if headerFails d bs u then [] else tileParts bs d.ldH u) s1 bs
  | (s1, _) => (s1, none)

/-- The tile's bytes are all there: it is checked, each half for its own infinities, and becomes resident; the load pointer
moves on (R77, R113, R129). -/
def makeResident (s : State) (k : Nat) (d : MxRun) (bs : List Byte) : State :=
  let c := getCore s k
  let ld := loadingTiles c
  let bad (half : Nat) : Option Nat := match (ld.head?.bind (·.violation)) with
    | some r => some r
    | none => tileReason bs (mxWf d) (mxWq d) (mxKstep d) (mxSparse d) half (mxLeft d d.ldK)
  let halves := tileHalves bs
  let up (t : Tile) : Tile :=
    if t.resident then t else { t with bytes := bs, resident := true, violation := bad t.half }
  let keep (t : Tile) : Bool := t.resident || decide (t.half < halves) || decide (t.half = d.ldH)
  let c := { c with tiles := (c.tiles.filter keep).map up }
  setCore s k (setMx c (mxNextLoad d halves))

/-- WEIGHT_TILE_RESIDENT (R77, R93). -/
def execWeightTileResident (c : CoreId) (s : State) : Host.Outcome State Fault Refusal :=
  let k := coreKey c
  let co := getCore s k
  match loadingTiles co with
  | [] => .next s
  | t :: _ =>
    match co.mx.find? fun d => d.op == t.op with
    | none => .next s
    | some d =>
      let e := ldEntry co d
      if e.space = 5 then
        if t.reads.isEmpty ∧ t.total ≤ t.next then .next (makeResident s k d t.bytes) else .next s
      else
        match loadBytes s k d e (ldOff d) with
        | (s', some bs) => .next (makeResident s' k d bs)
        | (s', none) => .next s'

/-- The tile of the pass or gather row that is due, with its descriptor. -/
def mxDue (c : Core) : Option (MxRun × Tile) :=
  match mxNext c with
  | some d => (mxTile c d).map fun t => (d, t)
  | none => none

/-- MX_TILE_VIOLATION (R93, R131): a tile that failed its checks is due. Rows of other output tiles that still wait in the
same accumulator rows are exported first, as a pass of the tile would have waited for them (R82, R89, R131). -/
def execMxTileViolation (c : CoreId) (s : State) : Host.Outcome State Fault Refusal :=
  let co := getCore s (coreKey c)
  match mxDue co with
  | some (d, t) =>
    match t.violation with
    | some r => if mxTileWaits co d then .next s else .next (mxViolate s (coreKey c) d r)
    | none => .next s
  | none => .next s

/-! ### Passes and gather rows -/

/-- The pass (or gather row) that may enter now: its tile passed its checks and no export blocks it (R82). -/
def mxEnters (c : Core) (gather : Bool) : Option (MxRun × Tile) :=
  match mxDue c with
  | some (d, t) =>
    if t.violation = none ∧ decide (tForm t.bytes = 2) = gather ∧ mxBlocked c d = false then some (d, t) else none
  | none => none

/-- MX_PASS (R71, R79 to R85): one pass without a residue mismatch. -/
def execMxPass (c : CoreId) (s : State) : Host.Outcome State Fault Refusal :=
  let k := coreKey c
  match mxEnters (getCore s k) false with
  | some (d, t) =>
    match mxFeed s k d t with
    | (u, some r) => .next (mxWork u k d t r)
    | (u, none) => .next u
  | none => .next s

/-- GATHER_ROW_DISPATCH (R124, R125, R138): one activation row of an SU tile, once read, with its conflicts counted. -/
def execGatherRowDispatch (c : CoreId) (s : State) : Host.Outcome State Fault Refusal :=
  let k := coreKey c
  match mxEnters (getCore s k) true with
  | some (d, t) =>
    match mxFeed s k d t with
    | (u, some r) => .next (mxWork (setCore u k (gatherCount (getCore u k) d t)) k d t r)
    | (u, none) => .next u
  | none => .next s

/-- The columns that the residue check finds in the present pass, and in its retake, when the adders of `cols` and of
`again` are in error (R97, R100). -/
def mxVerdicts (d : MxRun) (t : Tile) (r : ARow) (cols again : BitVec 128) : BitVec 128 × BitVec 128 :=
  (residueVerdict d t r (mxLive d t) (mxDig d t) cols, residueVerdict d t r (mxLive d t) (mxDig d t) again)

/-- MX_RETAKE (R97 to R100): the block adders of columns `cols` are in error in the next pass, and those of `again` in its
retake. -/
def execMxRetake (c : CoreId) (cols again : BitVec 128) (s : State) : Host.Outcome State Fault Refusal :=
  let k := coreKey c
  match mxEnters (getCore s k) false with
  | some (d, t) =>
    if mxChecked (getCore s k) d = true then
      match mxFeed s k d t with
      | (u, some r) =>
        let v := mxVerdicts d t r cols again
        if v.1 = 0 then .next s else .next (mxRetake u k d t r v.1 v.2)
      | (u, none) => .next u
    else .next s
  | none => .next s

/-- GATHER_RETAKE (R126): the block adders of `cols` are in error in the next gather row. Both dispatches of the row count
their conflicts; those of the rows that followed it and are discarded count once, when they are dispatched again
(DESIGN CHOICE, log entry 93: R126 and R138 do not say whether a discarded dispatch counts). -/
def execGatherRetake (c : CoreId) (cols again : BitVec 128) (s : State) : Host.Outcome State Fault Refusal :=
  let k := coreKey c
  match mxEnters (getCore s k) true with
  | some (d, t) =>
    if mxChecked (getCore s k) d = true then
      match mxFeed s k d t with
      | (u, some r) =>
        let v := mxVerdicts d t r cols again
        if v.1 = 0 then .next s
        else .next (mxRetake (setCore u k (gatherCount (gatherCount (getCore u k) d t) d t)) k d t r v.1 v.2)
      | (u, none) => .next u
    else .next s
  | none => .next s

/-! ### Exports and completion -/

/-- The vector engine's executing descriptor is fused and takes rows (R163). -/
def fusedTaking (c : Core) : Bool :=
  match vxSlots c.vx with
  | d :: _ => d.fused.isSome && d.begun
  | [] => false

/-- The export that falls due first. -/
def mxFirstDue (c : Core) : Option (MxRun × (Nat × Nat × Nat)) :=
  c.mx.findSome? fun d => d.due.head?.map fun x => (d, x)

/-- One row leaves by the output stage (R86, R87). -/
def mxExport (s : State) (k : Nat) (d : MxRun) (x : Nat × Nat × Nat) : State :=
  let c := getCore s k
  let r := mxAccRow d + x.2.2
  if laneBad c.accBad r then spError s k 2 r (lanesBad c.accBad r) (fun c => stopMx c 2)
  else
    let done (c : Core) : Core := setMx c { d with due := d.due.drop 1 }
    if mxTgt d = 2 then
      if fusedTaking c && c.fusedRows.isEmpty then
        setCore s k (done { c with fusedRows := c.fusedRows ++ [accRow c r] })
      else s
    else
      let s' := mxWriteRow s k d x
      setCore s' k (done (getCore s' k))

/-- MX_ROW_EXPORT (R86 to R89). -/
def execMxRowExport (c : CoreId) (s : State) : Host.Outcome State Fault Refusal :=
  match mxFirstDue (getCore s (coreKey c)) with
  | some (d, x) => .next (mxExport s (coreKey c) d x)
  | none => .next s

/-- A matrix descriptor completes (R96, R101, R103): its tiles leave, its ranges are released unless a fused vector
descriptor still holds them (R163), DONE_CTR counts, and its first corrected retake is reported. -/
def mxComplete (s : State) (k : Nat) (d : MxRun) : State :=
  let c := getCore s k
  let c := { c with mx := c.mx.filter (·.op != d.op), tiles := c.tiles.filter (·.op != d.op) }
  let c := if mxTgt d = 2 then c else sbRelease c d.op
  let c := if c.mx.isEmpty then { c with mxStop := 0 } else c
  let s := putCore s k (doneCtr c (d.words.getD 15 0))
  match d.first with
  | some f => coreEv s k 0x1001 1 (mxDetail d.addr f.row f.digits f.mT f.nT f.kT d.retakes f.cols)
  | none => s

/-- MX_DESCRIPTOR_COMPLETE: every pass is admitted and every row exported. -/
def execMxDescriptorComplete (c : CoreId) (s : State) : Host.Outcome State Fault Refusal :=
  match (getCore s (coreKey c)).mx with
  | d :: _ => if d.admitted && d.due.isEmpty then .next (mxComplete s (coreKey c) d) else .next s
  | [] => .next s

end Sys2Proof.Machine
end

