-- ==== Sys2Proof/Machine/Tables.lean ====
section
/-! DEFINITION. The tables of the function interpolator: T[j] = round_rne(g(a + j h) * 2^30) for the exact functions g
of R151. EXP2, LOG2, SIGMOID and GELU are held as one number with 32 bits a point, point 0 lowest; RECIP and RSQRT are
computed from their integer definition. -/

namespace Sys2Proof.Machine

/-- Point `j` of a packed table. -/
def tablePoint (packed j : Nat) : Nat := bits packed (32 * j) 32

/-- Points of 2^u at u = j/256 (R151). -/
def exp2Table : Nat :=
  0x800000007fa765ad7f4f08ae7ef6e8da7e9f06067e4760097deff6b67d98c9e67d41d96e7ceb25237c94acde7c3e70737be86fba7b92aa887b3d20b67ae7d21a7a92be8b7a3de5df79e947ef7994e4927940bb9e78ecccec7899185478459dac77f25cce779f5590774c87cc76f9f35976a7980f765575c876038c5b75b1dba275606374750f23ab74be1c20746d4cac741cb52873cc556d737c2d55732c3cba72dc8374728d015d723db65071eea226719fc4b971511de47102ad8070b4736870666f767018a1856fcb096f6f7da7106f307a416ee382de6e96c0c36e4a33c96dfddbcc6db1b8a86d65ca386d1a10576cce8ae16c8339b26c381ca66bed33996ba27e656b57fce96b0daeff6ac394856a79ad566a2ff94f69e6784d699d2a2c69540ec9690b260168c26fb16879ebb6683199ed67e97a3467a18c686759d0656712460b66caed356683c5c3663ccf9265f60a7f65af766a6569132f6522e0ad64dcdec364970d4f64516c2e640bfb4163c6ba646381a978633cc85b62f816eb62b39509626f4292622b1f6661e72b6561a3666d615fd05e611c691960d9307b6096266560534ab760109d515fce1e125f8bccdb5f49a98c5f07b4055ec5ec265e8451d05e42e4e35e01a53f5dc092c75d7fad595d3ef4d75cfe69235cbe0a1c5c7dd7a45c3dd19c5bfdf7e55bbe4a615b7ec8f25b3f73775b0049d45ac14bea5a82799a5a43d2c65a05575159c7071c5988e209594ae7fb590d18d358cf74745891fac15854ab9b581786e657da8c83579dbc575761164257249a2956e847ef56ac1f75567020a056344b5255f89f7055bd1cdb5581c37855469329550b8bd454d0ad5a5495f7a1545b6a8b542105fd53e6c9da53acb6075372ca68533906e052ff6b5552c5f7aa528cabc352538786521a8ad751e1b59a51a907b45170810b5138218250ffe8fe50c7d765508fec9c5058288850208b0e4fe914134fb1c37c4f7a99304f4395144f0cb70c4ed5ff004e9f6cd44e69006e4e32b9b44dfc988c4dc69cdd4d90c68b4d5b157e4d25899c4cf022ca4cbae0ef4c85c3f14c50cbb84c1bf8294be7492b4bb2bea54b7e587e4b4a169c4b15f8e64ae1ff434aae299b4a7a77d44a46e9d64a137f8849e038d049ad1598497a15c44947393f49147fee48e1e9ba48af768a487d2646484af8d64818ee2247e7061147b5408c47839d7b47521cc64720be5546ef821046be67e0468d6fae465c9961462be4e245fb521a45cae0f2459a9152456a6323453a564d450a6abb44daa05444aaf702447b6ead444c0740441cc0a343ed9ac043be957f438fb0cb4360ec8d433248ae4303c51842d561b442a71e6c4278fb2b424af7da421d146241ef50ae41c1aca7419428394166c34c41397dcc410c57a240df50b840b268fa4085a0514058f6a8402c6be940000000

/-- Points of log2 u at u = 1 + j/256 (R151). -/
def log2Table : Nat :=
  0x400000003fd1c9e33fa37c993f75180c3f469c233f1808c83ee95de23eba9b5a3e8bc1183e5ccf033e2dc5043dfea3013dcf68e33da016913d70abf23d4128ec3d118d673ce1d9493cb20c793c8226dd3c52285c3c2210db3bf1e0413bc196733b9133563b60b6d13b3020c83aff71213acea7c03a9dc48b3a6cc7653a3bb0333a0a7eda39d9333e39a7cd4239764cca3944b1b93912fbf438e12b5d38af3fd7387d3946384b178b3818da8937e6822337b40e3a37817eb0374ed367371c0c4136e9291f36b629e136830e69364fd698361c824d35e9116a35b583ce3581d959354e11eb351a2d6334e62ba034b20c82347dcfe7344975ae3414fdb533e067da33abb3fb3376e1f53341f1a7330ce2ee32d7b5a532a269ab326cfedb323775123201cc2c31cc040431961c773160155e3129ee9630f3a7f930bd41613086baaa305013ab30194c412fe264432fab5b8b2f7431f22f3ce7512f057b802ecdee562e963fad2e5e6f5a2e267d362dee69182db632d52d7dda452d455f3d2d0cc1932cd4011d2c9b1daf2c62171f2c28ed402bef9fe82bb62eea2b7c9a192b42e1492b09044d2acf02f72a94dd192a5a92862a20230e29e58e8329aad4b6296ff5782934f09828f9c5e628be75312882fe4a284760fd280b9d1a27cfb26f2793a0c9275767f5271b07c026de7ff726a1d0652664f8d52627f91425ead0ec25ad80272570068e253263ed24f4980b24b6a2b1247883a8243a3ab723fbc7a623bd2a3b237e623d233f6f722300519f22c10889228193f52241f3a72202276321c22eeb21820a022141b86a210139e520c08e34207fb517203eae4f1ffd799b1fbc16b91f7a85691f38c5681ef6d6731eb4b8481e726aa21e2fed3d1ded3fd41daa62221d6753e01d2414c81ce0a4921c9d02f71c592fad1c152a6c1bd0f2ea1b8c88dc1b47ebf71b031bf01abe18791a78e1471a33760a19edd67619a802391961f905191bba8918d54674188e9c731847bc341800a56317b957ac1771d2ba172a163816e221ce1699f52516518fe41608f1b415c01a3a1577091b152dbdfc14e43881149a784c14507cff1406463b13bbd3a1137124cf1326396312db10fc128fab36124407ab11f825f711ac05b3115fa677111307db10c6297510790adc102baba20fde0b5d0f90299d0f4205f40ef39ff20ea4f7260e560b1e0e06db670db7678c0d67af170d17b1920cc76e840c76e5740c2615e80bd4ff640b83a16a0b31fb7d0ae00d1d0a8dd5c80a3b54fd09e88a37099574f1094214a608ee68cc089a70da08462c4607f19a84079cbb0407478d3906f21090069c44780646285c05efbba60598fdbf0541ee0e04ea8bf70492d6e0043ace2803e271300389bf570330b7f802d75a6f027da61302239a3b01c9363c016e79680113631100b7f286005c271200000000

/-- Points of 1/(1 + 2^(-u log2 e)) at u = -16 + j/32 (R151). -/
def sigmoidTable : Nat :=
  0x3fffff873fffff833fffff7f3fffff7b3fffff773fffff733fffff6e3fffff6a3fffff653fffff603fffff5b3fffff563fffff503fffff4b3fffff453fffff3f3fffff393fffff323fffff2c3fffff253fffff1e3fffff173fffff103fffff083fffff003ffffef83ffffef03ffffee73ffffede3ffffed53ffffecb3ffffec23ffffeb83ffffead3ffffea23ffffe973ffffe8c3ffffe803ffffe743ffffe673ffffe5a3ffffe4d3ffffe3f3ffffe313ffffe223ffffe133ffffe033ffffdf33ffffde23ffffdd13ffffdc03ffffdad3ffffd9a3ffffd873ffffd733ffffd5e3ffffd493ffffd333ffffd1c3ffffd043ffffcec3ffffcd33ffffcb93ffffc9f3ffffc833ffffc673ffffc4a3ffffc2b3ffffc0c3ffffbec3ffffbcb3ffffba93ffffb863ffffb613ffffb3c3ffffb153ffffaed3ffffac43ffffa993ffffa6d3ffffa403ffffa113ffff9e13ffff9af3ffff97c3ffff9473ffff9103ffff8d83ffff89e3ffff8623ffff8243ffff7e43ffff7a23ffff75e3ffff7183ffff6d03ffff6853ffff6383ffff5e83ffff5963ffff5423ffff4eb3ffff4903ffff4343ffff3d43ffff3713ffff30b3ffff2a13ffff2353ffff1c53ffff1513ffff0da3ffff05f3fffefe03fffef5c3fffeed53fffee4a3fffedba3fffed253fffec8c3fffebee3fffeb4b3fffeaa33fffe9f53fffe9423fffe8893fffe7ca3fffe7063fffe63b3fffe5693fffe4913fffe3b23fffe2cc3fffe1df3fffe0ea3fffdfee3fffdee93fffdddc3fffdcc73fffdba83fffda813fffd9503fffd8163fffd6d23fffd5833fffd42a3fffd2c63fffd1563fffcfdb3fffce543fffccc03fffcb1f3fffc9723fffc7b63fffc5ed3fffc4153fffc22e3fffc0383fffbe313fffbc1b3fffb9f33fffb7ba3fffb56e3fffb3103fffb09f3fffae1a3fffab813fffa8d23fffa60e3fffa3333fffa0413fff9d373fff9a143fff96d83fff93813fff900f3fff8c823fff88d73fff850f3fff81283fff7d213fff78fa3fff74b13fff70443fff6bb53fff66ff3fff62243fff5d213fff57f63fff52a03fff4d203fff47723fff41963fff3b8b3fff354f3fff2ee03fff283c3fff21633fff1a523fff13083fff0b823fff03c03ffefbbe3ffef37b3ffeeaf53ffee22a3ffed9173ffecfbb3ffec6123ffebc1c3ffeb1d43ffea7383ffe9c473ffe90fc3ffe85563ffe79513ffe6ceb3ffe60203ffe52ec3ffe454e3ffe37413ffe28c23ffe19cd3ffe0a5e3ffdfa723ffdea053ffdd9123ffdc7963ffdb58b3ffda2ee3ffd8fba3ffd7bea3ffd67783ffd52613ffd3c9e3ffd262b3ffd0f013ffcf71b3ffcde733ffcc5033ffcaac43ffc8fb03ffc73c03ffc56ed3ffc392f3ffc1a813ffbfad93ffbda2f3ffbb87d3ffb95b93ffb71db3ffb4cd93ffb26aa3ffaff463ffad6a23ffaacb33ffa81713ffa54ce3ffa26c23ff9f73f3ff9c63b3ff993a83ff95f7b3ff929a73ff8f21d3ff8b8d03ff87db23ff840b43ff801c73ff7c0dc3ff77de13ff738c63ff6f17a3ff6a7ec3ff65c093ff60dbe3ff5bcf73ff569a03ff513a63ff4baf13ff45f6d3ff401023ff39f993ff33b1a3ff2d36b3ff268733ff1fa183ff1883d3ff112c63ff099973ff01c913fef9b953fef16823fee8d393fedff963fed6d783fecd6b83fec3b323feb9ac03feaf5393fea4a743fe99a473fe8e4873fe829063fe767963fe6a0063fe5d2263fe4fdc33fe422a73fe3409d3fe2576d3fe166dc3fe06eb03fdf6eac3fde668f3fdd56193fdc3d063fdb1b113fd9eff33fd8bb623fd77d113fd634b33fd4e1f63fd384873fd21c103fd0a8383fcf28a43fcd9cf73fcc04ce3fca5fc53fc8ad763fc6ed763fc51f573fc342a83fc156f43fbf5bc43fbd509b3fbb34fa3fb9085d3fb6ca3d3fb47a0e3fb2173f3fafa13d3fad176e3faa79353fa7c5ef3fa4fcf53fa21d9b3f9f272e3f9c18f83f98f23d3f95b23a3f9258263f8ee3343f8b52903f87a55f3f83dabf3f7ff1c93f7be98f3f77c1193f73776b3f6f0b813f6a7c4d3f65c8bd3f60efb33f5bf00a3f56c8973f5178223f4bfd6c3f46572e3f4084163f3a82c93f3451e13f2defee3f275b773f2092f83f1994df3f125f943f0af16f3f0348bd3efb63c23ef340b23eeaddb63ee238eb3ed9505e3ed022123ec6abfa3ebcebfb3eb2dfee3ea8859a3e9ddab93e92dcf63e8789ed3e7bdf283e6fda233e6378493e56b6f43e49936e3e3c0af13e2e1aa23e1fbf983e10f6d63e01bd4f3df20fe13de1eb593dd14c733dc02fd53dae92133d9c6fb03d89c5193d768ea93d62c8a63d4e6f463d397ea83d23f2d93d0dc7d23cf6f9783cdf83a03cc762073cae905a3c950a333c7acb193c5fce823c440fcf3c278a533c0a394e3bec17f23bcd215e3bad50a53b8ca0c83b6b0cbf3b488f713b2523bb3b00c4713adb6c593ab516343a8dbcbc3a655aa33a3bea983a11674839e5cb5c39b91180398b3464395c2eb8392bfb3738fa94a238c7f5c73894197f385efab53828946637f0e1a537b7dd9b377d838e3741cee23704bb1b36c643e43686650c36451a903602609b35be338a35788ff13531729c34e8d896349ebf29345323e5340604a533b75f8c3367331133157dff32c23f77326d76f73217245e31bf47eb3165e245310af47e30ae8013305086f32ff10b7f2f90108d2f2d996e2ec9a9ec2e64464d2dfd73562d95364d2d2b94f72cc0959e2c543f0a2be6988b2b77a9ef2b077b892a96162b2a23832829afcc50293afbf128c51ccf284e3a2827d65faa275d997426e3f41026697c7025ee3fe425724c1d24f5af1f2478774123fab325237c71b022fdc205227eb37a21ff5599217fb81020ffeaad207ffd55200000001f8002ab1f0015531e8047f01e00aa671d814c861d023dfb1c838e501c054cdb1b8788bf1b0a50e11a8db3e31a11c01c19968390191c0bf018a2668c1829a05617b1c5d8173ae33116c5040f165033b015dc7cd81569e9d514f88477148856111419677513abc0f6133f6a6212d46b09126ac9b312028caa119bb9b31136561410d26692106fef73100ef4810faf790d0f517fed0ef50b820e9a1dbb0e40b8150de8dba20d9289090d3dc0890cea82010c98ccef0c48a0740bf9fb5b0bacdc1b0b6140d70b17276a0ace8d640a87700f0a41cc7609fd9f6509bae57009799af40939bc1c08fb44e508be311e08827c7208482265080f1e5b07d76b9a07a1054b076be68107380a3907056b5e06d404c906a3d1480674cb9c0646ee80061a34a405ee98b805c41568059aa55d05724344054ae9cc052493a704ff3b8f04dadc4504b7708f0494f34104735f380452af5b0432dea20413e80e03f5c6b203d875ad03bbf03103a0317e038534e7036af5cd03516fa603389df903207c600309068802f2382e02dc0d2702c6815802b190ba029d375a0289715702763ae70263905002516ded023fd02b022eb38d021e14a7020df01f01fe42b101ef092a01e0406801d1e55e01c3f50f01b66c9201a9490c019c87b7019025dd018420d801787613016d230a0162254701577a66014d20120143140501395406012fddee0126afa2011dc7150115224a010cbf4e01049c3e00fcb74300f50e9100eda06c00e66b2100df6d0800d8a48900d2101200cbae1f00c57d3700bf7bea00b9a8d200b4029400ae87de00a9376900a40ff6009f104d009a3743009583b30090f47f008c889500883ee70084167100800e37007c254100785aa10074ad7000711ccc006da7da006a4dc600670dc30063e7080060d8d2005de265005b030b00583a11005586cb0052e89200505ec3004de8c1004b85f2004935c30046f7a30044cb060042af650040a43c003ea90c003cbd58003ae0a90039128a0037528a0035a03b0033fb32003263090030d75c002f57c8002de3f0002c7b79002b1e0a0029cb4d002882ef0027449e0026100d0024e4ef0023c2fa0022a9e70021997100209154001f9150001e9924001da893001cbf63001bdd59001b023d001a2dda00195ffa0018986a0017d6fa00171b79001665b90015b58c00150ac7001465400013c4ce00132948001292880012006a001172c70010e97e0010646b000fe36f000f6669000eed3a000e77c3000e05e8000d978d000d2c95000cc4e6000c6067000bfefe000ba093000b450f000aec5a000a9660000a43090009f2420009a3f70009581400090e860008c73a0008821f00083f240007fe390007bf4c0007824e0007473000070de30006d6590006a08500066c58000639c5000608c10005d93e0005ab3200057e8f0005534d0005295e000500ba0004d9560004b32700048e2500046a4700044783000425d1000405270003e57f0003c6d10003a91300038c40000370500003553c00033afd0003218d000308e50002f0ff0002d9d50002c3620002ad9f00029888000284160002704600025d1200024a750002386a000226ee000215fb0002058e0001f5a20001e6330001d73e0001c8bf0001bab20001ad1400019fe000019315000186af00017aaa00016f04000163b9000158c800014e2c000143e4000139ee00013045000126e900011dd60001150b00010c85000104420000fc400000f47e0000ecf80000e5ae0000de9d0000d7c40000d1200000cab10000c4750000be6a0000b88e0000b2e00000ad600000a80a0000a2df00009ddc000099010000944b00008fbc00008b4f00008706000082df00007ed800007af1000077290000737e00006ff100006c7f00006928000065ec000062c900005fbf00005ccd000059f20000572e0000547f000051e600004f6100004cf000004a92000048460000460d000043e5000041cf00003fc800003dd200003beb00003a130000384a0000368e000034e100003340000031ac0000302500002eaa00002d3a00002bd600002a7d0000292e000027ea000026b00000257f000024580000233900002224000021170000201200001f1600001e2100001d3400001c4e00001b6f00001a97000019c5000018fa0000183600001777000016be0000160b0000155d000014b50000141200001374000012db00001246000011b60000112b000010a40000102000000fa100000f2600000eaf00000e3b00000dcb00000d5f00000cf500000c8f00000c2c00000bcc00000b7000000b1500000abe00000a6a00000a18000009c80000097b00000930000008e8000008a20000085e0000081c000007dc0000079e0000076200000728000006f0000006b900000684000006510000061f000005ef000005c000000593000005670000053c00000513000004eb000004c40000049f0000047a000004570000043500000414000003f4000003d5000003b6000003990000037d00000361000003470000032d00000314000002fc000002e4000002cd000002b7000002a20000028d000002790000026600000253000002400000022f0000021e0000020d000001fd000001ed000001de000001cf000001c1000001b3000001a6000001990000018c0000018000000174000001690000015e00000153000001480000013e000001350000012b0000012200000119000001100000010800000100000000f8000000f0000000e9000000e2000000db000000d4000000ce000000c7000000c1000000bb000000b5000000b0000000aa000000a5000000a00000009b00000096000000920000008d0000008900000085000000810000007d00000079

/-- Points of the standard normal distribution function at u = -8 + j/64 (R151). -/
def geluTable : Nat :=
  0x400000004000000040000000400000004000000040000000400000004000000040000000400000004000000040000000400000004000000040000000400000004000000040000000400000004000000040000000400000004000000040000000400000004000000040000000400000004000000040000000400000004000000040000000400000004000000040000000400000004000000040000000400000004000000040000000400000004000000040000000400000004000000040000000400000004000000040000000400000004000000040000000400000004000000040000000400000004000000040000000400000004000000040000000400000004000000040000000400000004000000040000000400000004000000040000000400000004000000040000000400000004000000040000000400000004000000040000000400000004000000040000000400000004000000040000000400000004000000040000000400000004000000040000000400000004000000040000000400000004000000040000000400000004000000040000000400000004000000040000000400000004000000040000000400000004000000040000000400000004000000040000000400000004000000040000000400000004000000040000000400000003fffffff3fffffff3fffffff3fffffff3fffffff3fffffff3fffffff3fffffff3fffffff3fffffff3fffffff3ffffffe3ffffffe3ffffffe3ffffffe3ffffffe3ffffffe3ffffffd3ffffffd3ffffffd3ffffffc3ffffffc3ffffffc3ffffffb3ffffffb3ffffffa3ffffffa3ffffff93ffffff83ffffff83ffffff73ffffff63ffffff53ffffff43ffffff33ffffff23ffffff03fffffef3fffffed3fffffec3fffffea3fffffe83fffffe53fffffe33fffffe03fffffdd3fffffda3fffffd73fffffd33fffffcf3fffffcb3fffffc63fffffc13fffffbb3fffffb53fffffae3fffffa73fffff9f3fffff973fffff8e3fffff843fffff793fffff6d3fffff603fffff523fffff443fffff333fffff223fffff0f3ffffefa3ffffee43ffffecc3ffffeb23ffffe963ffffe783ffffe573ffffe343ffffe0e3ffffde43ffffdb83ffffd883ffffd543ffffd1c3ffffce03ffffc9f3ffffc593ffffc0d3ffffbbc3ffffb643ffffb063ffffaa03ffffa333ffff9be3ffff93f3ffff8b73ffff8253ffff7883ffff6df3ffff6293ffff5663ffff4953ffff3b43ffff2c33ffff1c03ffff0aa3fffef803fffee403fffecea3fffeb7b3fffe9f13fffe84c3fffe6893fffe4a53fffe2a03fffe0763fffde263fffdbac3fffd9063fffd6323fffd32b3fffcff03fffcc7b3fffc8cb3fffc4da3fffc0a53fffbc273fffb75d3fffb2403fffaccd3fffa6fc3fffa0ca3fff9a2f3fff93253fff8ba63fff83aa3fff7b293fff721c3fff687b3fff5e3b3fff53553fff47bd3fff3b6a3fff2e503fff20643fff119a3fff01e43ffef1363ffedf803ffeccb33ffeb8c13ffea3983ffe8d273ffe755b3ffe5c203ffe41643ffe25103ffe070e3ffde7463ffdc59f3ffda2013ffd7c4f3ffd546e3ffd2a3e3ffcfda23ffcce783ffc9c9e3ffc67f03ffc30483ffbf5803ffbb76e3ffb75e73ffb30bd3ffae7c33ffa9ac73ffa49953ff9f3f93ff999ba3ff93a9e3ff8d6683ff86cd83ff7fdad3ff788a23ff70d6f3ff68bc83ff603613ff573e73ff4dd073ff43e693ff397b13ff2e8813ff230753ff16f283ff0a42f3fefcf1b3feeef7a3fee04d33fed0ead3fec0c863feafdd93fe9e21e3fe8b8c53fe7813a3fe63ae53fe4e5263fe37f5b3fe208d93fe080f13fdee6ee3fdd3a143fdb79a23fd9a4d13fd7bad13fd5bacd3fd3a3eb3fd175473fcf2df83fcccd0c3fca518c3fc7ba793fc506cb3fc235723fbf455a3fbc35623fb904653fb5b1333fb23a963fae9f4d3faade103fa6f58f3fa2e4713f9ea9513f9a42c73f95af5c3f90ed933f8bfbe63f86d8c53f8182963f7bf7b73f76367c3f703d2f3f6a0a113f639b593f5cef363f5603cb3f4ed7333f47677f3f3fb2b73f37b6d83f2f71d93f26e1a23f1e04173f14d7103f0b585c3f0185c23ef75cfe3eecdbc53ee1ffc23ed6c6983ecb2de23ebf33323eb2d4133ea60e063e98de873e8b43083e7d38f53e6ebdb53e5fcea53e50691d3e408a703e302fea3e1f56d23e0dfc6b3dfc1df23de9b89f3dd6c9a93dc34e413daf43973d9aa6d63d8575293d6fabb83d5947ab3d42462a3d2aa45a3d125f633cf9746e3cdfe0a53cc5a1333caab3483c8f14163c72c0d23c55b6b83c37f3083c1973083bfa34053bda33513bb96e4a3b97e2533b758cda3b526b573b2e7b4c3b09ba483ae425e43abdbbc73a9679a73a6e5d463a4564773a1b8d1c39f0d52739c53a9d3998bb94396b5634393d08bb390dd17a38ddaed538ac9f49387aa1683847b3db3813d56337df04d937a9413037728973373adccc37023a7a36c8a1db368e126b36528bbf36160d8b35d897a2359a29f5355ac492351a67aa34d9138b3496c8a434538785340f50df33ca25853384066b333cf4a832f4f17332abfe2732621c4432174d6931cb935a317eeffd3131655e30e2f5a93093a32e304370622ff25fdb2fa074532f4db0a62efa17d52ea5ad002e50736d2dfa6e812da3a1c42d4c10df2cf3bf9b2c9ab1e52c40ebc42be671652b8b470f2b2f712a2ad2f43b2a75d4e42a1817e529b9c217295ad87028fb6000289b5df2283ad78627d9d217277853162716600a26b3fe902651345625ee0722258a7cc725269b2e24c2684e245dea2b23f926da2394247c232ee93c22c97b532263e10021fe208c219840472132468820cc39a720662004200000001f99dffc1f33c6591ecdb9781e67bfb91e01df741d9c1f001d3684ad1cd116c41c6bdb841c06d9261ba215d51b3d97b21ad964d21a7583391a11f8de19aecbaa194c017018e99ff61887acea18262de917c5287a1764a20e1704a00016a5279016463de915e7e81b158a2b1c152d0bc514d08ed61474b8f114198e9b13bf143c13654e1b130c406512b3ef21125c5e3c1205917f11af8c93115a53001105e82b10b24f5a105f8bad100da0250fbc8f9e0f6c5cd20f1d0a570ece9aa20e8110030e346ca60de8b2970d9de3bc0d5401d90d0b0e8d0cc30b580c7bf9950c35da7b0bf0af210bac787b0b69375c0b26ec750ae598560aa53b6e0a65d60b0a27685e09e9f27509ad74410971ed9509375e2508fdc58608c52334088d768d0856bed00820fb2707ec2a9d07b84c2507855e98075360b70722512b06f22e8606c2f7450694a9cc0667446c063ac563060f2ad905e472e405ba9b890591a2ba0569865905424439051bda1c04f645b804d184b404ad94a9048a732604681dad044691b60425ccaf0405cbfb03e68cf803c80cf803aa4948038d3f2e0370ebea03554cb8033a5ecd03201f5b03068b9202eda09d02d55ba602bdb9d602a6b85502905448027a8ad70265592a0250bc69023cb1bf02293657021647610203e20e01f2039501e0a92e01cfd01601bf759001af96e301a0315b0191424b0182c70b0174bcf8016721790159f1fa014d2bed0140ccce0134d21e01293968011e003e0113243b0108a30200fe7a3e00f4a7a400eb28f000e1fbe900d91e5e00d08e2700c8492800c04d4900b8988100b128cd00a9fc3500a310ca009c64a70095f5ef008fc2d10089c98400840849007e7d6a0079273b0074041a006f126d006a50a40065bd39006156af005d1b8f00590a71005521f0005160b3004dc56a004a4ecd0046fb9b0043ca9e0040baa6003dca8e003af935003845870035ae74003332f40030d208002e8ab9002c5c15002a45330028452f00265b2f0024865e0022c5ec00211912001f7f0f001df727001c80a5001b1ada0019c51b00187ec60017473b00161de2001502270013f37a0012f1530011fb2d00111086001030e5000f5bd1000e90d8000dcf8b000d177f000c684f000bc197000b22f9000a8c190009fc9f000974380008f2910008775e0008025300079328000729980006c5620006664600060c070005b66b000565390005183d0004cf4300048a190004489200040a800003cfb80003981000036362000331880003025e0002d5c20002ab92000283b100025dff00023a61000218ba0001f8f20001daf00001be9c0001a3e000018aa5000172d900015c680001473f0001334d0001208000010eca0000fe1c0000ee660000df9c0000d1b00000c4960000b8430000acab0000a1c50000978500008de4000084d700007c560000745a00006cdb000065d100005f36000059040000533300004dc0000048a3000043d900003f5b00003b2600003735000033850000301000002cd5000029ce000026fa00002454000021da00001f8a00001d6000001b5b00001977000017b40000160f0000148500001316000011c00000108000000f5600000e4000000d3d00000c4c00000b6b00000a9a000009d70000092100000878000007db00000749000006c100000642000005cd00000560000004fa0000049c00000444000003f3000003a70000036100000320000002e4000002ac00000278000002480000021c000001f2000001cc000001a9000001880000016a0000014e000001340000011c00000106000000f1000000de000000cd000000bc000000ae000000a000000093000000870000007c00000072000000690000006100000059000000520000004b000000450000003f0000003a00000035000000310000002d000000290000002600000023000000200000001d0000001b0000001800000016000000140000001300000011000000100000000e0000000d0000000c0000000b0000000a0000000900000008000000080000000700000006000000060000000500000005000000040000000400000004000000030000000300000003000000020000000200000002000000020000000200000002000000010000000100000001000000010000000100000001000000010000000100000001000000010000000100000000000000000000000000000000000000000000000000000000000000000000000000000000000000000000000000000000000000000000000000000000000000000000000000000000000000000000000000000000000000000000000000000000000000000000000000000000000000000000000000000000000000000000000000000000000000000000000000000000000000000000000000000000000000000000000000000000000000000000000000000000000000000000000000000000000000000000000000000000000000000000000000000000000000000000000000000000000000000000000000000000000000000000000000000000000000000000000000000000000000000000000000000000000000000000000000000000000000000000000000000000000000000000000000000000000000000000000000000000000000000000000000000000000000000000000000000000000000000000000000000000000000000000000000000000000000000000000000000000000000000000000000000000000000000000000000000000000000000000000000000000000000000000000000000000000000000000000000000000000000000000000000000000000000000000000000000000000000000000000000000000

/-- round_rne(2^30 / u) at u = 1 + j/256 (R151). -/
def recipPoint (j : Nat) : Nat :=
  let d := 256 + j
  let n := 2 ^ 38
  let q := n / d
  let r := n % d
  if 2 * r < d then q else if 2 * r > d then q + 1 else if q % 2 = 0 then q else q + 1

/-- Integer square root by bits: the largest `r` with `r * r <= n`, building `r` from bit `k - 1` down. -/
def isqrtFrom (n : Nat) : Nat → Nat → Nat
  | 0, r => r
  | k + 1, r => isqrtFrom n k (if (r + 2 ^ k) * (r + 2 ^ k) ≤ n then r + 2 ^ k else r)

/-- round(2^30 / sqrt(p/q)), the value being no tie: half the rounded-down root of 4 * 2^60 * q / p, plus a half. -/
def rsqrtPoint (p q : Nat) : Nat := (isqrtFrom (2 ^ 62 * q / p) 34 0 + 1) / 2

end Sys2Proof.Machine
end

