-- ==== Sys2Proof/Machine/VectorLane.lean ====
section
/-! DEFINITION. Lane arithmetic of the vector engine: loads, stage operations, the function interpolator, conversions on
write (R140 to R152). A finite lane is `fin t 0`, standing for the working integer t. -/

namespace Sys2Proof.Machine

open Sys2Proof

/-! ### Descriptor fields (R153) -/

def vxMode (ws : List Word) : Nat := df ws 0 4 2

def vxLmode (ws : List Word) : Nat := df ws 0 6 2

def vxInt (ws : List Word) : Bool := (ws.getD 0 0).getLsbD 8

def vxStages (ws : List Word) : Nat := df ws 0 9 3 + 1

def vxRnd (ws : List Word) : Bool := (ws.getD 0 0).getLsbD 12

def vxSpan (ws : List Word) : Bool := (ws.getD 0 0).getLsbD 13

def vxSegm (ws : List Word) : Nat := df ws 0 14 2

def vxO1En (ws : List Word) : Bool := (ws.getD 0 0).getLsbD 19

def vxI1En (ws : List Word) : Bool := (ws.getD 0 0).getLsbD 20

def vxI1Bc (ws : List Word) : Bool := (ws.getD 0 0).getLsbD 21

def vxRed (ws : List Word) : Bool := (ws.getD 0 0).getLsbD 22

def vxO0Dis (ws : List Word) : Bool := (ws.getD 0 0).getLsbD 28

def vxD0 (ws : List Word) : Nat := df ws 1 0 16

/-- Rows of the iteration space. -/
def vxRows (ws : List Word) : Nat := df ws 1 16 16 * df ws 2 0 16 * df ws 2 16 16

/-- Format and signedness of tensor `n`: 0 I0, 1 I1, 2 O0, 3 O1. -/
def vxFmt (ws : List Word) (n : Nat) : Nat := df ws 5 (4 * n) 3

def vxSgn (ws : List Word) (n : Nat) : Bool := (ws.getD 5 0).getLsbD (4 * n + 3)

def vxQb (ws : List Word) (n : Nat) : Qb := ⟨fmtBits (vxFmt ws n), vxSgn ws n⟩

/-- XW. -/
def vxXw (ws : List Word) : Int := signedOf 8 (df ws 5 16 8)

/-- Data and scale handles, and word offset, of a tensor. -/
def vxH (ws : List Word) (n : Nat) : Nat := df ws 3 (6 * n) 6

def vxSH (ws : List Word) (n : Nat) : Nat := df ws 4 (6 * n) 6

def vxOff (ws : List Word) (n : Nat) : Nat := df ws (6 + n) 0 32

/-- Strides of a tensor and its SOFF, from the stride record (R155). -/
def vxStride (st : List Word) (n i : Nat) : Int := (st.getD (3 * n + i) 0).toInt

def vxSoff (st : List Word) (n : Nat) : Nat := (st.getD (12 + n) 0).toNat

/-- Working width and elements per chunk (R140). COMPRESS, EXPAND and a fused descriptor take 64 (R163, R166). -/
def vxW (ws : List Word) : Nat :=
  match vxLmode ws with
  | 0 => 32
  | 1 => 16
  | _ => 8

def vxChunk (ws : List Word) (fused : Bool) : Nat :=
  if fused ∨ vxMode ws ≠ 0 then 64
  else match vxLmode ws with
    | 0 => 64
    | 1 => 128
    | _ => 256

/-! ### Overflow -/

/-- A result and how many range overflows it stands for. -/
abbrev LaneR := Num × Nat

/-- A finite result of NUM arithmetic in `w` bits (R144). -/
def numFit (w : Nat) (t : Int) : LaneR :=
  if t.natAbs ≤ 2 ^ (w - 1) - 1 then (.fin t 0, 0) else (.inf (decide (t < 0)), 1)

/-- INT wraps modulo 2^32 (R144). -/
def intFit (t : Int) : LaneR := (.fin (signedOf 32 (codeOf 32 t)) 0, 0)

/-- A finite result in either type. -/
def laneFit (int : Bool) (w : Nat) (t : Int) : LaneR := if int then intFit t else numFit w t

/-- Load conversion of a value (R142). -/
def laneLoad (w : Nat) (xw : Int) : Num → LaneR
  | .fin m x => numFit w (rneScale m (x - 24 - xw))
  | n => (n, 0)

/-! ### Stage operations (R148) -/

/-- Negation of a lane. -/
def laneNeg : Num → Num
  | .fin t x => .fin (-t) x
  | .inf b => .inf (!b)
  | .nan => .nan

/-- Sum of lanes (R45, R144). -/
def laneAdd (int : Bool) (w : Nat) (a b : Num) : LaneR :=
  match a, b with
  | .fin x _, .fin y _ => laneFit int w (x + y)
  | a, b => (numAdd a b, 0)

/-- MIN (`gt` false) and MAX by R50. -/
def laneMinMax (gt : Bool) (a b : Num) : Num :=
  match a, b with
  | .nan, _ => .nan
  | _, .nan => .nan
  | a, b =>
    match numCompare a b with
    | some .lt => if gt then b else a
    | some .gt => if gt then a else b
    | _ => a

/-- The predicate of CMP (R49, R147). -/
def lanePred (aux : Nat) (a b : Num) : Bool :=
  match numCompare a b with
  | none => aux == 1
  | some o =>
    match aux with
    | 0 => o == .eq
    | 1 => o != .eq
    | 2 => o == .lt
    | 3 => o != .gt
    | 4 => o == .gt
    | _ => o != .lt

/-- A bitwise operation on two's-complement working integers. -/
def laneBits (int : Bool) (w : Nat) (f : Nat → Nat → Nat) (a b : Num) : LaneR :=
  match a, b with
  | .fin x _, .fin y _ => laneFit int w (signedOf w (f (codeOf w x) (codeOf w y)))
  | _, _ => (.nan, 0)

/-- A shift of a finite lane; specials are carried. -/
def laneShift (int : Bool) (w : Nat) (f : Int → Int) : Num → LaneR
  | .fin t _ => laneFit int w (f t)
  | n => (n, 0)

/-- SAT: A clamped to -|B| … +|B|. -/
def laneSat (int : Bool) (w : Nat) (a b : Num) : LaneR :=
  match b with
  | .fin y _ =>
    match a with
    | .nan => (.nan, 0)
    | .inf n => laneFit int w (if n then -(y.natAbs : Int) else y.natAbs)
    | .fin x _ => laneFit int w (max (-(y.natAbs : Int)) (min y.natAbs x))
  | _ => (.nan, 0)

/-- MUL. -/
def laneMul (int : Bool) (w sh : Nat) (a b : Num) : LaneR :=
  match a, b with
  | .fin x _, .fin y _ =>
    if int then intFit (floorScale (x * y) (-(sh : Int))) else numFit w (rneScale (x * y) (-(sh : Int)))
  | a, b => (specialProduct a b, 0)

/-! ### The function interpolator (R150, R151) -/

/-- Interpolation of a table at `v` = floor(((u - a) / h) 2^16). -/
def interp (t : Nat → Nat) (v : Int) : Int :=
  let j := (v / 65536).toNat
  let phi := v % 65536
  (t j : Int) + rneDiv (((t (j + 1) : Int) - t j) * phi) 65536

/-- y as a lane: beyond the width it becomes ±∞ (R151). -/
def fnOut (w : Nat) (g e : Int) : LaneR :=
  if g = 0 then (.fin 0 0, 0)
  else if 400 < e then (.inf (decide (g < 0)), 1)
  else if e < -400 then (.fin 0 0, 0)
  else numFit w (rneScale g e)

/-- Fraction (t - 2^l) 2^24 / 2^l of a positive t whose highest bit is l. -/
def mantFrac (t : Nat) : Int := ((t - 2 ^ t.log2) * 2 ^ 24 / 2 ^ t.log2 : Nat)

/-- FN on a lane of value t 2^x, output exponent xf. -/
def laneFn (w fn : Nat) (x xf : Int) (a : Num) : LaneR :=
  match fn, a with
  | _, .nan => (.nan, 0)
  | 0, .inf n => if n then (.fin 0 0, 0) else (.inf false, 0)
  | 0, .fin t _ =>
    -- |x| ≥ 2^9 is beyond every XF
    if cmpScaled t x 512 0 != .lt then fnOut w 1 1000
    else if cmpScaled t x (-512) 0 == .lt then (.fin 0 0, 0)
    else
      let n := floorScale t x
      let v := floorScale t (x + 24) - n * 2 ^ 24
      fnOut w (interp (tablePoint exp2Table) v) (n - 30 - xf)
  | 1, .inf n => if n then (.nan, 0) else (.inf false, 0)
  | 1, .fin t _ =>
    if t = 0 then (.inf true, 0)
    else if t < 0 then (.nan, 0)
    else
      let m := t.toNat
      let n : Int := m.log2 + x
      fnOut w (n * 2 ^ 30 + interp (tablePoint log2Table) (mantFrac m)) (-30 - xf)
  | 2, .inf _ => (.fin 0 0, 0)
  | 2, .fin t _ =>
    if t = 0 then (.inf false, 0)
    else
      let m := t.natAbs
      let n : Int := m.log2 + x
      let g := interp recipPoint (mantFrac m)
      fnOut w (if t < 0 then -g else g) (-n - 30 - xf)
  | 3, .inf n => if n then (.nan, 0) else (.fin 0 0, 0)
  | 3, .fin t _ =>
    if t = 0 then (.inf false, 0)
    else if t < 0 then (.nan, 0)
    else
      let m := t.toNat
      let l : Int := m.log2 + x
      let n := l / 2
      let q := if l % 2 = 0 then 256 else 128
      fnOut w (interp (fun j => rsqrtPoint (256 + j) q) (mantFrac m)) (-n - 30 - xf)
  | 4, .inf n => if n then (.fin 0 0, 0) else fnOut w (2 ^ 30) (-30 - xf)
  | 4, .fin t _ =>
    if cmpScaled t x 16 0 != .lt then fnOut w (2 ^ 30) (-30 - xf)
    else if cmpScaled t x (-16) 0 == .lt then (.fin 0 0, 0)
    else fnOut w (interp (tablePoint sigmoidTable) (floorScale t (x + 21) + 16 * 2 ^ 21)) (-30 - xf)
  | _, .inf n => if n then (.fin 0 0, 0) else (.inf false, 0)
  | _, .fin t _ =>
    if cmpScaled t x 8 0 != .lt then fnOut w (t * 2 ^ 30) (x - 30 - xf)
    else if cmpScaled t x (-8) 0 == .lt then (.fin 0 0, 0)
    else fnOut w (t * interp (tablePoint geluTable) (floorScale t (x + 22) + 8 * 2 ^ 22)) (x - 30 - xf)

/-! ### The chain (R146 to R149) -/

/-- Fields of stage `i` of a chain record (R147). -/
def stOp (ch : List Word) (i : Nat) : Nat := df ch (2 * i) 0 6

def stSa (ch : List Word) (i : Nat) : Nat := df ch (2 * i) 6 3

def stSb (ch : List Word) (i : Nat) : Nat := df ch (2 * i) 9 3

def stSh (ch : List Word) (i : Nat) : Nat := df ch (2 * i) 12 5

def stAux (ch : List Word) (i : Nat) : Nat := df ch (2 * i) 17 3

def stImm (ch : List Word) (i : Nat) : Word := ch.getD (2 * i + 1) 0

/-- A stage is a scan. -/
def isScan (op : Nat) : Bool := decide (0x20 ≤ op) && decide (op ≤ 0x22)

/-- Identity of a scan (R158). -/
def scanIdentity (int : Bool) (op : Nat) : Num :=
  match op with
  | 0x20 => .fin 0 0
  | 0x21 => if int then .fin (-(2 ^ 31)) 0 else .inf true
  | _ => if int then .fin (2 ^ 31 - 1) 0 else .inf false

/-- XF of stage 7 (R150). -/
def stXf (ch : List Word) : Int := signedOf 8 (bits (stImm ch 7).toNat 0 8)

/-- Scale exponent of a stage's result (R141). -/
def stScale (ws ch : List Word) (i : Nat) : Int := if i = 7 ∧ stOp ch 7 = 0x28 then stXf ch else vxXw ws

/-- What a lane carries along the chain: results and predicates of the stages so far, scan carry, overflows. -/
structure LaneSt where
  res : List Num
  preds : List (Option Bool)
  carry : Option Num
  ovf : Nat
deriving DecidableEq, Repr

/-- Operand of a stage (R147). -/
def stOperand (sel i : Nat) (imm : Word) (res : List Num) (i0 i1 : Num) : Num :=
  match sel with
  | 0 => if i = 0 then i0 else res.getD (i - 1) i0
  | 1 => if i ≤ 1 then i0 else res.getD (i - 2) i0
  | 2 => i0
  | 3 => i1
  | _ => .fin imm.toInt 0

/-- One stage of one lane. -/
def runStage (ws ch : List Word) (i0 i1 : Num) (l : LaneSt) (i : Nat) : LaneSt :=
  let int := vxInt ws
  let w := vxW ws
  let a := stOperand (stSa ch i) i (stImm ch i) l.res i0 i1
  let b := stOperand (stSb ch i) i (stImm ch i) l.res i0 i1
  let sh := stSh ch i
  let aux := stAux ch i
  let put (r : LaneR) : LaneSt := { l with res := l.res ++ [r.1], preds := l.preds ++ [none], ovf := l.ovf + r.2 }
  match stOp ch i with
  | 0x01 => put (laneAdd int w a b)
  | 0x02 => put (laneAdd int w a (laneNeg b))
  | 0x03 => put (laneMinMax false a b, 0)
  | 0x04 => put (laneMinMax true a b, 0)
  | 0x06 => put (laneShift int w (fun t => t * 2 ^ sh) a)
  | 0x07 => put (laneShift int w (fun t => floorScale t (-(sh : Int))) a)
  | 0x08 => put (laneShift int w (fun t => rneScale t (-(sh : Int))) a)
  | 0x09 => put (laneBits int w (· &&& ·) a b)
  | 0x0A => put (laneBits int w (· ||| ·) a b)
  | 0x0B => put (laneBits int w (· ^^^ ·) a b)
  | 0x0C => put (laneBits int w (fun x _ => 2 ^ w - 1 - x) a a)
  | 0x10 =>
    let p := lanePred aux a b
    { l with res := l.res ++ [.fin (if p then 1 else 0) 0], preds := l.preds ++ [some p] }
  | 0x11 =>
    let p := (l.preds.reverse.find? Option.isSome).join.getD false
    put (if p then a else b, 0)
  | 0x12 => put (laneSat int w a b)
  | 0x18 => put (laneMul int w sh a b)
  | 0x28 => put (laneFn w aux (vxXw ws) (stXf ch) a)
  | op =>
    if isScan op then
      let c := l.carry.getD (scanIdentity int op)
      let (v, o) := match op with
        | 0x20 => laneAdd int w c a
        | 0x21 => (laneMinMax true c a, 0)
        | _ => (laneMinMax false c a, 0)
      { l with res := l.res ++ [if aux % 2 = 1 then c else v], preds := l.preds ++ [none], carry := some v, ovf := l.ovf + o }
    else put (a, 0)

/-- The whole chain of one lane. -/
def runChain (ws ch : List Word) (carry : Option Num) (i0 i1 : Num) : LaneSt :=
  (List.range (vxStages ws)).foldl (runStage ws ch i0 i1) ⟨[], [], carry, 0⟩

/-! ### Writes (R143) -/

/-- A lane as a value t 2^x. -/
def laneNum (x : Int) : Num → Num
  | .fin t _ => .fin (t * 2 ^ 24) x
  | n => n

/-- A lane as an I32 word and its overflows (R143). -/
def laneI32 (int : Bool) (x : Int) : Num → Nat × Nat
  | .fin t _ =>
    if int then (codeOf 32 t, 0)
    else
      let v := rneScale t x
      if v.natAbs ≤ 2 ^ 31 - 1 then (codeOf 32 v, 0)
      else if 0 < v then (0x7FFFFFFF, 1) else (0x80000001, 1)
  | .inf false => (0x7FFFFFFF, 1)
  | .inf true => (0x80000001, 1)
  | .nan => (0x80000000, 1)

/-- A lane as an A48 code (R143). -/
def laneA48 (x : Int) (v : Num) : Nat :=
  (a48Code (match v with | .fin t _ => norm (t * 2 ^ 24) x | n => n)).toNat

end Sys2Proof.Machine
end

