-- ==== Sys2Proof/Machine/VectorOps.lean ====
section
/-! DEFINITION. Chunks, scans, reductions, summaries, COMPRESS and EXPAND (R153 to R169). -/

namespace Sys2Proof.Machine

open Sys2Proof

/-- Stores a vector descriptor's progress. -/
def setVx (c : Core) (d : VxRun) : Core := { c with vx := c.vx.map fun e => if e.op = d.op then d else e }

/-- The first descriptor with a chunk left, when the engine may read one. -/
def vxNext (c : Core) : Option VxRun :=
  if c.mode = .running ∧ c.vxStop = 0 then c.vx.find? (fun d => !d.allRead) else none

/-- i1, i2, i3 of row `r`. -/
def vxIdx (ws : List Word) (r : Nat) : Nat × Nat × Nat :=
  let d1 := df ws 1 16 16
  let d2 := df ws 2 0 16
  (r % d1, r / d1 % d2, r / (d1 * d2))

/-- Word offset of row `r` of tensor `n` (R156). -/
def vxRowOff (d : VxRun) (n r : Nat) : Int :=
  let (i1, i2, i3) := vxIdx d.words r
  (vxOff d.words n : Int) + i1 * vxStride d.strides n 0 + i2 * vxStride d.strides n 1 + i3 * vxStride d.strides n 2

/-- Words of `n` elements of a format from the start of a row (R33, R41). -/
def elemWords (f n : Nat) : Nat :=
  match f with
  | 4 => 2 * n
  | 5 => n
  | f => ceilDiv n 32 * (blockBytes f / 4)

/-- Reads words of a handle as the vector engine does. -/
def vxRead (s : State) (k h off n : Nat) : State × RdOut :=
  memRead s k (hEntry (getCore s k) h) off n true (fun c => stopVx c 2)

/-- Reads bytes of a handle, whole words at a time. -/
def vxReadBytes (s : State) (k h a n : Nat) : State × Option (List Byte) :=
  if n = 0 then (s, some [])
  else
    match vxRead s k h (a / 4) ((a + n - 1) / 4 - a / 4 + 1) with
    | (s', .ok ws) => (s', some (((wordsBytes ws).drop (a % 4)).take n))
    | (s', _) => (s', none)

/-- Writes bytes of a handle as the vector engine does: through the cache where the handle is cached, which takes whole
words, so the other bytes of a first and last word are read first. The answer is false while that read must wait. -/
def vxWriteBytes (s : State) (k h a : Nat) (bs : List Byte) : State × Bool :=
  let e := hEntry (getCore s k) h
  if bs.isEmpty then (s, true)
  else if e.cached then
    let w0 := a / 4
    let n := (a + bs.length - 1) / 4 - w0 + 1
    if a % 4 = 0 ∧ bs.length % 4 = 0 then
      (memWrite s k e w0 ((List.range n).map fun i => BitVec.ofNat 32 (getLe bs (4 * i) 4)) true, true)
    else
      match memRead s k e w0 n true (fun c => stopVx c 2) with
      | (s', .ok ws) =>
        let old := wordsBytes ws
        let all := old.take (a % 4) ++ bs ++ old.drop (a % 4 + bs.length)
        (memWrite s' k e w0 ((List.range n).map fun i => BitVec.ofNat 32 (getLe all (4 * i) 4)) true, true)
      | (s', _) => (s', false)
  else (memWriteBytes s k e a bs, true)

/-- Results leave for their handle, behind those that left before. -/
def vxPost (s : State) (k op h a : Nat) (bs : List Byte) : State :=
  let c := getCore s k
  setCore s k { c with vxOut := c.vxOut ++ [⟨op, h, a, bs⟩] }

/-- Writes are applied in order, until one must wait. -/
def vxDrain (s : State) (k : Nat) : List VxWrite → State
  | [] => setCore s k { getCore s k with vxOut := [] }
  | w :: ws =>
    match vxWriteBytes s k w.h w.addr w.bytes with
    | (s', true) => vxDrain s' k ws
    | (s', false) => setCore s' k { getCore s' k with vxOut := w :: ws }

/-- The vector engine applies what it has still to write. Where an error met on the way has stopped it, the position shown is
that of the chunk after the one written (R169). -/
def vxFlush (s : State) (k : Nat) : State :=
  let s := vxDrain s k (getCore s k).vxOut
  let c := getCore s k
  if c.vxStop = 0 then s else setCore s k (stopVx c c.vxStop)

/-- Values of elements `i0` to `i0 + n - 1` of row `r` of input tensor `t` (R156), and the scale bytes of their blocks, which
A48 and I32 do not have. -/
def vxInput (s : State) (k : Nat) (d : VxRun) (t r i0 n : Nat) : State × Option (List Num × List Nat) :=
  let ws := d.words
  let f := vxFmt ws t
  let row := (vxRowOff d t r).toNat
  match f with
  | 4 =>
    match vxRead s k (vxH ws t) (row + 2 * i0) (2 * n) with
    | (s', .ok vs) =>
      (s', some ((List.range n).map fun i => a48OfStored ((vs.getD (2 * i) 0).toNat + (vs.getD (2 * i + 1) 0).toNat * 2 ^ 32), []))
    | (s', _) => (s', none)
  | 5 =>
    match vxRead s k (vxH ws t) (row + i0) n with
    | (s', .ok vs) => (s', some (vs.map fun v => .fin (v.toInt * 2 ^ 24) 0, []))
    | (s', _) => (s', none)
  | f =>
    let bw := blockBytes f / 4
    let nb := ceilDiv n 32
    let srow := r * ceilDiv (vxD0 ws) 32
    match vxRead s k (vxH ws t) (row + i0 / 32 * bw) (nb * bw) with
    | (s1, .ok vs) =>
      match vxReadBytes s1 k (vxSH ws t) (vxSoff d.strides t + srow + i0 / 32) nb with
      | (s2, some sc) =>
        let bs := wordsBytes vs
        (s2, some ((List.range n).map fun i => qbValue (vxQb ws t) (sc.getD (i / 32) 0).toNat (packedElem bs f 0 i),
          sc.map (·.toNat)))
      | (s2, none) => (s2, none)
    | (s1, _) => (s1, none)

/-- A lane of a loaded value: its overflow is counted (R142). INT takes the integer itself. -/
def vxLoadLane (ws : List Word) (v : Num) : LaneR :=
  if vxInt ws then
    match v with
    | .fin m _ => (.fin (m / 2 ^ 24) 0, 0)
    | n => (n, 0)
  else laneLoad (vxW ws) (vxXw ws) v

/-! ### EXPAND (R165) -/

/-- Tile word offset of K-tile `kt`, N-tile `nt` of tensor `t` (R164). -/
def vxTileOff (d : VxRun) (t kT nT : Nat) : Nat :=
  ((vxOff d.words t : Int) + (nT * ceilDiv (vxD0 d.words) 256 + kT : Nat) * vxStride d.strides t 0).toNat

/-- Why a tile that EXPAND reads fails its checks: those of R129, and FMT against I0FMT; it skips the limit of R85, which is
the matrix loader's (R165). -/
def vxTileReason (d : VxRun) (bs : List Byte) (kT : Nat) : Option Nat :=
  tileFormReason bs (vxFmt d.words 0) 1 true (vxD0 d.words - 256 * kT)

/-- Index of a tile in the order of R164. -/
def vxTileIdx (d : VxRun) (kT nT : Nat) : Nat := nT * ceilDiv (vxD0 d.words) 256 + kT

/-- A tile that EXPAND needs: the bytes read before for its column group, else read now, whole; none when a read failed or
must wait. -/
def vxTile (s : State) (k : Nat) (d : VxRun) (kT nT : Nat) : State × Option (List Byte) :=
  match smapGet [] d.held (vxTileIdx d kT nT) with
  | b :: bs => (s, some (b :: bs))
  | [] =>
    let h := vxH d.words 0
    let off := vxTileOff d 0 kT nT
    match vxRead s k h off 4 with
    | (s1, .ok hd) =>
      let hb := wordsBytes hd
      let n := match vxTileReason d hb kT with
        | some r => if [0x10, 0x11, 0x01, 0x12, 0x13].contains r then 4 else ceilDiv (tClen hb) 4
        | none => ceilDiv (tClen hb) 4
      match vxRead s1 k h off (min n ((hEntry (getCore s1 k) h).len - off)) with
      | (s2, .ok ws) => (s2, some (wordsBytes ws))
      | (s2, _) => (s2, none)
    | (s1, _) => (s1, none)

/-- Values of `n` elements of column `col` from position `i0`, decoded from a tile (R165). A position that the tile names no
weight for holds zero, and NaN in a block of scale 0xFF (R30). -/
def vxExpand (d : VxRun) (bs : List Byte) (col i0 n : Nat) : List Num :=
  let q := vxQb d.words 0
  (List.range n).map fun i =>
    let p := (i0 + i) % 256
    let half := if tForm bs = 0 then p / 128 else 0
    let pp := if tForm bs = 0 then p % 128 else p
    qbValue q (tileScale bs half (col % 128) (pp / 32)) (wCode ((tileColumn bs half (col % 128)).getD pp none))

/-! ### Segments (R159) -/

/-- The next segment length above zero from the list: its value and the position after it. -/
def segNext (s : State) (k h : Nat) : Nat → Nat → State × Option (Option Int × Nat)
  | 0, pos => (s, some (none, pos))
  | fuel + 1, pos =>
    if (hEntry (getCore s k) h).len ≤ pos then (s, some (none, pos))
    else
      match vxRead s k h pos 1 with
      | (s', .ok ws) =>
        if 0 < (ws.getD 0 0).toInt then (s', some (some (ws.getD 0 0).toInt, pos + 1))
        else segNext s' k h fuel (pos + 1)
      | (s', _) => (s', none)

/-- Segment starts of `n` elements under SEGM 0b10, from the position in the list and what is left of the segment. -/
def segStarts (k h : Nat) : Nat → State → Nat → Option Int → List Bool → State × Option (List Bool × Nat × Option Int)
  | 0, s, pos, left, acc => (s, some (acc, pos, left))
  | n + 1, s, pos, left, acc =>
    match left with
    | none => segStarts k h n s pos none (acc ++ [false])
    | some 0 =>
      match segNext s k h ((hEntry (getCore s k) h).len + 1) pos with
      | (s', some (some l, pos')) => segStarts k h n s' pos' (some (l - 1)) (acc ++ [true])
      | (s', some (none, pos')) => segStarts k h n s' pos' none (acc ++ [true])
      | (s', none) => (s', none)
    | some l => segStarts k h n s pos (some (l - 1)) (acc ++ [false])

/-! ### Chunk results -/

/-- The chain over the lanes of a chunk, the scan carry running along them. -/
def runLanes (ws ch : List Word) : List (Num × Num × Bool) → Option Num → List LaneSt → List LaneSt × Option Num
  | [], c, acc => (acc, c)
  | (a, b, start) :: ls, c, acc =>
    let l := runChain ws ch (if start then none else c) a b
    runLanes ws ch ls l.carry (acc ++ [l])

/-- Combines a lane into a reduction (R160). -/
def redCombine (ws : List Word) (acc : Option Num) (v : Num) : Num :=
  match acc with
  | none => v
  | some a =>
    match df ws 0 23 2 with
    | 0 =>
      if vxInt ws then (laneAdd true 32 a v).1
      else match a, v with
        | .fin x _, .fin y _ =>
          if (x + y).natAbs ≤ 2 ^ 63 - 1 then .fin (x + y) 0 else .inf (decide (x + y < 0))
        | a, v => numAdd a v
    | 1 => laneMinMax true a v
    | _ => laneMinMax false a v

/-- Kind and stage of summary slot `k` (R161). -/
def sumKind (ws : List Word) (k : Nat) : Nat := df ws 13 (4 * k) 4

def sumStg (ws : List Word) (k : Nat) : Nat := df ws 14 (3 * k) 3

/-- Combines a lane into a summary slot; `idx` is its element index. -/
def sumCombine (ws : List Word) (k idx : Nat) (acc : Option Num) (l : LaneSt) : Option Num :=
  let v := l.res.getD (sumStg ws k) (.fin 0 0)
  let p := (l.preds.getD (sumStg ws k) none).getD false
  let count (b : Bool) : Option Num := match acc with
    | some (.fin t _) => some (.fin (t + if b then 1 else 0) 0)
    | _ => some (.fin (if b then 1 else 0) 0)
  match sumKind ws k with
  | 1 => some (match acc with | some a => laneMinMax true a v | none => v)
  | 2 => some (match acc with | some a => laneMinMax false a v | none => v)
  | 3 =>
    some (match acc, v with
      | none, v => v
      | some (.fin x _), .fin y _ => .fin (x + y) 0
      | some a, v => numAdd a v)
  | 4 => count (decide (v = .nan))
  | 5 => count (match v with | .inf _ => true | _ => false)
  | 6 => count p
  | 7 => match acc with
    | some a => if p then (match a with | .fin t _ => some (.fin (min t idx) 0) | _ => some (.fin idx 0)) else some a
    | none => if p then some (.fin idx 0) else none
  | _ => none

/-- The 32-bit value of a summary (R161). -/
def sumValue (ws : List Word) (k : Nat) (acc : Option Num) : Word :=
  match sumKind ws k, acc with
  | 7, none => 0xFFFFFFFF
  | 7, some (.fin t _) => BitVec.ofInt 32 t
  | 4, some (.fin t _) => BitVec.ofNat 32 (min t.toNat 0xFFFFFFFF)
  | 5, some (.fin t _) => BitVec.ofNat 32 (min t.toNat 0xFFFFFFFF)
  | 6, some (.fin t _) => BitVec.ofNat 32 (min t.toNat 0xFFFFFFFF)
  | _, some (.fin t _) =>
    if vxInt ws then BitVec.ofInt 32 t else BitVec.ofInt 32 (max (-(2 ^ 31 - 2)) (min (2 ^ 31 - 2) t))
  | _, some (.inf false) => 0x7FFFFFFF
  | _, some (.inf true) => 0x80000001
  | _, some .nan => 0x80000000
  | _, none => 0

/-- Draw of element `idx` under stochastic rounding (R65, R67). -/
def vxDraw (c : Core) (ws : List Word) (idx : Nat) : Option (BitVec 24) :=
  if vxRnd ws then
    some (draw (ws.getD 11 0) ((sheetSlate c).getD 0) (sheetScene c) (df ws 12 0 32) (idx % 2 ^ 32))
  else none

/-- Writes lanes `i0` onwards of row `r` of output tensor `t` at scale exponent `x` (R143, R145). `vs` are the unmasked
lanes, `d0` the row length that the scale plane counts in, `idx0` the element index of the first lane. Answers the
state and the overflows. -/
def vxOutput (s : State) (k : Nat) (d : VxRun) (t row srow i0 idx0 : Nat) (x : Int) (vs : List Num) : State × Nat :=
  let ws := d.words
  let c := getCore s k
  if vs.isEmpty then (s, 0)
  else match vxFmt ws t with
    | 4 => (vxPost s k d.op (vxH ws t) (4 * row + 8 * i0) (vs.flatMap fun v => leBytes 8 (laneA48 x v)), 0)
    | 5 =>
      let os := vs.map (laneI32 (vxInt ws) x)
      (vxPost s k d.op (vxH ws t) (4 * row + 4 * i0) (os.flatMap fun o => leBytes 4 o.1), os.foldl (fun a o => a + o.2) 0)
    | f =>
      let (data, sc) := quantBlocks f (vxQb ws t) (fun i => vxDraw c ws (idx0 + i)) (vs.map (laneNum x))
      let s := vxPost s k d.op (vxH ws t) (4 * row + i0 / 32 * blockBytes f) data
      (vxPost s k d.op (vxSH ws t) (vxSoff d.strides t + srow + i0 / 32) sc, 0)

/-! ### COMPRESS (R132 to R136, R164) -/

/-- One group of four after pruning: the four values, and how many non-zero ones were removed (R135). -/
def pruneGroup (g : List Num) : List Num × Nat :=
  let rank (v : Num) : Nat × Int := match v with
    | .nan => (2, 0)
    | .inf _ => (1, 0)
    | .fin t _ => (0, t.natAbs)
  let better (a b : Nat × (Nat × Int)) : Bool :=
    decide (b.2.1 < a.2.1) || (a.2.1 == b.2.1 && (decide (b.2.2 < a.2.2) || (a.2.2 == b.2.2 && decide (a.1 < b.1))))
  let rs := (g.map rank).zipIdx.map fun p => (p.2, p.1)
  let keep (i : Nat) : Bool := decide ((rs.filter fun o => better o (i, (rs.getD i (0, 0, 0)).2)).length < 2)
  let out := g.zipIdx.map fun p => if keep p.2 then p.1 else numZero
  (out, (g.zipIdx.filter fun p => !keep p.2 && !numIsZero p.1).length)

/-- A column of a tile after pruning: its values, the non-zero elements removed, and those of them that count. -/
structure Pruned where
  vals : List Num
  removed : Nat
  dropped : Nat
deriving DecidableEq, Repr

/-- One column of a tile: 256 values, after pruning. What is removed in a block whose source scale is 0xFF does not count
(R135); `nan` says which of the column's eight blocks those are. -/
def pruneColumn (on : Bool) (nan : List Bool) (vs : List Num) : Pruned :=
  if on then
    (List.range 64).foldl (fun a g =>
      let (o, n) := pruneGroup ((vs.drop (4 * g)).take 4)
      ⟨a.vals ++ o, a.removed + n, a.dropped + if nan.getD (g / 8) false then 0 else n⟩) ⟨[], 0, 0⟩
  else ⟨vs, 0, 0⟩

/-- Named positions of a group of four codes (R133). -/
def pairOf (g : List Nat) : Nat × Nat :=
  let nz := (List.range 4).filter fun i => g.getD i 0 != 0
  let z := (List.range 4).filter fun i => g.getD i 0 == 0
  let p := ((nz ++ z).take 2)
  (min (p.getD 0 0) (p.getD 1 0), max (p.getD 0 0) (p.getD 1 0))

/-- A quantised column: scales of its eight blocks and 256 codes. -/
structure QCol where
  scales : List Nat
  codes : List Nat
deriving DecidableEq, Repr

/-- Groups of a column with more than two non-zero codes. -/
def overGroups (q : QCol) : List Nat :=
  (List.range 64).filter fun g => decide (2 < (((q.codes.drop (4 * g)).take 4).filter (· != 0)).length)

/-- Header bytes with their check byte (R110, R111). -/
def tileHeader (form f b1 nnz dropped clen : Nat) : List Byte :=
  let h := record 16 [(0, 1, form + f * 4 + 16), (1, 1, b1), (4, 2, nnz), (6, 2, min dropped 0xFFFF), (8, 4, clen)]
  let sum := h.foldl (fun a b => a + b.toNat) 0
  putLe h 15 1 ((256 - sum % 256) % 256)

/-- Body of a DENSE tile of KSPAN 1 (R113). -/
def denseBody (f : Nat) (cols : List QCol) : List Byte :=
  (cols.flatMap fun c => packElems f c.codes) ++ (cols.flatMap fun c => c.scales.map (BitVec.ofNat 8))

/-- Body of an S24 tile (R115). -/
def s24Body (f : Nat) (cols : List QCol) : List Byte :=
  let pairs (c : QCol) : List (Nat × Nat) := (List.range 64).map fun g => pairOf ((c.codes.drop (4 * g)).take 4)
  let vals := cols.flatMap fun c => packElems f ((pairs c).zipIdx.flatMap fun p =>
    [c.codes.getD (4 * p.2 + p.1.1) 0, c.codes.getD (4 * p.2 + p.1.2) 0])
  let nibs := cols.flatMap fun c => packElems 0 ((pairs c).map fun p => p.1 + 4 * p.2)
  vals ++ nibs ++ (cols.flatMap fun c => c.scales.map (BitVec.ofNat 8))

/-- Body of an SU tile (R121). -/
def suBody (f : Nat) (cols : List QCol) : List Byte :=
  let es := cols.map fun c => c.codes.zipIdx.filter fun p => p.1 != 0
  let all := es.flatten
  let pad (bs : List Byte) : List Byte := bs ++ List.replicate (ru16 bs.length - bs.length) 0
  (es.flatMap fun e => leBytes 2 e.length) ++ pad (all.map fun p => BitVec.ofNat 8 p.2)
    ++ pad (packElems f (all.map (·.1))) ++ (cols.flatMap fun c => c.scales.map (BitVec.ofNat 8))

/-- A tile as COMPRESS emits it: bytes, DECL_FAIL groups, SIZE_FALLBACK, non-zero elements removed that count. -/
structure Emitted where
  bytes : List Byte
  declGroups : List Nat
  fallback : Bool
  dropped : Nat
deriving DecidableEq, Repr

/-- Emits one tile from its 128 columns of 256 lanes, each with the NaN blocks of its source (R132 to R135). `draws` gives
the draw of column n, position k. PRUNED stands for any removal, counted or not (R110). -/
def emitTile (ws : List Word) (x : Int) (draws : Nat → Nat → Option (BitVec 24)) (cols : List (List Num × List Bool)) : Emitted :=
  let f := vxFmt ws 2
  let q := vxQb ws 2
  let prune := (ws.getD 5 0).getLsbD 28
  let su := (ws.getD 5 0).getLsbD 27
  let pr := cols.map fun c => pruneColumn prune c.2 c.1
  let dropped := pr.foldl (fun (a : Nat) (p : Pruned) => a + p.dropped) 0
  let removed := pr.foldl (fun (a : Nat) (p : Pruned) => a + p.removed) 0
  let qc := pr.zipIdx.map fun p =>
    let bl := (blocks32 9 (p.1.vals.map (laneNum x))).zipIdx.map fun b => quantise q (fun i => draws p.2 (32 * b.2 + i)) b.1
    (⟨bl.map (·.1), bl.flatMap (·.2)⟩ : QCol)
  let nnz := qc.foldl (fun a c => a + (c.codes.filter (· != 0)).length) 0
  let overs := qc.zipIdx.flatMap fun c => (overGroups c.1).map fun g => c.2 * 64 + g
  let b1 := if 0 < removed then 4 else 0
  let dense (flag : Nat) : List Byte := tileHeader 0 f (b1 + flag) nnz dropped (denseLen 1 f) ++ denseBody f qc
  if su then
    let lim := df ws 15 16 16
    if (lim ≠ 0 ∧ lim < nnz) ∨ suLimit f < nnz ∨ denseLen 1 f ≤ tileLen 2 1 f nnz then ⟨dense 2, [], true, dropped⟩
    else ⟨tileHeader 2 f b1 nnz dropped (tileLen 2 1 f nnz) ++ suBody f qc, [], false, dropped⟩
  else if !prune && !overs.isEmpty then ⟨dense 1, overs, false, dropped⟩
  else ⟨tileHeader 1 f b1 nnz dropped (tileLen 1 1 f nnz) ++ s24Body f qc, [], false, dropped⟩

/-- Kept non-zero elements at positions that the previous tile did not name (R136). An element counts as non-zero by its
emitted code, and the previous tile is read as S24 metadata whatever its header says (DESIGN CHOICE, log entry 95). -/
def regrown (old new : List Byte) : Nat :=
  if tForm new ≠ 1 then 0
  else (List.range 128).foldl (fun a n => (List.range 64).foldl (fun a g =>
    let o := s24Nibble old n g
    let w := s24Nibble new n g
    let val (h : Nat) : Nat := packedElem new (tFmt new) (16 + n * 64 * fmtDigits (tFmt new)) (2 * g + h)
    let one (i h : Nat) : Nat := if i ≠ o % 4 ∧ i ≠ o / 4 ∧ val h ≠ 0 then 1 else 0
    a + one (w % 4) 0 + one (w / 4) 1) a) 0

/-- The previous tiles of the column group that ends at row `r`, when the descriptor compares with them (R136, R164): none
when a read failed or must wait, as for any other input. -/
def vxPrev (k : Nat) (d : VxRun) (r : Nat) : Nat → State → State × Option (List (List Byte))
  | 0, s => (s, some [])
  | n + 1, s =>
    if (d.words.getD 5 0).getLsbD 29 then
      match vxPrev k d r n s with
      | (s1, some ts) =>
        match vxRead s1 k (df d.words 4 24 6) (((vxTileIdx d n (r / 128) : Nat) : Int) * vxStride d.strides 2 0).toNat
            (tileLen 1 1 (vxFmt d.words 2) 0 / 4) with
        | (s2, .ok w) => (s2, some (ts ++ [wordsBytes w]))
        | (s2, _) => (s2, none)
      | (s1, none) => (s1, none)
    else (s, some [])

/-- Emits the tiles of the column group that ends at row `r`; `prev` holds its previous tiles, if compared (R164). -/
def vxEmitGroup (s : State) (k : Nat) (d : VxRun) (r : Nat) (prev : List (List Byte)) : State × VxRun :=
  let ws := d.words
  let kt := ceilDiv (vxD0 ws) 256
  let nT := r / 128
  let set := df ws 5 24 3
  (List.range kt).foldl (fun a kT =>
    let (s, d) := a
    let c := getCore s k
    let cols := (List.range 128).map fun n =>
      let col := d.group.getD n []
      ((List.range 256).map (fun i => col.getD (256 * kT + i) (.fin 0 0)), ((d.nanBlocks.getD n []).drop (8 * kT)).take 8)
    let e := emitTile ws (stScale ws d.chain (vxStages ws - 1))
      (fun n i => vxDraw c ws (256 * kT + i + vxD0 ws * (128 * nT + n))) cols
    let s := vxPost s k d.op (vxH ws 2) (4 * vxTileOff d 2 kT nT) e.bytes
    let c := getCore s k
    let inc (v : Vector Word 8) (n : Nat) : Vector Word 8 :=
      v.setIfInBounds set (BitVec.ofNat 32 (satAdd 0xFFFFFFFF (v.toList.getD set 0).toNat n))
    let c := { c with
      pruDeclfail := satAdd 0xFFFFFFFF c.pruDeclfail (if e.declGroups.isEmpty then 0 else 1)
      cmpFallback := satAdd 0xFFFFFFFF c.cmpFallback (if e.fallback then 1 else 0)
      pruPruned := inc c.pruPruned e.dropped
      pruRegrown := inc c.pruRegrown (match prev[kT]? with | some o => regrown o e.bytes | none => 0) }
    let d := match e.declGroups with
      | [] => d
      | g :: gs => { d with
          declTiles := d.declTiles + 1
          declFail := match d.declFail with
            | some x => some x
            | none => some (nT * kt + kT, g, gs.length + 1) }
    (setCore s k c, d)) (s, { d with group := d.group })

/-! ### One chunk -/

/-- Unmasked lanes of the next chunk (R145, R163). -/
def vxLive (d : VxRun) (mRows : Nat) : Nat :=
  let ch := vxChunk d.words d.fused.isSome
  match d.fused with
  | some n => min ch (min 128 (n - 128 * (d.row / mRows)) - d.i0)
  | none => min ch (vxD0 d.words - d.i0)

/-- Rows of the matrix descriptor of a fused descriptor: rows divided by its N-tiles. -/
def vxFusedM (d : VxRun) : Nat :=
  match d.fused with
  | some n => vxRows d.words / ceilDiv n 128
  | none => 1

/-- The chunk pointer after a chunk. -/
def vxAdvance (d : VxRun) : VxRun :=
  let ch := vxChunk d.words d.fused.isSome
  if d.i0 + ch < vxD0 d.words then { d with i0 := d.i0 + ch }
  else if d.row + 1 < vxRows d.words then { d with i0 := 0, row := d.row + 1 }
  else { d with i0 := 0, row := d.row + 1, allRead := true }

/-- K-tile and N-tile of the next chunk of an EXPAND. -/
def vxAt (d : VxRun) : Nat × Nat := (d.i0 / 256, d.row / 128)

/-- The values of the next chunk's I0 lanes (R145, R163, R165), with the scale bytes of their blocks; none when a read
failed or must wait. -/
def vxI0 (s : State) (k : Nat) (d : VxRun) (n : Nat) : State × Option (List Num × List Nat) :=
  match d.fused with
  | some _ =>
    let row := (getCore s k).fusedRows.getD 0 []
    (s, some ((row.drop d.i0).take n, []))
  | none =>
    if vxMode d.words = 2 then
      match vxTile s k d (vxAt d).1 (vxAt d).2 with
      | (s', some bs) => (s', some (vxExpand d bs d.row d.i0 n, []))
      | (s', none) => (s', none)
    else vxInput s k d 0 d.row d.i0 n

/-- The values of the next chunk's I1 lanes. A broadcast element is read with the row's first chunk and kept for the others,
so that each element is read before it is written (R156). -/
def vxI1 (s : State) (k : Nat) (d : VxRun) (n : Nat) : State × Option (List Num) :=
  if !vxI1En d.words then (s, some (List.replicate n numZero))
  else if vxI1Bc d.words then
    match d.i0, d.bcast with
    | _ + 1, some v => (s, some (List.replicate n v))
    | _, _ =>
      match vxInput s k d 1 d.row 0 1 with
      | (s', some vs) => (s', some (List.replicate n (vs.1.getD 0 numZero)))
      | (s', none) => (s', none)
  else
    match vxInput s k d 1 d.row d.i0 n with
    | (s', some vs) => (s', some vs.1)
    | (s', none) => (s', none)

/-- Segment starts of a chunk and the list position after it (R158, R159). -/
def vxStarts (s : State) (k : Nat) (d : VxRun) (i1 : List Num) : State × Option (List Bool × Nat × Option Int) :=
  match vxSegm d.words with
  | 1 =>
    (s, some (i1.map (fun v => match v with | .fin t _ => t != 0 | _ => true), d.segPos, d.segLeft))
  | 2 => segStarts k (df d.words 3 24 6) i1.length s d.segPos d.segLeft []
  | _ => (s, some (i1.map fun _ => false, d.segPos, d.segLeft))

/-- The chunk ends a column group of COMPRESS at row `r` (R164). -/
def vxGroupEnds (d : VxRun) : Bool :=
  let d' := vxAdvance d
  vxMode d.words == 1 && decide (d'.row ≠ d.row) && (d.row % 128 == 127 || d'.allRead)

/-- What a chunk leaves with its descriptor beside results: broadcast element and NaN blocks (R135, R156). -/
def vxKeep (d : VxRun) (i1 : List Num) (scales : List Nat) : VxRun :=
  { d with
    bcast := if vxI1Bc d.words then i1.head? else none
    nanBlocks :=
      if vxMode d.words = 1 then
        let r := d.row % 128
        let col := (d.nanBlocks.getD r []) ++ scales.map (· == 0xFF)
        if r < d.nanBlocks.length then d.nanBlocks.set r col else d.nanBlocks ++ [col]
      else [] }

/-- The results of a chunk are written (R143, R160, R161, R164); `prev` holds the previous tiles of a column group that
ends. -/
def vxFinish (s : State) (k : Nat) (d : VxRun) (lanes : List LaneSt) (ovf0 : Nat) (prev : List (List Byte)) : State :=
  let ws := d.words
  let r := d.row
  let last := vxStages ws - 1
  let d' := vxAdvance d
  let endRow := decide (d'.row ≠ d.row)
  let idx0 := d.i0 + vxD0 ws * r
  let srow := r * ceilDiv (vxD0 ws) 32
  let res (st : Nat) : List Num := lanes.map fun l => l.res.getD st (.fin 0 0)
  let ovf := lanes.foldl (fun a l => a + l.ovf) ovf0
  -- O0
  let (s, o) :=
    if vxMode ws = 1 ∨ vxO0Dis ws = true then (s, 0)
    else vxOutput s k d 2 (vxRowOff d 2 r).toNat srow d.i0 idx0 (stScale ws d.chain last) (res last)
  let ovf := ovf + o
  -- O1 as a stage output
  let (s, o) :=
    if vxO1En ws && !vxRed ws then
      vxOutput s k d 3 (vxRowOff d 3 r).toNat srow d.i0 idx0 (stScale ws d.chain (df ws 0 16 3)) (res (df ws 0 16 3))
    else (s, 0)
  let ovf := ovf + o
  -- reductions
  let red := if vxRed ws then (res (df ws 0 25 3)).foldl (fun a v => some (redCombine ws a v)) d.red else none
  let write := vxRed ws && (if vxSpan ws then d'.allRead else endRow)
  let (s, o) :=
    if write then
      match red with
      | some v =>
        let row := if vxSpan ws then (vxOff ws 3 : Int) else vxRowOff d 3 r
        let sr := if vxSpan ws then 0 else r
        vxOutput s k d 3 row.toNat sr 0 sr (stScale ws d.chain (df ws 0 25 3)) [v]
      | none => (s, 0)
    else (s, 0)
  let ovf := ovf + o
  -- summaries
  let sums := d.sums.zipIdx.map fun p =>
    lanes.zipIdx.foldl (fun a l => sumCombine ws p.2 ((idx0 + l.2) % 2 ^ 32) a l.1) p.1
  -- compressor state: one list of lanes for each column of the group
  let group :=
    if vxMode ws = 1 then
      let col := d.group.getD (r % 128) []
      if r % 128 < d.group.length then d.group.set (r % 128) (col ++ res last) else d.group ++ [res last]
    else []
  let d' := { d' with red := if write then none else red, sums := sums, group := group }
  let (s, d') :=
    if vxGroupEnds d then
      let (s, e) := vxEmitGroup s k { d with group := group } r prev
      (s, { d' with group := [], nanBlocks := [], declFail := e.declFail, declTiles := e.declTiles })
    else (s, d')
  let c := getCore s k
  let c := { c with
    vxOvf := satAdd 0xFFFFFFFF c.vxOvf ovf
    fusedRows := if d.fused.isSome && endRow then c.fusedRows.drop 1 else c.fusedRows }
  vxFlush (setCore s k (setVx c d')) k

/-- One chunk: inputs, chain, outputs (R156, R167). The overflow of a
broadcast element at load counts once for its row, with the first chunk (DESIGN CHOICE, log entry 95). -/
def vxChunkStep (s : State) (k : Nat) (d : VxRun) : State :=
  let ws := d.words
  let n := vxLive d (vxFusedM d)
  match vxI0 s k d n with
  | (s1, some (a0, scales)) =>
    match vxI1 s1 k d n with
    | (s2, some a1) =>
      let d := vxKeep d a1 scales
      let l0 := a0.map (vxLoadLane ws)
      let l1 := a1.map (vxLoadLane ws)
      let o0 := l0.foldl (fun a l => a + l.2) 0
      let o1 := if !vxI1En ws then 0
        else if vxI1Bc ws then (if d.i0 = 0 then ((l1.getD 0 (.nan, 0)).2) else 0)
        else l1.foldl (fun a l => a + l.2) 0
      match vxStarts s2 k d (l1.map (·.1)) with
      | (s3, some (starts, pos, left)) =>
        let carry := if d.i0 = 0 && !vxSpan ws then none else d.carry
        let ins := (l0.map (·.1)).zip ((l1.map (·.1)).zip starts)
        let (lanes, carry') := runLanes ws d.chain ins carry []
        match vxPrev k d d.row (if vxGroupEnds d then ceilDiv (vxD0 ws) 256 else 0) s3 with
        | (s4, some prev) => vxFinish s4 k { d with carry := carry', segPos := pos, segLeft := left } lanes (o0 + o1) prev
        | (s4, none) => s4
      | (s3, none) => s3
    | (s2, none) => s2
  | (s1, none) => s1

end Sys2Proof.Machine
end

