-- ==== Sys2Proof/Machine/Vector.lean ====
section
/-! DEFINITION. The steps of the vector engine (R153 to R169). -/

namespace Sys2Proof.Machine

open Sys2Proof

/-- The fused descriptor that may become executing: every descriptor before it has read its last chunk (R163). -/
def vxFusedReady (c : Core) : Option VxRun :=
  match c.vx.find? fun d => !d.allRead with
  | some d => if d.fused.isSome && !d.begun then some d else none
  | none => none

/-- FUSED_VXD_START (R163). -/
def execFusedVxdStart (c : CoreId) (s : State) : Host.Outcome State Fault Refusal :=
  let k := coreKey c
  match vxFusedReady (getCore s k) with
  | some d => .next (setCore s k (setVx (getCore s k) { d with begun := true }))
  | none => .next s

/-- The descriptor whose next chunk can be read: no result waits to be written, and a fused one takes a row that has been handed
over (R163). -/
def vxReady (c : Core) : Option VxRun :=
  match if c.vxOut.isEmpty then vxNext c else none with
  | some d => if d.fused.isSome && (!d.begun || c.fusedRows.isEmpty) then none else some d
  | none => none

/-- The descriptor of an EXPAND with the tile of its next chunk as read: each tile is read once, and kept while its column
group lasts (R156, R165). -/
def vxHold (d : VxRun) (bs : List Byte) : VxRun :=
  let m := d.held.filter fun p => p.1 / ceilDiv (vxD0 d.words) 256 == (vxAt d).2
  { d with held := smapSet [] m (vxTileIdx d (vxAt d).1 (vxAt d).2) bs }

/-- VX_CHUNK (R156, R167): one chunk, unless an EXPAND tile that it needs fails its checks. Results that still wait are written
first, also during a stop (R169). -/
def execVxChunk (c : CoreId) (s : State) : Host.Outcome State Fault Refusal :=
  let k := coreKey c
  match vxReady (getCore s k) with
  | some d =>
    if vxMode d.words = 2 then
      match vxTile s k d (vxAt d).1 (vxAt d).2 with
      | (s', some bs) =>
        .next (match vxTileReason d bs (vxAt d).1 with
          | some _ => s
          | none => vxChunkStep s' k (vxHold d bs))
      | (s', none) => .next s'
    else .next (vxChunkStep s k d)
  | none => .next (if (getCore s k).vxOut.isEmpty then s else vxFlush s k)

/-- The tile violation of the vector engine (R165). -/
def vxViolate (s : State) (k : Nat) (d : VxRun) (reason : Nat) : State :=
  let tile := (vxAt d).2 * ceilDiv (vxD0 d.words) 256 + (vxAt d).1
  let s := setCore s k (stopVx (getCore s k) 3)
  let s := violate s k 0x13 0x7013 [(28, 2, d.addr), (30, 1, reason), (32, 4, tile)]
  setCore s k { getCore s k with vxStop := 3 }

/-- VX_TILE_VIOLATION: the first element of a tile that fails its checks is due (R165). -/
def execVxTileViolation (c : CoreId) (s : State) : Host.Outcome State Fault Refusal :=
  let k := coreKey c
  match vxReady (getCore s k) with
  | some d =>
    if vxMode d.words = 2 then
      match vxTile s k d (vxAt d).1 (vxAt d).2 with
      | (s', some bs) =>
        .next (match vxTileReason d bs (vxAt d).1 with
          | some r => vxViolate s' k d r
          | none => s)
      | (s', none) => .next s'
    else .next s
  | none => .next s

/-- Summary registers at completion (R161, R162). -/
def vxSums (c : Core) (d : VxRun) : Core :=
  (List.range 8).foldl (fun c i =>
    if sumKind d.words i = 0 then c
    else { c with s := c.s.setIfInBounds i (sumValue d.words i (d.sums.getD i none)) }) c

/-- A vector descriptor completes (R162, R134). -/
def vxComplete (s : State) (k : Nat) (d : VxRun) : State :=
  let c := vxSums (getCore s k) d
  let c := sbRelease { c with vx := c.vx.filter (·.op != d.op) } d.op
  let c := if c.vx.isEmpty then { c with vxStop := 0 } else c
  let s := putCore s k (doneCtr c (d.words.getD 15 0))
  match d.declFail with
  | some (tile, g, n) =>
    coreEv s k 0x1010 1 [(28, 2, d.addr), (30, 1, df d.words 5 24 3), (32, 4, tile), (36, 2, g), (38, 2, n), (40, 4, d.declTiles)]
  | none => s

/-- VX_DESCRIPTOR_COMPLETE: every chunk has been read and written. -/
def execVxDescriptorComplete (c : CoreId) (s : State) : Host.Outcome State Fault Refusal :=
  let co := getCore s (coreKey c)
  match co.vx with
  | d :: _ => if d.allRead && co.vxOut.all (·.op != d.op) then .next (vxComplete s (coreKey c) d) else .next s
  | [] => .next s

end Sys2Proof.Machine
end

