-- ==== Sys2Proof/Machine/IssueOps.lean ====
section
/-! DEFINITION. The checks made when a descriptor is issued: records, form, operand ranges (R92, R149, R150, R156, R157,
R163, R164, R166, R182, R210, R212, R229, R230). -/

namespace Sys2Proof.Machine

open Sys2Proof

/-! ### Records (R182) -/

/-- 16 words from `a` lie within a LOCAL handle of the running slate whose X permission is set. -/
def recordOk (c : Core) (a : Nat) : Bool :=
  (List.range 64).any fun h =>
    let e := hEntry c h
    e.space == 1 && e.px && some e.slate == sheetSlate c && decide (e.base ≤ a) && decide (a + 16 ≤ e.base + e.len)

/-- The 16 words of a record. -/
def recordAt (c : Core) (a : Nat) : List Word := ramWords c.sp a 16

/-- First check that fails, as the word of its field (R102). -/
def firstWord : List (Bool × Nat) → Option Nat
  | [] => none
  | (b, w) :: l => if b then some w else firstWord l

/-- The lowest word among failing fields, as one check. -/
def lowestWord (l : List (Bool × Nat)) : Bool × Nat :=
  match (l.filter (·.1)).map (·.2) with
  | [] => (false, 0)
  | a :: l => (true, l.foldl min a)

/-- A field of a descriptor word is not zero. -/
def dfNz (ws : List Word) (i lo len : Nat) : Bool := df ws i lo len != 0

/-! ### The matrix descriptor -/

/-- R92, in its order. `fuse` is the word at FUSE_VXD. A check that names several fields concerns all of them, whichever of
them fails; a check on reserved fields concerns those that are not zero (R102; DEDUCED, log entry 94). -/
def mxMalformed (ws : List Word) (fuse : Word) : Option Nat :=
  let d : MxRun := ⟨0, 0, ws, 0, 0, 0, 0, 0, 0, 0, false, 0, 0, 0, 0, [], 0, none⟩
  let fused := mxTgt d == 2
  firstWord
    [(df ws 0 0 4 != 1, 0),
     (mxAf d == 3 || mxWf d == 3 || decide (4 ≤ mxOf d) || mxTgt d == 3, 0),
     lowestWord [(dfNz ws 0 21 11, 0), (dfNz ws 2 28 4, 2), (dfNz ws 3 30 2, 3), (dfNz ws 8 16 16, 8),
       (dfNz ws 14 16 16, 14), (dfNz ws 15 5 27, 15)],
     (mxM d == 0 || mxN d == 0 || mxK d == 0, 1),
     (decide (64 < mxAccRow d + mxMT d), 2),
     (mxSparse d && mxKstep d == 0, 0),
     (fused && mxOf d != 3, 0),
     (fused && (df ws 14 0 16 % 16 != 0 || bits fuse.toNat 0 4 != 2), 0),
     ((!mxInit d || mxTgt d == 0) && (decide (mxMT d < mxM d) || decide (128 < mxN d)), 0)]

/-- One range of an operand: handle, use, permission and span. -/
structure Operand where
  h : Nat
  use : HUse
  write : Bool
  sp : Span
deriving DecidableEq, Repr

/-- Words of the range of a weight tile that the check at issue covers (R94): up to the last scale byte that the loader reads.
The scales of column 127 end the tile, so only a DENSE tile of KSPAN 1 loses its last word, when its K ends within the lower
half. With SPARSE = 1 no header has been read at issue, and every tile counts with the length of a DENSE tile of KSPAN 1
(DESIGN CHOICE, log entry 93). -/
def mxTileSpan (d : MxRun) : Nat :=
  let full := denseLen (mxKstep d) (mxWf d) / 4
  if mxKstep d = 1 ∧ mxSparse d = false ∧ mxWf d ≠ 2 ∧ mxLeft d (mxKt d - 1) ≤ 128 ∧ (mxKt d = 1 ∨ df d.words 8 0 16 ≠ 0) then full - 1
  else full

/-- The ranges of a matrix descriptor (R90, R94, R86). -/
def mxOperands (d : MxRun) : List Operand :=
  let ws := d.words
  let kb := ceilDiv (mxK d) 32
  let nb := ceilDiv (mxN d) 32
  let rows (stride : Nat) : List (Nat × Int) := [(mxM d, (stride : Int))]
  let a : List Operand :=
    [⟨df ws 3 0 6, .mx, false, ⟨df ws 4 0 32, rows (df ws 5 0 16), kb * (blockBytes (mxAf d) / 4), false⟩⟩,
     ⟨df ws 3 6 6, .mx, false, ⟨df ws 6 0 32, rows (df ws 5 16 16), kb, true⟩⟩,
     ⟨df ws 3 12 6, .mxLoad, false,
       ⟨df ws 7 0 32, [(mxNt d * mxKt d, (df ws 8 0 16 : Int))], mxTileSpan d, false⟩⟩]
  let o : List Operand :=
    if mxTgt d ≠ 1 then []
    else if mxOf d = 3 then
      [⟨df ws 3 18 6, .mx, true, ⟨df ws 9 0 32, rows (df ws 10 0 16), 2 * mxN d, false⟩⟩]
    else
      [⟨df ws 3 18 6, .mx, true, ⟨df ws 9 0 32, rows (df ws 10 0 16), nb * (blockBytes (mxOf d) / 4), false⟩⟩,
       ⟨df ws 3 24 6, .mx, true, ⟨df ws 11 0 32, rows (df ws 10 16 16), nb, true⟩⟩]
  a ++ o

/-! ### The vector descriptor -/

/-- Operations of R148 that read operand B. -/
def usesB (op : Nat) : Bool :=
  decide (1 ≤ op ∧ op ≤ 4) || decide (9 ≤ op ∧ op ≤ 0xB) || [0x10, 0x11, 0x12, 0x18].contains op

/-- Listed operations of R148. -/
def opListed (op : Nat) : Bool :=
  decide (op ≤ 4) || decide (6 ≤ op ∧ op ≤ 0xC) || [0x10, 0x11, 0x12, 0x18, 0x20, 0x21, 0x22, 0x28].contains op

/-- Stage `i` breaks R147 to R150. I1 is named where either operand field names it, and IMM must fit in every stage, whether or
not the operation uses them (R149); the IMM of FN is its XF and is checked by R150 alone (DEDUCED, log entry 96). -/
def stageBad (ws ch : List Word) (i : Nat) : Bool :=
  let op := stOp ch i
  let aux := stAux ch i
  !opListed op || decide (4 < stSa ch i) || decide (4 < stSb ch i) || dfNz ch (2 * i) 20 12
  || (if op = 0x10 then decide (5 < aux)
      else if op = 0x28 then i != 7 || decide (5 < aux) || dfNz ch (2 * i + 1) 8 24 || vxInt ws
      else if isScan op then decide (1 < aux)
      else aux != 0)
  || (op == 0x18 && i != 2 && i != 5)
  || (op == 0x11 && !(List.range i).any fun j => stOp ch j == 0x10)
  || ([stSa ch i, stSb ch i].contains 3 && !vxI1En ws)
  || (!vxInt ws && op != 0x28 && decide (2 ^ (vxW ws - 1) - 1 < (stImm ch i).toInt.natAbs))

/-- Scans in use. -/
def scanCount (ws ch : List Word) : Nat := ((List.range (vxStages ws)).filter fun i => isScan (stOp ch i)).length

/-- The chain breaks R149 or R150. -/
def chainBad (ws ch : List Word) : Bool :=
  (List.range (vxStages ws)).any (stageBad ws ch) || decide (1 < scanCount ws ch)

/-- A tensor of the descriptor is in use: 0 I0, 1 I1, 2 O0, 3 O1. -/
def vxUsed (ws : List Word) : Nat → Bool
  | 0 => true
  | 1 => vxI1En ws
  | 2 => !vxO0Dis ws
  | _ => vxO1En ws || vxRed ws

/-- An unlisted format of a tensor (R154). -/
def vxFmtBad (ws : List Word) (t : Nat) : Bool := decide (5 < vxFmt ws t) || (vxFmt ws t == 3 && !vxSgn ws t)

/-- Tensor `t` holds weight tiles: I0 of EXPAND, O0 of COMPRESS. -/
def vxTiles (ws : List Word) (t : Nat) : Bool := (vxMode ws == 2 && t == 0) || (vxMode ws == 1 && t == 2)

/-- Tiles of a COMPRESS or EXPAND. -/
def vxTileCount (ws : List Word) : Nat := ceilDiv (df ws 1 16 16) 128 * ceilDiv (vxD0 ws) 256

/-- The reductions fill O1 (R160). -/
def vxIsRed (ws : List Word) (t : Nat) : Bool := t == 3 && vxRed ws

/-- Data span of a tensor (R156, R160, R164). -/
def vxSpanOf (ws st : List Word) (t : Nat) : Span :=
  if vxTiles ws t then
    ⟨vxOff ws t, [(vxTileCount ws, vxStride st t 0)], denseLen 1 (vxFmt ws t) / 4, false⟩
  else
    let one := vxIsRed ws t || (t == 1 && vxI1Bc ws)
    let dims : List (Nat × Int) :=
      [(df ws 2 16 16, vxStride st t 2), (df ws 2 0 16, vxStride st t 1), (df ws 1 16 16, vxStride st t 0)]
    ⟨vxOff ws t, if vxIsRed ws t && vxSpan ws then [] else dims, elemWords (vxFmt ws t) (if one then 1 else vxD0 ws), false⟩

/-- Scale span of a tensor, in bytes (R156, R160). -/
def vxScaleSpan (ws st : List Word) (t : Nat) : Span :=
  let nb := ceilDiv (vxD0 ws) 32
  let n :=
    if vxIsRed ws t then (if vxSpan ws then 1 else vxRows ws)
    else if t == 1 && vxI1Bc ws then (vxRows ws - 1) * nb + 1
    else vxRows ws * nb
  ⟨vxSoff st t, [], n, true⟩

/-- A range of a vector descriptor as R156 compares it: handle, span, whether it is a plane of scales, format, offset and
strides. The segment list has no stride and the format of its words. -/
structure VxRange where
  h : Nat
  sp : Span
  scales : Bool
  fmt : Nat
  off : Nat
  strides : List Int
deriving DecidableEq, Repr

/-- The ranges of tensor `t`: its data, and its scales in a QB format outside tiles. -/
def vxRangesOf (ws st : List Word) (t : Nat) : List VxRange :=
  let strides := (List.range 3).map (vxStride st t)
  ⟨vxH ws t, vxSpanOf ws st t, false, vxFmt ws t, vxOff ws t, strides⟩ ::
    (if vxFmt ws t ≤ 3 && !vxTiles ws t then [⟨vxSH ws t, vxScaleSpan ws st t, true, vxFmt ws t, vxSoff st t, strides⟩] else [])

/-- The input ranges: I0, I1, the segment list and the previous tiles, which lie at the base of their handle with the strides
of O0 (R159, R164). -/
def vxInRanges (c : Core) (ws st : List Word) (fused : Bool) : List VxRange :=
  (if fused then [] else vxRangesOf ws st 0) ++ (if vxUsed ws 1 then vxRangesOf ws st 1 else [])
    ++ (if vxSegm ws = 2 then [⟨df ws 3 24 6, spanOf 0 (hEntry c (df ws 3 24 6)).len, false, 5, 0, []⟩] else [])
    ++ (if vxMode ws = 1 ∧ df ws 5 29 1 = 1 then
        [⟨df ws 4 24 6, ⟨0, [(vxTileCount ws, vxStride st 2 0)], tileLen 1 1 (vxFmt ws 2) 0 / 4, false⟩, false, vxFmt ws 2, 0,
          (List.range 3).map (vxStride st 2)⟩]
      else [])

/-- The output ranges. -/
def vxOutRanges (ws st : List Word) : List VxRange :=
  (if vxUsed ws 2 then vxRangesOf ws st 2 else []) ++ (if vxUsed ws 3 then vxRangesOf ws st 3 else [])

/-- Two ranges share a word. -/
def vxShares (c : Core) (o i : VxRange) : Bool :=
  let eo := hEntry c o.h
  let ei := hEntry c i.h
  eo.space == ei.space && eo.target == ei.target
    && decide (eo.base + spanLo o.sp ≤ ei.base + spanHi i.sp) && decide (ei.base + spanLo i.sp ≤ eo.base + spanHi o.sp)

/-- Offset, strides, format and handle are all equal (R156). -/
def vxSame (o i : VxRange) : Bool :=
  o.h == i.h && o.off == i.off && o.fmt == i.fmt && o.strides == i.strides && o.scales == i.scales

/-- An overlap that R156 does not permit. -/
def vxOverlap (c : Core) (ws st : List Word) (fused : Bool) : Bool :=
  (vxOutRanges ws st).any fun o => (vxInRanges c ws st fused).any fun i => vxShares c o i && !vxSame o i

/-- R166, in its order. Each case names the mode, DMODE in word 0 (R102; DEDUCED, log entry 94). -/
def vxModeBad (ws ch : List Word) : Bool × Nat :=
  let fmt := if vxMode ws = 1 then vxFmt ws 2 else vxFmt ws 0
  match firstWord
    [(df ws 2 0 16 != 1 || df ws 2 16 16 != 1, 0),
     (decide (2 < fmt), 0),
     (vxRed ws || vxO1En ws, 0),
     (decide (0 < scanCount ws ch), 0),
     (vxMode ws == 1 && vxO0Dis ws, 0),
     (vxMode ws == 1 && df ws 5 27 1 == 1 && (df ws 5 28 1 == 1 || df ws 5 29 1 == 1), 0)] with
  | some w => (decide (vxMode ws ≠ 0), w)
  | none => (false, 0)

/-- R157, in its order, then R161's check on predicates. The check on stage fields names NSTG, in word 0. -/
def vxMalformed (c : Core) (ws ch st : List Word) (fused : Bool) : Option Nat :=
  let used := (List.range 4).filter (vxUsed ws)
  let n := vxStages ws
  firstWord
    [(df ws 0 0 4 != 2, 0),
     lowestWord
       [(vxMode ws == 3 || vxLmode ws == 3 || vxSegm ws == 3 || df ws 0 23 2 == 3 || dfNz ws 0 29 3, 0),
        (dfNz ws 3 30 2, 3), (dfNz ws 4 30 2, 4),
        (dfNz ws 5 30 2 || (List.range 4).any fun t => vxFmtBad ws t && !(t == 2 && vxO0Dis ws), 5),
        ((List.range 8).any fun k => decide (8 ≤ sumKind ws k), 13),
        (dfNz ws 14 24 8, 14), (dfNz ws 15 5 11, 15)],
     (vxD0 ws == 0 || df ws 1 16 16 == 0 || df ws 2 0 16 == 0 || df ws 2 16 16 == 0, 1),
     (chainBad ws ch, 10),
     (vxInt ws && (vxLmode ws != 0 || used.any fun t => vxFmt ws t != 5), 0),
     (vxSegm ws == 1 && !vxI1En ws, 0),
     (vxSegm ws == 2 && !vxSpan ws, 0),
     (df ws 10 0 16 % 16 != 0 || df ws 10 16 16 % 16 != 0, 10),
     (vxOverlap c ws st fused, 3),
     vxModeBad ws ch,
     ((vxRed ws && decide (n ≤ df ws 0 25 3)) || (vxO1En ws && !vxRed ws && decide (n ≤ df ws 0 16 3))
       || (List.range 8).any fun k => sumKind ws k != 0 && decide (n ≤ sumStg ws k), 0),
     ((List.range 8).any fun k => (sumKind ws k == 6 || sumKind ws k == 7) && stOp ch (sumStg ws k) != 0x10, 13)]

/-- The conditions of R163 on a fused descriptor, after R157. -/
def fusedMalformed (ws : List Word) (rows : Nat) : Option Nat :=
  firstWord [(vxMode ws != 0, 0), (vxFmt ws 0 != 4, 5), (vxD0 ws != 128, 1), (vxRows ws != rows, 1)]

/-- The ranges of a vector descriptor (R153, R212). -/
def vxOperands (c : Core) (ws st : List Word) (fused : Bool) : List Operand :=
  let tensor (t : Nat) : List Operand :=
    if vxUsed ws t && !(fused && t == 0) then
      let wr := decide (2 ≤ t)
      (⟨vxH ws t, .vx, wr, vxSpanOf ws st t⟩ : Operand) ::
        (if vxFmt ws t ≤ 3 && !vxTiles ws t then [⟨vxSH ws t, .vx, wr, vxScaleSpan ws st t⟩] else [])
    else []
  let seg : List Operand :=
    if vxSegm ws = 2 then [⟨df ws 3 24 6, .vx, false, spanOf 0 (hEntry c (df ws 3 24 6)).len⟩] else []
  let prev : List Operand :=
    if vxMode ws = 1 ∧ df ws 5 29 1 = 1 then
      [⟨df ws 4 24 6, .vx, false, ⟨0, [(vxTileCount ws, vxStride st 2 0)], tileLen 1 1 (vxFmt ws 2) 0 / 4, false⟩⟩]
    else []
  (List.range 4).flatMap tensor ++ seg ++ prev

/-! ### The DMA descriptor -/

/-- Spans of the source and of the destination (R229). -/
def dmSrcSpan (ws : List Word) : Span := ⟨df ws 2 0 32, [(dmRows ws, (ws.getD 5 0).toInt)], dmRowLen ws, false⟩

def dmDstSpan (ws : List Word) : Span := ⟨df ws 3 0 32, [(dmRows ws, (ws.getD 6 0).toInt)], dmRowLen ws, false⟩

/-- Source and destination overlap in a way that R229 does not permit. -/
def dmOverlap (c : Core) (ws : List Word) : Bool :=
  let s := hEntry c (dmSrc ws)
  let d := hEntry c (dmDst ws)
  let a := dmSrcSpan ws
  let b := dmDstSpan ws
  s.space == d.space && s.space != 0 && s.target == d.target
    && decide (s.base + spanLo a ≤ d.base + spanHi b) && decide (d.base + spanLo b ≤ s.base + spanHi a)
    && !(s.space == 1 && decide (s.base + a.off = d.base + b.off) && decide (ws.getD 5 0 = ws.getD 6 0))

/-- R230, in its order. -/
def dmaMalformed (c : Core) (ws : List Word) : Option Nat :=
  let fill := dmFill ws
  let src := hEntry c (dmSrc ws)
  let dst := hEntry c (dmDst ws)
  firstWord
    [lowestWord
       ([(df ws 0 0 4 != 3 || decide (1 < df ws 0 4 2) || dfNz ws 0 7 25, 0), (dfNz ws 1 18 14, 1),
         (decide (1 ≤ df ws 9 0 5 ∧ df ws 9 0 5 ≤ 15) || dfNz ws 9 5 27, 9), (dfNz ws 15 5 27, 15)]
        ++ (List.range 5).map fun i => (dfNz ws (10 + i) 0 32, 10 + i)),
     (dmRowLen ws == 0 || dmRows ws == 0, 4),
     lowestWord [(fill && dfNz ws 1 0 6, 1), (fill && dfNz ws 2 0 32, 2), (fill && dfNz ws 5 0 32, 5),
       (!fill && dfNz ws 7 0 32, 7)],
     (!fill && src.space == 4, 1),
     (!fill && src.space == 5 && dst.space == 5, 1),
     lowestWord [(!fill && src.space == 5 && df ws 5 0 32 != dmRowLen ws, 5),
       (dst.space == 5 && df ws 6 0 32 != dmRowLen ws, 6)],
     (!fill && dmOverlap c ws, 1)]

/-- The ranges of a DMA descriptor (R228, R212). -/
def dmaOperands (ws : List Word) : List Operand :=
  (if dmFill ws then [] else [⟨dmSrc ws, .dma, false, dmSrcSpan ws⟩])
    ++ [⟨dmDst ws, .dma, true, dmDstSpan ws⟩, ⟨dmStat ws, .dmaStat, true, spanOf (df ws 8 0 32) 1⟩]

/-! ### Handles and scoreboard -/

/-- The first operand that fails a check of R210: its handle, reason and offset. -/
def operandsBad (s : State) (k : Nat) (c : Core) : List Operand → Option (Nat × Nat × Int)
  | [] => none
  | o :: os =>
    match handleCheck s k c o.h o.use (if o.write then .w else .r) o.sp with
    | some r => some (o.h, r)
    | none =>
      let e := hEntry c o.h
      if o.use = .dma ∧ e.space = 5 ∧ reelOrderBad c o.h (e.base + (spanLo o.sp).toNat) = true then
        some (o.h, 9, spanLo o.sp)
      else operandsBad s k c os

/-- The scoreboard ranges of operands. -/
def operandRngs (c : Core) (os : List Operand) : List Rng := os.map fun o => rngOf c o.h o.sp o.write

/-- Malformed descriptor: the core is FROZEN with cause 0x12 and the event raised (R92, R157, R163, R230). -/
def descMalformed (s : State) (k code addr word : Nat) : State :=
  violate s k 0x12 code [(28, 2, addr), (31, 1, word)]

end Sys2Proof.Machine
end

