-- ==== Sys2Proof/Machine/Issue.lean ====
section
/-! DEFINITION. ISSUE and the waits of the operations at the PC (R182, R213, R214). -/

namespace Sys2Proof.Machine

open Sys2Proof

/-- The address a descriptor is issued from. -/
def issueAddr (c : Core) (w : Nat) : Nat := (gReg c (fA w) + fSimm18 w).toNat

/-- Reads a record at issue: a parity error is that of the cue core's descriptor fetch (R205, R209). -/
def readRecord (s : State) (k a : Nat) : State × Option (List Word) :=
  let c := getCore s k
  match badWord c.sp a 16 with
  | some x => (spError s k 0 x (ramLanes c.sp x) stopCue, none)
  | none => (s, some (recordAt c a))

/-- Reads records in order after their address checks; `none` when one failed, with what that failure did. -/
def readRecords (s : State) (k w : Nat) : List Nat → State × Option (List (List Word))
  | [] => (s, some [])
  | a :: as =>
    if recordOk (getCore s k) a then
      match readRecord s k a with
      | (s', none) => (s', none)
      | (s', some r) =>
        match readRecords s' k w as with
        | (s'', some rs) => (s'', some (r :: rs))
        | (s'', none) => (s'', none)
    else (cueViolate s k 0x14 0x7024 w a, none)

/-- Reads the descriptor, whose address must also be a multiple of 16. -/
def readDescriptor (s : State) (k w : Nat) : State × Option (List Word) :=
  let a := issueAddr (getCore s k) w
  if a % 16 = 0 then
    match readRecords s k w [a] with
    | (s', some rs) => (s', some (rs.getD 0 []))
    | (s', none) => (s', none)
  else (cueViolate s k 0x14 0x7024 w a, none)

/-- Pointers of a vector descriptor. -/
def vxPtrs (ws : List Word) : List Nat := [df ws 10 0 16, df ws 10 16 16]

/-- Handle and scoreboard checks, then the slots; `act` issues under a new operation number. -/
def issueChecked (s : State) (k : Nat) (os : List (Nat × List Operand)) (slots : Core → Bool)
    (act : Core → Nat → Core) (w : Nat) : State :=
  let c := getCore s k
  match os.findSome? fun p => (operandsBad s k c p.2).map fun r => (p.1, r) with
  | some (addr, h, r) => handleFault s k addr h r
  | none =>
    let rs := operandRngs c (os.flatMap (·.2))
    if sbConflict c rs || !sbRoom c rs then scoreWait s k
    else if slots c then goNext (setCore s k (act (sbRegister c rs) c.nextOp)) k w
    else setCore s k { c with wait := .slot }

/-- A vector descriptor as the engine takes it. -/
def newVx (op addr : Nat) (ws ch st : List Word) (fused : Option Nat) : VxRun :=
  { op := op, addr := addr, words := ws, chain := ch, strides := st, fused := fused, begun := false, row := 0, i0 := 0
    carry := none, red := none, sums := List.replicate 8 none, segPos := 0
    segLeft := if vxSegm ws = 2 then some 0 else none, group := [], nanBlocks := [], bcast := none, held := [], declFail := none, declTiles := 0
    allRead := false, violation := none }

/-- A matrix descriptor as the engine takes it. -/
def newMx (op addr : Nat) (ws : List Word) : MxRun :=
  let d : MxRun := ⟨op, addr, ws, 0, 0, 0, 0, 0, 0, 0, false, 0, 0, 0, 0, [], 0, none⟩
  { d with i := mxNa d - 1, j := mxNb d - 1 }

/-- ISSUE_VX (R182). -/
def actIssueVx (k : Nat) (s : State) (w : Nat) : State :=
  match readDescriptor s k w with
  | (s1, none) => s1
  | (s1, some ws) =>
    match readRecords s1 k w (vxPtrs ws) with
    | (s2, none) => s2
    | (s2, some rs) =>
      let c := getCore s2 k
      let a := issueAddr c w
      let ch := rs.getD 0 []
      let st := rs.getD 1 []
      match vxMalformed c ws ch st false with
      | some x => descMalformed s2 k 0x7012 a x
      | none =>
        issueChecked s2 k [(a, vxOperands c ws st false)] (fun c => decide ((vxSlots c.vx).length < 2))
          (fun c op => { c with vx := c.vx ++ [newVx op a ws ch st none] }) w

/-- ISSUE_DMA (R182). Its REEL accesses become the references of R359. -/
def actIssueDma (k : Nat) (s : State) (w : Nat) : State :=
  match readDescriptor s k w with
  | (s1, none) => s1
  | (s1, some ws) =>
    let c := getCore s1 k
    let a := issueAddr c w
    match dmaMalformed c ws with
    | some x => descMalformed s1 k 0x7014 a x
    | none =>
      let refs (c : Core) : Core := (dmaOperands ws).foldl (fun c o =>
        let e := hEntry c o.h
        if o.use = .dma ∧ e.space = 5 then
          { c with reelRef := smapSet 0 c.reelRef o.h (e.base + (spanLo o.sp).toNat) } else c) c
      issueChecked s1 k [(a, dmaOperands ws)] (fun c => decide (c.dma.length < 2))
        (fun c op => refs { c with dma := c.dma ++ [⟨op, a, ws, 0, 0, [], [], 0, false, false, false⟩] }) w

/-- A matrix descriptor without a fused one is checked and issued. -/
def issueMxPlain (s : State) (k : Nat) (ws : List Word) (w : Nat) : State :=
  let c := getCore s k
  let a := issueAddr c w
  match mxMalformed ws 0 with
  | some x => descMalformed s k 0x7010 a x
  | none =>
    issueChecked s k [(a, mxOperands (newMx 0 a ws))] (fun c => decide (c.mx.length < 2))
      (fun c op => { c with mx := c.mx ++ [newMx op a ws] }) w

/-- A matrix descriptor with OUT_TGT = FUSED is checked with its vector descriptor and both are issued (R163). -/
def issueMxFused (s : State) (k : Nat) (ws fw ch st : List Word) (w : Nat) : State :=
  let c := getCore s k
  let a := issueAddr c w
  let f := df ws 14 0 16
  let d := newMx 0 a ws
  match mxMalformed ws (fw.getD 0 0) with
  | some x => descMalformed s k 0x7010 a x
  | none =>
    match (vxMalformed c fw ch st true).orElse fun _ => fusedMalformed fw (mxM d * mxNt d) with
    | some x => descMalformed s k 0x7012 f x
    | none =>
      issueChecked s k [(a, mxOperands d), (f, vxOperands c fw st true)]
        (fun c => decide (c.mx.length < 2) && decide ((vxSlots c.vx).length < 2))
        (fun c op => { c with
          mx := c.mx ++ [newMx op a ws]
          vx := c.vx ++ [newVx op f fw ch st (some (mxN d))] }) w

/-- ISSUE_MX (R182, R163). -/
def actIssueMx (k : Nat) (s : State) (w : Nat) : State :=
  match readDescriptor s k w with
  | (s1, none) => s1
  | (s1, some ws) =>
    if df ws 0 18 2 = 2 then
      match readRecords s1 k w [df ws 14 0 16] with
      | (s2, none) => s2
      | (s2, some fs) =>
        match readRecords s2 k w (vxPtrs (fs.getD 0 [])) with
        | (s3, none) => s3
        | (s3, some rs) => issueMxFused s3 k ws (fs.getD 0 []) (rs.getD 0 []) (rs.getD 1 []) w
    else issueMxPlain s1 k ws w

/-- ISSUE_MX: checks the descriptor and issues it to the matrix engine. -/
def execIssueMx (c : CoreId) (s : State) : Host.Outcome State Fault Refusal :=
  .next (cueStep (coreKey c) 0x2C (actIssueMx (coreKey c)) s)

/-- ISSUE_VX: checks the descriptor and issues it to the vector engine. -/
def execIssueVx (c : CoreId) (s : State) : Host.Outcome State Fault Refusal :=
  .next (cueStep (coreKey c) 0x2D (actIssueVx (coreKey c)) s)

/-- ISSUE_DMA: checks the descriptor and issues it to the DMA engine. -/
def execIssueDma (c : CoreId) (s : State) : Host.Outcome State Fault Refusal :=
  .next (cueStep (coreKey c) 0x2E (actIssueDma (coreKey c)) s)

/-- The operation at the PC is tried again: one of those that wait on a slot or on the scoreboard. -/
def retryOp (k : Nat) (s : State) (w : Nat) : State :=
  match fOpc w with
  | 0x20 => actLd k s w
  | 0x21 => actSt k s w
  | 0x31 => actSendb k s w
  | 0x33 => actRecvb k s w
  | 0x2C => actIssueMx k s w
  | 0x2D => actIssueVx k s w
  | 0x2E => actIssueDma k s w
  | _ => s

/-- The operation waiting at the PC is tried again; while it is still blocked it goes on waiting. -/
def retryAtPc (s : State) (k : Nat) : State :=
  let c := getCore s k
  retryOp k (setCore s k { c with wait := .none }) (cueWord c)

/-- ISSUE_SLOT_FREE (R182). -/
def execIssueSlotFree (c : CoreId) (s : State) : Host.Outcome State Fault Refusal :=
  let co := getCore s (coreKey c)
  if co.mode = .running ∧ co.wait = .slot then .next (retryAtPc s (coreKey c)) else .next s

/-- SCOREBOARD_WAIT_END (R213, R214). -/
def execScoreboardWaitEnd (c : CoreId) (s : State) : Host.Outcome State Fault Refusal :=
  let co := getCore s (coreKey c)
  if co.mode = .running ∧ co.wait = .score then .next (retryAtPc s (coreKey c)) else .next s

end Sys2Proof.Machine
end

