-- ==== Sys2Proof/Machine/Link.lean ====
section
/-! DEFINITION. The rows of an edge port's Ethernet and Vexaz Link (R347 to R356). -/

namespace Sys2Proof.Machine

open Sys2Proof

/-- ETH_FRAME_RECEIVE: a frame from destination address to Vexaz check arrives; `fcsOk` tells whether its FCS matched
(R347). -/
def execEthFrameReceive (e : EdgePort) (fcsOk : Bool) (frame : List Byte) (s : State) :
    Host.Outcome State Fault Refusal :=
  let p := getPort s e.val
  if !p.enable then .next s
  else if !fcsOk then .next (setPort s e.val { p with fcsErr := satAdd 0xFFFFFFFF p.fcsErr 1 })
  else if frameForPort s e.val frame then
    .next (setPort s e.val { p with rxq := p.rxq ++ [(beNat ((frame.drop 14).take 2) / 2 ^ 13, frame.drop 18)] })
  else .next s

/-- PFC_FRAME: priorities 0 to 3 are paused or resumed (R349). -/
def execPfcFrame (e : EdgePort) (mask : Byte) (quanta : List Word16) (s : State) : Host.Outcome State Fault Refusal :=
  let p := getPort s e.val
  if !p.enable then .next s
  else
    let hit (i : Nat) : Bool := mask.getLsbD i
    let paused := (List.range 4).map fun i =>
      if hit i then decide (quanta.getD i 0 ≠ 0) else p.paused.getD i false
    let xoff := (List.range 4).any fun i => hit i && decide (quanta.getD i 0 ≠ 0)
    let s := setPort s e.val { p with paused := paused, xoffRx := if xoff then satAdd 0xFFFF p.xoffRx 1 else p.xoffRx }
    .next ((List.range 3).foldl (fun s c => pumpAll s e.val c) (ctlFlush s e.val))

/-- PFC_QUANTA_EXPIRY: the pause of a priority has run out (R349). -/
def execPfcQuantaExpiry (e : EdgePort) (prio : Fin 8) (s : State) : Host.Outcome State Fault Refusal :=
  let p := getPort s e.val
  if p.paused.getD prio.val false then
    .next (pumpAll (ctlFlush (setPort s e.val { p with paused := p.paused.set prio.val false }) e.val) e.val prio.val)
  else .next s

/-- PFC_REPEAT: 80 µs above the low mark after the high mark (R356). -/
def execPfcRepeat (e : EdgePort) (s : State) : Host.Outcome State Fault Refusal :=
  if (getPort s e.val).pfcTx then .next (sendPfc s e.val true) else .next s

/-- PCS_LOCK: alignment and FEC lock hold; INIT is sent (R352). In HOLD a port counts as having no lock (R509). -/
def execPcsLock (e : EdgePort) (s : State) : Host.Outcome State Fault Refusal :=
  let p := getPort s e.val
  if p.enable && !p.pcs && !s.clock.hold then .next (linkTry (sendInit (setPort s e.val { p with pcs := true }) e.val) e.val) else .next s

/-- INIT_REPEAT: every 100 µs until the link is up (R352). -/
def execInitRepeat (e : EdgePort) (s : State) : Host.Outcome State Fault Refusal :=
  let p := getPort s e.val
  if p.enable && p.pcs && decide (p.link ≠ .up) then .next (sendInit s e.val) else .next s

/-- INIT (R352). -/
def execInit (e : EdgePort) (s : State) : Host.Outcome State Fault Refusal :=
  .next (withVexaz s e.val 1 fun s m => initIn s e.val m)

/-- INIT_ACK (R352). -/
def execInitAck (e : EdgePort) (s : State) : Host.Outcome State Fault Refusal :=
  .next (withVexaz s e.val 2 fun s m => initAckIn s e.val m)

/-- DATA (R351). -/
def execVexazData (e : EdgePort) (s : State) : Host.Outcome State Fault Refusal :=
  .next (withVexaz s e.val 3 fun s m => dataIn s e.val m)

/-- ACK (R351). -/
def execAck (e : EdgePort) (s : State) : Host.Outcome State Fault Refusal :=
  .next (withVexaz s e.val 4 fun s m => ackIn s e.val m)

/-- NAK (R351). -/
def execNak (e : EdgePort) (s : State) : Host.Outcome State Fault Refusal :=
  .next (withVexaz s e.val 5 fun s m => nakIn s e.val m)

/-- IDLE (R351). -/
def execIdle (e : EdgePort) (s : State) : Host.Outcome State Fault Refusal :=
  .next (withVexaz s e.val 6 fun s m => ackIn s e.val m)

/-- ACK_DUE: 1 µs after an acceptance the expected values not yet reported are sent (R351). -/
def execAckDue (e : EdgePort) (s : State) : Host.Outcome State Fault Refusal :=
  .next ((List.range 3).foldl (fun s c => if 0 < (rxOf (getPort s e.val) c).unreported then sendAck s e.val c 4 else s) s)

/-- IDLE_DUE: 10 µs without sending (R351). -/
def execIdleDue (e : EdgePort) (s : State) : Host.Outcome State Fault Refusal :=
  let p := getPort s e.val
  if p.link = .up then .next (sendAck s e.val (if p.role then 1 else 0) 6) else .next s

/-- RETRY_TIMEOUT (R351). -/
def execRetryTimeout (e : EdgePort) (vcl : VClass) (s : State) : Host.Outcome State Fault Refusal :=
  .next (retryIn s e.val vcl.val)

/-- LINK_DOWN: PCS alignment or FEC lock has been lost for 10 µs (R353). -/
def execLinkDown (e : EdgePort) (s : State) : Host.Outcome State Fault Refusal :=
  let p := getPort s e.val
  if p.enable && p.pcs then
    let s := setPort s e.val { p with pcs := false }
    .next (if p.link = .up then linkDown s e.val 1 else linkReset s e.val)
  else .next s

/-- Pins of port block `b` that take stream pause in. -/
def pauseBlock (s : State) (n : Nat) : Option Nat := if (getPin s n).func = 2 then some (getPin s n).block else none

/-- STREAM_PAUSE_IN: the pin is asserted (R356, R581). -/
def execStreamPauseIn (pin : SbPin) (s : State) : Host.Outcome State Fault Refusal :=
  if (pauseBlock s pin.val).isSome then .next (setPin s pin.val { getPin s pin.val with level := true }) else .next s

/-- STREAM_PAUSE_IN_RELEASE: the pin is released; what it stopped is sent (R356). -/
def execStreamPauseInRelease (pin : SbPin) (s : State) : Host.Outcome State Fault Refusal :=
  match pauseBlock s pin.val with
  | some b =>
    let s := setPin s pin.val { getPin s pin.val with level := false }
    .next ((List.range 8).foldl (fun s i => pumpAll s (8 * b + i) 0) s)
  | none => .next s

end Sys2Proof.Machine
end

