-- ==== Sys2Proof/Machine/Mailbox.lean ====
section
/-! DEFINITION. Sessions, authority, ring registers, interrupts and the links of the host ports (R403 to R435). -/

namespace Sys2Proof.Machine

open Sys2Proof

/-! ### Sessions and authority (R420, R421, R426) -/

/-- A session command served from version 2.0. -/
def sessionSpec (opcode : Nat) : CmdSpec := ⟨opcode, (2, 0), false, false, 0⟩

/-- A version as one number that orders as R420 does. -/
def verNo (v : Nat × Nat) : Nat := v.1 * 256 + v.2

/-- The highest version in both ranges, if they meet (R420). -/
def chooseVersion (s : State) (lo hi : Nat × Nat) : Option (Nat × Nat) :=
  let top := if verNo hi ≤ verNo s.boot.ifHi then hi else s.boot.ifHi
  if verNo lo ≤ verNo top ∧ verNo s.boot.ifLo ≤ verNo top then some top else none

/-- HELLO's own work: the former session ends, and a new one begins if the ranges meet. -/
def helloBody (p : HostPort) (r : CmdRec) (ref : CmdRef) (s : State) : State :=
  if rsvOk r [(36, 0, 32)] then
    let s := endSession s p 4
    match chooseVersion s (pb r 37 1, pb r 36 1) (pb r 39 1, pb r 38 1) with
    | some v =>
      let s := setHost s p { getHost s p with session := some v, nextCseq := ref.cseq + 1 }
      finish s ref 0 [(24, 1, v.2), (25, 1, v.1), (26, 1, s.boot.ifLo.2), (27, 1, s.boot.ifLo.1), (28, 1, s.boot.ifHi.2),
        (29, 1, s.boot.ifHi.1)]
    | none => finish s ref 0x0102 [(26, 1, s.boot.ifLo.2), (27, 1, s.boot.ifLo.1), (28, 1, s.boot.ifHi.2), (29, 1, s.boot.ifHi.1)]
  else turnAway s ref 0x0103 []

/-- HELLO (R420, R421). -/
def execHello (p : HostPort) (r : CmdRec) (s : State) : Host.Outcome State Fault Refusal :=
  .next (mailbox (sessionSpec 1) p r (helloBody p r) s)

/-- CLAIM_AUTHORITY's own work. A port that holds authority already keeps it. -/
def claimBody (p : HostPort) (r : CmdRec) (ref : CmdRef) (s : State) : State :=
  if rsvOk r [] = false then finish s ref 0x0103 []
  else
    match s.authority with
    | some q => if q = p then finish s ref 0 [] else finish s ref 0x0202 [(24, 1, portNo q)]
    | none => finish (authorityEv { s with authority := some p } p (portNo p) 1) ref 0 []

/-- CLAIM_AUTHORITY (R426). -/
def execClaimAuthority (p : HostPort) (r : CmdRec) (s : State) : Host.Outcome State Fault Refusal :=
  .next (mailbox (sessionSpec 2) p r (claimBody p r) s)

/-- RELEASE_AUTHORITY's own work. -/
def releaseBody (p : HostPort) (r : CmdRec) (ref : CmdRef) (s : State) : State :=
  if rsvOk r [] = false then finish s ref 0x0103 []
  else if s.authority = some p then finish (loseAuthority s p 2) ref 0 []
  else finish s ref 0x0201 []

/-- RELEASE_AUTHORITY (R426). -/
def execReleaseAuthority (p : HostPort) (r : CmdRec) (s : State) : Host.Outcome State Fault Refusal :=
  .next (mailbox (sessionSpec 3) p r (releaseBody p r) s)

/-! ### Ring registers (R411, R412, R428, R431) -/

/-- CMD_DOORBELL: the command HEAD, or a violation. -/
def execCmdDoorbell (p : HostPort) (v : Word) (s : State) : Host.Outcome State Fault Refusal :=
  let h := getHost s p
  let d := (v - h.cmd.tail).toNat
  let s' := setHost s p { h with cmd := { h.cmd with head := v } }
  .next (if h.cmd.en && !h.cmd.stop && (decide (ringSize h.cmd < d) || decide (d % 64 ≠ 0)) then ringViolation s' p 2 0 v.toNat else s')

/-- Writes completions held for a port while its ring takes them (R431). -/
def flushCpl (s : State) (p : HostPort) : State :=
  (heldCpl s p).foldl (fun s r =>
    if (heldCpl s p).head? = some r ∧ ringOpen (getHost s p) (getHost s p).cpl = true then
      writeCpl (setHeldCpl s p (heldCpl s p).tail) p r
    else s) s

/-- A consumer TAIL lies past its ring's HEAD, modulo 2^32 (R428). -/
def tailPast (r : Ring) (v : Word) : Bool := decide (2 ^ 31 ≤ (r.head - v).toNat)

/-- CPL_TAIL: completion space is free, or a violation. Held completions follow. -/
def execCplTail (p : HostPort) (v : Word) (s : State) : Host.Outcome State Fault Refusal :=
  let h := getHost s p
  let s' := setHost s p { h with cpl := { h.cpl with tail := v } }
  .next (if h.cpl.en && !h.cpl.stop && tailPast h.cpl v then ringViolation s' p 3 1 v.toNat else flushCpl s' p)

/-- EVT_TAIL: event space is free, or a violation. -/
def execEvtTail (p : HostPort) (v : Word) (s : State) : Host.Outcome State Fault Refusal :=
  let h := getHost s p
  let s' := setHost s p { h with evt := { h.evt with tail := v } }
  .next (if h.evt.en && !h.evt.stop && tailPast h.evt v then ringViolation s' p 3 2 v.toNat else s')

/-- RING_ENABLE: a RING_CTRL write in which an enable bit rises. -/
def execRingEnable (p : HostPort) (v : Word) (s : State) : Host.Outcome State Fault Refusal :=
  let h := getHost s p
  .next (if ringRises h v then flushCpl (setHost s p (ringCtrlWrite h v)) p else s)

/-- RING_DISABLE: a RING_CTRL write in which an enable bit falls. -/
def execRingDisable (p : HostPort) (v : Word) (s : State) : Host.Outcome State Fault Refusal :=
  let h := getHost s p
  .next (if ringFalls h v then flushCpl (setHost s p (ringCtrlWrite h v)) p else s)

/-- REGISTER_WRITE (R9). -/
def execRegisterWrite (loc : RegLoc) (v : DWord) (s : State) : Host.Outcome State Fault Refusal := .next (writeReg s loc v)

/-- RC_REGISTER_READ: the value leaves, and its read-clear fields are zero (R9, R11). -/
def execRcRegisterRead (loc : RegLoc) (s : State) : Host.Outcome State Fault Refusal :=
  let r := readReg s loc
  .next (emit r.2 (.regData (BitVec.ofNat 64 r.1)))

/-! ### Interrupt moderation and the holding buffer (R415, R419) -/

/-- IRQ_MOD_TIMEOUT: USEC has passed since the ring's first unsignalled record. -/
def execIrqModTimeout (p : HostPort) (ring : RingKind) (s : State) : Host.Outcome State Fault Refusal :=
  let h := getHost s p
  .next (if bits h.irqMod.toNat 16 16 = 0 then s
    else match ring with
      | .cmd => s
      | .cpl =>
        if h.cpl.unsignalled = 0 then s
        else fireVector (setHost s p { h with cpl := { h.cpl with unsignalled := 0 } }) p h.cplVec.toNat
      | .evt =>
        if h.evt.unsignalled = 0 then s
        else fireVector (setHost s p { h with evt := { h.evt with unsignalled := 0 } }) p h.evtVec.toNat)

/-- Writes the first held event records of a port while its ring takes them. -/
def flushEvt (s : State) (p : HostPort) : State :=
  (getHost s p).holding.foldl (fun s r =>
    let h := getHost s p
    if h.holding.head? = some r ∧ ringOpen h h.evt = true then writeEvt (setHost s p { h with holding := h.holding.tail }) p r
    else s) s

/-- 0x6020 follows the last held record (R434). -/
def reportLost (s : State) (p : HostPort) : State :=
  let h := getHost s p
  if h.holding.isEmpty && h.dropped != 0 && ringOpen h h.evt then
    let s := setHost s p { h with dropped := 0 }
    writeEvt s p (evRecord s 0x6020 1 noFrame [(28, 1, portNo p), (32, 4, h.dropped)])
  else s

/-- HOLDING_BUFFER_FLUSH: space has returned to the event ring. -/
def execHoldingBufferFlush (p : HostPort) (s : State) : Host.Outcome State Fault Refusal :=
  .next (reportLost (flushEvt s p) p)

/-! ### Links (R404, R430, R431) -/

/-- Configuration space after a link loss: a cleared Bus Master Enable changes that bit alone; PERST# and a link that goes down reset
the function. -/
def pciLost (c : PciConf) (cause : LinkCause) : PciConf :=
  match cause with
  | .busMaster => { c with busMaster := false }
  | _ => .reset

/-- HOST_LINK_LOSS: PERST#, link down, or Bus Master Enable cleared. A port without a link loses none. -/
def execHostLinkLoss (p : HostPort) (cause : LinkCause) (s : State) : Host.Outcome State Fault Refusal :=
  let h := getHost s p
  .next (if h.width = 0 then s
    else
      let s := refetchHostDown (endSession (setHost s p { h with linkUp := false, rate := 0, width := 0, pci := pciLost h.pci cause }) p 3) p
      postEvent s (otherPort p) (evRecord s 0x6001 1 noFrame [(28, 1, portNo p), (29, 1, 1), (30, 1, h.rate), (31, 1, h.width)]))

/-- A rate in GT/s divided by 4, rounded down. -/
def rateNo : LinkRate → Nat
  | .g2 => 0
  | .g5 => 1
  | .g8 => 2
  | .g16 => 4
  | .g32 => 8
  | .g64 => 16
  | .g128 => 32

/-! ### Configuration space (R3, R4, R403, R407) -/

/-- The header of a port's one function: identifiers, class, and the two 64-bit BARs, the first not prefetchable and the second
prefetchable. -/
def pciHeader (s : State) (p : HostPort) : List Byte :=
  let c := (getHost s p).pci
  record 64
    [(0x00, 2, 0x1D7C), (0x02, 2, s.otp.device.toNat), (0x08, 1, s.otp.revision.toNat), (0x09, 3, 0x120000),
      (0x10, 8, c.bar0.toNat / 2 ^ 20 * 2 ^ 20 + 0x4), (0x18, 8, c.bar2.toNat / 2 ^ 34 * 2 ^ 34 + 0xC),
      (0x2C, 2, 0x1D7C), (0x2E, 2, s.otp.device.toNat)]

/-- What DOE Discovery lists: vendor 0x0001, and the types of Discovery, CMA/SPDM and Secured CMA/SPDM. -/
def doeObjects : List (Nat × Nat) := [(1, 0), (1, 1), (1, 2)]

/-- The answer to a DOE Discovery of an index: the object, and the index after it, 0 at the end. -/
def doeDiscovery (i : Nat) : Option (Nat × Nat × Nat) :=
  (doeObjects[i]?).map fun o => (o.1, o.2, if i + 1 < doeObjects.length then i + 1 else 0)

/-- MSI-X vectors, and the Hot-Plug Surprise attribute of a port. -/
def pciVectors : Nat := 64

def hotPlugSurprise : Bool := true

/-- HOST_LINK_UP: the link settles at x1, x2 or x4; at 32 GT/s or more the port's rings and aperture are served. -/
def execHostLinkUp (p : HostPort) (rate : LinkRate) (width : Fin 5) (s : State) : Host.Outcome State Fault Refusal :=
  let n := rateNo rate
  .next (if s.powered ∧ (width.val = 1 ∨ width.val = 2 ∨ width.val = 4) then
      let s := setHost s p 
        { getHost s p with linkUp := decide (8 ≤ n), rate := n, width := width.val, pci := { (getHost s p).pci with busMaster := true } }
      let s := raiseEv s 0x6001 1 noFrame [(28, 1, portNo p), (29, 1, if 8 ≤ n then 2 else 3), (30, 1, n), (31, 1, width.val)]
      flushCpl s p
    else s)

end Sys2Proof.Machine
end

