-- ==== Sys2Proof/Machine/MeshUnits.lean ====
section
/-! DEFINITION. What the units of a cluster do with the packets that arrive: queue units, cue cores, clapper units,
memory ports (R187, R189, R190, R225, R226, R243 to R260, R284, R294, R299, R312). -/

namespace Sys2Proof.Machine

open Sys2Proof

/-! ### Arrivals -/

/-- The packet that the cluster's LOCAL output grants, when it is of the row's type, handed to its unit (R301, R303, R308). -/
def arrivalRow (cl plane typ : Nat) (hd : BitVec 128) (td : Word) (unit : State → Flight → State) (s : State) : State :=
  match arrived s cl plane with
  | some f => if pType f.pkt.hdr = typ then eject (grantArb s (unitReady s) .loc f) f hd td unit else s
  | none => s

/-- The core's sheet is installed, its epoch is the packet's, and it has not gone back to IDLE (R246, R247, R250). -/
def runningEpoch (c : Core) (e : Nat) : Bool :=
  c.sheet.isSome && decide (c.epoch.toNat = e) && (decide (c.mode = .running) || decide (c.mode = .held) || decide (c.mode = .frozen))

/-- Adds to Q_STALE of a core. -/
def countStale (s : State) (k n : Nat) : State :=
  let c := getCore s k
  setCore s k { c with qStale := satAdd 0xFFFFFFFF c.qStale n }

/-! ### Receive queues (R243 to R260) -/

def qOfPkt (h : BitVec 128) : Nat := bits (pArg h) 0 4

def edgeOfPkt (h : BitVec 128) : Nat := bits (pArg h) 4 4

/-- A reply on CTL from a core to the sender of a packet, carrying its header. -/
def ctlBack (s : State) (k plane typ arg : Nat) (p : Packet) : State :=
  injectFrom s k plane 0 ⟨mkHdr typ ⟨0, plane, pSrc p.hdr, k, pSlate p.hdr, pEpoch p.hdr⟩ 4 false arg 0, hdrWords p.hdr, p.note⟩

/-- A violation found at a queue (R247): 0x7025 names the sender, and a freeze order goes to it. -/
def queueViolation (s : State) (k plane reason : Nat) (p : Packet) : State :=
  let h := p.hdr
  let snd := getCore s (pSrc h)
  let s := raiseEv s 0x7025 2
    ⟨some (pSrc h), some (pSlate h), match snd.sheet with | some _ => some (sheetScene snd, pEpoch h) | none => none⟩
    [(28, 3, k), (31, 1, qOfPkt h), (32, 1, reason), (33, 1, edgeOfPkt h), (34, 2, pCount h), (36, 1, pEpoch h)]
  ctlBack s k plane 5 reason p

/-- Counts dropped words and end marks in a gap marker's payload (R237). -/
def gapAdd (v : Word) (n e : Nat) : Word :=
  BitVec.ofNat 32 (satAdd 0xFFFFFF (bits v.toNat 0 24) n + satAdd 0xFF (bits v.toNat 24 8) e * 2 ^ 24)

/-- Adds to the marker that is the newest entry, if it is one. -/
def newestGap (es : List QEntry) (n e : Nat) : Option (List QEntry) :=
  match es.getLast? with
  | some g => if g.gap then some (es.dropLast ++ [{ g with payload := gapAdd g.payload n e }]) else none
  | none => none

/-- One word reaching a CREDITED queue (R251): the queue, words written, end marks written, and a first drop. -/
def creditedWord (a : RxQueue × Nat × Nat × Bool) (w : Word) (endm : Bool) : RxQueue × Nat × Nat × Bool :=
  let (q, n, e, first) := a
  let m := if endm then 1 else 0
  if q.state = .overflowed then
    match q.pending with
    | some (pn, pe) => ({ q with pending := some (satAdd 0xFFFFFF pn 1, satAdd 0xFF pe m) }, n, e, first)
    | none =>
      match newestGap q.entries 1 m with
      | some es => ({ q with entries := es }, n, e, first)
      | none => ({ q with pending := some (1, m) }, n, e, first)
  else if 128 ≤ q.entries.length then ({ q with state := .overflowed, pending := some (1, m) }, n, e, true)
  else ({ q with entries := q.entries ++ [⟨w, endm, false, q.epoch, 0⟩] }, n + 1, e + m, first)

/-- One word reaching a RAW queue (R252): the queue, words and end marks written, words dropped. -/
def rawWord (a : RxQueue × Nat × Nat × Nat) (w : Word) (endm : Bool) : RxQueue × Nat × Nat × Nat :=
  let (q, n, e, d) := a
  let m := if endm then 1 else 0
  if q.entries.length ≤ 126 then ({ q with entries := q.entries ++ [⟨w, endm, false, q.epoch, 0⟩] }, n + 1, e + m, d)
  else
    match newestGap q.entries 1 m with
    | some es => ({ q with entries := es }, n, e, d + 1)
    | none => ({ q with entries := q.entries ++ [⟨gapAdd 0 1 m, false, true, q.epoch, 0⟩] }, n, e, d + 1)

/-- The words of a packet with their end marks. -/
def packetWords (p : Packet) : List (Word × Bool) :=
  let n := p.payload.length
  p.payload.mapIdx fun i w => (w, pEnd p.hdr && decide (i + 1 = n))

/-- A packet for a CREDITED queue (R248, R249, R251). -/
def creditedIn (s : State) (k plane : Nat) (p : Packet) : State :=
  let c := getCore s k
  let n := qOfPkt p.hdr
  let q := getQ c n
  let from0 := (pSrc p.hdr, edgeOfPkt p.hdr, plane)
  let bound := q.bound.getD from0
  if (bound.1, bound.2.1) ≠ (pSrc p.hdr, edgeOfPkt p.hdr) then queueViolation s k plane 2 p
  else
    let (q', w, e, first) := (packetWords p).foldl (fun a x => creditedWord a x.1 x.2) ({ q with bound := some bound }, 0, 0, false)
    let s := putCore s k (bindAddQ (setQ c n q') n w e)
    if first then queueViolation s k plane 1 p else s

/-- A packet for a RAW queue (R252). -/
def rawIn (s : State) (k : Nat) (p : Packet) : State :=
  let c := getCore s k
  let n := qOfPkt p.hdr
  let (q, w, e, d) := (packetWords p).foldl (fun a x => rawWord a x.1 x.2) (getQ c n, 0, 0, 0)
  let c := setQ { c with qRawdrop := satAdd 0xFFFFFFFF c.qRawdrop d } n q
  putCore s k (bindAddQ c n w e)

/-- Classes of window elements combined (R45, R258). -/
def joinNum (a b : Num) : Num :=
  match a, b with
  | .nan, _ => .nan
  | _, .nan => .nan
  | .inf x, .inf y => if x = y then .inf x else .nan
  | .inf x, _ => .inf x
  | _, .inf y => .inf y
  | .fin x e, .fin y _ => .fin (x + y) e

/-- An I32 contribution element (R258). -/
def i32In (w : Word) : Num :=
  if w = 0x7FFFFFFF then .inf false else if w = 0x80000001 then .inf true else if w = 0x80000000 then .nan else .fin w.toInt 0

/-- An A48 contribution element: two words, at window exponent `xc` (R258). -/
def a48In (xc : Int) (lo hi : Word) : Num :=
  match a48OfStored (lo.toNat + hi.toNat * 2 ^ 32) with
  | .fin m x =>
    let q := rneScale m (x - xc)
    if q.natAbs < 2 ^ 58 then .fin q 0 else .inf (decide (m < 0))
  | n => n

/-- Elements of a contribution. -/
def contribution (a48 : Bool) (xc : Int) (ws : List Word) : List Num :=
  if a48 then (List.range (ws.length / 2)).map fun i => a48In xc (ws.getD (2 * i) 0) (ws.getD (2 * i + 1) 0) else ws.map i32In

/-- The slot of a contributor. -/
def combSlot (w : Window) (src edge : Nat) : Option Nat :=
  (List.range 32).find? fun i => w.mask.getLsbD i && decide ((w.slots.getD i 0).toNat = src + edge * 2 ^ 18)

/-- A packet for a COMBINING queue (R257 to R259). -/
def combiningIn (s : State) (k plane : Nat) (p : Packet) : State :=
  let c := getCore s k
  let n := qOfPkt p.hdr
  let q := getQ c n
  match q.window with
  | none => s
  | some w =>
    match combSlot w (pSrc p.hdr) (edgeOfPkt p.hdr) with
    | none => queueViolation s k plane 4 p
    | some i =>
      if p.payload.length ≠ combLen c n ∨ pEnd p.hdr = false then queueViolation s k plane 5 p
      else if w.arrived.getLsbD i then
        let c := setQ { c with qDup := satAdd 0xFFFFFFFF c.qDup 1 } n { q with window := some { w with dups := w.dups + 1 } }
        let s := setCore s k c
        if w.dups = 0 then coreEv s k 0x3012 1 [(28, 1, n), (29, 1, i), (32, 4, w.dups + 1)] else s
      else
        let els := contribution (combA48 c n) w.xc p.payload
        let w := { w with
          elems := w.elems.zipWith joinNum els
          arrived := w.arrived ||| BitVec.twoPow 32 i
          planes := if plane = 1 then w.planes ||| BitVec.twoPow 32 i else w.planes }
        if popCount w.arrived.toNat = w.expect then
          putCore s k (bindAddQ (setQ c n { q with window := some { w with released := true } }) n (combLen c n) 1)
        else setCore s k (setQ c n { q with window := some w })

/-- A QUEUE packet at its queue unit: the checks of R245 in order. -/
def queueIn (s : State) (f : Flight) : State :=
  let h := f.pkt.hdr
  let k := pDst h
  let c := getCore s k
  let q := getQ c (qOfPkt h)
  if q.state = .disabled ∨ q.state = .retired then
    ctlBack (setCore s k { c with qRefused := satAdd 0xFFFFFFFF c.qRefused 1 }) k f.plane 3 0x0403 f.pkt
  else if q.epoch.toNat ≠ pEpoch h then countStale s k f.pkt.payload.length
  else if q.slate.toNat ≠ pSlate h then queueViolation s k f.plane 3 f.pkt
  else if q.mode = 0 then creditedIn s k f.plane f.pkt
  else if q.mode = 1 then rawIn s k f.pkt
  else combiningIn s k f.plane f.pkt

/-- An END_MARK packet (R284). A mark of a scene that has been closed without waiting for it is counted stale (R286). -/
def endMarkIn (s : State) (f : Flight) : State :=
  let k := pDst f.pkt.hdr
  let c := getCore s k
  let q := getQ c (qOfPkt f.pkt.hdr)
  if q.state ≠ .disabled ∧ q.epoch.toNat = pEpoch f.pkt.hdr then
    match sceneOf s c with
    | some x => sceneCheck (setScene s { x with marks := x.marks + 1, progress := true }) x.sbn (scKey x)
    | none => countStale s k 1
  else countStale s k 1

/-! ### Messages to a core (R187, R246, R247, R250) -/

/-- A credit message (R250). -/
def creditIn (s : State) (f : Flight) : State :=
  let k := pDst f.pkt.hdr
  let c := getCore s k
  if runningEpoch c (pEpoch f.pkt.hdr) then
    putCore s k (bindAdd c 3 (bits (pArg f.pkt.hdr) 0 4) (bits (pArg f.pkt.hdr) 4 8 : Nat))
  else countStale s k 1

/-- A refusal of a SEND, or an ARRIVE returned, reaches its core (R187). -/
def sendRefused (s : State) (k status edge pc dest : Nat) : State :=
  let c := { getCore s k with sendst := BitVec.ofNat 32 (status + edge * 2 ^ 16 + pc % 2 ^ 12 * 2 ^ 20) }
  let s := setCore s k (if c.mode = .running then holdCore c 0x02 else c)
  coreEv s k 0x3010 1 [(28, 2, pc), (30, 1, edge), (32, 4, status), (36, 4, dest)]

/-- REFUSE, or a DARK_RET of a queue packet or an end mark (R246). -/
def refuseIn (s : State) (f : Flight) (status : Nat) : State :=
  let k := pDst f.pkt.hdr
  let h := hdrOfWords f.pkt.payload
  if runningEpoch (getCore s k) (pEpoch f.pkt.hdr) then sendRefused s k status (edgeOfPkt h) f.pkt.note (pDst h)
  else countStale s k 1

/-- A freeze order (R247). -/
def freezeIn (s : State) (f : Flight) : State :=
  let k := pDst f.pkt.hdr
  let c := getCore s k
  if runningEpoch c (pEpoch f.pkt.hdr) then
    if c.mode = .frozen then s
    else
      let s := setCore s k (freezeCore c 0x17)
      match sheetSlate c with
      | some n => freezeSlate s n [(28, 1, 1), (30, 3, k)]
      | none => s
  else countStale s k 1

/-- An ARRIVE that has left ends (R198): execution goes on with the next instruction (R177), of a HELD core on its release. A
core that is FROZEN meanwhile keeps its cause. -/
def arriveEnd (s : State) (k : Nat) (c : Core) : State :=
  if c.mode = .running ∨ c.mode = .held then goNext (setCore s k c) k (cueWord c)
  else setCore s k { c with wait := .none, pc := c.pc + 1 }

/-- An ARRIVE that was returned ends without a reply (R312). -/
def arriveReturned (s : State) (k : Nat) (h : BitVec 128) : State :=
  let c := getCore s k
  if c.wait = .arrive ∧ c.clap = pArg h then
    sendRefused (arriveEnd s k c) k 0x0704 0 c.pc.toNat (pDst h)
  else countStale s k 1

/-- A reply or return that reaches an edge port's unit, the DMA engine or the matrix loader (R232, R93, R312). The answer to
a request that was given up, or of another epoch, changes nothing but its tag (R233, R235). -/
def memAnswer (s : State) (p : Packet) (tag status : Nat) (ack : Bool) (ws : List Word) : State :=
  let k := pDst p.hdr
  let c := getCore s k
  if 2 ^ 16 ≤ p.note then portAck s (p.note - 2 ^ 16) tag status
  else if c.deadTags.contains tag || pEpoch p.hdr != c.epoch.toNat then
    setCore s k { c with deadTags := c.deadTags.filter (· != tag) }
  else
    if ack then dmaAck s k tag status
    else if (tileByTag (getCore s k) tag).isSome then tileData s k tag status ws
    else dmaData s k tag status ws

/-- A returned request reaches the unit that sent it (R312). -/
def darkRetIn (s : State) (f : Flight) : State :=
  let h := hdrOfWords f.pkt.payload
  match pType h with
  | 6 => arriveReturned s (pDst f.pkt.hdr) h
  | 9 => memAnswer s f.pkt (bits (pArg2 h) 8 8) 0x0704 false []
  | 0xB => memAnswer s f.pkt (bits (pArg2 h) 8 8) 0x0704 true []
  | _ => refuseIn s f 0x0704

/-! ### Clappers (R189, R190, R226, R294) -/

/-- Cores that wait on a clapper. -/
def clapWaiters (s : State) (a : Nat) : List Nat :=
  (s.cores.filter fun q => q.2.wait == .clapper && q.2.clap == a).map (·.1)

/-- Notifies every core that waits on a clapper. -/
def clapNotify (s : State) (a phase : Nat) : State :=
  let cl := clapCl a
  (clapWaiters s a).foldl (fun s k =>
    inject s cl 0 clapInjector ⟨mkHdr 8 ⟨0, 0, k, lowCore cl, (sheetSlate (getCore s k)).getD 0, (getCore s k).epoch.toNat⟩ 0 false a phase, [], 0⟩) s

/-- Detail of 0xB020 and 0xB021 (R294). -/
def resumeDetail (x : Scene) (a phase : Nat) : List (Nat × Nat × Nat) :=
  [(28, 2, x.sbn), (30, 2, x.idx), (32, 4, a), (36, 2, phase)]

/-- The resume point, if any, that a clapper's completed phase reaches: scene, storyboard, point. -/
def resumeAt (s : State) (a phase : Nat) : Option (Scene × Storyboard × Nat) :=
  s.scenes.findSome? fun x =>
    if !x.region.contains (clapCl a) then none
    else
      match getBoard s x.sbn with
      | none => none
      | some b =>
        ((List.range (scResumes b.words x.idx)).find? fun r =>
          resAddr b.words x.idx r == a && resPhase b.words x.idx r == phase).map fun r => (x, b, r)

/-- A clapper has completed phase `old`: a resume point is copied or skipped before the notification (R294). -/
def clapDone (s : State) (a old : Nat) : State :=
  let new := (old + 1) % 2 ^ 16
  match resumeAt s a old with
  | none => clapNotify s a new
  | some (x, b, r) =>
    if x.cores.all fun p => (List.range 16).all fun n => qWords (getCore s p.1) n == 0 then
      let area := if x.area = 1 then 2 else 1
      copyStart (setScene s { x with copying := some (r, area) }) .resume b x.sbn x.idx (scKey x) x.cmd.port x.kf (some r) area
    else clapNotify (raiseEv s 0xB021 1 (sceneFrame x) (resumeDetail x a old)) a new

/-- The copy of a resume point goes on; when every byte has reached its completion point, the point becomes the latest keyframe
(R294, R295). -/
def resumeCopied (s : State) (sbn idx : Nat) : State :=
  match s.scenes.find? (fun x => x.sbn == sbn && x.idx == idx && x.copying.isSome), getBoard s sbn with
  | some x, some b =>
    match x.copying with
    | none => s
    | some (r, area) =>
      let a := resAddr b.words idx r
      let ph := resPhase b.words idx r
      match copyJob s .resume sbn (scKey x) with
      | none => s
      | some j =>
      match copyWork s j with
      | (s, j) =>
      if !copyDone s j then s
      else
      let s := copyDrop s j
      let s := setScene s { x with copying := none, latest := some r, area := area, winMark := x.winCount }
      let s := { s with unfinished := s.unfinished.map fun u =>
        if u.sbn = sbn ∧ u.idx = idx ∧ (boundSlates x).contains u.slate = true then
          { u with latest := some r, area := area, winMark := x.winCount } else u }
      let s := raiseEv s 0xB020 0 (sceneFrame x) (resumeDetail x a ph)
      clapNotify s a ((ph + 1) % 2 ^ 16)
  | _, _ => s

/-- An arrival at a clapper (R189). A word that fails its parity leaves the clapper unchanged (R226). -/
def clapArriveIn (s : State) (f : Flight) : State :=
  let h := f.pkt.hdr
  let a := pArg h
  let cl := f.cl
  let w := clapWord a
  let m := (getCl s cl).mem
  match badWord m w 2 with
  | some b =>
    let k := pSrc h
    let s := coreEv s k 0x2012 2 (cmDetail cl b (ramLanes m b) 67)
    let c := getCore s k
    detect s ⟨0x2012, 2, some k, (sheetSlate c).toList, c.scene⟩
  | none =>
    let w0 := clapW0 s a
    let w1 := clapW1 s a
    let phase := bits w1 0 16
    let s := inject s cl 0 clapInjector ⟨mkHdr 7 ⟨0, 0, pSrc h, lowCore cl, pSlate h, pEpoch h⟩ 0 false a phase, [], 0⟩
    let count := bits w0 16 16 + 1
    let full := decide (count = bits w0 0 16)
    let v0 : Word := BitVec.ofNat 32 (bits w0 0 16 + (if full then 0 else count % 2 ^ 16 * 2 ^ 16))
    let v1 : Word := BitVec.ofNat 32 (w1 - phase + (if full then (phase + 1) % 2 ^ 16 else phase))
    let c := getCl s cl
    let s := setCl s cl { c with mem := ramPutWords c.mem w [v0, v1] }
    if full then clapDone s a phase else s

/-- A reply reaches the arriving core: gd takes the phase and the ARRIVE ends (R189, R198). -/
def clapReplyIn (s : State) (f : Flight) : State :=
  let k := pDst f.pkt.hdr
  let c := getCore s k
  if c.wait = .arrive ∧ c.clap = pArg f.pkt.hdr then
    arriveEnd s k (setG c (fD (cueWord c)) (BitVec.ofNat 32 (bits (pArg2 f.pkt.hdr) 0 16)))
  else s

/-- A notification ends a CLWAIT whose phase differs (R190). -/
def clapNotifyIn (s : State) (f : Flight) : State :=
  let k := pDst f.pkt.hdr
  let c := getCore s k
  let w := cueWord c
  if c.mode = .running ∧ c.wait = .clapper ∧ c.clap = pArg f.pkt.hdr ∧ bits (pArg2 f.pkt.hdr) 0 16 ≠ (gReg c (fB w)).toNat then
    goNext s k w
  else s

/-! ### Memory ports (R225, R226, R299, R358) -/

/-- Edge port whose home a cluster is (R343), if the variant has it. -/
def homePort (s : State) (cl : Nat) : Option Nat :=
  (List.range 120).find? fun e => portHome e == cl && !removedPort s e

/-- Hands a packet to the cluster's edge port. -/
def toPort (s : State) (e : Nat) (f : Flight) : State :=
  let p := getPort s e
  setPort s e { p with inbox := p.inbox ++ [(f.pkt, f.plane)] }

/-- The cluster-memory read error of a remote core (R226): its DMA engine or loader stops as under a hold order. -/
def remoteError (s : State) (f : Flight) (w lanes : Nat) : State := cmError s (pSrc f.pkt.hdr) f.cl w lanes 64 stopDma

/-- MEM_RD at its cluster. -/
def memRdIn (s : State) (f : Flight) : State :=
  let arg := pArg f.pkt.hdr
  let n := pArg2 f.pkt.hdr % 256
  let w := bits arg 0 28
  if arg.testBit 27 then
    match homePort s f.cl with
    | some e => toPort s e f
    | none => readReply s f.cl memoryInjector f 0x0903 []
  else if arg.testBit 28 then vaultEnqueue s f.cl ⟨.router f.pkt f.plane, w, n, none⟩
  else
    let m := (getCl s f.cl).mem
    match badWord m w n with
    | some b => remoteError s f b (ramLanes m b)
    | none => readReply s f.cl memoryInjector f 0 (ramWords m w n)

/-- MEM_WR at its cluster: an origin write to a gateway, and a packet that crosses to a port, have both bits set. -/
def memWrIn (s : State) (f : Flight) : State :=
  let arg := pArg f.pkt.hdr
  let w := bits arg 0 28
  if arg.testBit 27 then
    match homePort s f.cl with
    | some e => toPort s e f
    | none => writeReply s f.cl memoryInjector f 0x0903
  else if arg.testBit 28 then
    vaultEnqueue s f.cl ⟨.router f.pkt f.plane, w, f.pkt.payload.length, some f.pkt.payload⟩
  else
    let c := getCl s f.cl
    writeReply (setCl s f.cl { c with mem := ramPutWords c.mem w f.pkt.payload }) f.cl memoryInjector f 0

/-- MEM_RD_DATA at its requester, or at a vault that waits for a re-fetched line. -/
def memRdDataIn (s : State) (f : Flight) : State :=
  if f.pkt.note = refetchNote then refetchArrive s f.cl (bits (pArg2 f.pkt.hdr) 8 8) f.pkt.payload
  else
  memAnswer s f.pkt (bits (pArg2 f.pkt.hdr) 8 8) (bits (pArg f.pkt.hdr) 0 16) false f.pkt.payload

/-- MEM_WR_ACK at its requester. -/
def memWrAckIn (s : State) (f : Flight) : State :=
  memAnswer s f.pkt (bits (pArg2 f.pkt.hdr) 8 8) (bits (pArg f.pkt.hdr) 0 16) true []

/-! ### Rings in cluster memory (R264 to R268) -/

/-- A record header at a data-area byte is malformed: unlisted TYPE, LEN out of range, or beyond the area's end. -/
def ringRecBad (typ len size p : Nat) : Bool :=
  if typ = 1 then decide (4096 < len) || decide (size < p + ringMsgLen len)
  else if typ = 2 then decide (len % 64 ≠ 56) || decide (size < p + len + 8)
  else true

/-- Bytes by which TAIL passes a record at data-area byte `p`: a PAD takes it to the start of the data area (R267). -/
def ringRecLen (typ len size p : Nat) : Nat := if typ = 1 then ringMsgLen len else size - p

/-- Words of a ring that its consumer reads: CONFIG, HEAD, TAIL and the header of the next record. -/
def ringReads (m : Ram) (a : Nat) : List Nat :=
  [a, a + 4, a + 8, a + 16 + (ramWord m (a + 8)).toNat % 2 ^ bits (ramWord m a).toNat 0 5 / 4]

/-- A consuming unit takes the next record of a ring whose control block stands at a byte address of a cluster. A malformed
record stops it (R268): it takes the ring up again when it finds it initialised, with HEAD and TAIL zero (log entry 98). A
word that fails its parity ends the operation (R226). -/
def ringConsume (s : State) (cl ctl : Nat) : State :=
  let c := getCl s cl
  let m := c.mem
  let a := 64 * ctl / 4
  let log := bits (ramWord m a).toNat 0 5
  let size := 2 ^ log
  let head := ramWord m (a + 4)
  let tail := ramWord m (a + 8)
  match (ringReads m a).find? fun w => ramLanes m w != 0 with
  | some w => raiseEv s 0x2012 2 noFrame (cmDetail cl w (ramLanes m w) 66)
  | none =>
    if c.ringStops.contains ctl then
      if head = 0 ∧ tail = 0 then setCl s cl { c with ringStops := c.ringStops.filter (· != ctl) } else s
    else if log < 7 ∨ 24 < log ∨ head = tail then s
    else
      let p := tail.toNat % size
      let w := (ramWord m (a + 16 + p / 4)).toNat
      let typ := bits w 0 16
      let len := bits w 16 16
      if p % 64 ≠ 0 ∨ ringRecBad typ len size p = true then
        raiseEv (setCl s cl { c with ringStops := c.ringStops ++ [ctl] }) 0x3020 2 noFrame
          [(28, 8, 64 * ctl), (36, 4, p), (40, 2, typ)]
      else setCl s cl { c with mem := ramPutWord m (a + 8) (tail + BitVec.ofNat 32 (ringRecLen typ len size p)) }

/-- A unit of the module places a message in a ring of a cluster's memory (R266): PAD first where it does not fit before the end
of the data area. The answer is OK, MSG_TOO_LONG with nothing written, or none while there is no room. -/
def ringProduce (s : State) (cl ctl seq : Nat) (payload : List Byte) : State × Option Nat :=
  let c := getCl s cl
  let a := 64 * ctl
  let size := 2 ^ bits (ramWord c.mem (a / 4)).toNat 0 5
  let head := ramWord c.mem (a / 4 + 4)
  let used := (head - ramWord c.mem (a / 4 + 8)).toNat
  let put (m : Ram) (p n typ len seq : Nat) (head : Word) (bs : List Byte) : Ram :=
    let rcd := leBytes 2 typ ++ leBytes 2 len ++ leBytes 4 seq ++ bs
    ramPutWord (ramPutBytes m (a + 64 + p) (rcd ++ List.replicate (n - rcd.length) 0)) (a / 4 + 4) (head + BitVec.ofNat 32 n)
  match ringPlace size used (head.toNat % size) payload.length with
  | .tooLong => (s, some 0x0706)
  | .wait => (s, none)
  | .msg p n => (setCl s cl { c with mem := put c.mem p n 1 payload.length seq head payload }, some 0)
  | .pad p n =>
    let m := put c.mem p n 2 (n - 8) 0 head []
    let s := setCl s cl { c with mem := m }
    match ringPlace size (used + n) 0 payload.length with
    | .msg p n' => (setCl s cl { c with mem := put m p n' 1 payload.length seq (head + BitVec.ofNat 32 n) payload }, some 0)
    | _ => (s, none)

/-! ### Seams (R309 to R311) -/

/-- A splice link of a seam loses lock or deskew: the seam runs in uniform mode, and its failing links are dead. -/
def seamUniform (s : State) (sm l0 l1 cause : Nat) : State :=
  let d := smapGet (0, 0) s.floor.dead sm
  let new : Byte × Byte := (d.1 ||| BitVec.ofNat 8 l0, d.2 ||| BitVec.ofNat 8 l1)
  let s := bumpFloor s
  let s := { s with
    splice := s.splice.filter (· != sm)
    floor := { s.floor with dead := smapSet (0, 0) s.floor.dead sm new } }
  raiseEv s 0x4001 1 noFrame [(28, 1, sm), (29, 1, l0), (30, 1, l1), (31, 1, cause)]

end Sys2Proof.Machine
end

