-- ==== Sys2Proof/Machine/Mesh.lean ====
section
/-! DEFINITION. The rows of the on-wafer mesh: hops, arrivals by type, rings and seams (R304 to R313). -/

namespace Sys2Proof.Machine

open Sys2Proof

/-- ROUTER_FORWARD: the head of a buffer takes the hop its route entry names, when the output port grants it (R302 to R304, R312). A
dark router's flits are frozen. A route fence whose last packet this was comes to its end (R306). -/
def execRouterForward (k : ClusterId) (pl : Plane) (d : PortDir) (vc : Chan) (s : State) : Host.Outcome State Fault Refusal :=
  .next (fenceStep (if isDark s (clKey k) then s
    else
      match headOf s (clKey k) pl.val d (chanNo vc) with
      | some f => forward s f
      | none => s))

/-- QUEUE: a packet reaches a receive queue (R245 to R259). -/
def execQueue (k : ClusterId) (pl : Plane) (hd : BitVec 128) (td : Word) (s : State) : Host.Outcome State Fault Refusal :=
  .next (arrivalRow (clKey k) pl.val 0 hd td queueIn s)

/-- END_MARK: an end-of-scene mark (R284). A mark of a scene not yet started at its core waits, as R243 has it (R308). -/
def execEndMark (k : ClusterId) (pl : Plane) (hd : BitVec 128) (td : Word) (s : State) : Host.Outcome State Fault Refusal :=
  .next (arrivalRow (clKey k) pl.val 1 hd td endMarkIn s)

/-- CREDIT (R250). -/
def execCredit (k : ClusterId) (pl : Plane) (hd : BitVec 128) (td : Word) (s : State) : Host.Outcome State Fault Refusal :=
  .next (arrivalRow (clKey k) pl.val 2 hd td creditIn s)

/-- REFUSE (R246). -/
def execRefuse (k : ClusterId) (pl : Plane) (hd : BitVec 128) (td : Word) (s : State) : Host.Outcome State Fault Refusal :=
  .next (arrivalRow (clKey k) pl.val 3 hd td (fun s f => refuseIn s f 0x0403) s)

/-- DARK_RET (R312). -/
def execDarkRet (k : ClusterId) (pl : Plane) (hd : BitVec 128) (td : Word) (s : State) : Host.Outcome State Fault Refusal :=
  .next (arrivalRow (clKey k) pl.val 4 hd td darkRetIn s)

/-- FREEZE (R247). -/
def execFreeze (k : ClusterId) (pl : Plane) (hd : BitVec 128) (td : Word) (s : State) : Host.Outcome State Fault Refusal :=
  .next (arrivalRow (clKey k) pl.val 5 hd td freezeIn s)

/-- CLAP_ARRIVE (R189). -/
def execClapArrive (k : ClusterId) (pl : Plane) (hd : BitVec 128) (td : Word) (s : State) : Host.Outcome State Fault Refusal :=
  .next (arrivalRow (clKey k) pl.val 6 hd td clapArriveIn s)

/-- RESUME_POINT_COPY_DONE (R294). -/
def execResumePointCopyDone (sc : SceneId) (s : State) : Host.Outcome State Fault Refusal :=
  .next (resumeCopied s sc.sbn.val sc.idx.val)

/-- CLAP_REPLY (R189). -/
def execClapReply (k : ClusterId) (pl : Plane) (hd : BitVec 128) (td : Word) (s : State) : Host.Outcome State Fault Refusal :=
  .next (arrivalRow (clKey k) pl.val 7 hd td clapReplyIn s)

/-- CLAP_NOTIFY (R190). -/
def execClapNotify (k : ClusterId) (pl : Plane) (hd : BitVec 128) (td : Word) (s : State) : Host.Outcome State Fault Refusal :=
  .next (arrivalRow (clKey k) pl.val 8 hd td clapNotifyIn s)

/-- MEM_RD (R225). -/
def execMemRd (k : ClusterId) (pl : Plane) (hd : BitVec 128) (td : Word) (s : State) : Host.Outcome State Fault Refusal :=
  .next (arrivalRow (clKey k) pl.val 9 hd td memRdIn s)

/-- MEM_RD_DATA (R299). -/
def execMemRdData (k : ClusterId) (pl : Plane) (hd : BitVec 128) (td : Word) (s : State) : Host.Outcome State Fault Refusal :=
  .next (arrivalRow (clKey k) pl.val 0xA hd td memRdDataIn s)

/-- MEM_WR (R225). -/
def execMemWr (k : ClusterId) (pl : Plane) (hd : BitVec 128) (td : Word) (s : State) : Host.Outcome State Fault Refusal :=
  .next (arrivalRow (clKey k) pl.val 0xB hd td memWrIn s)

/-- MEM_WR_ACK (R299). -/
def execMemWrAck (k : ClusterId) (pl : Plane) (hd : BitVec 128) (td : Word) (s : State) : Host.Outcome State Fault Refusal :=
  .next (arrivalRow (clKey k) pl.val 0xC hd td memWrAckIn s)

/-- RING_RECORD_CONSUME (R267, R268). -/
def execRingRecordConsume (k : ClusterId) (ctl : Fin 1048576) (s : State) : Host.Outcome State Fault Refusal :=
  .next (ringConsume s (clKey k) ctl.val)

/-- SPLICE_LOCK_LOSS (R311). -/
def execSpliceLockLoss (sm : SeamId) (l0 l1 : Byte) (cause : LockCause) (s : State) : Host.Outcome State Fault Refusal :=
  if s.splice.contains sm.val then
    .next (seamUniform s sm.val l0.toNat l1.toNat (match cause with | .lock => 1 | .deskew => 2))
  else .next s

end Sys2Proof.Machine
end

