-- ==== Sys2Proof/Machine/Power.lean ====
section
/-! DEFINITION. The rows of power, heat and energy (R519 to R546). -/

namespace Sys2Proof.Machine

open Sys2Proof

/-- POWER_BUDGET_SET (R524). -/
def execPowerBudgetSet (p : HostPort) (r : CmdRec) (s : State) : Host.Outcome State Fault Refusal :=
  .next (mailbox (moduleSpec 0x0500 0) p r (budgetBody r) s)

/-- FADE (R535, R536). -/
def execFade (p : HostPort) (r : CmdRec) (s : State) : Host.Outcome State Fault Refusal :=
  .next (mailbox (moduleSpec 0x0501 0) p r (fadeBody r) s)

/-- FADE_COMPLETE: the oldest fade's sequence has finished (R536). -/
def execFadeComplete (s : State) : Host.Outcome State Fault Refusal := .next (fadeEnd s)

/-- UNFADE (R537 to R539). -/
def execUnfade (p : HostPort) (r : CmdRec) (s : State) : Host.Outcome State Fault Refusal :=
  .next (mailbox (moduleSpec 0x0502 0) p r (unfadeBody r) s)

/-- UNFADE_COMPLETE: the oldest unfade's sequence has finished (R514, R538). -/
def execUnfadeComplete (s : State) : Host.Outcome State Fault Refusal := .next (unfadeEnd s)

/-- STOP_LIMIT_SET (R523). -/
def execStopLimitSet (p : HostPort) (r : CmdRec) (s : State) : Host.Outcome State Fault Refusal :=
  .next (mailbox (moduleSpec 0x0503 0) p r (limitBody r) s)

/-- ENERGY_READ (R542): per-slate for KIND 4. -/
def execEnergyRead (p : HostPort) (r : CmdRec) (s : State) : Host.Outcome State Fault Refusal :=
  .next (mailbox ⟨0x0504, (2, 0), decide (pb r 36 1 = 4), false, 0⟩ p r (energyBody p r) s)

/-- FRAME_CORRECTION: a frame's measured power over 50 µs in mW (R529). -/
def execFrameCorrection (f : FrameId) (mw : Word) (s : State) : Host.Outcome State Fault Refusal :=
  .next (if frameOk s (frKey f) then correctFrame s (frKey f) mw.toNat else s)

/-- LEASE_EXPIRED (R526). -/
def execLeaseExpired (s : State) : Host.Outcome State Fault Refusal := .next (leaseOut s)

/-- BUDGET_UNMET (R530). -/
def execBudgetUnmet (mw : Word) (s : State) : Host.Outcome State Fault Refusal := .next (budgetUnmet s mw.toNat)

/-- DROOP_DETECT: a rail voltage in mV (R531). -/
def execDroopDetect (f : FrameId) (mv : Word16) (s : State) : Host.Outcome State Fault Refusal :=
  .next (if frameOk s (frKey f) then droopIn s (frKey f) mv else s)

/-- DROOP_END (R531). -/
def execDroopEnd (f : FrameId) (s : State) : Host.Outcome State Fault Refusal :=
  .next (if (getFrame s (frKey f)).stretched then setFrame s (frKey f) { getFrame s (frKey f) with stretched := false } else s)

/-- LOGIC_SENSOR_SAMPLE: a raw reading in hundredths of a degree (R532 to R534). -/
def execLogicSensorSample (k : ClusterId) (t : Word16) (s : State) : Host.Outcome State Fault Refusal :=
  .next (if fusedCl s (clKey k) then s else logicSample s (clKey k) (sensorDegrees s (clKey k) t))

/-- COOLANT_SAMPLE (R544). -/
def execCoolantSample (cs : CoolantSample) (s : State) : Host.Outcome State Fault Refusal := .next (coolantIn s cs)

/-- INLET_RANGE: an inlet voltage in mV, for 1 ms (R519). -/
def execInletRange (mv : Word) (s : State) : Host.Outcome State Fault Refusal := .next (inletRange s mv.toNat)

/-- INLET_DISCONNECT: an inlet voltage in mV, for 100 µs (R519). -/
def execInletDisconnect (mv : Word) (s : State) : Host.Outcome State Fault Refusal :=
  .next (if mv.toNat < 690000 ∨ 870000 < mv.toNat then powerLost s else s)

end Sys2Proof.Machine
end

