-- ==== Sys2Proof/Machine/Reel.lean ====
section
/-! DEFINITION. The rows of the reel protocol (R357 to R369). -/

namespace Sys2Proof.Machine

open Sys2Proof

/-- RHELLO_ACK (R362). -/
def execRhelloAck (e : EdgePort) (s : State) : Host.Outcome State Fault Refusal :=
  .next (withReel s e.val 2 fun s m => rhelloAck s e.val m)

/-- OPEN_ACK (R363). -/
def execOpenAck (e : EdgePort) (s : State) : Host.Outcome State Fault Refusal :=
  .next (withReel s e.val 4 fun s m => openAck s e.val m)

/-- DATA (R364). -/
def execReelData (e : EdgePort) (s : State) : Host.Outcome State Fault Refusal :=
  .next (withReel s e.val 6 fun s m => reelData s e.val m)

/-- ERROR (R367). -/
def execError (e : EdgePort) (s : State) : Host.Outcome State Fault Refusal :=
  .next (withReel s e.val 9 fun s m => reelStoreError s e.val m)

/-- PUT_ACK (R366). -/
def execPutAck (e : EdgePort) (s : State) : Host.Outcome State Fault Refusal :=
  .next (withReel s e.val 12 fun s m => putAck s e.val m)

/-- REEL_READ: a MEM_RD handed to the port (R358). -/
def execReelRead (e : EdgePort) (s : State) : Host.Outcome State Fault Refusal :=
  .next (withInbox s e.val (fun p => pType p.hdr == 9) fun s p pl => reelRead s e.val p pl)

/-- REEL_WRITE: a MEM_WR of a reel handed to the port (R366). -/
def execReelWrite (e : EdgePort) (s : State) : Host.Outcome State Fault Refusal :=
  .next (withInbox s e.val (fun p => pType p.hdr == 0xB && decide (pArg p.hdr < 2 ^ 28)) fun s p pl => reelWrite s e.val p pl)

/-- PUT_FLUSH: 64 ROUTE cycles without a contiguous write (R366). -/
def execPutFlush (e : EdgePort) (s : State) : Host.Outcome State Fault Refusal := .next (putFlush s e.val)

end Sys2Proof.Machine
end

