-- ==== Sys2Proof/Machine/Sideband.lean ====
section
/-! DEFINITION. Sideband pins, the monitoring target, JTAG and the status pins (R574 to R586, R591 to R593). -/

namespace Sys2Proof.Machine

open Sys2Proof

/-! ### SB_ASSIGN (R582, R583, R592) -/

/-- The port block holds a port on this variant. -/
def blockOk (s : State) (b : Nat) : Bool := decide (b < 15) && (List.range 8).any fun i => !removedPort s (8 * b + i)

/-- Rectangle words of the record. -/
def sbRects (r : CmdRec) : List Nat := (List.range (pb r 44 1)).map fun i => pb r (48 + 4 * i) 4

/-- PARAM fields that a function uses, for the test of reserved and unused bits. -/
def sbFields (r : CmdRec) : List (Nat × Nat × Nat) :=
  let f := pb r 37 1
  [(36, 0, 8), (37, 0, 8)]
    ++ (if f = 1 ∨ f = 2 then [(38, 0, 8)] else [])
    ++ (if f = 3 then [(40, 0, 32)] else [])
    ++ (if f = 5 then [(39, 0, 1), (44, 0, 8)] ++ (List.range (pb r 44 1)).map fun i => (48 + 4 * i, 0, 32) else [])

/-- A field is out of range or unlisted, or a reserved or unused one is not zero. -/
def sbBad (s : State) (r : CmdRec) : Bool :=
  let f := pb r 37 1
  let n := pb r 44 1
  decide (7 < pb r 36 1) || decide (7 < f) || ((f == 1 || f == 2) && !blockOk s (pb r 38 1))
    || (f == 3 && (decide (pb r 40 4 < 1000) || decide (1000000000 < pb r 40 4)))
    || (f == 5 && (decide (n = 0) || decide (4 < n) || !(sbRects r).all fun w => rectWordOk w && decide (w / 2 ^ 24 = 0)))
    || !rsvOk r (sbFields r)

/-- The pin holds a function, or another holds the same. -/
def sbClaimed (s : State) (r : CmdRec) : Bool :=
  let f := pb r 37 1
  f != 0 && ((getPin s (pb r 36 1)).func != 0 || s.pins.any fun q => q.2.func == f && q.2.block == pb r 38 1)

/-- The lowest frame that is not wholly faded. -/
def timerFrame (s : State) : Option Nat :=
  (frames s).find? fun f => (poweredCls s f).any fun cl => decide ((getCl s cl).dark ≠ .gated)

/-- The pin as the record assigns it. -/
def sbPin (s : State) (p : HostPort) (r : CmdRec) : Pin :=
  let f := pb r 37 1
  { Pin.reset with
    func := f
    block := pb r 38 1
    retain := pb r 39 1
    period := pb r 40 4
    rects := (sbRects r).map (BitVec.ofNat 32)
    port := portNo p
    level := f == 6 && s.clock.hold
    timer := if f = 3 ∨ f = 4 then timerFrame s else none }

/-- SB_ASSIGN's own work. -/
def sbBody (p : HostPort) (r : CmdRec) (ref : CmdRef) (s : State) : State :=
  if sbBad s r then finish s ref 0x0103 []
  else if sbClaimed s r then finish s ref 0x0302 []
  else
    let n := pb r 36 1
    let old := getPin s n
    let new := if pb r 37 1 = 0 then Pin.reset else sbPin s p r
    let s := setPin s n new
    let s := if new.func = 1 then pauseOut s new.block else s
    finish s ref 0 [(24, 1, old.func), (25, 1, old.block), (26, 1, new.timer.getD 0xFF)]

/-- SB_ASSIGN (R582). -/
def execSbAssign (p : HostPort) (r : CmdRec) (s : State) : Host.Outcome State Fault Refusal :=
  .next (mailbox ⟨0x0700, (3, 1), false, true, 0⟩ p r (sbBody p r) s)

/-! ### Pins (R582, R584) -/

/-- TIME_PULSE_OUT: TIME_NS passes a multiple of PERIOD. In HOLD the pin stays inactive (R508). -/
def execTimePulseOut (pin : SbPin) (s : State) : Host.Outcome State Fault Refusal :=
  .next (if (getPin s pin.val).func = 3 ∧ s.clock.hold = false then emit s (.pulse pin.val) else s)

/-- TIME_PULSE_IN: TIME_NS is latched. -/
def execTimePulseIn (pin : SbPin) (s : State) : Host.Outcome State Fault Refusal :=
  .next (if (getPin s pin.val).func = 4 then { s with tcap := s.clock.timeNs } else s)

/-- FADE_REQ_IN_ASSERT (R584). -/
def execFadeReqInAssert (pin : SbPin) (s : State) : Host.Outcome State Fault Refusal :=
  .next (if (getPin s pin.val).func = 5 then pinEdge s pin.val true else s)

/-- FADE_REQ_IN_RELEASE (R584). -/
def execFadeReqInRelease (pin : SbPin) (s : State) : Host.Outcome State Fault Refusal :=
  .next (if (getPin s pin.val).func = 5 then pinEdge s pin.val false else s)

/-! ### Status pins and monitoring registers (R577 to R579) -/

/-- FAULT# is asserted. -/
def faultPin (s : State) : Bool := s.powered && s.monFault != 0

/-- THERM_ALERT# is asserted. -/
def thermAlert (s : State) : Bool :=
  s.powered && s.clusters.any fun q => q.2.therm.getLsbD 8 || q.2.dark == .tripped || decide (2 ≤ q.2.vault.band)

/-- Highest of a sample over the clusters, as a signed byte. -/
def highest (s : State) (f : Cluster → Int) : Nat :=
  codeOf 8 ((allCl s).foldl (fun a cl => max a (f (getCl s cl))) (-128))
where
  /-- Clusters of the variant. -/
  allCl (s : State) : List Nat := (List.range 3584).filter fun cl => !fusedCl s cl

/-- A monitoring register. A read of an unlisted offset returns 0. -/
def monReg (s : State) (off : Nat) : Nat :=
  match off with
  | 0x00 => s.otp.device.toNat
  | 0x02 => (match s.boot.fw with | .rom => 0 | .loading => 1 | .running => 2 | .failed => 3) + bitAt s.boot.ready 2
      + bitAt s.clock.hold 3 + bitAt (faultPin s) 4 + bitAt (thermAlert s) 5
  | 0x04 => highest s (fun c => signedOf 8 (bits c.therm.toNat 0 8))
      + (if noVaults s then 0 else highest s fun c => signedOf 8 c.vault.temp.toNat) * 2 ^ 8
  | 0x06 => s.power.tIn % 256 + s.power.tOut % 256 * 2 ^ 8
  | 0x08 => s.power.flow % 65536
  | 0x0A => s.power.pIn / 10 % 16384
  | 0x0C => s.power.volts % 1024
  | 0x0E => s.monFault.toNat % 32
  | _ => 0

/-- MON_FAULT_WRITE: bits written with 1 are cleared (R579). -/
def execMonFaultWrite (v : Byte) (s : State) : Host.Outcome State Fault Refusal :=
  .next (if s.powered then { s with monFault := s.monFault &&& ~~~(v &&& 0x1F) } else s)

/-- SETDASA: the target takes a dynamic address (R578). -/
def execSetdasa (addr : BitVec 7) (s : State) : Host.Outcome State Fault Refusal :=
  .next (if s.powered then { s with monAddr := some addr } else s)

/-- RSTDAA: the target answers at its static address again (R578). -/
def execRstdaa (s : State) : Host.Outcome State Fault Refusal :=
  .next (if s.powered then { s with monAddr := none } else s)

/-! ### JTAG (R580) -/

/-- What an instruction code selects: 0 BYPASS, 1 another public instruction, 2 IDCODE, 3 private. All ones is BYPASS, as
IEEE 1149.1 has it; the other codes are not given (log entry 76). -/
def jtagKind (ir : Byte) : Nat :=
  if ir = 0xFF then 0 else if ir = Config.jtagIdcode then 2 else Config.jtagKind ir % 4

/-- The word of IDCODE; bit 0 is 1, as IEEE 1149.1 has it. -/
def idcode (s : State) : Nat :=
  1 + Config.jtagMaker.toNat * 2 + s.otp.device.toNat * 2 ^ 12 + s.otp.revision.toNat % 16 * 2 ^ 28

/-- JTAG_INSTRUCTION: a private instruction without debug scope bit 0 behaves as BYPASS. -/
def execJtagInstruction (ir : Byte) (s : State) : Host.Outcome State Fault Refusal :=
  .next (if s.powered then
      let k := jtagKind ir
      let s := { s with jtagIr := if k = 3 ∧ s.boot.scopes.getLsbD 0 = false then 0xFF else ir }
      if k = 2 then emit s (.jtag (idcode s)) else s
    else s)

end Sys2Proof.Machine
end

