-- ==== Sys2Proof/Machine/SlateOps.lean ====
section
/-! DEFINITION. Opening, status, release and cut of a slate (R436 to R467). -/

namespace Sys2Proof.Machine

open Sys2Proof

/-! ### SLATE_OPEN (R439, R440) -/

/-- Entry `i` of the parameter buffer. -/
def openRange (r : CmdRec) (i : Nat) : Range :=
  let b := (bufBytes r).drop (16 * i)
  ⟨getLe b 0 1, clOfTarget (getLe b 2 2), getLe b 4 4, getLe b 8 4⟩

/-- Entry `i` lies wholly in memory of its kind, and its reserved fields are zero. -/
def openEntryOk (s : State) (r : CmdRec) (i : Nat) : Bool :=
  let b := (bufBytes r).drop (16 * i)
  let q := openRange r i
  decide (getLe b 1 1 = 0) && decide (getLe b 12 4 = 0) && clTargetOk (getLe b 2 2) && !fusedCl s q.cl && decide (1 ≤ q.len)
    && ((decide (q.space = 2) && decide (q.base + q.len ≤ cmWords))
      || (decide (q.space = 3) && !noVaults s && decide (q.base + q.len ≤ vaultWords s)))

/-- The ranges of a record. -/
def openRanges (r : CmdRec) : List Range := (List.range (pb r 42 2)).map (openRange r)

/-- Fields of SLATE_OPEN. -/
def openFields : List (Nat × Nat × Nat) := [(36, 0, 1), (38, 0, 16), (40, 0, 12), (42, 0, 16)]

/-- RESUME. -/
def openResume (r : CmdRec) : Bool := pbit r 36 0

/-- The parameters are refused with BAD_PARAM. -/
def openBad (s : State) (r : CmdRec) : Bool :=
  !rsvOk r openFields || decide (256 < pb r 42 2)
    || (!openResume r && decide (pb r 40 2 ≠ 0)) || !(List.range (pb r 42 2)).all (openEntryOk s r)

/-- Ranges of slates that are not FREE. -/
def heldRanges (s : State) : List Range := s.slates.flatMap fun q => if q.2.mode = .free then [] else q.2.ranges

/-- Two ranges share a word. -/
def rangesMeet (a b : Range) : Bool :=
  a.space == b.space && a.cl == b.cl && decide (a.base < b.base + b.len) && decide (b.base < a.base + a.len)

/-- A range overlaps another slate's, or a cluster would hold more than 64. -/
def openBusy (s : State) (rs : List Range) : Bool :=
  let held := heldRanges s
  rs.any (fun a => held.any (rangesMeet a)) || rs.any fun a => decide (64 < ((held ++ rs).filter fun b => b.cl == a.cl).length)

/-- The status of R440, or 0. -/
def openStatus (s : State) (n : Nat) (r : CmdRec) : Nat :=
  if openBad s r then 0x0103
  else if (getSlate s n).mode ≠ .free then 0x0301
  else if openBusy s (openRanges r) then 0x0301
  else 0

/-- INC of an opening (R439, R448). -/
def nextInc (v : Slate) (m : BitVec 16) : BitVec 16 :=
  let p := v.inc + 1
  if v.incKnown = false ∨ (m - p).toNat ≤ 32767 then m else p

/-- The slate as a SLATE_OPEN leaves it. -/
def openedSlate (v : Slate) (p : HostPort) (r : CmdRec) (cseq : Word) : Slate :=
  { Slate.reset with
    mode := .opened
    owner := p
    ranges := openRanges r
    inc := nextInc v (BitVec.ofNat 16 (pb r 38 2))
    incKnown := true
    hgen := v.hgen + 1
    runNext := if openResume r then BitVec.ofNat 12 (pb r 40 2) else v.runNext
    nextCseq := cseq + 1 }

/-- SLATE_OPEN's own work. A refusal is an outcome of the slate's space only when the command was judged against it. -/
def openBody (p : HostPort) (r : CmdRec) (ref : CmdRef) (s : State) : State :=
  let n := r.slate.toNat
  let v := getSlate s n
  match openStatus s n r with
  | 0 =>
    let w := openedSlate v p r ref.cseq
    finish (setSlate s n w) ref 0 [(24, 2, w.inc.toNat), (26, 2, w.hgen.toNat), (28, 2, w.runNext.toNat)]
  | st => if (v.mode = .opened ∨ v.mode = .running) ∧ v.owner = p then finish s ref st [] else turnAway s ref st []

/-! ### SLATE_STATUS (R466, R496) -/

/-- FROZEN cores of a slate. -/
def frozenCores (s : State) (n : Nat) : Nat :=
  (s.cores.filter fun q => q.2.mode == .frozen && sheetSlate q.2 == some n).length

def slateModeNo : SlateMode → Nat
  | .free => 0
  | .opened => 1
  | .running => 2
  | .held => 3
  | .frozen => 4
  | .cutting => 5
  | .scrubbing => 6

/-- RESULT of SLATE_STATUS. -/
def statusResult (s : State) (n : Nat) : List (Nat × Nat × Nat) :=
  let v := getSlate s n
  [(24, 1, slateModeNo v.mode),
    (25, 1, bitAt (decide (v.owner = .B)) 0 + bitAt (s.portA.frozenFor.contains n) 1 + bitAt (s.portB.frozenFor.contains n) 2),
    (26, 2, v.inc.toNat), (28, 2, v.runNext.toNat), (30, 2, v.hgen.toNat), (32, 4, v.nextCseq.toNat),
    (36, 4, (unfinishedOf s n).length), (40, 4, lowestCseq s n), (44, 4, frozenCores s n),
    (48, 2, (s.fabric.frozen.filter fun f => f.2.2 == n).length), (56, 8, v.energy.toNat)]

/-- SLATE_STATUS's own work. A parity error of the slate's record is reported as it is read. -/
def statusBody (r : CmdRec) (ref : CmdRef) (s : State) : State :=
  let n := r.slate.toNat
  let free := (getSlate s n).mode = .free
  let s := growSlate s n
  let s := match smapGet (0, 0) s.recordBad n with
    | (_, 0) => s
    | (o, l) => raiseEv s 0xB042 3 noFrame [(32, 4, o), (36, 1, l)]
  let st := if rsvOk r [] then 0 else 0x0103
  let res := if rsvOk r [] then statusResult s n else []
  if free then turnAway s ref st res else finish s ref st res

/-! ### SLATE_RELEASE (R465) -/

/-- A FROZEN core of the slate goes IDLE without its call sheet; its local state is kept. -/
def thawCore (c : Core) : Core :=
  { retireQueues (abandonWork c) with mode := .idle, cause := 0, wait := .none, order := false, sheet := none, scene := none }

/-- Every FROZEN core of a slate is released. -/
def thawCores (s : State) (n : Nat) : State :=
  s.cores.foldl (fun s q => if q.2.mode = .frozen ∧ sheetSlate q.2 = some n then setCore s q.1 (thawCore q.2) else s) s

/-- The masters frozen for a slate are frozen no longer: host ports and remote flows. -/
def thawMasters (s : State) (n : Nat) : State :=
  let host (h : HPort) : HPort := { h with frozenFor := h.frozenFor.filter (· != n) }
  { s with
    portA := host s.portA
    portB := host s.portB
    fabric := { s.fabric with
      frozen := s.fabric.frozen.filter fun f => f.2.2 != n
      denials := s.fabric.denials.filter fun d => d.flow.2.2 != n } }

/-- SLATE_RELEASE's own work. -/
def slateReleaseBody (r : CmdRec) (ref : CmdRef) (s : State) : State :=
  let n := r.slate.toNat
  if rsvOk r [] = false then finish s ref 0x0103 []
  else
    let s := thawMasters (thawCores s n) n
    let s := if (getSlate s n).mode = .frozen then setMode s n (if (scenesOf s n).isEmpty then .opened else .held) else s
    finish s ref 0 []

/-! ### The cut: issue stops (R458) -/

/-- The slate of a command, when it is per-slate. -/
def cmdOf (n : Nat) (c : CmdRef) : Bool := c.scope == n

/-- Commands of a slate whose work has not ended, other than SCENE_RUN. -/
def slateWorks (s : State) (n : Nat) : List CmdRef :=
  (s.works.load.map (·.cmd) ++ s.works.takes.map (·.cmd) ++ s.works.dailies.filterMap (·.cmd) ++ s.works.windowClose.map (·.1)
    ++ s.works.resets.filterMap (·.cmd)).filter (cmdOf n)

/-- The work of a slate's commands ends. -/
def dropWorks (s : State) (n : Nat) : State :=
  let mine := s.works.takes.filter fun w => cmdOf n w.cmd
  let s := mine.foldl (fun s t => match copyJob s .take t.sbn t.idx with | some j => copyDrop s j | none => s) s
  { s with works := { s.works with
    load := s.works.load.filter fun w => !cmdOf n w.cmd
    takes := s.works.takes.filter fun w => !cmdOf n w.cmd
    dailies := s.works.dailies.filter fun w => match w.cmd with | some c => !cmdOf n c | none => true
    windowClose := s.works.windowClose.filter fun w => !cmdOf n w.1
    resets := s.works.resets.map fun w => match w.cmd with
      | some c => if cmdOf n c then { w with cmd := none } else w
      | none => w } }

/-- Changes the cut of a slate. -/
def setCut (s : State) (n : Nat) (f : Cut → Cut) : State :=
  setSlate s n { getSlate s n with cut := (getSlate s n).cut.map f }

/-- The command of a scene that waits for its admission: its replay's, or its own. -/
def waitingCmd (x : Scene) : Option CmdRef :=
  match x.replay with
  | some (_, c) => c
  | none => some x.cmd

/-- A queued or admitting scene of a slate being cut is given up: its command is owed SLATE_GONE, one of another slate
receives it now. -/
def giveUp (s : State) (n : Nat) (x : Scene) : State :=
  let s := if x.stage = 1 then
      (match getBoard s x.sbn with | some b => admitUndo s b x | none => { s with scenes := s.scenes.erase x })
    else { s with queuedRuns := s.queuedRuns.erase x }
  match waitingCmd x with
  | none => s
  | some c => if cmdOf n c then setCut s n fun q => { q with owed := q.owed ++ [c] } else finish s c 0x0402 []

/-- Step 1: the slate is CUTTING, its scenes are halted, its windows begin to close, its pages are unmapped. -/
def cutBegin (s : State) (n : Nat) (c : Cut) : State :=
  let s := setSlate s n { getSlate s n with mode := .cutting, cut := some c, faultHeld := false }
  let s := (s.queuedRuns.filter fun x => x.slots.contains n).foldl (fun s x => giveUp s n x) s
  let s := (s.scenes.filter fun x => x.stage == 1 && x.slots.contains n).foldl (fun s x => giveUp s n x) s
  let s := haltSlateScenes s n 0
  let s := s.fabric.windows.foldl (fun s w => if w.2.slate = n then windowShut s w.1 else s) s
  unmapSlate s n

/-- CUT_DL in µs. -/
def cutDl (r : CmdRec) : Nat := if pb r 36 4 = 0 then 1000 else pb r 36 4

/-- SLATE_CUT's own work. A second cut of a CUTTING slate waits for the first's outcome (R442). -/
def cutBody (r : CmdRec) (ref : CmdRef) (s : State) : State :=
  let n := r.slate.toNat
  if rsvOk r [(36, 0, 32), (40, 0, 1), (44, 0, 64)] = false ∨ 1000000 < pb r 36 4 ∨ (pbit r 40 0 = true ∧ pb r 44 8 = 0) then
    finish s ref 0x0103 []
  else if (getSlate s n).mode = .cutting then setCut (accept s ref []) n fun c => { c with also := c.also ++ [ref] }
  else
    flushLate (cutBegin (accept s ref []) n
      { cmd := ref, also := [], dl := cutDl r, dailies := if pbit r 40 0 then some (pb r 44 8) else none, step := 2, owed := []
        fenced := 0, discarded := 0 })

/-! ### Drain and deadline (R459) -/

/-- Transfers of a core that its DMA engine or its matrix loader started. -/
def coreTransfers (c : Core) : Nat :=
  (c.dma.foldl (fun a d => a + d.pieces.length) 0) + c.tiles.foldl (fun a t => a + t.reads.length) 0

/-- Reel transfers of a slot that await an answer. -/
def slotTransfers (x : ReelSlot) : Nat := x.reads.length + x.gather.length + x.puts.length + x.writes.length

/-- Window writes of a slate that await a WACK at a port. -/
def outOf (p : Port) (n : Nat) : Nat := (p.outWrites.filter fun o => pSlate o.pkt.hdr == n).length

/-- Reel transfers of a slate at a port. -/
def slotsPending (p : Port) (n : Nat) : Nat :=
  p.slots.foldl (fun a q => match q.2 with | some x => if x.slate = n then a + slotTransfers x else a | none => a) 0

/-- Transfers of a slate that a deadline would fence. -/
def unsettled (s : State) (n : Nat) : Nat :=
  ((slateCores s n).foldl (fun a k => a + coreTransfers (getCore s k)) 0)
    + (s.ports.foldl (fun a q => a + outOf q.2 n + slotsPending q.2 n) 0) + (slateWorks s n).length

/-- Incoming writes accepted into the slate's windows and not yet applied. -/
def incoming (s : State) (n : Nat) : Bool := s.ports.any fun q => q.2.inWrites.any fun w => !w.fwd && w.slate == n

/-- The cut of a slate, when it has reached a step. -/
def cutAt (s : State) (n step : Nat) : Option Cut :=
  match (getSlate s n).cut with
  | some c => if c.step = step then some c else none
  | none => none

/-- Every transfer of the slate is settled. -/
def drainDone (s : State) (n : Nat) : State :=
  match cutAt s n 2 with
  | some _ => if unsettled s n = 0 ∧ incoming s n = false then setCut s n fun c => { c with step := 3 } else s
  | none => s

/-- A port forgets what a slate's deadline fences: its window writes, and its reel slots with anything unsettled. -/
def fencePort (s : State) (n : Nat) (q : Nat × Port) : State :=
  let s := setPort s q.1 { getPort s q.1 with outWrites := q.2.outWrites.filter fun o => pSlate o.pkt.hdr != n }
  q.2.slots.foldl (fun s r => match r.2 with
    | some x => if x.slate = n ∧ slotTransfers x ≠ 0 then reelRelease s q.1 r.1 else s
    | none => s) s

/-- CUT_DL has passed: what is unsettled is fenced. -/
def deadlineFence (s : State) (n : Nat) : State :=
  match cutAt s n 2 with
  | none => s
  | some _ =>
    let count := unsettled s n
    let owed := slateWorks s n
    let ks := (slateCores s n).filter fun k => decide (coreTransfers (getCore s k) ≠ 0)
    let s := dropWorks (ks.foldl coreReset s) n
    let s := s.ports.foldl (fun s q => fencePort s n q) s
    setCut s n fun c => { c with step := 3, owed := c.owed ++ owed, fenced := count }

/-! ### Retirement, dailies and scrub (R458, R460 to R463) -/

/-- A packet on the mesh that a core of the slate injected, or its answer. -/
def ownFlight (n : Nat) (f : Flight) : Bool := pSlate f.pkt.hdr == n && decide (f.pkt.note < 2 ^ 16)

/-- The packet is frozen in a tripped router (R313). -/
def frozenFlight (s : State) (f : Flight) : Bool := decide ((getCl s f.cl).dark = .tripped)

/-- The mark of a packet that its router discards when its clock next runs. -/
def discardMark : Nat := 2 ^ 20

/-- Packets of the slate in tripped routers count as discarded, and are marked. -/
def markFrozen (s : State) (n : Nat) : State :=
  let hit (f : Flight) : Bool := ownFlight n f && frozenFlight s f
  let count := (s.mesh.filter hit).length
  let s := setCut s n fun c => { c with discarded := c.discarded + count }
  { s with mesh := s.mesh.map fun f => if hit f then { f with pkt := { f.pkt with note := f.pkt.note + discardMark } } else f }

/-- Local state that belongs to a slate is zeroed and belongs to none. -/
def scrubCore (n : Nat) (c : Core) : Core :=
  if c.localOwner = some n ∨ sheetSlate c = some n then
    let busy := c.mode = .running ∨ c.mode = .held ∨ c.mode = .frozen
    { zeroLocal (retireQueues (abandonWork c)) with
      mode := if busy then .idle else c.mode
      cause := if busy then 0 else c.cause
      wait := .none
      order := false
      localOwner := none
      sheet := none
      scene := none }
  else c

/-- One clapper: zeroed when it holds the slate, reported when its word 1 cannot be read (R461). -/
def scrubClap (n cl : Nat) (s : State) (i : Nat) : State :=
  let c := getCl s cl
  let w := cmWords + 2 * i
  if ramLanes c.mem (w + 1) ≠ 0 then raiseEv s 0x2012 2 noFrame (cmDetail cl (w + 1) (ramLanes c.mem (w + 1)) 66)
  else if bits (ramWord c.mem (w + 1)).toNat 16 12 = n ∧ (ramWord c.mem w ≠ 0 ∨ ramWord c.mem (w + 1) ≠ 0) then
    setCl s cl { c with mem := ramPutWords c.mem w [0, 0] }
  else s

/-- A scene bound to the slate closes without replay; its other slates leave it. -/
def scrubScene (n : Nat) (s : State) (x : Scene) : State :=
  let s := dropScene s x false
  ((boundSlates x).filter (· != n)).foldl (fun s m => slateClosed s (x.phase == .halted) m) s

/-- Step 5 begins: the slate becomes SCRUBBING. -/
def scrubBegin (s : State) (n : Nat) : State := setMode (setCut s n fun c => { c with step := 5 }) n .scrubbing

/-- The scrub of cores and clappers is complete: the slate's scenes close, its HELD and FROZEN cores are IDLE, and their local
state and its clappers are zero (R197, R281, R461). -/
def scrubCores (s : State) (n : Nat) : State :=
  let s := (s.scenes.filter fun x => x.slots.contains n).foldl (scrubScene n) s
  let cores := s.cores.map fun (q : Nat × Core) => (q.1, scrubCore n q.2)
  let s := { s with cores := cores.filter fun q => q.2 != Core.reset }
  s.clusters.foldl (fun s q => (List.range 1024).foldl (scrubClap n q.1) s) s

/-- Steps 3 to 5: the slate's packets have left the mesh; its INC is retired, dailies are collected, the scrub begins. -/
def cutRetire (s : State) (n : Nat) : State :=
  match cutAt s n 3 with
  | none => s
  | some c =>
    if incoming s n ∨ s.mesh.any (fun f => ownFlight n f && !frozenFlight s f) = true then s
    else
      let s := markFrozen s n
      match c.dailies with
      | some a => dailiesStart (setCut s n fun c => { c with step := 4 }) (slateAsk s (getSlate s n).owner 3 n 0) a none (some n) none
      | none => scrubBegin s n

/-- A range is zeroed (R222, R336). -/
def scrubRange (s : State) (r : Range) : State :=
  let c := getCl s r.cl
  if r.space = 2 then setCl s r.cl { c with mem := ramZero c.mem (4 * r.base) (4 * r.len) }
  else setVault s r.cl (immWritten (vaultZero c.vault r.base r.len) r.base r.len)

/-- A vault of the slate's ranges has requests before the scrub's, a line of the range under repair, or is in hard hold (R325,
R330, R334). -/
def vaultWaits (s : State) (r : Range) : Bool :=
  let v := (getCl s r.cl).vault
  r.space == 3 && (decide (v.mode = .hardHold) || !v.queue.isEmpty || onLocked v r.base r.len)

/-- Storyboards, windows, flows, frozen masters and closed runs of the slate are discarded. -/
def discardSlate (s : State) (n : Nat) : State :=
  let s := s.storyboards.foldl (fun s q => match q.2 with
    | some b => if b.slate = n then boardForget s q.1 else s
    | none => s) s
  let s := s.fabric.windows.foldl (fun s w => if w.2.slate = n then windowFree s w.1 else s) s
  let s := thawMasters s n
  { s with
    fabric := { s.fabric with flows := s.fabric.flows.filter fun f => f.flow.2.2 != n }
    closedScenes := s.closedScenes.filter fun q => q.slate != n
    hangs := s.hangs.map fun h => { h with suspects := h.suspects.filter (· != n) } }

/-- Commands that a cut completes with SLATE_GONE: command, replays. Entries of the slate go, and with a command all of its
entries. -/
def goneCmds (s : State) (n : Nat) : List (CmdRef × Nat) :=
  let last (u : Unfinished) : Bool := s.unfinished.all fun v => v.slate == n || v.cmd != u.cmd
  ((s.unfinished.filter fun u => cmdOf n u.cmd || (u.slate == n && last u)).map fun u => (u.cmd, u.replays)).eraseDups

/-- Age of a command in a slate's space: older ones first. -/
def cseqAge (s : State) (n : Nat) (c : CmdRef) : Nat := (c.cseq - (getSlate s n).nextCseq).toNat

/-- Every unfinished command of the slate completes with SLATE_GONE, in CSEQ order; the answer counts them. -/
def completeGone (s : State) (n : Nat) (owed : List CmdRef) : State × Nat :=
  let all := (goneCmds s n ++ (owed ++ slateWorks s n).map fun c => (c, 0)).mergeSort fun a b =>
    decide (cseqAge s n a.1 ≤ cseqAge s n b.1)
  let gone := all.map (·.1)
  let s := dropWorks { s with unfinished := s.unfinished.filter fun u => u.slate != n && !gone.contains u.cmd } n
  (all.foldl (fun s q => complete s q.1 0x0402 true q.2 []) s, all.length)

/-- Step 6: the scrub is complete. -/
def scrubEnd (s : State) (n us : Nat) : State :=
  match cutAt s n 5 with
  | none => s
  | some _ =>
    if (getSlate s n).ranges.any (vaultWaits s) then s
    else
      let s := growSlate s n
      let v := getSlate s n
      let s := discardSlate (v.ranges.foldl scrubRange (scrubCores s n)) n
      match (getSlate s n).cut with
      | none => s
      | some c =>
        let r := completeGone s n c.owed
        let s := raiseEv r.1 0x7002 0 ⟨none, some n, none⟩ [(28, 4, r.2), (32, 4, c.fenced), (36, 4, c.discarded), (40, 4, us)]
        let res := [(24, 4, r.2), (28, 4, c.fenced), (32, 4, c.discarded), (36, 4, us), (40, 8, v.energy.toNat)]
        let s := (c.cmd :: c.also).foldl (fun s q => finish s q 0 res) s
        setSlate s n { Slate.reset with inc := v.inc, incKnown := v.incKnown, hgen := v.hgen, runNext := v.runNext }

/-- The oldest dailies image has been written; what waited for it goes on. -/
def dailiesDone (s : State) : State :=
  match s.works.dailies with
  | [] => s
  | w :: _ =>
    let s := dailiesEnd s w
    let s := match w.cut with
      | some n => if (cutAt s n 4).isSome then scrubBegin s n else s
      | none => s
    match w.hang with
    | some q => hangDailies s q
    | none => s

end Sys2Proof.Machine
end

