-- ==== Sys2Proof/Machine/Slates.lean ====
section
/-! DEFINITION. The rows of slates and their cut (R439 to R466, R486). -/

namespace Sys2Proof.Machine

open Sys2Proof

/-- A per-slate opcode of this chapter, with the buffer bytes it needs. -/
def ownerSpec (opcode need : Nat) : CmdSpec := ⟨opcode, (2, 0), true, false, need⟩

/-- SLATE_OPEN (R439, R440). -/
def execSlateOpen (p : HostPort) (r : CmdRec) (s : State) : Host.Outcome State Fault Refusal :=
  .next (mailbox (ownerSpec 0x0201 (16 * pb r 42 2)) p r (openBody p r) s)

/-- SLATE_CUT (R458). -/
def execSlateCut (p : HostPort) (r : CmdRec) (s : State) : Host.Outcome State Fault Refusal :=
  .next (mailbox (ownerSpec 0x0202 0) p r (cutBody r) s)

/-- SLATE_STATUS (R466). -/
def execSlateStatus (p : HostPort) (r : CmdRec) (s : State) : Host.Outcome State Fault Refusal :=
  .next (mailbox (ownerSpec 0x0203 0) p r (statusBody r) s)

/-- SLATE_RELEASE (R465). -/
def execSlateRelease (p : HostPort) (r : CmdRec) (s : State) : Host.Outcome State Fault Refusal :=
  .next (mailbox (ownerSpec 0x0204 0) p r (slateReleaseBody r) s)

/-- CUT_DRAIN_DONE (R458, R459). -/
def execCutDrainDone (slate : SlateId) (s : State) : Host.Outcome State Fault Refusal := .next (drainDone s slate.val)

/-- CUT_DEADLINE: CUT_DL has elapsed since step 1 (R458, R459). -/
def execCutDeadline (slate : SlateId) (s : State) : Host.Outcome State Fault Refusal := .next (deadlineFence s slate.val)

/-- CUT_RETIRE (R458, R460). -/
def execCutRetire (slate : SlateId) (s : State) : Host.Outcome State Fault Refusal := .next (cutRetire s slate.val)

/-- SCRUB_DONE: the scrub has taken `us` µs (R461, R463). -/
def execScrubDone (slate : SlateId) (us : Word) (s : State) : Host.Outcome State Fault Refusal :=
  .next (scrubEnd s slate.val us.toNat)

/-- DAILIES_WRITTEN (R487). -/
def execDailiesWritten (s : State) : Host.Outcome State Fault Refusal := .next (dailiesDone s)

end Sys2Proof.Machine
end

