-- ==== Sys2Proof/Machine/Spdm.lean ====
section
/-! DEFINITION. SPDM over DOE (R405, R406, R554, R563, R564). Message layouts, request codes and error codes are those of
DMTF SPDM 1.3 and of IDE_KM, which the spec names and does not repeat (log entry 25). -/

namespace Sys2Proof.Machine

open Sys2Proof

/-! ### Messages -/

/-- Request code, and the two parameters of a message. -/
def spdmCode (m : List Byte) : Nat := getLe m 1 1

def spdmP1 (m : List Byte) : Nat := getLe m 2 1

def spdmP2 (m : List Byte) : Nat := getLe m 3 1

/-- A response of version 1.3 with its two parameters and its body. -/
def spdmRsp (code p1 p2 : Nat) (body : List Byte) : List Byte :=
  leBytes 1 0x13 ++ leBytes 1 code ++ leBytes 1 p1 ++ leBytes 1 p2 ++ body

/-- ERROR with its code. -/
def spdmError (code : Nat) : List Byte := spdmRsp 0x7F code 0 []

/-- A message leaves over the port's DOE mailbox. -/
def spdmSend (s : State) (p : HostPort) (b : List Byte) : State := emit s (.spdm p b)

def getSpdm (s : State) (p : HostPort) : Spdm := (getHost s p).spdm

def setSpdm (s : State) (p : HostPort) (v : Spdm) : State := setHost s p { getHost s p with spdm := v }

/-- `n` free bytes. -/
def freeBytes (s : State) (n : Nat) : List Byte :=
  let v : BitVec (8 * n) := Config.freeValue s.freeCtr
  leBytes n v.toNat

/-- A request: the link carries DOE, and the message is the row's; it needs version 1.3, a phase in `lo` to `hi`, and
`len` bytes. A request that the phase does not allow is answered with UnexpectedRequest. -/
def spdmRequest (code lo hi len : Nat) (p : HostPort) (m : List Byte) (s : State) (go : State → State) : State :=
  let h := getHost s p
  if h.width = 0 ∨ s.powered = false ∨ spdmCode m ≠ code then s
  else if getLe m 0 1 ≠ 0x13 then spdmSend s p (spdmError 0x41)
  else if h.spdm.phase < lo ∨ hi < h.spdm.phase then spdmSend s p (spdmError 0x04)
  else if m.length < len then spdmSend s p (spdmError 0x01)
  else go s

/-! ### Negotiation (R405) -/

/-- VERSION: 1.3 alone. -/
def versionRsp : List Byte := leBytes 1 0x10 ++ leBytes 1 0x04 ++ leBytes 3 0 ++ leBytes 1 1 ++ leBytes 2 0x1300

/-- GET_VERSION starts the negotiation again. -/
def getVersion (p : HostPort) (m : List Byte) (s : State) : State :=
  let h := getHost s p
  if h.width = 0 ∨ s.powered = false ∨ spdmCode m ≠ 0x84 then s
  else if getLe m 0 1 ≠ 0x10 then spdmSend s p (spdmError 0x41)
  else
    let v : Spdm := { Spdm.none with phase := 1, nonceCtr := h.spdm.nonceCtr, ideKeys := h.spdm.ideKeys, ideOn := h.spdm.ideOn, transcript := m ++ versionRsp }
    spdmSend (setSpdm s p v) p versionRsp

/-- Capability flags: certificates, challenge, measurements with signature, encryption, MAC, key exchange, heartbeat, key
update. -/
def capFlags : Nat := 0x62D6

/-- GET_CAPABILITIES. Timing exponent and buffer sizes are not given. -/
def getCapabilities (p : HostPort) (m : List Byte) (s : State) : State :=
  let f := freeBytes s 9
  let rsp := spdmRsp 0x61 0 0 (leBytes 1 0 ++ f.take 1 ++ leBytes 2 0 ++ leBytes 4 capFlags ++ f.drop 1)
  let v := getSpdm s p
  spdmSend (setSpdm { s with freeCtr := s.freeCtr + 1 } p { v with phase := 2, transcript := v.transcript ++ m ++ rsp }) p rsp

/-- ALGORITHMS: DMTF measurements, Ed25519, SHA-512, secp384r1, AES-256-GCM, the SPDM key schedule. -/
def algorithmsRsp : List Byte :=
  spdmRsp 0x63 3 0 (leBytes 2 48 ++ leBytes 1 1 ++ leBytes 1 0 ++ leBytes 4 0x8 ++ leBytes 4 0x400 ++ leBytes 4 0x4
    ++ leBytes 16 0
    ++ leBytes 4 0x00102002 ++ leBytes 4 0x00022003 ++ leBytes 4 0x00012005)

/-- NEGOTIATE_ALGORITHMS: the requester has to offer Ed25519 and SHA-512. -/
def negotiate (p : HostPort) (m : List Byte) (s : State) : State :=
  let v := getSpdm s p
  if bits (getLe m 8 4) 10 1 = 0 ∨ bits (getLe m 12 4) 2 1 = 0 then spdmSend s p (spdmError 0x01)
  else spdmSend (setSpdm s p { v with phase := 3, transcript := v.transcript ++ m ++ algorithmsRsp }) p algorithmsRsp

/-! ### Certificates (R563) -/

/-- DIGESTS: slot 0 alone. -/
def getDigests (p : HostPort) (m : List Byte) (s : State) : State :=
  let v := getSpdm s p
  let rsp := spdmRsp 0x01 1 1 (exactly 64 (Config.sha512 s.otp.certs))
  spdmSend (setSpdm s p { v with certMsgs := v.certMsgs ++ m ++ rsp }) p rsp

/-- CERTIFICATE: a portion of slot 0's chain; the other slots are empty. -/
def getCertificate (p : HostPort) (m : List Byte) (s : State) : State :=
  let v := getSpdm s p
  let off := getLe m 4 2
  let n := s.otp.certs.length
  if spdmP1 m ≠ 0 ∨ n ≤ off then spdmSend s p (spdmError 0x01)
  else
    let part := (s.otp.certs.drop off).take (getLe m 6 2)
    let rsp := spdmRsp 0x02 0 0 (leBytes 2 part.length ++ leBytes 2 (n - off - part.length) ++ part)
    spdmSend (setSpdm s p { v with certMsgs := v.certMsgs ++ m ++ rsp }) p rsp

/-! ### Measurements (R554, R564) -/

/-- The DMTF block of a measurement, 1 to 5. -/
def measBlock (s : State) (i : Nat) : List Byte :=
  leBytes 1 i ++ leBytes 1 1 ++ leBytes 2 67 ++ [Config.measType i] ++ leBytes 2 64 ++ exactly 64 (s.boot.meas.toList.getD (i - 1) [])

/-- Every block. -/
def measAll (s : State) : List Byte := [1, 2, 3, 4, 5].flatMap (measBlock s)

/-- The summary hash that a request's type asks for: none for 0. -/
def measSummary (s : State) (t : Nat) : List Byte := if t = 0 then [] else exactly 64 (Config.sha512 (measAll s))

/-- The types of summary that a request may ask for. -/
def summaryOk (t : Nat) : Bool := t == 0 || t == 1 || t == 0xFF

/-- A fresh random value of `n` bytes of a port. -/
def drawNonce (s : State) (p : HostPort) (n : Nat) : List Byte × State :=
  let v := getSpdm s p
  (exactly n (Config.nonce (2 * v.nonceCtr + portNo p)), setSpdm s p { v with nonceCtr := v.nonceCtr + 1 })

/-- The device key's signature over a transcript. -/
def signed (t : List Byte) : List Byte := exactly 64 (Config.deviceSign (Config.sha512 t))

/-- CHALLENGE_AUTH, signed over the negotiation, the certificates and this exchange. -/
def challenge (p : HostPort) (m : List Byte) (s : State) : State :=
  if spdmP1 m ≠ 0 ∨ summaryOk (spdmP2 m) = false then spdmSend s p (spdmError 0x01)
  else
    let q := drawNonce s p 32
    let v := getSpdm q.2 p
    let rsp := spdmRsp 0x03 0 1 (exactly 64 (Config.sha512 s.otp.certs) ++ q.1 ++ measSummary s (spdmP2 m) ++ leBytes 2 0
      ++ (m.drop 36).take 8)
    spdmSend (setSpdm q.2 p { v with certMsgs := [] }) p (rsp ++ signed (v.transcript ++ v.certMsgs ++ m ++ rsp))

/-- MEASUREMENTS: their count, all of them, or one; signed when the requester asks for it. -/
def getMeasurements (p : HostPort) (m : List Byte) (s : State) : State :=
  let op := spdmP2 m
  let sig := bits (spdmP1 m) 0 1 = 1
  if (5 < op ∧ op ≠ 0xFF) ∨ (sig ∧ m.length < 45) then spdmSend s p (spdmError 0x01)
  else
    let blocks := if op = 0 then [] else if op = 0xFF then measAll s else measBlock s op
    let count := if op = 0 then 0 else if op = 0xFF then 5 else 1
    let q := drawNonce s p 32
    let v := getSpdm q.2 p
    let rsp := spdmRsp 0x60 (if op = 0 then 5 else 0) 0 (leBytes 1 count ++ leBytes 3 blocks.length ++ blocks ++ q.1 ++ leBytes 2 0
      ++ (if sig then (m.drop 37).take 8 else (m.drop 4).take 8))
    if sig then spdmSend (setSpdm q.2 p { v with measMsgs := [] }) p (rsp ++ signed (v.transcript ++ v.measMsgs ++ m ++ rsp))
    else spdmSend (setSpdm q.2 p { v with measMsgs := v.measMsgs ++ m ++ rsp }) p rsp

/-! ### Sessions (R405) -/

/-- KEY_EXCHANGE_RSP, signed by the device key. A port keeps one session. The heartbeat period is not given. -/
def keyExchange (p : HostPort) (m : List Byte) (s : State) : State :=
  if (getSpdm s p).phase ≠ 3 then spdmSend s p (spdmError 0x0A)
  else if spdmP2 m ≠ 0 ∨ summaryOk (spdmP1 m) = false then spdmSend s p (spdmError 0x01)
  else
    let q := drawNonce s p 128
    let v := getSpdm q.2 p
    let hb := (freeBytes s 1).head?.getD 0
    let rid := v.nonceCtr % 2 ^ 16
    let rsp := spdmRsp 0x64 hb.toNat 0 (leBytes 2 rid ++ leBytes 2 0 ++ q.1 ++ measSummary s (spdmP1 m) ++ leBytes 2 0)
    let t := v.transcript ++ Config.sha512 s.otp.certs ++ m ++ rsp
    let id := getLe m 4 2 + rid * 2 ^ 16
    let out := rsp ++ signed t
    let full := out ++ exactly 64 (Config.sessionMac id 0 (t ++ signed t))
    spdmSend (setSpdm { q.2 with freeCtr := s.freeCtr + 1 } p { v with phase := 4, session := id, keyUpdates := 0, measMsgs := t ++ signed t })
      p full

/-- FINISH: the requester's verify data has to hold; the session is then established, and ends otherwise. -/
def finishSession (p : HostPort) (m : List Byte) (s : State) : State :=
  let v := getSpdm s p
  let body := m.take (m.length - 64)
  if m.drop (m.length - 64) = exactly 64 (Config.sessionMac v.session 1 (v.measMsgs ++ body)) then
    spdmSend (setSpdm s p { v with phase := 5, measMsgs := [] }) p (spdmRsp 0x65 0 0 [])
  else spdmSend (setSpdm s p { v with phase := 3, session := 0, measMsgs := [] }) p (spdmError 0x06)

/-- HEARTBEAT. -/
def heartbeatAck (p : HostPort) (s : State) : State := spdmSend s p (spdmRsp 0x68 0 0 [])

/-- KEY_UPDATE: keys of one or of both directions, or the check of a new key. -/
def keyUpdate (p : HostPort) (m : List Byte) (s : State) : State :=
  let v := getSpdm s p
  let op := spdmP1 m
  if op = 0 ∨ 3 < op then spdmSend s p (spdmError 0x01)
  else
    spdmSend (setSpdm s p { v with keyUpdates := if op = 3 then v.keyUpdates else v.keyUpdates + 1 }) p
      (spdmRsp 0x69 op (spdmP2 m) [])

/-- END_SESSION: the session's keys are gone; the negotiation stays if the requester asks for that. -/
def endSpdm (p : HostPort) (m : List Byte) (s : State) : State :=
  let v := getSpdm s p
  let keep := bits (spdmP1 m) 0 1 = 0
  spdmSend (setSpdm s p { v with phase := if keep then 3 else 0, session := 0, keyUpdates := 0 }) p (spdmRsp 0x6C 0 0 [])

/-! ### IDE_KM (R403, R405) -/

/-- Stream and selector that an IDE_KM object names: key set, direction and sub-stream in one byte. -/
def ideSel (b : List Byte) : Nat × Nat := (getLe b 4 1, getLe b 6 1)

/-- Status of a KEY_PROG: 0, or wrong length, port index or sub-stream; the port has one stream (R403). -/
def keyProgStatus (v : Spdm) (b : List Byte) : Nat :=
  if b.length ≠ 48 then 1
  else if getLe b 7 1 ≠ 0 then 2
  else if 2 < getLe b 6 1 / 16 ∨ 4 ≤ getLe b 6 1 % 16 ∨ v.ideKeys.any (fun k => k.1.1 != getLe b 4 1) = true then 3
  else 0

/-- Answer to an IDE_KM object, and the port's stream after it: KEY_PROG stores a key, K_SET_GO starts what has a key, K_SET_STOP
stops it (R405). -/
def ideAnswer (s : State) (v : Spdm) (b : List Byte) : Option (List Byte × Spdm) :=
  let obj := getLe b 1 1
  let sel := ideSel b
  let ack (code st : Nat) : List Byte :=
    leBytes 1 0 ++ leBytes 1 code ++ leBytes 2 0 ++ (b.drop 4).take 1 ++ leBytes 1 st ++ (b.drop 6).take 2
  if getLe b 0 1 ≠ 0 then none
  else if obj = 0 then some (leBytes 1 0 ++ leBytes 1 1 ++ leBytes 1 0 ++ (b.drop 3).take 1 ++ freeBytes s 4, v)
  else if obj = 2 then
    let st := keyProgStatus v b
    some (ack 3 st, if st = 0 then { v with ideKeys := (sel, b.drop 8) :: v.ideKeys.filter fun k => k.1 != sel } else v)
  else if obj = 4 then
    some (ack 6 0, if v.ideKeys.any (fun k => k.1 == sel) then { v with ideOn := sel :: v.ideOn.filter (· != sel) } else v)
  else if obj = 5 then some (ack 6 0, { v with ideOn := v.ideOn.filter (· != sel) })
  else none

/-- VENDOR_DEFINED_REQUEST carrying IDE_KM, inside a session. Any other vendor request is not supported. -/
def vendorRequest (p : HostPort) (m : List Byte) (s : State) : State :=
  let v := getSpdm s p
  if getLe m 4 2 ≠ 3 ∨ getLe m 6 1 ≠ 2 ∨ getLe m 7 2 ≠ 1 then spdmSend s p (spdmError 0x07)
  else
    match ideAnswer s v ((m.drop 11).take (getLe m 9 2)) with
    | none => spdmSend s p (spdmError 0x01)
    | some a =>
      let rsp := spdmRsp 0x7E 0 0 ((m.drop 4).take 5 ++ leBytes 2 a.1.length ++ a.1)
      spdmSend (setSpdm { s with freeCtr := s.freeCtr + 1 } p a.2) p rsp

/-! ### Rows -/

/-- GET_VERSION (R405). -/
def execGetVersion (p : HostPort) (m : List Byte) (s : State) : Host.Outcome State Fault Refusal := .next (getVersion p m s)

/-- GET_CAPABILITIES (R405). -/
def execGetCapabilities (p : HostPort) (m : List Byte) (s : State) : Host.Outcome State Fault Refusal :=
  .next (spdmRequest 0xE1 1 1 4 p m s (getCapabilities p m))

/-- NEGOTIATE_ALGORITHMS (R405). -/
def execNegotiateAlgorithms (p : HostPort) (m : List Byte) (s : State) : Host.Outcome State Fault Refusal :=
  .next (spdmRequest 0xE3 2 2 32 p m s (negotiate p m))

/-- GET_DIGESTS (R405, R563). -/
def execGetDigests (p : HostPort) (m : List Byte) (s : State) : Host.Outcome State Fault Refusal :=
  .next (spdmRequest 0x81 3 5 4 p m s (getDigests p m))

/-- GET_CERTIFICATE (R405, R563). -/
def execGetCertificate (p : HostPort) (m : List Byte) (s : State) : Host.Outcome State Fault Refusal :=
  .next (spdmRequest 0x82 3 5 8 p m s (getCertificate p m))

/-- CHALLENGE (R405, R564). -/
def execChallenge (p : HostPort) (m : List Byte) (s : State) : Host.Outcome State Fault Refusal :=
  .next (spdmRequest 0x83 3 3 44 p m s (challenge p m))

/-- GET_MEASUREMENTS (R405, R554). -/
def execGetMeasurements (p : HostPort) (m : List Byte) (s : State) : Host.Outcome State Fault Refusal :=
  .next (spdmRequest 0xE0 3 5 12 p m s (getMeasurements p m))

/-- KEY_EXCHANGE (R405, R564). -/
def execKeyExchange (p : HostPort) (m : List Byte) (s : State) : Host.Outcome State Fault Refusal :=
  .next (spdmRequest 0xE4 3 5 138 p m s (keyExchange p m))

/-- FINISH (R405). -/
def execFinish (p : HostPort) (m : List Byte) (s : State) : Host.Outcome State Fault Refusal :=
  .next (spdmRequest 0xE5 4 4 68 p m s (finishSession p m))

/-- SPDM_HEARTBEAT (R405). -/
def execSpdmHeartbeat (p : HostPort) (m : List Byte) (s : State) : Host.Outcome State Fault Refusal :=
  .next (spdmRequest 0xE8 5 5 4 p m s (heartbeatAck p))

/-- KEY_UPDATE (R405). -/
def execKeyUpdate (p : HostPort) (m : List Byte) (s : State) : Host.Outcome State Fault Refusal :=
  .next (spdmRequest 0xE9 5 5 4 p m s (keyUpdate p m))

/-- END_SESSION (R405). -/
def execEndSession (p : HostPort) (m : List Byte) (s : State) : Host.Outcome State Fault Refusal :=
  .next (spdmRequest 0xEC 5 5 4 p m s (endSpdm p m))

/-- VENDOR_DEFINED_REQUEST (R405). -/
def execVendorDefinedRequest (p : HostPort) (m : List Byte) (s : State) : Host.Outcome State Fault Refusal :=
  .next (spdmRequest 0xFE 5 5 11 p m s (vendorRequest p m))

end Sys2Proof.Machine
end

