-- ==== Sys2Proof/Machine/Vault.lean ====
section
/-! DEFINITION. The rows of the vault port (R325 to R337). -/

namespace Sys2Proof.Machine

open Sys2Proof

/-- VAULT_PORT_REQUEST: the port applies the oldest request it may (R325). -/
def execVaultPortRequest (k : ClusterId) (s : State) : Host.Outcome State Fault Refusal :=
  .next (vaultServe s (clKey k))

/-- VAULT_REFETCH_DONE: the read of a HOST origin completes. Bytes that are not a whole line are the host's refusal
(R334). -/
def execVaultRefetchDone (k : ClusterId) (data : List Byte) (s : State) : Host.Outcome State Fault Refusal :=
  let cl := clKey k
  match lockedEntry (getCl s cl).vault with
  | some e =>
    if e.kind = 1 then
      if data.length = 64 then .next (vaultRepair s cl data) else .next (vaultRefetchFail s cl 1)
    else .next s
  | none => .next s

/-- VAULT_REFETCH_TIMEOUT: no data within 10 ms (R334). -/
def execVaultRefetchTimeout (k : ClusterId) (s : State) : Host.Outcome State Fault Refusal :=
  let cl := clKey k
  if (getCl s cl).vault.locked.isSome then .next (refetchForget (vaultRefetchFail s cl 4) cl) else .next s

/-- A zeroing scrub of words of the vault is under way (R336, R461). -/
def scrubbing (s : State) (cl : Nat) : Bool :=
  s.slates.any fun p => p.2.mode == .scrubbing && p.2.ranges.any fun r => r.space == 3 && r.cl == cl

/-- VAULT_PATROL: the scrub unit reads the next line (R337). It yields to every other request of the port and to a zeroing
scrub (R325). -/
def execVaultPatrol (k : ClusterId) (s : State) : Host.Outcome State Fault Refusal :=
  let cl := clKey k
  let v := (getCl s cl).vault
  if vaultServes v && v.patrolEn && !noVaults s && v.queue.isEmpty && !scrubbing s cl then
    let l := v.patrolLine
    match vaultRead s cl (16 * l) 16 4 0xFF none with
    | (s', .wait) =>
      if (getCl s' cl).vault.locked = v.locked then .next s
      else .next (step1 s' cl l)
    | (s', _) => .next (step1 s' cl l)
  else .next s
where
  /-- The next line in ascending order. -/
  step1 (s : State) (cl l : Nat) : State :=
    let v := (getCl s cl).vault
    setVault s cl { v with patrolLine := if 16 * (l + 1) < vaultWords s then l + 1 else 0 }

/-- VAULT_TEMP_SAMPLE: a raw reading in hundredths of a degree sets the vault's band (R329, R330). -/
def execVaultTempSample (k : ClusterId) (t : Word16) (s : State) : Host.Outcome State Fault Refusal :=
  if noVaults s then .next s
  else .next (vaultTemp s (clKey k) (sensorDegrees s (4096 + clKey k) t))

end Sys2Proof.Machine
end

