-- ==== Sys2Proof/Machine/Dispatch.lean ====
section
/-! DEFINITION. The dispatcher: each command's meaning. -/

namespace Sys2Proof.Machine

open Sys2Proof

/-- The effect of a command on everything but the queue. -/
def exec (i : Instr) (s : State) : Host.Outcome State Fault Refusal :=
  match i with
  | .hello p r => Sys2Proof.Machine.execHello p r s
  | .claimAuthority p r => Sys2Proof.Machine.execClaimAuthority p r s
  | .releaseAuthority p r => Sys2Proof.Machine.execReleaseAuthority p r s
  | .fwLoad p r => Sys2Proof.Machine.execFwLoad p r s
  | .fwHandover p image => Sys2Proof.Machine.execFwHandover p image s
  | .calLoad p r => Sys2Proof.Machine.execCalLoad p r s
  | .floorplanRead p r => Sys2Proof.Machine.execFloorplanRead p r s
  | .slateOpen p r => Sys2Proof.Machine.execSlateOpen p r s
  | .slateCut p r => Sys2Proof.Machine.execSlateCut p r s
  | .slateStatus p r => Sys2Proof.Machine.execSlateStatus p r s
  | .slateRelease p r => Sys2Proof.Machine.execSlateRelease p r s
  | .storyboardLoad p r => Sys2Proof.Machine.execStoryboardLoad p r s
  | .sceneRun p r => Sys2Proof.Machine.execSceneRun p r s
  | .sceneRunResume p r => Sys2Proof.Machine.execSceneRunResume p r s
  | .sceneHalt p r => Sys2Proof.Machine.execSceneHalt p r s
  | .keyframeTake p r => Sys2Proof.Machine.execKeyframeTake p r s
  | .replay p r => Sys2Proof.Machine.execReplay p r s
  | .remap p r => Sys2Proof.Machine.execRemap p r s
  | .keyframeRelease p r => Sys2Proof.Machine.execKeyframeRelease p r s
  | .portConfig p r => Sys2Proof.Machine.execPortConfig p r s
  | .portConfigFabricForm p r => Sys2Proof.Machine.execPortConfigFabricForm p r s
  | .routeTableWrite p r => Sys2Proof.Machine.execRouteTableWrite p r s
  | .probe p r => Sys2Proof.Machine.execProbe p r s
  | .assign p r => Sys2Proof.Machine.execAssign p r s
  | .setLocal p r => Sys2Proof.Machine.execSetLocal p r s
  | .clearLocal p r => Sys2Proof.Machine.execClearLocal p r s
  | .discoveryTimeout p => Sys2Proof.Machine.execDiscoveryTimeout p s
  | .windowOpen p r => Sys2Proof.Machine.execWindowOpen p r s
  | .windowClose p r => Sys2Proof.Machine.execWindowClose p r s
  | .windowCloseDone win => Sys2Proof.Machine.execWindowCloseDone win s
  | .mapAperture p r => Sys2Proof.Machine.execMapAperture p r s
  | .powerBudgetSet p r => Sys2Proof.Machine.execPowerBudgetSet p r s
  | .fade p r => Sys2Proof.Machine.execFade p r s
  | .fadeComplete => Sys2Proof.Machine.execFadeComplete s
  | .unfade p r => Sys2Proof.Machine.execUnfade p r s
  | .unfadeComplete => Sys2Proof.Machine.execUnfadeComplete s
  | .stopLimitSet p r => Sys2Proof.Machine.execStopLimitSet p r s
  | .energyRead p r => Sys2Proof.Machine.execEnergyRead p r s
  | .policySet p r => Sys2Proof.Machine.execPolicySet p r s
  | .fenceCore p r => Sys2Proof.Machine.execFenceCore p r s
  | .unfenceCore p r => Sys2Proof.Machine.execUnfenceCore p r s
  | .dailiesCollect p r => Sys2Proof.Machine.execDailiesCollect p r s
  | .dailiesWritten => Sys2Proof.Machine.execDailiesWritten s
  | .reset p r => Sys2Proof.Machine.execReset p r s
  | .resetDone => Sys2Proof.Machine.execResetDone s
  | .sbAssign p r => Sys2Proof.Machine.execSbAssign p r s
  | .clockSourceSelect p r => Sys2Proof.Machine.execClockSourceSelect p r s
  | .clockSelectTimeout => Sys2Proof.Machine.execClockSelectTimeout s
  | .debugUnlockNonce p r => Sys2Proof.Machine.execDebugUnlockNonce p r s
  | .debugUnlockGrant p r => Sys2Proof.Machine.execDebugUnlockGrant p r s
  | .sceneAdmission sc => Sys2Proof.Machine.execSceneAdmission sc s
  | .admissionCopyDone sc => Sys2Proof.Machine.execAdmissionCopyDone sc s
  | .admissionCopyFailed sc status => Sys2Proof.Machine.execAdmissionCopyFailed sc status s
  | .coreSceneStart c => Sys2Proof.Machine.execCoreSceneStart c s
  | .cutDrainDone slate => Sys2Proof.Machine.execCutDrainDone slate s
  | .cutDeadline slate => Sys2Proof.Machine.execCutDeadline slate s
  | .cutRetire slate => Sys2Proof.Machine.execCutRetire slate s
  | .scrubDone slate us => Sys2Proof.Machine.execScrubDone slate us s
  | .faultHalt => Sys2Proof.Machine.execFaultHalt s
  | .hangProgressReport => Sys2Proof.Machine.execHangProgressReport s
  | .hangDeclared sc => Sys2Proof.Machine.execHangDeclared sc s
  | .hangCoreResetTimeout c => Sys2Proof.Machine.execHangCoreResetTimeout c s
  | .hangSuspectEnded slate => Sys2Proof.Machine.execHangSuspectEnded slate s
  | .heartbeat => Sys2Proof.Machine.execHeartbeat s
  | .controllerWatchdog => Sys2Proof.Machine.execControllerWatchdog s
  | .nop c => Sys2Proof.Machine.execNop c s
  | .add c => Sys2Proof.Machine.execAdd c s
  | .sub c => Sys2Proof.Machine.execSub c s
  | .and c => Sys2Proof.Machine.execAnd c s
  | .or c => Sys2Proof.Machine.execOr c s
  | .xor c => Sys2Proof.Machine.execXor c s
  | .shl c => Sys2Proof.Machine.execShl c s
  | .shr c => Sys2Proof.Machine.execShr c s
  | .sra c => Sys2Proof.Machine.execSra c s
  | .mul c => Sys2Proof.Machine.execMul c s
  | .slt c => Sys2Proof.Machine.execSlt c s
  | .sltu c => Sys2Proof.Machine.execSltu c s
  | .min c => Sys2Proof.Machine.execMin c s
  | .max c => Sys2Proof.Machine.execMax c s
  | .addi c => Sys2Proof.Machine.execAddi c s
  | .andi c => Sys2Proof.Machine.execAndi c s
  | .ori c => Sys2Proof.Machine.execOri c s
  | .xori c => Sys2Proof.Machine.execXori c s
  | .shli c => Sys2Proof.Machine.execShli c s
  | .shri c => Sys2Proof.Machine.execShri c s
  | .srai c => Sys2Proof.Machine.execSrai c s
  | .lui c => Sys2Proof.Machine.execLui c s
  | .slti c => Sys2Proof.Machine.execSlti c s
  | .movs c => Sys2Proof.Machine.execMovs c s
  | .rdccb c => Sys2Proof.Machine.execRdccb c s
  | .rdctr c => Sys2Proof.Machine.execRdctr c s
  | .ld c => Sys2Proof.Machine.execLd c s
  | .st c => Sys2Proof.Machine.execSt c s
  | .cset c => Sys2Proof.Machine.execCset c s
  | .cseti c => Sys2Proof.Machine.execCseti c s
  | .cadd c => Sys2Proof.Machine.execCadd c s
  | .cwait c => Sys2Proof.Machine.execCwait c s
  | .cwaiti c => Sys2Proof.Machine.execCwaiti c s
  | .cwaitt c => Sys2Proof.Machine.execCwaitt c s
  | .cwaitSatisfied c => Sys2Proof.Machine.execCwaitSatisfied c s
  | .cwaittDeadline c => Sys2Proof.Machine.execCwaittDeadline c s
  | .issueMx c => Sys2Proof.Machine.execIssueMx c s
  | .issueVx c => Sys2Proof.Machine.execIssueVx c s
  | .issueDma c => Sys2Proof.Machine.execIssueDma c s
  | .issueSlotFree c => Sys2Proof.Machine.execIssueSlotFree c s
  | .scoreboardWaitEnd c => Sys2Proof.Machine.execScoreboardWaitEnd c s
  | .send c => Sys2Proof.Machine.execSend c s
  | .sendb c => Sys2Proof.Machine.execSendb c s
  | .recv c => Sys2Proof.Machine.execRecv c s
  | .recvb c => Sys2Proof.Machine.execRecvb c s
  | .qstat c => Sys2Proof.Machine.execQstat c s
  | .arrive c => Sys2Proof.Machine.execArrive c s
  | .clwait c => Sys2Proof.Machine.execClwait c s
  | .br c => Sys2Proof.Machine.execBr c s
  | .jmp c => Sys2Proof.Machine.execJmp c s
  | .loop c => Sys2Proof.Machine.execLoop c s
  | .halt c => Sys2Proof.Machine.execHalt c s
  | .haltComplete c => Sys2Proof.Machine.execHaltComplete c s
  | .event c => Sys2Proof.Machine.execEvent c s
  | .fence c => Sys2Proof.Machine.execFence c s
  | .fenceComplete c => Sys2Proof.Machine.execFenceComplete c s
  | .noProgress c => Sys2Proof.Machine.execNoProgress c s
  | .coreHoldOrder c => Sys2Proof.Machine.execCoreHoldOrder c s
  | .weightTileLoadStart c => Sys2Proof.Machine.execWeightTileLoadStart c s
  | .weightTileResident c => Sys2Proof.Machine.execWeightTileResident c s
  | .mxTileViolation c => Sys2Proof.Machine.execMxTileViolation c s
  | .mxPass c => Sys2Proof.Machine.execMxPass c s
  | .mxRetake c cols again => Sys2Proof.Machine.execMxRetake c cols again s
  | .mxRowExport c => Sys2Proof.Machine.execMxRowExport c s
  | .mxDescriptorComplete c => Sys2Proof.Machine.execMxDescriptorComplete c s
  | .gatherRowDispatch c => Sys2Proof.Machine.execGatherRowDispatch c s
  | .gatherRetake c cols again => Sys2Proof.Machine.execGatherRetake c cols again s
  | .fusedVxdStart c => Sys2Proof.Machine.execFusedVxdStart c s
  | .vxChunk c => Sys2Proof.Machine.execVxChunk c s
  | .vxDescriptorComplete c => Sys2Proof.Machine.execVxDescriptorComplete c s
  | .vxTileViolation c => Sys2Proof.Machine.execVxTileViolation c s
  | .dmaRow c => Sys2Proof.Machine.execDmaRow c s
  | .dmaDescriptorComplete c => Sys2Proof.Machine.execDmaDescriptorComplete c s
  | .dmaDeadline c => Sys2Proof.Machine.execDmaDeadline c s
  | .routerForward k pl d vc => Sys2Proof.Machine.execRouterForward k pl d vc s
  | .queue k pl hd td => Sys2Proof.Machine.execQueue k pl hd td s
  | .endMark k pl hd td => Sys2Proof.Machine.execEndMark k pl hd td s
  | .credit k pl hd td => Sys2Proof.Machine.execCredit k pl hd td s
  | .refuse k pl hd td => Sys2Proof.Machine.execRefuse k pl hd td s
  | .darkRet k pl hd td => Sys2Proof.Machine.execDarkRet k pl hd td s
  | .freeze k pl hd td => Sys2Proof.Machine.execFreeze k pl hd td s
  | .clapArrive k pl hd td => Sys2Proof.Machine.execClapArrive k pl hd td s
  | .resumePointCopyDone sc => Sys2Proof.Machine.execResumePointCopyDone sc s
  | .clapReply k pl hd td => Sys2Proof.Machine.execClapReply k pl hd td s
  | .clapNotify k pl hd td => Sys2Proof.Machine.execClapNotify k pl hd td s
  | .memRd k pl hd td => Sys2Proof.Machine.execMemRd k pl hd td s
  | .memRdData k pl hd td => Sys2Proof.Machine.execMemRdData k pl hd td s
  | .memWr k pl hd td => Sys2Proof.Machine.execMemWr k pl hd td s
  | .memWrAck k pl hd td => Sys2Proof.Machine.execMemWrAck k pl hd td s
  | .ringRecordConsume k ctl => Sys2Proof.Machine.execRingRecordConsume k ctl s
  | .spliceLockLoss sm l0 l1 cause => Sys2Proof.Machine.execSpliceLockLoss sm l0 l1 cause s
  | .vaultPortRequest k => Sys2Proof.Machine.execVaultPortRequest k s
  | .vaultRefetchDone k data => Sys2Proof.Machine.execVaultRefetchDone k data s
  | .vaultRefetchTimeout k => Sys2Proof.Machine.execVaultRefetchTimeout k s
  | .vaultPatrol k => Sys2Proof.Machine.execVaultPatrol k s
  | .vaultTempSample k t => Sys2Proof.Machine.execVaultTempSample k t s
  | .ethFrameReceive e fcsOk frame => Sys2Proof.Machine.execEthFrameReceive e fcsOk frame s
  | .pfcFrame e mask quanta => Sys2Proof.Machine.execPfcFrame e mask quanta s
  | .pfcRepeat e => Sys2Proof.Machine.execPfcRepeat e s
  | .pcsLock e => Sys2Proof.Machine.execPcsLock e s
  | .initRepeat e => Sys2Proof.Machine.execInitRepeat e s
  | .init e => Sys2Proof.Machine.execInit e s
  | .initAck e => Sys2Proof.Machine.execInitAck e s
  | .vexazData e => Sys2Proof.Machine.execVexazData e s
  | .ack e => Sys2Proof.Machine.execAck e s
  | .nak e => Sys2Proof.Machine.execNak e s
  | .idle e => Sys2Proof.Machine.execIdle e s
  | .ackDue e => Sys2Proof.Machine.execAckDue e s
  | .idleDue e => Sys2Proof.Machine.execIdleDue e s
  | .retryTimeout e vcl => Sys2Proof.Machine.execRetryTimeout e vcl s
  | .linkDown e => Sys2Proof.Machine.execLinkDown e s
  | .rhelloAck e => Sys2Proof.Machine.execRhelloAck e s
  | .openAck e => Sys2Proof.Machine.execOpenAck e s
  | .reelData e => Sys2Proof.Machine.execReelData e s
  | .error e => Sys2Proof.Machine.execError e s
  | .putAck e => Sys2Proof.Machine.execPutAck e s
  | .reelRead e => Sys2Proof.Machine.execReelRead e s
  | .reelWrite e => Sys2Proof.Machine.execReelWrite e s
  | .putFlush e => Sys2Proof.Machine.execPutFlush e s
  | .streamPauseIn pin => Sys2Proof.Machine.execStreamPauseIn pin s
  | .fhello e => Sys2Proof.Machine.execFhello e s
  | .fhelloRepeat e => Sys2Proof.Machine.execFhelloRepeat e s
  | .discReq e => Sys2Proof.Machine.execDiscReq e s
  | .discRsp e => Sys2Proof.Machine.execDiscRsp e s
  | .idAssign e => Sys2Proof.Machine.execIdAssign e s
  | .idAssignAck e => Sys2Proof.Machine.execIdAssignAck e s
  | .originWrite e => Sys2Proof.Machine.execOriginWrite e s
  | .wwrite e => Sys2Proof.Machine.execWwrite e s
  | .wack e => Sys2Proof.Machine.execWack e s
  | .fabricTimeout e seq => Sys2Proof.Machine.execFabricTimeout e seq s
  | .cmdDoorbell p v => Sys2Proof.Machine.execCmdDoorbell p v s
  | .cplTail p v => Sys2Proof.Machine.execCplTail p v s
  | .evtTail p v => Sys2Proof.Machine.execEvtTail p v s
  | .ringEnable p v => Sys2Proof.Machine.execRingEnable p v s
  | .ringDisable p v => Sys2Proof.Machine.execRingDisable p v s
  | .registerWrite loc v => Sys2Proof.Machine.execRegisterWrite loc v s
  | .rcRegisterRead loc => Sys2Proof.Machine.execRcRegisterRead loc s
  | .apertureRead p off => Sys2Proof.Machine.execApertureRead p off s
  | .apertureWrite p off be v => Sys2Proof.Machine.execApertureWrite p off be v s
  | .irqModTimeout p ring => Sys2Proof.Machine.execIrqModTimeout p ring s
  | .holdingBufferFlush p => Sys2Proof.Machine.execHoldingBufferFlush p s
  | .hostLinkLoss p cause => Sys2Proof.Machine.execHostLinkLoss p cause s
  | .hostLinkUp p rate width => Sys2Proof.Machine.execHostLinkUp p rate width s
  | .getVersion p m => Sys2Proof.Machine.execGetVersion p m s
  | .getCapabilities p m => Sys2Proof.Machine.execGetCapabilities p m s
  | .negotiateAlgorithms p m => Sys2Proof.Machine.execNegotiateAlgorithms p m s
  | .getDigests p m => Sys2Proof.Machine.execGetDigests p m s
  | .getCertificate p m => Sys2Proof.Machine.execGetCertificate p m s
  | .challenge p m => Sys2Proof.Machine.execChallenge p m s
  | .getMeasurements p m => Sys2Proof.Machine.execGetMeasurements p m s
  | .keyExchange p m => Sys2Proof.Machine.execKeyExchange p m s
  | .finish p m => Sys2Proof.Machine.execFinish p m s
  | .spdmHeartbeat p m => Sys2Proof.Machine.execSpdmHeartbeat p m s
  | .keyUpdate p m => Sys2Proof.Machine.execKeyUpdate p m s
  | .endSession p m => Sys2Proof.Machine.execEndSession p m s
  | .vendorDefinedRequest p m => Sys2Proof.Machine.execVendorDefinedRequest p m s
  | .oscQualified u => Sys2Proof.Machine.execOscQualified u s
  | .oscNotStable u => Sys2Proof.Machine.execOscNotStable u s
  | .refLost cause => Sys2Proof.Machine.execRefLost cause s
  | .refReturn => Sys2Proof.Machine.execRefReturn s
  | .meshLock => Sys2Proof.Machine.execMeshLock s
  | .reflocFailed => Sys2Proof.Machine.execReflocFailed s
  | .timePulseOut pin => Sys2Proof.Machine.execTimePulseOut pin s
  | .timePulseIn pin => Sys2Proof.Machine.execTimePulseIn pin s
  | .fadeReqInAssert pin => Sys2Proof.Machine.execFadeReqInAssert pin s
  | .fadeReqInRelease pin => Sys2Proof.Machine.execFadeReqInRelease pin s
  | .inletEnClose => Sys2Proof.Machine.execInletEnClose s
  | .inletEnOpen => Sys2Proof.Machine.execInletEnOpen s
  | .hotSwapRampDone => Sys2Proof.Machine.execHotSwapRampDone s
  | .inletRange mv => Sys2Proof.Machine.execInletRange mv s
  | .inletDisconnect mv => Sys2Proof.Machine.execInletDisconnect mv s
  | .calWaitExpiry => Sys2Proof.Machine.execCalWaitExpiry s
  | .bistComplete bist => Sys2Proof.Machine.execBistComplete bist s
  | .fastPathDone => Sys2Proof.Machine.execFastPathDone s
  | .frameCorrection f mw => Sys2Proof.Machine.execFrameCorrection f mw s
  | .leaseExpired => Sys2Proof.Machine.execLeaseExpired s
  | .budgetUnmet mw => Sys2Proof.Machine.execBudgetUnmet mw s
  | .droopDetect f mv => Sys2Proof.Machine.execDroopDetect f mv s
  | .droopEnd f => Sys2Proof.Machine.execDroopEnd f s
  | .logicSensorSample k t => Sys2Proof.Machine.execLogicSensorSample k t s
  | .coolantSample cs => Sys2Proof.Machine.execCoolantSample cs s
  | .monFaultWrite v => Sys2Proof.Machine.execMonFaultWrite v s
  | .setdasa addr => Sys2Proof.Machine.execSetdasa addr s
  | .rstdaa => Sys2Proof.Machine.execRstdaa s
  | .jtagInstruction ir => Sys2Proof.Machine.execJtagInstruction ir s
  | .storyboardLoadDone slate words => Sys2Proof.Machine.execStoryboardLoadDone slate words s
  | .keyframeTakeDone sc status => Sys2Proof.Machine.execKeyframeTakeDone sc status s
  | .keyframeRestoreDone sc status => Sys2Proof.Machine.execKeyframeRestoreDone sc status s
  | .streamPauseInRelease pin => Sys2Proof.Machine.execStreamPauseInRelease pin s
  | .pfcQuantaExpiry e prio => Sys2Proof.Machine.execPfcQuantaExpiry e prio s

end Sys2Proof.Machine
end

