-- ==== Sys2Proof/Machine/Tick.lean ====
section
/-! DEFINITION. One cycle of the TIME domain (R504). -/

namespace Sys2Proof.Machine

/-- TIME_NS counts the nanoseconds since the start of firmware (R504). -/
def tick (s : State) : State :=
  if s.boot.fw = .rom then s else { s with clock := { s.clock with timeNs := s.clock.timeNs + 1 } }

end Sys2Proof.Machine
end

