-- ==== Sys2Proof/WellFormed.lean ====
section
/-! DEFINITION. Well-formed commands: what the operand types do not already say. -/

namespace Sys2Proof

/-- The buffer operand is what a read of DATA_LEN bytes gives, or a failed read (R416). -/
def CmdRec.bufferFits (r : CmdRec) : Bool :=
  match r.buffer with
  | none => true
  | some b => decide (b.length = r.dataLen.toNat)

/-- A byte offset names a dword of a block of `n` bytes. -/
def dwordIn (n off : Nat) : Bool := decide (off % 4 = 0) && decide (off < n)

/-- A register location lies within its block: 1 MiB of BAR0 (R407), 4 KiB of each control block. -/
def RegLoc.wf : RegLoc → Bool
  | .bar0 _ off => dwordIn 1048576 off
  | .core _ off => dwordIn 4096 off
  | .cluster _ off => dwordIn 4096 off
  | .frame _ off => dwordIn 4096 off
  | .port _ off => dwordIn 4096 off
  | .fabric off => dwordIn 4096 off
  | .clock off => dwordIn 4096 off
  | .power off => dwordIn 4096 off

/-- An SPDM message holds its four header bytes (R405). -/
def spdmFits (m : List Byte) : Bool := decide (4 ≤ m.length)

/-- The command's operands are in range. -/
def Instr.wf : Instr → Bool
  | .hello _ r | .claimAuthority _ r | .releaseAuthority _ r | .calLoad _ r | .floorplanRead _ r | .slateOpen _ r
  | .slateCut _ r | .slateStatus _ r | .slateRelease _ r | .storyboardLoad _ r | .sceneRun _ r | .sceneRunResume _ r
  | .sceneHalt _ r | .keyframeTake _ r | .replay _ r | .remap _ r | .keyframeRelease _ r | .portConfig _ r
  | .portConfigFabricForm _ r | .routeTableWrite _ r | .probe _ r | .assign _ r | .setLocal _ r | .clearLocal _ r
  | .windowOpen _ r | .windowClose _ r | .mapAperture _ r | .powerBudgetSet _ r | .fade _ r | .unfade _ r
  | .stopLimitSet _ r | .energyRead _ r | .policySet _ r | .fenceCore _ r | .unfenceCore _ r | .dailiesCollect _ r
  | .reset _ r | .sbAssign _ r | .clockSourceSelect _ r | .debugUnlockNonce _ r | .debugUnlockGrant _ r => r.bufferFits
  | .fwHandover _ image => decide (image.length ≤ 16777216)
  | .vaultRefetchDone _ data => decide (data.length ≤ 64)
  | .ethFrameReceive _ _ frame => decide (18 ≤ frame.length)
  | .pfcFrame _ _ quanta => decide (quanta.length = 8)
  | .registerWrite loc _ => loc.wf
  | .rcRegisterRead loc => loc.wf
  | .apertureRead _ off => dwordIn (2 ^ 34) off
  | .apertureWrite _ off _ _ => dwordIn (2 ^ 34) off
  | .getVersion _ m | .getCapabilities _ m | .negotiateAlgorithms _ m | .getDigests _ m | .getCertificate _ m
  | .challenge _ m | .getMeasurements _ m | .keyExchange _ m | .finish _ m | .spdmHeartbeat _ m | .keyUpdate _ m
  | .endSession _ m | .vendorDefinedRequest _ m => spdmFits m
  | .fwLoad _ _ | .discoveryTimeout _ | .windowCloseDone _ | .fadeComplete | .unfadeComplete | .dailiesWritten | .resetDone
  | .clockSelectTimeout | .sceneAdmission _ | .admissionCopyDone _ | .admissionCopyFailed _ _ | .coreSceneStart _
  | .cutDrainDone _ | .cutDeadline _ | .cutRetire _ | .scrubDone _ _ | .faultHalt | .hangProgressReport | .hangDeclared _
  | .hangCoreResetTimeout _ | .hangSuspectEnded _ | .heartbeat | .controllerWatchdog | .nop _ | .add _ | .sub _ | .and _
  | .or _ | .xor _ | .shl _ | .shr _ | .sra _ | .mul _ | .slt _ | .sltu _ | .min _ | .max _ | .addi _ | .andi _ | .ori _
  | .xori _ | .shli _ | .shri _ | .srai _ | .lui _ | .slti _ | .movs _ | .rdccb _ | .rdctr _ | .ld _ | .st _ | .cset _
  | .cseti _ | .cadd _ | .cwait _ | .cwaiti _ | .cwaitt _ | .cwaitSatisfied _ | .cwaittDeadline _ | .issueMx _ | .issueVx _
  | .issueDma _ | .issueSlotFree _ | .scoreboardWaitEnd _ | .send _ | .sendb _ | .recv _ | .recvb _ | .qstat _ | .arrive _
  | .clwait _ | .br _ | .jmp _ | .loop _ | .halt _ | .haltComplete _ | .event _ | .fence _ | .fenceComplete _ | .noProgress _
  | .coreHoldOrder _ | .weightTileLoadStart _ | .weightTileResident _ | .mxTileViolation _ | .mxPass _ | .mxRetake _ _ _
  | .mxRowExport _ | .mxDescriptorComplete _ | .gatherRowDispatch _ | .gatherRetake _ _ _ | .fusedVxdStart _ | .vxChunk _
  | .vxDescriptorComplete _ | .vxTileViolation _ | .dmaRow _ | .dmaDescriptorComplete _ | .dmaDeadline _
  | .routerForward _ _ _ _ | .queue _ _ _ _ | .endMark _ _ _ _ | .credit _ _ _ _ | .refuse _ _ _ _ | .darkRet _ _ _ _
  | .freeze _ _ _ _ | .clapArrive _ _ _ _ | .resumePointCopyDone _ | .clapReply _ _ _ _ | .clapNotify _ _ _ _
  | .memRd _ _ _ _ | .memRdData _ _ _ _ | .memWr _ _ _ _ | .memWrAck _ _ _ _ | .ringRecordConsume _ _
  | .spliceLockLoss _ _ _ _ | .vaultPortRequest _ | .vaultRefetchTimeout _ | .vaultPatrol _ | .vaultTempSample _ _
  | .pfcRepeat _ | .pcsLock _ | .initRepeat _ | .init _ | .initAck _ | .vexazData _ | .ack _ | .nak _ | .idle _ | .ackDue _
  | .idleDue _ | .retryTimeout _ _ | .linkDown _ | .rhelloAck _ | .openAck _ | .reelData _ | .error _ | .putAck _
  | .reelRead _ | .reelWrite _ | .putFlush _ | .streamPauseIn _ | .fhello _ | .fhelloRepeat _ | .discReq _ | .discRsp _
  | .idAssign _ | .idAssignAck _ | .originWrite _ | .wwrite _ | .wack _ | .fabricTimeout _ _ | .cmdDoorbell _ _
  | .cplTail _ _ | .evtTail _ _ | .ringEnable _ _ | .ringDisable _ _ | .irqModTimeout _ _ | .holdingBufferFlush _
  | .hostLinkLoss _ _ | .hostLinkUp _ _ _ | .oscQualified _ | .oscNotStable _ | .refLost _ | .refReturn | .meshLock
  | .reflocFailed | .timePulseOut _ | .timePulseIn _ | .fadeReqInAssert _ | .fadeReqInRelease _ | .inletEnClose
  | .inletEnOpen | .hotSwapRampDone | .inletRange _ | .inletDisconnect _ | .calWaitExpiry | .bistComplete _ | .fastPathDone
  | .frameCorrection _ _ | .leaseExpired | .budgetUnmet _ | .droopDetect _ _ | .droopEnd _ | .logicSensorSample _ _
  | .coolantSample _ | .monFaultWrite _ | .setdasa _ | .rstdaa | .jtagInstruction _ | .storyboardLoadDone _ _
  | .keyframeTakeDone _ _ | .keyframeRestoreDone _ _ | .streamPauseInRelease _ | .pfcQuantaExpiry _ _ => true

end Sys2Proof
end

