-- ==== Sys2Proof/Safety.lean ====
section
/-! DEFINITION. What claims speak of: stored memory in canonical form, what every command leaves alone, and steps that
run. -/

namespace Sys2Proof.Machine

open Sys2Proof

/-- The memories of a core are in canonical form. -/
def Core.memOk (c : Core) : Bool := c.sp.wf && c.istore.wf

/-- The memories of a cluster and of its vault are in canonical form. -/
def Cluster.memOk (c : Cluster) : Bool := c.mem.wf && c.vault.mem.wf

/-- Every memory of the module, and what it has written to host memory and to reel stores, is in canonical form. -/
def State.memOk (s : State) : Bool :=
  (s.cores.all fun q => q.2.memOk) && (s.clusters.all fun q => q.2.memOk) && s.portA.mem.wf && s.portB.mem.wf
    && s.reelCopies.all fun q => q.2.wf

/-- Two states agree on what no command may change: the waiting commands, and the factory values but for the anti-rollback
counter, which only grows (R552, R557, R560). -/
def Steady (s t : State) : Prop :=
  t.pending = s.pending ∧ t.otp = { s.otp with svn := t.otp.svn } ∧ s.otp.svn ≤ t.otp.svn

/-- A step that answers a next state. -/
def stepsTo (s t : State) : Prop := step s = .next t

/-! ### The cue core -/

/-- The core of a name. -/
def coreOf (s : State) (c : CoreId) : Core := getCore s (coreKey c)

/-- A RUNNING core that waits for nothing is about to execute the word `w`: its opcode is `opc`, its parity matches and
it breaks none of R177. -/
def CueAt (s : State) (c : CoreId) (opc w : Nat) : Prop :=
  (coreOf s c).mode = .running ∧ (coreOf s c).wait = .none ∧ cueWord (coreOf s c) = w ∧ fOpc w = opc
    ∧ ramLanes (coreOf s c).istore (coreOf s c).pc.toNat = 0 ∧ cueIllegal (coreOf s c) w = false

/-- The next address in sequence lies within the call sheet's program (R177). -/
def NextInside (s : State) (c : CoreId) : Prop := (coreOf s c).pc.toNat + 1 < sheetPlen (coreOf s c)

/-- The state with a core replaced by `co`, at the next address in sequence and waiting for nothing. -/
def advance (s : State) (c : CoreId) (co : Core) : State :=
  setCore s (coreKey c) { co with pc := (coreOf s c).pc + 1, wait := .none }

/-- The counters of a mask have reached their thresholds (R175). -/
def MaskReached (co : Core) (mask : Nat) : Prop :=
  ∀ i, i < 16 → mask.testBit i = true → (co.cthr.toList.getD i 0).toInt ≤ (co.c.toList.getD i 0).toInt

/-- The condition a CWAIT, CWAITI or CWAITT at a word waits for (R175). -/
def WaitReached (co : Core) (w : Nat) : Prop :=
  if bits w 26 6 = 0x28 then ((BitVec.ofNat 18 w).signExtend 32 : Word).toInt ≤ (co.c.toList.getD (bits w 22 4) 0).toInt
  else MaskReached co (bits w 0 16)

/-- The condition of a BR (R176). -/
def BranchHolds (co : Core) (w : Nat) : Prop :=
  let x : Word := if w.testBit 16 then sReg co (bits w 22 3) else gReg co (bits w 22 4)
  let y : Word := if w.testBit 17 then 0 else gReg co (bits w 18 4)
  match bits w 12 4 with
  | 0 => x = y
  | 1 => x ≠ y
  | 2 => x.toInt < y.toInt
  | 3 => y.toInt ≤ x.toInt
  | 4 => x.toNat < y.toNat
  | 5 => y.toNat ≤ x.toNat
  | 6 => co.tmo = true
  | _ => co.ur = true

/-- The word offset ga + IMM12 within a handle (R174, R175). -/
def offsetOf (co : Core) (w : Nat) : Nat := (gReg co (bits w 18 4) + (BitVec.ofNat 12 w).signExtend 32).toNat

/-- A counter changed: its scene has made progress (R483). -/
def progressed (s : State) (co co' : Core) : State := if co.c = co'.c then s else noteProgress s co

/-- The state with a core replaced by `co`, at address `t` and waiting for nothing. -/
def jumpTo (s : State) (c : CoreId) (t : Nat) (co : Core) : State :=
  setCore s (coreKey c) { co with pc := BitVec.ofNat 12 t, wait := .none }

/-! ### The engines -/

/-- A record of 16 words at `a` may be read at issue (R182), its parity matches, and it holds `ws`. -/
def RecordAt (co : Core) (a : Nat) (ws : List Word) : Prop :=
  recordOk co a = true ∧ badWord co.sp a 16 = none ∧ ramWords co.sp a 16 = ws

/-- Address of the descriptor that an ISSUE names: ga + IMM18 (R182). -/
def descAddr (co : Core) (w : Nat) : Nat := (gReg co (bits w 18 4) + (BitVec.ofNat 18 w).signExtend 32).toNat

/-- The operands of a descriptor pass R210 and wait for nothing (R213). -/
def OperandsFree (s : State) (c : CoreId) (os : List Operand) : Prop :=
  operandsBad s (coreKey c) (coreOf s c) os = none ∧ sbConflict (coreOf s c) (operandRngs (coreOf s c) os) = false
    ∧ sbRoom (coreOf s c) (operandRngs (coreOf s c) os) = true

/-- The next pass or gather row belongs to descriptor `d` and reads tile `t` and activation row `r`, all of it with
matching parity (R79 to R82, R124). -/
def RowDue (s : State) (c : CoreId) (gather : Bool) (d : MxRun) (t : Tile) (r : ARow) : Prop :=
  mxEnters (coreOf s c) gather = some (d, t) ∧ mxParity (coreOf s c) d t = none
    ∧ (mxReadRow s (coreKey c) d (d.mT * mxMT d + d.row) (d.kT * mxKspan d + 128 * d.half) (tileSpan t.bytes)).2 = some r

/-- The accumulator row after a pass (digits `dig`) or a gather row (R81 to R85, R123): each column adds its special
products, at the row's first pass, and its aligned block sums. -/
def joinedRow (co : Core) (d : MxRun) (t : Tile) (r : ARow) (dig : Option (Nat × Nat)) : List Num :=
  let live := min (tileSpan t.bytes) (mxK d - (d.kT * mxKspan d + 128 * d.half))
  let old := if mxStarts d then List.replicate 128 numZero else accRow co (mxAccRow d + d.row)
  old.zipIdx.map fun p =>
    numAdd (if d.i + 1 = mxNa d ∧ d.j + 1 = mxNb d then joinSpecial p.1 (columnSpecial d t r p.2 live) else p.1)
      (alignedSum (columnBlocks d t r p.2 live dig))

/-- The core after a pass or gather row of descriptor `d` whose next position is `next`. -/
def joinedCore (co : Core) (d next : MxRun) (t : Tile) (r : ARow) (dig : Option (Nat × Nat)) : Core :=
  mxDropTile (setMx { setAccRow co (mxAccRow d + d.row) (joinedRow co d t r dig) with
    accBad := if mxStarts d then lanesClear co.accBad (· == mxAccRow d + d.row) else co.accBad } next) d next t

/-- A loading tile as its load leaves it, with its bytes and its verdict (R77, R113, R129). -/
def loadedTile (d : MxRun) (bs : List Byte) (t : Tile) : Tile :=
  { t with
    bytes := bs
    resident := true
    violation := tileReason bs (mxWf d) (mxWq d) (mxKstep d) (mxSparse d) t.half (mxLeft d d.ldK) }

/-- A core whose one loading tile has become resident (R77). -/
def loadedCore (co : Core) (d : MxRun) (bs : List Byte) : Core :=
  setMx { co with tiles := co.tiles.map fun t => if t.resident then t else loadedTile d bs t } (mxNextLoad d (tileHalves bs))

/-- The next pass or gather row is due, and the residue check runs on its descriptor (R97, R99). -/
def RetakeDue (s : State) (c : CoreId) (gather : Bool) (d : MxRun) (t : Tile) (r : ARow) : Prop :=
  RowDue s c gather d t r ∧ mxChecked (coreOf s c) d = true

/-- A descriptor whose present row has been retaken once (R98, R101). -/
def retaken (d : MxRun) (digits : Nat) (cols : BitVec 128) : MxRun :=
  { d with
    retakes := d.retakes + 1
    first := some (d.first.getD ⟨d.row, digits, d.mT, d.nT, d.kT, cols⟩) }

/-- A core that counts one more retake of descriptor `d`. -/
def retakeCounted (co : Core) (d : MxRun) : Core := { setMx co d with mxRetakes := satAdd 0xFFFFFFFF co.mxRetakes 1 }

/-! ### The mesh -/

/-- The packet that the LOCAL output of a cluster ejects next is of a type, and well formed (R301, R303, R308). -/
def TakesPacket (s : State) (k : ClusterId) (pl : Plane) (typ : Nat) (f : Flight) : Prop :=
  arrived s (clKey k) pl.val = some f ∧ pType f.pkt.hdr = typ ∧ packetMalformed f.pkt.hdr = false

/-- The LOCAL output has granted a packet, which has left its buffer at its destination: the router has counted its flits (R301, R303,
R321). -/
def ejected (s : State) (f : Flight) : State :=
  leaveMesh (grantArb s (unitReady s) .loc f) f fun r => { r with flits := satAdd 0xFFFFFFFF r.flits (flitsOf f.pkt) }

/-- A packet as its unit takes it: it has left a router by a port that is not W (R304). -/
def handed (f : Flight) : Flight := { f with pkt := { f.pkt with hdr := setWdone f.pkt.hdr } }

/-- The core a packet is for. -/
def target (s : State) (f : Flight) : Core := getCore s (pDst f.pkt.hdr)

/-- A packet addresses a queue that serves its epoch and slate (R245). -/
def QueueServes (s : State) (f : Flight) : Prop :=
  let q := getQ (target s f) (qOfPkt f.pkt.hdr)
  (q.state = .active ∨ q.state = .overflowed) ∧ q.epoch.toNat = pEpoch f.pkt.hdr ∧ q.slate.toNat = pSlate f.pkt.hdr

/-- The entries that a packet's words become: the end mark stands on the last (R237). -/
def entriesOf (ws : List Word) (endm : Bool) (epoch : BitVec 4) : List QEntry :=
  ws.mapIdx fun i w => ⟨w, endm && decide (i + 1 = ws.length), false, epoch, 0⟩

/-! ### Edge ports -/

/-- The oldest received Vexaz packet of a port is `m`, passes its checks and is of a type; `rest` follow (R350). -/
def VexazHead (s : State) (e : EdgePort) (typ : Nat) (m : List Byte) (rest : List (Nat × List Byte)) : Prop :=
  (∃ pcp, (getPort s e.val).rxq = (pcp, m) :: rest) ∧ vexazBad m = false ∧ vxType m = typ

/-- The state with a port's oldest received packet taken. -/
def vexazTaken (s : State) (e : EdgePort) (rest : List (Nat × List Byte)) : State :=
  setPort s e.val { getPort s e.val with rxq := rest }

/-- The oldest payload a STREAM port holds is the well-formed reel message `m` of a type; `rest` follow (R360). -/
def ReelHead (s : State) (e : EdgePort) (typ : Nat) (m : List Byte) (rest : List (Nat × List Byte)) : Prop :=
  (getPort s e.val).msgs = (0, m) :: rest ∧ getLe m 0 1 = typ ∧ reelBad m = false

/-- The state with the payloads a port holds replaced. -/
def msgsLeft (s : State) (e : EdgePort) (rest : List (Nat × List Byte)) : State :=
  setPort s e.val { getPort s e.val with msgs := rest }

/-- The mesh packet `p`, of a plane, is the first that a port holds for a row. -/
def PortTakes (s : State) (e : EdgePort) (row : Packet → Bool) (p : Packet) (plane : Nat) : Prop :=
  (getPort s e.val).inbox.find? (fun q => row q.1) = some (p, plane)

/-- The state with a mesh packet taken from a port. -/
def portTaken (s : State) (e : EdgePort) (p : Packet) (plane : Nat) : State :=
  setPort s e.val { getPort s e.val with inbox := (getPort s e.val).inbox.erase (p, plane) }

/-- A port holds the fabric packet `q`, of a type, from its link, no FHELLO stands before it, and the link has a version for it
(R373, R376, R379). -/
def FabricHead (s : State) (e : EdgePort) (typ : Nat) (q : Nat × List Byte) : Prop :=
  (fabSeen (getPort s e.val) typ).find? (fun m => fbType m.2 == typ && (m.1 != 0)) = some q
    ∧ (portTag (getPort s e.val)).isSome = true ∧ (typ = 1 ∨ fabVer (getPort s e.val) ≠ 0)

/-- A port holds no packet of a type from its link, and the fabric packet `m` of the type that another port has handed over in the
mesh packet `q`; `u` is the state without it (R377). -/
def FabricHanded (s : State) (e : EdgePort) (typ : Nat) (m : List Byte) (q : Packet × Nat) (u : State) : Prop :=
  fabTake s e.val typ = some (u, m, some q) ∧ (portTag (getPort s e.val)).isSome = true

/-! ### The mailbox -/

/-- The port, record and specification of a command record's row: opcode, lowest version, per-slate, module authority,
and the bytes its buffer needs (R599). A row of a form that the record does not have is none. -/
def mailRow (s : State) : Instr → Option (HostPort × CmdRec × CmdSpec)
  | .hello p r => some (p, r, sessionSpec 1)
  | .claimAuthority p r => some (p, r, sessionSpec 2)
  | .releaseAuthority p r => some (p, r, sessionSpec 3)
  | .fwLoad p r => some (p, r, ⟨0x0100, (2, 0), false, false, 0⟩)
  | .calLoad p r => some (p, r, moduleSpec 0x0101 8)
  | .floorplanRead p r => some (p, r, ⟨0x0102, (2, 0), false, false, 0⟩)
  | .slateOpen p r => some (p, r, ownerSpec 0x0201 (16 * pb r 42 2))
  | .slateCut p r => some (p, r, ownerSpec 0x0202 0)
  | .slateStatus p r => some (p, r, ownerSpec 0x0203 0)
  | .slateRelease p r => some (p, r, ownerSpec 0x0204 0)
  | .storyboardLoad p r => some (p, r, slateSpec 0x0301 0)
  | .sceneRun p r => if pbit r 37 2 then none else some (p, r, slateSpec 0x0302 (runNeed s r))
  | .sceneRunResume p r => if pbit r 37 2 then some (p, r, slateSpec 0x0302 (runNeed s r)) else none
  | .sceneHalt p r => some (p, r, slateSpec 0x0303 0)
  | .keyframeTake p r => some (p, r, slateSpec3 0x0304)
  | .replay p r => some (p, r, slateSpec 0x0305 0)
  | .remap p r => some (p, r, slateSpec3 0x0306)
  | .keyframeRelease p r => some (p, r, slateSpec3 0x0307)
  | .portConfig p r => if pb r 36 1 = 0xFF then none else some (p, r, moduleSpec 0x0400 0)
  | .portConfigFabricForm p r => if pb r 36 1 = 0xFF then some (p, r, moduleSpec 0x0400 0) else none
  | .routeTableWrite p r => some (p, r, moduleSpec 0x0401 (4 * pb r 38 2))
  | .probe p r => if pb r 36 1 = 0 ∨ 3 < pb r 36 1 then some (p, r, moduleSpec 0x0402 0) else none
  | .assign p r => if pb r 36 1 = 1 then some (p, r, moduleSpec 0x0402 0) else none
  | .setLocal p r => if pb r 36 1 = 2 then some (p, r, moduleSpec 0x0402 0) else none
  | .clearLocal p r => if pb r 36 1 = 3 then some (p, r, moduleSpec 0x0402 0) else none
  | .windowOpen p r => some (p, r, slateSpec 0x0403 (4 * pb r 48 1))
  | .windowClose p r => some (p, r, slateSpec 0x0404 0)
  | .mapAperture p r => some (p, r, slateSpec 0x0405 0)
  | .powerBudgetSet p r => some (p, r, moduleSpec 0x0500 0)
  | .fade p r => some (p, r, moduleSpec 0x0501 0)
  | .unfade p r => some (p, r, moduleSpec 0x0502 0)
  | .stopLimitSet p r => some (p, r, moduleSpec 0x0503 0)
  | .energyRead p r => some (p, r, ⟨0x0504, (2, 0), decide (pb r 36 1 = 4), false, 0⟩)
  | .policySet p r => some (p, r, moduleSpec 0x0600 0)
  | .fenceCore p r => some (p, r, moduleSpec 0x0601 0)
  | .unfenceCore p r => some (p, r, moduleSpec 0x0602 0)
  | .dailiesCollect p r => some (p, r, dailiesSpec r)
  | .reset p r => some (p, r, resetSpec s r)
  | .sbAssign p r => some (p, r, ⟨0x0700, (3, 1), false, true, 0⟩)
  | .clockSourceSelect p r => some (p, r, ⟨0x0701, (3, 1), false, true, 0⟩)
  | .debugUnlockNonce p r => if pb r 36 1 = 1 then none else some (p, r, moduleSpec 0x0800 0)
  | .debugUnlockGrant p r => if pb r 36 1 = 1 then some (p, r, moduleSpec 0x0800 64) else none
  | _ => none

/-- The record at TAIL carries the row's opcode (R416), is consumed and passes orders 1 to 4 of R423. -/
def CmdConsumed (s : State) (m : CmdSpec) (p : HostPort) (r : CmdRec) : Prop :=
  r.opcode.toNat = m.opcode ∧ cmdReady s p m.opcode r = true ∧ headerBad s p r = false ∧ versionBad (consumeCmd s p) p m r = false
    ∧ opcodeBad (consumeCmd s p) p m = false ∧ bufferBad m r = false

/-- A per-slate command names a FREE slate. -/
def slateFree (s : State) (m : CmdSpec) (r : CmdRec) : Bool := m.perSlate && (getSlate s r.slate.toNat).mode == .free

/-- The command is judged against no sequence space: HELLO; a SLATE_OPEN of a slate that is not OPEN or RUNNING for the
port; a SLATE_STATUS of a FREE slate (R421, R440). -/
def Unsequenced (s : State) (m : CmdSpec) (p : HostPort) (r : CmdRec) : Prop :=
  let v := getSlate s r.slate.toNat
  m.opcode = 1 ∨ m.opcode = 0x0201 ∧ ¬ ((v.mode = .opened ∨ v.mode = .running) ∧ v.owner = p)
    ∨ m.opcode = 0x0203 ∧ slateFree s m r = true

/-- A record passes orders 1 to 8 of R423; `t` is the state in which the command's own work begins: CMD_TAIL has passed
the record, and its sequence space expects the next CSEQ. -/
def CmdTaken (s : State) (m : CmdSpec) (p : HostPort) (r : CmdRec) (t : State) : Prop :=
  let u := consumeCmd s p
  CmdConsumed s m p r ∧
    (Unsequenced u m p r ∧ t = u ∧ (m.opcode = 0x0203 → laterStatus u p m r = 0)
    ∨ ¬ Unsequenced u m p r ∧ slateFree u m r = false ∧ seqJudge (seqSpace u p m r).1 r.cseq = 0
      ∧ t = seqAdvance u p m r ∧ laterStatus t p m r = 0)

/-- The record of a command row passes orders 1 to 8 of R423 in `s`; its own work begins in `t`, and `ref` is what its
completions name. -/
def RowTaken (s : State) (i : Instr) (t : State) (ref : CmdRef) : Prop :=
  ∃ p r m, mailRow s i = some (p, r, m) ∧ CmdTaken s m p r t ∧ ref = refOf m.opcode p r

end Sys2Proof.Machine
end

