-- ==== Sys2Proof/Certificates/Slice0/Obligations.lean ====
section
/-! DEFINITION. The statements about the module. -/

section Statements

open Sys2Proof Sys2Proof.Machine

/-! ### The cue core -/

/-- R175, the scalar instructions: those of two general registers, those of one and IMM18, sign-extended or zero-extended, and
NOP, LUI, MOVS and RDCTR. gd takes the result and execution continues at the next address; nothing else changes. -/
def Obligations.ScalarResults : Prop :=
  (∀ (c : CoreId) (s : State) (w : Nat) (r : Instr × Nat × (Word → Word → Word)),
      r ∈ ([(.add c, 0x01, fun a b => a + b), (.sub c, 0x02, fun a b => a - b), (.and c, 0x03, fun a b => a &&& b),
        (.or c, 0x04, fun a b => a ||| b), (.xor c, 0x05, fun a b => a ^^^ b),
        (.shl c, 0x06, fun a b => a <<< (b.toNat % 32)), (.shr c, 0x07, fun a b => a >>> (b.toNat % 32)),
        (.sra c, 0x08, fun a b => a.sshiftRight (b.toNat % 32)), (.mul c, 0x09, fun a b => a * b),
        (.slt c, 0x0A, fun a b => if a.toInt < b.toInt then 1 else 0),
        (.sltu c, 0x0B, fun a b => if a.toNat < b.toNat then 1 else 0),
        (.min c, 0x0C, fun a b => if a.toInt ≤ b.toInt then a else b),
        (.max c, 0x0D, fun a b => if a.toInt ≤ b.toInt then b else a)] : List (Instr × Nat × (Word → Word → Word))) →
      CueAt s c r.2.1 w → NextInside s c →
      exec r.1 s = .next (advance s c
        (setG (coreOf s c) (bits w 22 4) (r.2.2 (gReg (coreOf s c) (bits w 18 4)) (gReg (coreOf s c) (bits w 14 4))))))
  ∧ (∀ (c : CoreId) (s : State) (w : Nat) (r : Instr × Nat × Bool × (Word → Word → Word)),
      r ∈ ([(.addi c, 0x10, true, fun a b => a + b), (.andi c, 0x11, false, fun a b => a &&& b),
        (.ori c, 0x12, false, fun a b => a ||| b), (.xori c, 0x13, false, fun a b => a ^^^ b),
        (.shli c, 0x14, false, fun a b => a <<< b.toNat), (.shri c, 0x15, false, fun a b => a >>> b.toNat),
        (.srai c, 0x16, false, fun a b => a.sshiftRight b.toNat),
        (.slti c, 0x18, true, fun a b => if a.toInt < b.toInt then 1 else 0)]
          : List (Instr × Nat × Bool × (Word → Word → Word))) →
      CueAt s c r.2.1 w → NextInside s c →
      exec r.1 s = .next (advance s c (setG (coreOf s c) (bits w 22 4)
        (r.2.2.2 (gReg (coreOf s c) (bits w 18 4))
          (if r.2.2.1 then (BitVec.ofNat 18 w).signExtend 32 else (BitVec.ofNat 18 w).setWidth 32)))))
  ∧ (∀ (c : CoreId) (s : State) (w : Nat), NextInside s c →
      (CueAt s c 0x00 w → exec (.nop c) s = .next (advance s c (coreOf s c)))
      ∧ (CueAt s c 0x17 w → exec (.lui c) s =
          .next (advance s c (setG (coreOf s c) (bits w 22 4) ((BitVec.ofNat 18 w).setWidth 32 <<< 14))))
      ∧ (CueAt s c 0x19 w → exec (.movs c) s =
          .next (advance s c (setG (coreOf s c) (bits w 22 4) (sReg (coreOf s c) (bits w 18 3)))))
      ∧ (CueAt s c 0x1B w → exec (.rdctr c) s =
          .next (advance s c (setG (coreOf s c) (bits w 22 4) ((coreOf s c).c.toList.getD (bits w 18 4) 0)))))

/-- R181, R175: RDCCB and QSTAT take the register as a management read does; what a read clears is cleared. -/
def Obligations.RegisterReadResults : Prop :=
  ∀ (c : CoreId) (s : State) (w : Nat), NextInside s c →
    (CueAt s c 0x1A w → exec (.rdccb c) s =
        .next (advance s c (setG (readCoreReg (coreOf s c) (bits w 0 18)).2 (bits w 22 4)
          (readCoreReg (coreOf s c) (bits w 0 18)).1)))
    ∧ (CueAt s c 0x34 w → w.testBit 0 = false → exec (.qstat c) s =
        .next (advance s c (setG (setQ (coreOf s c) (bits w 14 4)
            { getQ (coreOf s c) (bits w 14 4) with ur := false, gap := false, gapcnt := 0 })
          (bits w 22 4) (qstatVal (coreOf s c) (bits w 14 4)))))
    ∧ (CueAt s c 0x34 w → w.testBit 0 = true → exec (.qstat c) s =
        .next (advance s c (setG (coreOf s c) (bits w 22 4)
          (BitVec.ofNat 32 (qWords (coreOf s c) (bits w 14 4) + qPkts (coreOf s c) (bits w 14 4) * 2 ^ 8)))))

/-- R175, R173, R199: CSET and CSETI give the counter its value; CADD adds and saturates, setting CSAT. A change restarts
the watchdog's count and is progress of the scene. -/
def Obligations.CounterWriteResults : Prop :=
  ∀ (c : CoreId) (s : State) (w : Nat), NextInside s c →
    let co := coreOf s c
    let k := bits w 22 4
    let old : Word := co.c.toList.getD k 0
    let imm : Word := (BitVec.ofNat 18 w).signExtend 32
    let set (v : Word) : Core :=
      if old = v then co else { co with c := co.c.setIfInBounds k v, wdCycles := 0, lastMask := BitVec.ofNat 16 (2 ^ k) }
    let sum : Int := old.toInt + imm.toInt
    let added : Core :=
      if imm = 0 then co
      else { co with
        c := co.c.setIfInBounds k (BitVec.ofInt 32 (max (-2147483648) (min 2147483647 sum)))
        csat := co.csat || decide (sum < -2147483648 ∨ 2147483647 < sum)
        wdCycles := 0
        lastMask := BitVec.ofNat 16 (2 ^ k) }
    (CueAt s c 0x24 w → exec (.cset c) s =
        .next (advance (progressed s co (set (gReg co (bits w 18 4)))) c (set (gReg co (bits w 18 4)))))
    ∧ (CueAt s c 0x25 w → exec (.cseti c) s = .next (advance (progressed s co (set imm)) c (set imm)))
    ∧ (CueAt s c 0x26 w → exec (.cadd c) s = .next (advance (progressed s co added) c added))

/-- R175, R176: a branch whose condition holds goes to T, another goes on; LOOP counts gx down; JMP always goes. -/
def Obligations.BranchResults : Prop :=
  ∀ (c : CoreId) (s : State) (w : Nat),
    let co := coreOf s c
    let x : Word := gReg co (bits w 22 4) - 1
    (CueAt s c 0x38 w → BranchHolds co w → bits w 0 12 < sheetPlen co →
        exec (.br c) s = .next (jumpTo s c (bits w 0 12) co))
    ∧ (CueAt s c 0x38 w → ¬ BranchHolds co w → NextInside s c → exec (.br c) s = .next (advance s c co))
    ∧ (CueAt s c 0x39 w → bits w 0 12 < sheetPlen co → exec (.jmp c) s = .next (jumpTo s c (bits w 0 12) co))
    ∧ (CueAt s c 0x3A w → x ≠ 0 → bits w 0 12 < sheetPlen co →
        exec (.loop c) s = .next (jumpTo s c (bits w 0 12) (setG co (bits w 22 4) x)))
    ∧ (CueAt s c 0x3A w → x = 0 → NextInside s c →
        exec (.loop c) s = .next (advance s c (setG co (bits w 22 4) x)))

/-- R175, R180: a wait that is satisfied on its first test goes on and consumes nothing; CWAITT clears TO then; a deadline of
zero tests once and sets TO; every other wait stays at its PC. A counter change that satisfies a wait ends it; a deadline that
passes first sets TO, and execution continues at the next instruction either way. -/
def Obligations.WaitResults : Prop :=
  (∀ (c : CoreId) (s : State) (w : Nat),
      let co := coreOf s c
      (CueAt s c 0x27 w → WaitReached co w → NextInside s c → exec (.cwait c) s = .next (advance s c co))
      ∧ (CueAt s c 0x28 w → WaitReached co w → NextInside s c → exec (.cwaiti c) s = .next (advance s c co))
      ∧ (CueAt s c 0x29 w → WaitReached co w → NextInside s c →
          exec (.cwaitt c) s = .next (advance s c { co with tmo := false }))
      ∧ (CueAt s c 0x29 w → ¬ WaitReached co w → gReg co (bits w 18 4) = 0 → NextInside s c →
          exec (.cwaitt c) s = .next (advance s c { co with tmo := true }))
      ∧ (CueAt s c 0x27 w → ¬ WaitReached co w → exec (.cwait c) s = .next (setCore s (coreKey c) { co with wait := .counters }))
      ∧ (CueAt s c 0x28 w → ¬ WaitReached co w → exec (.cwaiti c) s = .next (setCore s (coreKey c) { co with wait := .counters }))
      ∧ (CueAt s c 0x29 w → ¬ WaitReached co w → gReg co (bits w 18 4) ≠ 0 →
          exec (.cwaitt c) s = .next (setCore s (coreKey c) { co with wait := .timed })))
  ∧ (∀ (c : CoreId) (s : State),
      let co := coreOf s c
      let w := cueWord co
      co.mode = .running → NextInside s c →
      (co.wait = .counters → WaitReached co w → exec (.cwaitSatisfied c) s = .next (advance s c co))
      ∧ (co.wait = .timed → WaitReached co w →
          exec (.cwaitSatisfied c) s = .next (advance s c { co with tmo := false })
          ∧ exec (.cwaittDeadline c) s = .next (advance s c { co with tmo := false }))
      ∧ (co.wait = .timed → ¬ WaitReached co w →
          exec (.cwaittDeadline c) s = .next (advance s c { co with tmo := true })))

/-- R175, R210, R214: LD takes the word ga + IMM12 of its handle, from the scratchpad, from its cluster's memory or
through the cache; ST stores gd there and changes no other byte. -/
def Obligations.LoadStoreResults : Prop :=
  ∀ (c : CoreId) (s : State) (w : Nat),
    let k := coreKey c
    let co := coreOf s c
    let h := bits w 12 6
    let e := hEntry co h
    let off := offsetOf co w
    let a := e.base + off
    let cl := clOfTarget e.target
    let m := (getCl s cl).mem
    (CueAt s c 0x20 w → handleCheck s k co h .ldst .r (spanOf off 1) = none →
        sbConflict co [rngOf co h (spanOf off 1) false] = false →
        (e.space = 1 → badWord co.sp a 1 = none → NextInside s c →
          exec (.ld c) s = .next (advance s c (setG co (bits w 22 4) (ramWord co.sp a))))
        ∧ (e.space = 2 → e.cached = false → badWord m a 1 = none → NextInside s c →
          exec (.ld c) s = .next (advance s c (setG co (bits w 22 4) (ramWord m a))))
        ∧ (e.cached = true → e.space ≠ 1 → ∀ t ws, cacheRead s k e.space e.target a 1 stopCue = (t, .ok ws) →
          (coreOf t c).mode = .running → NextInside t c →
          exec (.ld c) s = .next (advance t c (setG (coreOf t c) (bits w 22 4) (ws.getD 0 0)))))
    ∧ (CueAt s c 0x21 w → handleCheck s k co h .ldst .w (spanOf off 1) = none →
        sbConflict co [rngOf co h (spanOf off 1) true] = false →
        (e.space = 1 → NextInside s c →
          exec (.st c) s = .next (advance s c { co with sp := ramPutWord co.sp a (gReg co (bits w 22 4)) })
          ∧ ∀ x, x < 4 * a ∨ 4 * a + 4 ≤ x →
            ramByte (ramPutWord co.sp a (gReg co (bits w 22 4))) x = ramByte co.sp x)
        ∧ (e.space = 2 → e.cached = false → NextInside s c →
          exec (.st c) s =
            .next (advance (setCl s cl { getCl s cl with mem := ramPutWord m a (gReg co (bits w 22 4)) }) c co)
          ∧ ∀ x, x < 4 * a ∨ 4 * a + 4 ≤ x → ramByte (ramPutWord m a (gReg co (bits w 22 4))) x = ramByte m x)
        ∧ (e.cached = true → e.space ≠ 1 →
          let t := cacheWrite s k e.space e.target a [gReg co (bits w 22 4)]
          NextInside t c → exec (.st c) s = .next (advance t c (coreOf t c))))

/-- R185, R179, R186: SEND puts its word, and SENDB its edge's words with the end mark, into the mesh as one packet of
the edge and takes the edge's credits; an uncredited send sends nothing and freezes the core with cause 0x15. -/
def Obligations.SendResults : Prop :=
  ∀ (c : CoreId) (s : State) (w : Nat),
    let k := coreKey c
    let co := coreOf s c
    let sent (t : State) (e : Nat) (ws : List Word) (endm : Bool) : State :=
      let u := injectFrom t k (bits (edgeW0 (coreOf t c) e) 22 1) 1
        ⟨edgeHdr (coreOf t c) k 0 e ws.length endm, ws, (coreOf t c).pc.toNat⟩
      let co' := bindAdd (coreOf t c) 3 e (-(ws.length : Int))
      advance (progressed u (coreOf t c) co') c co'
    let e1 := bits w 14 4
    let e2 := bits w 22 4
    let n := edgeRate co e2
    let h := bits (edgeW1 co e2) 9 6
    let off := offsetOf co w
    (CueAt s c 0x30 w → creditOk co e1 1 = true → NextInside s c →
        exec (.send c) s = .next (sent s e1 [gReg co (bits w 22 4)] (w.testBit 0)))
    ∧ (CueAt s c 0x31 w → creditOk co e2 n = true → handleCheck s k co h .queue .r (spanOf off n) = none →
        sbConflict co [rngOf co h (spanOf off n) false] = false →
        ∀ t ws, memRead s k (hEntry co h) off n false stopCue = (t, .ok ws) → (coreOf t c).mode = .running →
          NextInside t c → exec (.sendb c) s = .next (sent t e2 ws true))
    ∧ (CueAt s c 0x30 w → creditOk co e1 1 = false →
        exec (.send c) s = .next (violate s k 0x15 0x7022
          [(28, 2, co.pc.toNat), (30, 1, 0x15), (32, 4, w), (36, 4, creditVal co e1)]))
    ∧ (CueAt s c 0x31 w → creditOk co e2 n = false →
        exec (.sendb c) s = .next (violate s k 0x15 0x7022
          [(28, 2, co.pc.toNat), (30, 1, 0x15), (32, 4, w), (36, 4, creditVal co e2)]))

/-- R185, R240: RECV pops one word into gd and RECVB the queue's words into its handle; UR says whether one of the pops
found nothing. -/
def Obligations.ReceiveResults : Prop :=
  ∀ (c : CoreId) (s : State) (w : Nat),
    let k := coreKey c
    let co := coreOf s c
    let q1 := bits w 14 4
    let q2 := bits w 22 4
    let n := queueRate co q2
    let h := bits (queueW0 co q2) 10 6
    let off := offsetOf co w
    let r1 := getQ co q1
    let r2 := getQ co q2
    (∀ e es, CueAt s c 0x32 w → NextInside s c → r1.window = none → r1.pending = none → r1.entries = e :: es →
        e.gap = false → e.badLanes = 0 →
        ∃ t, exec (.recv c) s = .next t ∧ (coreOf t c).g = (setG co (bits w 22 4) e.payload).g ∧ (coreOf t c).ur = false
          ∧ (getQ (coreOf t c) q1).entries = es ∧ (getQ (coreOf t c) q1).lastv = e.payload ∧ (coreOf t c).pc = co.pc + 1
          ∧ (coreOf t c).wait = .none)
    ∧ (CueAt s c 0x32 w → NextInside s c → r1.window = none → r1.pending = none → r1.entries = [] →
        ∃ t, exec (.recv c) s = .next t ∧ (coreOf t c).g = (setG co (bits w 22 4) r1.lastv).g ∧ (coreOf t c).ur = true
          ∧ (getQ (coreOf t c) q1).entries = [] ∧ (coreOf t c).pc = co.pc + 1 ∧ (coreOf t c).wait = .none)
    ∧ (CueAt s c 0x32 w → NextInside s c → popBad co q1 1 = none →
        let t := (popCycles s k q1 32 1 []).1
        let p := (popCycles s k q1 32 1 []).2
        exec (.recv c) s = .next (advance t c
          (setG { coreOf t c with ur := p.any (·.empty) } (bits w 22 4) ((p.map (·.word)).getD 0 0))))
    ∧ (∀ es fs, CueAt s c 0x33 w → NextInside s c → handleCheck s k co h .queue .w (spanOf off n) = none →
        sbConflict co [rngOf co h (spanOf off n) true] = false → (hEntry co h).space = 1 → r2.window = none →
        r2.pending = none → r2.entries = es ++ fs → es.length = n → (∀ e ∈ es, e.gap = false ∧ e.badLanes = 0) →
        ∃ t, exec (.recvb c) s = .next t
          ∧ (coreOf t c).sp = ramPutWords co.sp ((hEntry co h).base + off) (es.map (·.payload)) ∧ (coreOf t c).ur = false
          ∧ (getQ (coreOf t c) q2).entries = fs ∧ (coreOf t c).g = co.g ∧ (coreOf t c).pc = co.pc + 1
          ∧ (coreOf t c).wait = .none)
    ∧ (CueAt s c 0x33 w → NextInside s c → handleCheck s k co h .queue .w (spanOf off n) = none →
        sbConflict co [rngOf co h (spanOf off n) true] = false → popBad co q2 n = none →
        let t := (popCycles s k q2 32 n []).1
        let p := (popCycles s k q2 32 n []).2
        let u := memWrite (setCore t k { coreOf t c with ur := p.any (·.empty) }) k (hEntry co h) off (p.map (·.word)) false
        exec (.recvb c) s = .next (advance u c (coreOf u c)))

/-- R189, R190: ARRIVE sends one CTL packet of type CLAP_ARRIVE to the clapper's cluster and waits for its reply; CLWAIT
goes on when the phase differs from gb and else waits. R191: a clapper that fails a check freezes the core. -/
def Obligations.ClapperInstructionResults : Prop :=
  ∀ (c : CoreId) (s : State) (w : Nat),
    let k := coreKey c
    let co := coreOf s c
    let a1 := (gReg co (bits w 18 4) + (BitVec.ofNat 18 w).signExtend 32).toNat
    let a2 := (gReg co (bits w 18 4)).toNat
    (CueAt s c 0x36 w → clapBad s co a1 = false →
        exec (.arrive c) s = .next (injectFrom (setCore s k { co with wait := .arrive, clap := a1 }) k 0 1
          ⟨mkHdr 6 ⟨0, 0, lowCore (clapCl a1), k, (sheetSlate co).getD 0, co.epoch.toNat⟩ 0 false a1 0, [], co.pc.toNat⟩))
    ∧ (CueAt s c 0x37 w → clapBad s co a2 = false → clapError s a2 = none →
        bits (clapW1 s a2) 0 16 ≠ (gReg co (bits w 14 4)).toNat →
        NextInside s c → exec (.clwait c) s = .next (advance s c co))
    ∧ (CueAt s c 0x37 w → clapBad s co a2 = false → clapError s a2 = none →
        bits (clapW1 s a2) 0 16 = (gReg co (bits w 14 4)).toNat →
        exec (.clwait c) s = .next (setCore s k { co with wait := .clapper, clap := a2 }))
    ∧ (CueAt s c 0x36 w → clapBad s co a1 = true →
        exec (.arrive c) s = .next (violate s k 0x16 0x7023
          [(28, 2, co.pc.toNat), (30, 1, 0x16), (32, 4, w), (36, 4, a1)]))
    ∧ (CueAt s c 0x37 w → clapBad s co a2 = true →
        exec (.clwait c) s = .next (violate s k 0x16 0x7023
          [(28, 2, co.pc.toNat), (30, 1, 0x16), (32, 4, w), (36, 4, a2)]))

/-- R184, R196, R198, R199, R200: FENCE and HALT stay at their PC; when local completion is reached FENCE goes on with the
cache written back and empty, and HALT makes the core IDLE with its queues retired and its end marks sent. EVENT raises its
event and goes on; the watchdog raises 0xB010 once and sets WDOG; a hold order makes a RUNNING core HELD with cause 0x01. -/
def Obligations.FenceHaltEventAndHold : Prop :=
  (∀ (c : CoreId) (s : State) (w : Nat),
      let k := coreKey c
      let co := coreOf s c
      let f := cacheFlush s k
      (CueAt s c 0x3D w → exec (.fence c) s = .next (setCore s k { co with wait := .fence }))
      ∧ (CueAt s c 0x3B w → exec (.halt c) s = .next (setCore s k { co with wait := .halt }))
      ∧ (co.mode = .running → co.wait = .fence → localDone s k = true → writeBacksDone f k = true → NextInside f c →
          exec (.fenceComplete c) s = .next (advance f c (coreOf f c)))
      ∧ (co.mode = .running → co.wait = .halt → localDone s k = true → writeBacksDone f k = true →
          let m := sendMarks f k
          let t := noteProgress (setCore m k (retireQueues { coreOf m c with mode := .idle, wait := .none, order := false })) co
          exec (.haltComplete c) s = .next (match co.scene with | some q => sceneCheck t q.1 q.2 | none => t)))
  ∧ (∀ (c : CoreId) (s : State) (w : Nat),
      let k := coreKey c
      let co := coreOf s c
      let e := coreEv s k (0x1F00 + bits w 0 8) (bits w 8 2)
        ([(28, 2, co.pc.toNat), (30, 1, bits w 0 8)] ++ (List.range 8).map fun i => (32 + 4 * i, 4, (gReg co i).toNat))
      (CueAt s c 0x3C w → NextInside s c → exec (.event c) s = .next (advance e c co))
      ∧ (co.mode = .running → sheetWdExp co ≠ 0 → co.wdCycles < 2 ^ sheetWdExp co →
          exec (.noProgress c) s =
            .next (coreEv (setCore s k { co with wdCycles := 2 ^ sheetWdExp co, wdog := true }) k 0xB010 1
              [(28, 2, co.pc.toNat), (30, 1, if co.wait = .none then 0xFF else bits (cueWord co) 26 6),
                (32, 4, co.lastMask.toNat), (36, 4, sheetWdExp co)]))
      ∧ (co.order = true → co.mode = .running →
          exec (.coreHoldOrder c) s = .next (setCore s k (abandonWait (stopEngines { co with mode := .held, cause := 1, order := false })))))

/-- R172, R177: at whatever row of the cue core a RUNNING core fetches, a word with a parity error holds it with cause
0x05 and raises 0x2010, and a word that breaks R177 freezes it with cause 0x10 and raises 0x7020, before any effect. -/
def Obligations.CueFetchTraps : Prop :=
  ∀ (c : CoreId) (s : State) (i : Instr),
    i ∈ [Instr.nop c, .add c, .sub c, .and c, .or c, .xor c, .shl c, .shr c, .sra c, .mul c, .slt c, .sltu c, .min c,
      .max c, .addi c, .andi c, .ori c, .xori c, .shli c, .shri c, .srai c, .lui c, .slti c, .movs c, .rdccb c,
      .rdctr c, .ld c, .st c, .cset c, .cseti c, .cadd c, .cwait c, .cwaiti c, .cwaitt c, .issueMx c, .issueVx c,
      .issueDma c, .send c, .sendb c, .recv c, .recvb c, .qstat c, .arrive c, .clwait c, .br c, .jmp c, .loop c,
      .halt c, .event c, .fence c] →
    let k := coreKey c
    let co := coreOf s c
    let lanes := ramLanes co.istore co.pc.toNat
    co.mode = .running → co.wait = .none →
    (lanes ≠ 0 →
        exec i s = .next (coreFault (coreEv (setCore s k (holdCore co 0x05)) k 0x2010 2
          [(28, 2, co.pc.toNat), (30, 1, lanes), (32, 4, cueWord co)]) k 0x2010))
    ∧ (lanes = 0 → cueIllegal co (cueWord co) = true →
        exec i s = .next (violate s k 0x10 0x7020
          [(28, 2, co.pc.toNat), (30, 1, 0x10), (32, 4, cueWord co), (36, 4, 0)]))

/-- R177, R197, R464: execution that reaches an address at or beyond PLEN freezes the core with cause 0x11 and raises 0x7021.
What a violation does to its core: FROZEN with the cause, its registers, counters, program and memory as they were, its engines
stopped; the slate of its call sheet is frozen with 0x7003. -/
def Obligations.RangeViolationsFreeze : Prop :=
  (∀ (c : CoreId) (s : State) (w : Nat),
      let k := coreKey c
      let co := coreOf s c
      let out (t : Nat) (u : State) : State :=
        violate u k 0x11 0x7021 [(28, 2, co.pc.toNat), (30, 1, 0x11), (32, 4, w), (36, 4, t)]
      (CueAt s c 0x00 w → ¬ NextInside s c → exec (.nop c) s = .next (out (co.pc.toNat + 1) (advance s c co)))
      ∧ (CueAt s c 0x39 w → sheetPlen co ≤ bits w 0 12 →
          exec (.jmp c) s = .next (out (bits w 0 12) (jumpTo s c (bits w 0 12) co)))
      ∧ (CueAt s c 0x38 w → BranchHolds co w → sheetPlen co ≤ bits w 0 12 →
          exec (.br c) s = .next (out (bits w 0 12) (jumpTo s c (bits w 0 12) co))))
  ∧ (∀ (s : State) (k : Nat) (cause : BitVec 8) (code : Nat) (detail : List (Nat × Nat × Nat)),
      let co := getCore s k
      let f := freezeCore co cause
      (f.mode = .frozen ∧ f.cause = cause ∧ f.order = false ∧ f.pc = co.pc ∧ f.g = co.g ∧ f.s = co.s ∧ f.c = co.c
        ∧ f.cthr = co.cthr ∧ f.tmo = co.tmo ∧ f.ur = co.ur ∧ f.sp = co.sp ∧ f.istore = co.istore ∧ f.queues = co.queues
        ∧ f.sheet = co.sheet)
      ∧ violate s k cause code detail =
          (let t := coreEv (setCore s k f) k code 2 detail
           match sheetSlate co with
           | some n => freezeSlate t n [(28, 1, 1), (30, 3, k)]
           | none => t))

/-! ### Issue and the engines -/

/-- R182, R183, R212: ISSUE gives a descriptor whose checks pass to its engine under the next operation number, with its
ranges registered on the scoreboard, and goes on. -/
def Obligations.IssueResults : Prop :=
  ∀ (c : CoreId) (s : State) (w : Nat) (ws : List Word),
    let co := coreOf s c
    let a := descAddr co w
    let op := co.nextOp
    RecordAt co a ws → a % 16 = 0 → NextInside s c →
    (CueAt s c 0x2E w → dmaMalformed co ws = none → OperandsFree s c (dmaOperands ws) → co.dma.length < 2 →
        exec (.issueDma c) s = .next (advance s c { sbRegister co (operandRngs co (dmaOperands ws)) with
          dma := co.dma ++ [⟨op, a, ws, 0, 0, [], [], 0, false, false, false⟩]
          reelRef := (dmaOperands ws).foldl (fun m o =>
            if o.use = .dma ∧ (hEntry co o.h).space = 5 then
              smapSet 0 m o.h ((hEntry co o.h).base + (spanLo o.sp).toNat) else m) co.reelRef }))
    ∧ (∀ ch st, CueAt s c 0x2D w → RecordAt co (df ws 10 0 16) ch → RecordAt co (df ws 10 16 16) st →
        vxMalformed co ws ch st false = none → OperandsFree s c (vxOperands co ws st false) → (vxSlots co.vx).length < 2 →
        exec (.issueVx c) s = .next (advance s c { sbRegister co (operandRngs co (vxOperands co ws st false)) with
          vx := co.vx ++ [newVx op a ws ch st none] }))
    ∧ (CueAt s c 0x2C w → df ws 0 18 2 ≠ 2 → mxMalformed ws 0 = none → OperandsFree s c (mxOperands (newMx 0 a ws)) →
        co.mx.length < 2 →
        exec (.issueMx c) s = .next (advance s c { sbRegister co (operandRngs co (mxOperands (newMx 0 a ws))) with
          mx := co.mx ++ [newMx op a ws] }))
    ∧ (∀ fw ch st, CueAt s c 0x2C w → df ws 0 18 2 = 2 → RecordAt co (df ws 14 0 16) fw →
        RecordAt co (df fw 10 0 16) ch → RecordAt co (df fw 10 16 16) st → mxMalformed ws (fw.getD 0 0) = none →
        vxMalformed co fw ch st true = none → fusedMalformed fw (mxM (newMx 0 a ws) * mxNt (newMx 0 a ws)) = none →
        operandsBad s (coreKey c) co (mxOperands (newMx 0 a ws)) = none →
        OperandsFree s c (mxOperands (newMx 0 a ws) ++ vxOperands co fw st true) →
        operandsBad s (coreKey c) co (vxOperands co fw st true) = none → co.mx.length < 2 → (vxSlots co.vx).length < 2 →
        exec (.issueMx c) s = .next (advance s c
          { sbRegister co (operandRngs co (mxOperands (newMx 0 a ws) ++ vxOperands co fw st true)) with
            mx := co.mx ++ [newMx op a ws]
            vx := co.vx ++ [newVx op (df ws 14 0 16) fw ch st (some (mxN (newMx 0 a ws)))] }))

/-- R182, R92, R157, R230, R213, R214: a descriptor address off its 16-word boundary freezes the core with cause 0x14; a
malformed DMA descriptor freezes it with cause 0x12; a conflict, or an engine without a free slot, leaves the instruction
waiting, and when the slot or the scoreboard frees it, the instruction that waits is executed. The stalls a conflict counts are a free
value of the model (log entry 28). -/
def Obligations.IssueRefusalsAndWaits : Prop :=
  (∀ (c : CoreId) (s : State) (w : Nat) (ws : List Word),
      let k := coreKey c
      let co := coreOf s c
      let a := descAddr co w
      (a % 16 ≠ 0 → ∀ r ∈ ([(.issueMx c, 0x2C), (.issueVx c, 0x2D), (.issueDma c, 0x2E)] : List (Instr × Nat)),
          CueAt s c r.2 w → exec r.1 s = .next (violate s k 0x14 0x7024
            [(28, 2, co.pc.toNat), (30, 1, 0x14), (32, 4, w), (36, 4, a)]))
      ∧ (RecordAt co a ws → a % 16 = 0 → CueAt s c 0x2E w →
          (∀ x, dmaMalformed co ws = some x →
            exec (.issueDma c) s = .next (violate s k 0x12 0x7014 [(28, 2, a), (31, 1, x)]))
          ∧ (dmaMalformed co ws = none → operandsBad s k co (dmaOperands ws) = none →
              (sbConflict co (operandRngs co (dmaOperands ws)) = true →
                exec (.issueDma c) s = .next (setCore { s with freeCtr := s.freeCtr + 1 } k { co with
                  wait := .score
                  sbStalls := satAdd 0xFFFFFF co.sbStalls (1 + (Config.freeValue s.freeCtr : BitVec 24).toNat) }))
              ∧ (OperandsFree s c (dmaOperands ws) → 2 ≤ co.dma.length →
                exec (.issueDma c) s = .next (setCore s k { co with wait := .slot })))))
  ∧ (∀ (c : CoreId) (s : State) (w : Nat) (r : Instr × Nat),
      let co := coreOf s c
      let t := setCore s (coreKey c) { co with wait := .none }
      co.mode = .running → CueAt t c r.2 w →
      (r ∈ ([(.issueMx c, 0x2C), (.issueVx c, 0x2D), (.issueDma c, 0x2E)] : List (Instr × Nat)) → co.wait = .slot →
        exec (.issueSlotFree c) s = exec r.1 t ∧ ∃ u, exec (.issueSlotFree c) s = .next u)
      ∧ (r ∈ ([(.ld c, 0x20), (.st c, 0x21), (.sendb c, 0x31), (.recvb c, 0x33), (.issueMx c, 0x2C), (.issueVx c, 0x2D),
          (.issueDma c, 0x2E)] : List (Instr × Nat)) → co.wait = .score →
        exec (.scoreboardWaitEnd c) s = exec r.1 t ∧ ∃ u, exec (.scoreboardWaitEnd c) s = .next u))

/-- R73, R77, R93: a tile load takes the lowest free slots; when the tile's bytes are read it becomes resident, checked, and the load
pointer moves on; a tile that failed its checks freezes the core when a pass needs it, once earlier output tiles have left its rows,
and its own rows become zeros. -/
def Obligations.WeightTileSteps : Prop :=
  ∀ (c : CoreId) (s : State) (d : MxRun),
    let k := coreKey c
    let co := coreOf s c
    let h := df d.words 3 12 6
    let e := hEntry co h
    let off := mxTileOff d d.ldN d.ldK
    let first : List Nat := if mxWf d = 0 then [0] else if mxWf d = 1 then [0, 1] else [0, 1, 2, 3]
    (∀ ds, co.mode = .running → co.mxStop = 0 → co.tiles = [] → co.mx = d :: ds → d.ldN < mxNt d → mxKstep d = 0 → e.space ≠ 5 →
        exec (.weightTileLoadStart c) s = .next (setCore s k { co with
          tiles := [⟨d.op, d.ldN, d.ldM, d.ldK, d.ldH, first, [], false, none, [], 0, 0⟩]
          planeBad := lanesClear co.planeBad first.contains }))
    ∧ (∀ slots, mxLoader co = some d → freeSlots co (mxWf d) (ldHalves s k d) = some slots → e.space ≠ 5 →
        exec (.weightTileLoadStart c) s = .next (setCore s k { co with
          tiles := co.tiles ++ newTiles d slots 0
          planeBad := lanesClear co.planeBad slots.flatten.contains }))
    ∧ (∀ slots t ts, mxLoader co = some d → freeSlots co (mxWf d) (ldHalves s k d) = some slots → e.space = 5 →
        reelOrderBad co h (e.base + off) = false → newTiles d slots (ldTotal d) = t :: ts →
        exec (.weightTileLoadStart c) s = .next (tileSend (setCore s k { co with
          tiles := co.tiles ++ newTiles d slots (ldTotal d)
          planeBad := lanesClear co.planeBad slots.flatten.contains
          reelRef := smapSet 0 co.reelRef h (e.base + off) }) k h off (sameTile t) 64))
    ∧ (∀ t bs, loadingTiles co = [t] → t.violation = none → t.half = d.ldH → (co.mx.find? fun d => d.op == t.op) = some d →
        e.space ≠ 5 → (loadBytes s k d e off).2 = some bs →
        exec (.weightTileResident c) s = .next (setCore s k (loadedCore co d bs)))
    ∧ (∀ t, loadingTiles co = [t] → t.violation = none → t.half = d.ldH → (co.mx.find? fun d => d.op == t.op) = some d →
        e.space = 5 → t.reads = [] → t.total ≤ t.next →
        exec (.weightTileResident c) s = .next (setCore s k (loadedCore co d t.bytes)))
    ∧ (∀ t ts bs, loadingTiles co = t :: ts → (co.mx.find? fun d => d.op == t.op) = some d → e.space ≠ 5 →
        (loadBytes s k d e off).2 = some bs → exec (.weightTileResident c) s = .next (makeResident s k d bs))
    ∧ (∀ t ts, loadingTiles co = t :: ts → (co.mx.find? fun d => d.op == t.op) = some d → e.space = 5 →
        t.reads = [] → t.total ≤ t.next → exec (.weightTileResident c) s = .next (makeResident s k d t.bytes))
    ∧ (∀ t r, mxDue co = some (d, t) → t.violation = some r → mxTileWaits co d = false →
        let rows := List.range (mxRows d d.mT)
        let zeroed := rows.foldl (fun x i => setAccRow x (mxAccRow d + i) (List.replicate 128 numZero)) co
        let cut := { stopMx (setMx zeroed { d with due := d.due.filter fun x => !(x.1 == d.nT && x.2.1 == d.mT) }) 3 with
          accBad := lanesClear co.accBad fun i => decide (mxAccRow d ≤ i) && decide (i < mxAccRow d + mxRows d d.mT) }
        let t := violate (setCore s k cut) k 0x13 0x7011
          [(28, 2, d.addr), (30, 1, r), (32, 2, d.mT), (34, 2, d.nT), (36, 2, d.kT)]
        exec (.mxTileViolation c) s = .next (setCore t k { coreOf t c with mxStop := 3 }))

/-- R79 to R85, R97 to R101, R123 to R126: a pass or a gather row joins its row of the accumulator and moves on; without an error the
predicted residue of every column is that of its block sums; a row in which some block adders err joins after its retake, which is
counted; a retake in which they err again holds the core with cause 0x03. -/
def Obligations.MatrixRowSteps : Prop :=
  ∀ (c : CoreId) (s : State) (d : MxRun) (t : Tile) (r : ARow),
    let k := coreKey c
    let co := coreOf s c
    (RowDue s c false d t r →
        exec (.mxPass c) s = .next (setCore s k
          (joinedCore co d (mxNextPass d (tileHalves t.bytes)) t r (some (d.i, d.j)))))
    ∧ (RowDue s c true d t r →
        exec (.gatherRowDispatch c) s = .next (setCore s k
          (joinedCore (gatherCount co d t) d (mxNextGather d (tileHalves t.bytes)) t r none)))
    ∧ (∀ dig, mxLive d t ≤ 32 * tileBlocks t.bytes ∧ ∀ n,
        predictedResidue d t r n (mxLive d t) dig = blockResidue (columnBlocks d t r n (mxLive d t) dig) 0)
    ∧ (∀ cols, RetakeDue s c false d t r → cols ≠ 0 →
        let d' := retaken d (d.j * 16 + d.i) cols
        exec (.mxRetake c cols 0) s = .next (setCore s k
          (joinedCore (retakeCounted co d') d' (mxNextPass d' (tileHalves t.bytes)) t r (some (d.i, d.j)))))
    ∧ (∀ cols, RetakeDue s c true d t r → cols ≠ 0 →
        let d' := retaken d 0xFF cols
        exec (.gatherRetake c cols 0) s = .next (setCore s k
          (joinedCore (retakeCounted (gatherCount (gatherCount co d t) d t) d') d' (mxNextGather d' (tileHalves t.bytes)) t r none)))
    ∧ (∀ cols again, RetakeDue s c false d t r → cols ≠ 0 → again ≠ 0 →
        let v := coreEv s k 0x1002 2 (mxDetail d.addr d.row (d.j * 16 + d.i) d.mT d.nT d.kT (d.retakes + 1) again)
        exec (.mxRetake c cols again) s = .next (coreFault (setCore v k
          { holdCore (stopMx co 3) 0x03 with mxStop := 3 }) k 0x1002))

/-- R86, R87, R96, R101, R163: a complete row leaves for memory or for the fused vector descriptor; a descriptor whose
passes and exports are done completes: its tiles leave, its ranges are released and DONE_CTR counts; a fused vector
descriptor begins when those before it have read their last chunk. -/
def Obligations.MatrixOutputSteps : Prop :=
  ∀ (c : CoreId) (s : State) (d : MxRun),
    let k := coreKey c
    let co := coreOf s c
    let o := hEntry co (df d.words 3 18 6)
    (∀ nT mT r, mxFirstDue co = some (d, nT, mT, r) → laneBad co.accBad (mxAccRow d + r) = false → mxTgt d ≠ 2 → mxOf d = 3 →
        let byte := 4 * o.base + (4 * (df d.words 9 0 32 + (mT * mxMT d + r) * df d.words 10 0 16) + 1024 * nT)
        let bs := ((accRow co (mxAccRow d + r)).take (mxCols d nT)).flatMap fun v => leBytes 8 (a48Code v).toNat
        let left := { d with due := d.due.drop 1 }
        (o.space = 1 → exec (.mxRowExport c) s = .next (setCore s k (setMx { co with sp := ramPutBytes co.sp byte bs } left)))
        ∧ (o.space = 2 →
          let cl := clOfTarget o.target
          exec (.mxRowExport c) s = .next (setCore
            (setCl s cl { getCl s cl with mem := ramPutBytes (getCl s cl).mem byte bs }) k (setMx co left))))
    ∧ (∀ x, mxFirstDue co = some (d, x) → laneBad co.accBad (mxAccRow d + x.2.2) = false → mxTgt d ≠ 2 →
        let t := mxWriteRow s k d x
        exec (.mxRowExport c) s = .next (setCore t k (setMx (coreOf t c) { d with due := d.due.drop 1 })))
    ∧ (∀ x, mxFirstDue co = some (d, x) → laneBad co.accBad (mxAccRow d + x.2.2) = false → mxTgt d = 2 →
        fusedTaking co = true → co.fusedRows = [] →
        exec (.mxRowExport c) s = .next (setCore s k (setMx { co with fusedRows := [accRow co (mxAccRow d + x.2.2)] }
          { d with due := d.due.drop 1 })))
    ∧ (∀ ds, co.mx = d :: ds → d.admitted = true → d.due = [] → d.first = none →
        let left := co.mx.filter (·.op != d.op)
        let c1 := { co with mx := left, tiles := co.tiles.filter (·.op != d.op) }
        let c2 := if mxTgt d = 2 then c1 else { c1 with sbEntries := co.sbEntries.filter fun e => e.op != d.op }
        let c3 := if left = [] then { c2 with mxStop := 0 } else c2
        exec (.mxDescriptorComplete c) s = .next (putCore s k (doneCtr c3 (d.words.getD 15 0))))
    ∧ (∀ ds, co.mx = d :: ds → d.admitted = true → d.due = [] →
        exec (.mxDescriptorComplete c) s = .next (mxComplete s k d))
    ∧ (∀ v, vxFusedReady co = some v →
        exec (.fusedVxdStart c) s = .next (setCore s k
          { co with vx := co.vx.map fun e => if e.op = v.op then { v with begun := true } else e }))

/-- R49, R50: comparison is by value, across any scales: minus infinity lies below every finite value, and plus infinity above;
each infinity equals itself, and NaN is unordered. MIN and MAX give NaN when either operand is NaN, else the smaller or larger,
the first operand when both are equal. `fin m x` stands for m × 2^(x − 24), and any scale at or below both is a common one. -/
def Obligations.ComparisonByValue : Prop :=
  (∀ m1 x1 m2 x2 k : Int, k ≤ x1 → k ≤ x2 →
      let p : Int := m1 * 2 ^ (x1 - k).toNat
      let q : Int := m2 * 2 ^ (x2 - k).toNat
      let a : Sys2Proof.Machine.Num := .fin m1 x1
      let b : Sys2Proof.Machine.Num := .fin m2 x2
      (lanePred 0 a b = true ↔ p = q) ∧ (lanePred 1 a b = true ↔ p ≠ q) ∧ (lanePred 2 a b = true ↔ p < q)
      ∧ (lanePred 3 a b = true ↔ p ≤ q) ∧ (lanePred 4 a b = true ↔ q < p) ∧ (lanePred 5 a b = true ↔ q ≤ p))
  ∧ (∀ m x : Int, ∀ o ∈ [(Sys2Proof.Machine.Num.inf true, Sys2Proof.Machine.Num.fin m x), (.fin m x, .inf false), (.inf true, .inf false)],
      (List.range 6).map (fun i => lanePred i o.1 o.2) = [false, true, true, true, false, false]
      ∧ (List.range 6).map (fun i => lanePred i o.2 o.1) = [false, true, false, false, true, true])
  ∧ (∀ n : Bool, (List.range 6).map (fun i => lanePred i (.inf n) (.inf n)) = [true, false, false, true, false, true])
  ∧ (∀ a : Sys2Proof.Machine.Num, (List.range 6).map (fun i => lanePred i .nan a) = [false, true, false, false, false, false]
      ∧ (List.range 6).map (fun i => lanePred i a .nan) = [false, true, false, false, false, false])
  ∧ (∀ a b : Sys2Proof.Machine.Num, (a = .nan ∨ b = .nan → laneMinMax false a b = .nan ∧ laneMinMax true a b = .nan)
      ∧ (a ≠ .nan → b ≠ .nan → laneMinMax false a b = (if lanePred 2 b a then b else a)
          ∧ laneMinMax true a b = (if lanePred 4 b a then b else a)))

/-- R156, R162, R165: a chunk is read, run through its chain and written, and the descriptor moves on; results that wait are written
before another chunk is read; a tile of an EXPAND that fails its checks freezes the core with cause 0x13; a descriptor all of whose chunks are done releases its ranges, writes its summary
registers and counts at DONE_CTR. -/
def Obligations.VectorSteps : Prop :=
  ∀ (c : CoreId) (s : State) (d : VxRun),
    let k := coreKey c
    let co := coreOf s c
    let kT := d.i0 / 256
    let nT := d.row / 128
    (∀ u vs scales, vxReady co = some d → vxMode d.words = 0 → vxI1En d.words = false → vxSegm d.words = 0 →
        vxI0 s k d (vxLive d (vxFusedM d)) = (u, some (vs, scales)) →
        let zeros := List.replicate (vxLive d (vxFusedM d)) numZero
        let l0 := vs.map (vxLoadLane d.words)
        let l1 := zeros.map (vxLoadLane d.words)
        let run := runLanes d.words d.chain ((l0.map (·.1)).zip ((l1.map (·.1)).zip (l1.map fun _ => false)))
          (if d.i0 = 0 ∧ vxSpan d.words = false then none else d.carry) []
        exec (.vxChunk c) s = .next (vxFinish u k { vxKeep d zeros scales with carry := run.2 } run.1
          (l0.foldl (fun a l => a + l.2) 0) []))
    ∧ (vxReady co = some d → vxMode d.words ≠ 2 → exec (.vxChunk c) s = .next (vxChunkStep s k d))
    ∧ (∀ u bs, vxReady co = some d → vxMode d.words = 2 → vxTile s k d kT nT = (u, some bs) →
        vxTileReason d bs kT = none → exec (.vxChunk c) s = .next (vxChunkStep u k (vxHold d bs)))
    ∧ (co.vxOut ≠ [] → exec (.vxChunk c) s = .next (vxFlush s k))
    ∧ (∀ u bs r, vxReady co = some d → vxMode d.words = 2 → vxTile s k d kT nT = (u, some bs) →
        vxTileReason d bs kT = some r →
        let t := violate (setCore u k (stopVx (coreOf u c) 3)) k 0x13 0x7013
          [(28, 2, d.addr), (30, 1, r), (32, 4, nT * ceilDiv (vxD0 d.words) 256 + kT)]
        exec (.vxTileViolation c) s = .next (setCore t k { coreOf t c with vxStop := 3 }))
    ∧ (∀ ds, co.vx = d :: ds → d.allRead = true → (∀ x ∈ co.vxOut, x.op ≠ d.op) → d.declFail = none →
        let left := co.vx.filter (·.op != d.op)
        let c1 := { vxSums co d with vx := left, sbEntries := co.sbEntries.filter fun e => e.op != d.op }
        let c2 := if left = [] then { c1 with vxStop := 0 } else c1
        exec (.vxDescriptorComplete c) s = .next (putCore s k (doneCtr c2 (d.words.getD 15 0))))
    ∧ (∀ ds, co.vx = d :: ds → d.allRead = true → (∀ x ∈ co.vxOut, x.op ≠ d.op) →
        exec (.vxDescriptorComplete c) s = .next (vxComplete s k d))

/-- R229, R231 to R233: the executing DMA descriptor issues its present row's pieces; a row of up to 128 words within the core's own
scratchpad, or a fill of it, is written at once; at its deadline a descriptor issues no further row, unless it can complete then; when
it can complete it writes its status word, releases its ranges and counts at DONE_CTR. -/
def Obligations.DmaSteps : Prop :=
  ∀ (c : CoreId) (s : State) (d : DmaRun),
    let k := coreKey c
    let co := coreOf s c
    let len := bits (d.words.getD 4 0).toNat 0 16
    let src := hEntry co (dmSrc d.words)
    let dst := hEntry co (dmDst d.words)
    let late : State := setCore s k { co with dma := co.dma.map fun e => if e.op = d.op then { d with expired := true } else e }
    (∀ ds, co.dma = d :: ds → co.mode = .running → d.stopped = false → d.status = 0 → d.expired = false →
        d.row < bits (d.words.getD 4 0).toNat 16 16 → d.off = 0 → 0 < len → len ≤ 128 → dst.space = 1 →
        dmFill d.words = true ∨ src.space = 1 ∧ badWord co.sp (src.base + dmSrcOff d.words d.row) len = none →
        let vs := if dmFill d.words then List.replicate len (d.words.getD 7 0)
          else ramWords co.sp (src.base + dmSrcOff d.words d.row) len
        exec (.dmaRow c) s = .next (setCore s k { co with
          dma := co.dma.map fun e => if e.op = d.op then { d with row := d.row + 1 } else e
          sp := ramPutWords co.sp (dst.base + dmDstOff d.words d.row) vs }))
    ∧ (∀ ds, co.dma = d :: ds → co.mode = .running → d.stopped = false → d.status = 0 → d.expired = false →
        d.row < bits (d.words.getD 4 0).toNat 16 16 →
        exec (.dmaRow c) s = .next (dmaRow k d.op d.row len s))
    ∧ (dmaTimed co = [d] → co.dma.head? ≠ some d ∨ dmaCanComplete s co d = false → exec (.dmaDeadline c) s = .next late)
    ∧ (dmaTimed co = [d] → co.dma.head? = some d → dmaCanComplete s co d = true → exec (.dmaDeadline c) s = .next s)
    ∧ (∀ e es, dmaTimed co = d :: e :: es → df d.words 9 0 5 ≤ df e.words 9 0 5 →
        co.dma.head? ≠ some d ∨ dmaCanComplete s co d = false → exec (.dmaDeadline c) s = .next late)
    ∧ (∀ ds, co.dma = d :: ds → dmaCanComplete s co d = true → dmaStatusOf d = 0 → d.words.getD 15 0 = 0 →
        dmFill d.words = true →
        let t := memWrite s k (hEntry co (dmStat d.words)) (df d.words 8 0 32) [BitVec.ofNat 32 (dmaDone d * 2 ^ 16)] false
        exec (.dmaDescriptorComplete c) s = .next (setCore t k { coreOf t c with
          dma := (coreOf t c).dma.filter (·.op != d.op)
          sbEntries := (coreOf t c).sbEntries.filter fun e => e.op != d.op }))
    ∧ (∀ ds, co.dma = d :: ds → dmaCanComplete s co d = true →
        exec (.dmaDescriptorComplete c) s = .next (dmaComplete s k d))

/-! ### The mesh -/

/-- R302 to R304, R306, R312: the head of a buffer takes the hop of its route entry when the output port grants it, with WDONE set
unless it goes W, and the other packets stay in order; it stays where it is when another is granted; without an entry, or before a dark
cluster, it is returned once the return can be injected. A port grants a head that is ready: CTL first, and while none has waited 32
cycles, RSP next. A route fence ends when no packet of a source it has stopped is on its way: then the new entries apply. -/
def Obligations.RouterForwardResults : Prop :=
  ∀ (s : State) (k : ClusterId) (pl : Plane) (d : PortDir) (vc : Chan) (f : Flight),
    let entry := routeEntry s f.plane f.cl (clOf (pDst f.pkt.hdr)) (pWdone f.pkt.hdr)
    (isDark s (clKey k) = false → headOf s (clKey k) pl.val d (chanNo vc) = some f →
      (∀ o n, entry = some o → o ≠ .loc → beyond f.cl o = some n → isDark s n = false →
          granted s (linkReady s o) f.cl f.plane o = some f →
          let h := if o = .w then f.pkt.hdr else setWdone f.pkt.hdr
          let u := setRouter (grantArb s (linkReady s o) o f) f.cl f.plane
            fun r => { r with flits := satAdd 0xFFFFFFFF r.flits (flitsOf f.pkt) }
          exec (.routerForward k pl d vc) s = .next (fenceStep (injectGo { u with
            mesh := s.mesh.erase f ++ [⟨n, f.plane, farSide o, { f.pkt with hdr := h }, none⟩] } f.cl f.plane (pVc f.pkt.hdr))))
      ∧ (∀ o n, entry = some o → o ≠ .loc → beyond f.cl o = some n → isDark s n = false →
          granted s (linkReady s o) f.cl f.plane o ≠ some f → exec (.routerForward k pl d vc) s = .next (fenceStep s))
      ∧ (entry = none ∨ (∃ o n, entry = some o ∧ o ≠ .loc ∧ beyond f.cl o = some n ∧ isDark s n = true) →
          exec (.routerForward k pl d vc) s = .next (fenceStep (if returnReady s f then darkReturn s f else s)))
      ∧ (entry = some .loc → exec (.routerForward k pl d vc) s = .next (fenceStep s)))
    ∧ (∀ (ready : Flight → Bool) (o : PortDir) (g : Flight), granted s ready (clKey k) pl.val o = some g →
        let heads (v : Nat) : List Flight := readyHeads s ready (clKey k) pl.val o v
        g ∈ heads (pVc g.pkt.hdr) ∧ (heads 0 ≠ [] → pVc g.pkt.hdr = 0)
        ∧ (heads 0 = [] → (∀ v, (arbOf s (clKey k) pl.val o).age.getD v 0 < 32) → heads 2 ≠ [] → pVc g.pkt.hdr = 2))
    ∧ (s.routeFence = none → fenceStep s = s)
    ∧ (∀ new, s.routeFence = some new →
        fenceStep s = if fenceWaits s then s else injectAll { s with routeDark := new, routeFence := none })

/-- R301: a damaged packet, or one whose reserved fields or type fail, has no effect but its event, its count and the
report of a mesh fault, whatever its row. -/
def Obligations.PacketChecks : Prop :=
  ∀ (s : State) (k : ClusterId) (pl : Plane) (hd : BitVec 128) (td : Word) (f : Flight) (r : Instr × Nat),
    r ∈ ([(.queue k pl hd td, 0), (.endMark k pl hd td, 1), (.credit k pl hd td, 2), (.refuse k pl hd td, 3), (.darkRet k pl hd td, 4),
      (.freeze k pl hd td, 5), (.clapArrive k pl hd td, 6), (.clapReply k pl hd td, 7), (.clapNotify k pl hd td, 8),
      (.memRd k pl hd td, 9), (.memRdData k pl hd td, 0xA), (.memWr k pl hd td, 0xB), (.memWrAck k pl hd td, 0xC)]
        : List (Instr × Nat)) →
    arrived s (clKey k) pl.val = some f → pType f.pkt.hdr = r.2 →
    let out := setWdone f.pkt.hdr
    let h := out ^^^ hd
    let tr := (BitVec.ofNat 32 (crc24 (packetBytes out f.pkt.payload)) ^^^ td).toNat
    let u := grantArb s (unitReady s) .loc f
    (hd ≠ 0 ∨ td ≠ 0 → crc24 (packetBytes h f.pkt.payload) ≠ tr % 2 ^ 24 →
        exec r.1 s = .next (meshCheckFailed u f h tr true))
    ∧ (hd = 0 → td = 0 → packetMalformed f.pkt.hdr = true →
        exec r.1 s = .next (meshCheckFailed u f out tr false))

/-- R245 to R250, R284: a packet for a credited queue with room becomes its newest entries and counts at the bound
counters; one for a queue that is not in service is refused; one of another epoch is counted and discarded; an end mark
of the epoch joins its scene's marks. -/
def Obligations.QueueArrivals : Prop :=
  ∀ (s : State) (k : ClusterId) (pl : Plane) (f : Flight),
    let co := target s f
    let n := qOfPkt f.pkt.hdr
    let q := getQ co n
    let d := pDst f.pkt.hdr
    let src := (pSrc f.pkt.hdr, edgeOfPkt f.pkt.hdr, f.plane)
    (TakesPacket s k pl 0 f → QueueServes s f → q.state = .active → q.mode = 0 → q.bound.getD src = src →
        q.entries.length + f.pkt.payload.length ≤ 128 → 0 < f.pkt.payload.length →
        exec (.queue k pl 0 0) s = .next (putCore (ejected s f) d
          (bindAddQ (setQ co n { q with
              bound := some src
              entries := q.entries ++ entriesOf f.pkt.payload (pEnd f.pkt.hdr) q.epoch }) n
            f.pkt.payload.length (if pEnd f.pkt.hdr then 1 else 0))))
    ∧ (TakesPacket s k pl 0 f → q.state = .disabled ∨ q.state = .retired →
        exec (.queue k pl 0 0) s =
          .next (ctlBack (setCore (ejected s f) d { co with qRefused := satAdd 0xFFFFFFFF co.qRefused 1 }) d f.plane 3 0x0403 (handed f).pkt))
    ∧ (TakesPacket s k pl 0 f → q.state = .active ∨ q.state = .overflowed → q.epoch.toNat ≠ pEpoch f.pkt.hdr →
        exec (.queue k pl 0 0) s =
          .next (setCore (ejected s f) d { co with qStale := satAdd 0xFFFFFFFF co.qStale f.pkt.payload.length }))
    ∧ (∀ x, TakesPacket s k pl 1 f → q.state ≠ .disabled → q.epoch.toNat = pEpoch f.pkt.hdr → sceneOf s co = some x →
        exec (.endMark k pl 0 0) s =
          .next (sceneCheck (setScene (ejected s f) { x with marks := x.marks + 1, progress := true }) x.sbn (scKey x)))

/-- R250, R187, R246, R247, R312: credits reach the counter bound to their edge; a refusal or a returned send is recorded
in CUE_SENDST and holds a RUNNING core with cause 0x02; a freeze order freezes the sender with cause 0x17; each of a
finished epoch is counted as stale. -/
def Obligations.CoreMessages : Prop :=
  ∀ (s : State) (k : ClusterId) (pl : Plane) (f : Flight),
    let co := target s f
    let d := pDst f.pkt.hdr
    let u := ejected s f
    let h := hdrOfWords f.pkt.payload
    (TakesPacket s k pl 2 f → runningEpoch co (pEpoch f.pkt.hdr) = true →
        exec (.credit k pl 0 0) s =
          .next (putCore u d (bindAdd co 3 (bits (pArg f.pkt.hdr) 0 4) (bits (pArg f.pkt.hdr) 4 8 : Nat))))
    ∧ (TakesPacket s k pl 3 f → runningEpoch co (pEpoch f.pkt.hdr) = true →
        exec (.refuse k pl 0 0) s = .next (sendRefused u d 0x0403 (edgeOfPkt h) f.pkt.note (pDst h)))
    ∧ (TakesPacket s k pl 4 f → runningEpoch co (pEpoch f.pkt.hdr) = true → pType h = 0 →
        exec (.darkRet k pl 0 0) s = .next (sendRefused u d 0x0704 (edgeOfPkt h) f.pkt.note (pDst h)))
    ∧ (TakesPacket s k pl 4 f → pType h = 6 → co.wait = .arrive → co.clap = pArg h → co.mode = .running →
        co.pc.toNat + 1 < sheetPlen co →
        exec (.darkRet k pl 0 0) s =
          .next (sendRefused (setCore u d { co with wait := .none, pc := co.pc + 1 }) d 0x0704 0 co.pc.toNat (pDst h)))
    ∧ (TakesPacket s k pl 5 f → runningEpoch co (pEpoch f.pkt.hdr) = true → co.mode ≠ .frozen →
        let v := setCore u d (freezeCore co 0x17)
        exec (.freeze k pl 0 0) s = .next (match sheetSlate co with
          | some n => freezeSlate v n [(28, 1, 1), (30, 3, d)]
          | none => v))
    ∧ (∀ r ∈ ([(.credit k pl 0 0, 2), (.refuse k pl 0 0, 3), (.freeze k pl 0 0, 5)] : List (Instr × Nat)),
        TakesPacket s k pl r.2 f → runningEpoch co (pEpoch f.pkt.hdr) = false →
        exec r.1 s = .next (setCore u d { co with qStale := satAdd 0xFFFFFFFF co.qStale 1 }))
    ∧ (∀ e pc status, sendRefused s d status e pc (pDst h) =
        coreEv (setCore s d
          (let c1 := { co with sendst := BitVec.ofNat 32 (status + e * 2 ^ 16 + pc % 2 ^ 12 * 2 ^ 20) }
           if co.mode = .running then holdCore c1 0x02 else c1)) d 0x3010 1
          [(28, 2, pc), (30, 1, e), (32, 4, status), (36, 4, pDst h)])

/-- R189, R190, R294: an arrival is answered with the phase before it and counted; the arrival that completes a phase
zeroes COUNT and steps PHASE in the same update; the reply ends the core's ARRIVE with gd the phase; a notification ends
a CLWAIT whose phase differs. -/
def Obligations.ClapperSteps : Prop :=
  ∀ (s : State) (k : ClusterId) (pl : Plane) (f : Flight),
    let h := f.pkt.hdr
    let a := pArg h
    let w := clapWord a
    let m := (getCl s f.cl).mem
    let co := target s f
    let u := ejected s f
    let w0 := clapW0 (ejected s f) a
    let w1 := clapW1 (ejected s f) a
    let phase := bits w1 0 16
    let reply (t : State) : State :=
      inject t f.cl 0 clapInjector ⟨mkHdr 7 ⟨0, 0, pSrc h, lowCore f.cl, pSlate h, pEpoch h⟩ 0 false a phase, [], 0⟩
    let wrote (t : State) (v0 v1 : Nat) : State :=
      setCl t f.cl { getCl t f.cl with mem := ramPutWords (getCl t f.cl).mem w [BitVec.ofNat 32 v0, BitVec.ofNat 32 v1] }
    (TakesPacket s k pl 6 f → badWord m w 2 = none → bits w0 16 16 + 1 ≠ bits w0 0 16 →
        exec (.clapArrive k pl 0 0) s =
          .next (wrote (reply u) (bits w0 0 16 + (bits w0 16 16 + 1) % 2 ^ 16 * 2 ^ 16) w1))
    ∧ (TakesPacket s k pl 6 f → badWord m w 2 = none → bits w0 16 16 + 1 = bits w0 0 16 →
        exec (.clapArrive k pl 0 0) s =
          .next (clapDone (wrote (reply u) (bits w0 0 16) (w1 - phase + (phase + 1) % 2 ^ 16)) a phase))
    ∧ (TakesPacket s k pl 7 f → co.wait = .arrive → co.clap = a → co.mode = .running →
        co.pc.toNat + 1 < sheetPlen co →
        exec (.clapReply k pl 0 0) s = .next (setCore u (pDst h)
          { setG co (bits (cueWord co) 22 4) (BitVec.ofNat 32 (bits (pArg2 h) 0 16)) with pc := co.pc + 1, wait := .none }))
    ∧ (TakesPacket s k pl 8 f → co.mode = .running → co.wait = .clapper → co.clap = a →
        bits (pArg2 h) 0 16 ≠ (gReg co (bits (cueWord co) 14 4)).toNat → co.pc.toNat + 1 < sheetPlen co →
        exec (.clapNotify k pl 0 0) s = .next (setCore u (pDst h) { co with pc := co.pc + 1, wait := .none }))
    ∧ (∀ (sc : SceneId) x b r area,
        (s.scenes.find? fun x => x.sbn == sc.sbn.val && x.idx == sc.idx.val && x.copying.isSome) = some x →
        getBoard s sc.sbn.val = some b → x.copying = some (r, area) →
        exec (.resumePointCopyDone sc) s = .next (resumeCopied s sc.sbn.val sc.idx.val)
        ∧ ∀ j t j', copyJob s .resume sc.sbn.val (scKey x) = some j → copyWork s j = (t, j') →
          (copyDone t j' = false → exec (.resumePointCopyDone sc) s = .next t)
          ∧ (copyDone t j' = true →
            let v := setScene (copyDrop t j') { x with copying := none, latest := some r, area := area, winMark := x.winCount }
            let a' := resAddr b.words sc.idx.val r
            let ph := resPhase b.words sc.idx.val r
            exec (.resumePointCopyDone sc) s = .next (clapNotify (raiseEv { v with
                unfinished := v.unfinished.map fun y =>
                  if y.sbn = sc.sbn.val ∧ y.idx = sc.idx.val ∧ (boundSlates x).contains y.slate = true then
                    { y with latest := some r, area := area, winMark := x.winCount } else y }
              0xB020 0 (sceneFrame x) [(28, 2, x.sbn), (30, 2, x.idx), (32, 4, a'), (36, 2, ph)]) a' ((ph + 1) % 2 ^ 16))))

/-- R225, R299: a read of cluster memory is answered with its words and changes no memory; a write stores its words there,
no other byte, and is acknowledged; a vault request joins its port's queue; an answer reaches the DMA engine or the matrix loader, and
one to a request that was given up, or of another epoch, changes nothing. -/
def Obligations.MemoryPackets : Prop :=
  ∀ (s : State) (k : ClusterId) (pl : Plane) (f : Flight),
    let h := f.pkt.hdr
    let w := bits (pArg h) 0 28
    let n := pArg2 h % 256
    let tag := bits (pArg2 h) 8 8
    let u := ejected s f
    let m := (getCl s f.cl).mem
    let co := target s f
    let awaited : Prop := co.deadTags.contains tag = false ∧ pEpoch h = co.epoch.toNat
    (TakesPacket s k pl 9 f → (pArg h).testBit 27 = false → (pArg h).testBit 28 = false → badWord m w n = none →
        exec (.memRd k pl 0 0) s = .next (readReply u f.cl memoryInjector (handed f) 0 (ramWords m w n)))
    ∧ (TakesPacket s k pl 9 f → (pArg h).testBit 27 = false → (pArg h).testBit 28 = true →
        exec (.memRd k pl 0 0) s = .next (vaultEnqueue u f.cl ⟨.router (handed f).pkt f.plane, w, n, none⟩))
    ∧ (TakesPacket s k pl 0xB f → (pArg h).testBit 27 = false → (pArg h).testBit 28 = false →
        exec (.memWr k pl 0 0) s = .next (writeReply
          (setCl u f.cl { getCl u f.cl with mem := ramPutWords m w f.pkt.payload }) f.cl memoryInjector (handed f) 0)
        ∧ ∀ x, x < 4 * w ∨ 4 * (w + f.pkt.payload.length) ≤ x →
          ramByte (ramPutWords m w f.pkt.payload) x = ramByte m x)
    ∧ (TakesPacket s k pl 0xB f → (pArg h).testBit 27 = false → (pArg h).testBit 28 = true →
        exec (.memWr k pl 0 0) s =
          .next (vaultEnqueue u f.cl ⟨.router (handed f).pkt f.plane, w, f.pkt.payload.length, some f.pkt.payload⟩))
    ∧ (TakesPacket s k pl 0xA f → f.pkt.note < 2 ^ 16 → awaited → (tileByTag co tag).isSome = false →
        exec (.memRdData k pl 0 0) s = .next (dmaData u (pDst h) tag (bits (pArg h) 0 16) f.pkt.payload))
    ∧ (TakesPacket s k pl 0xA f → f.pkt.note < 2 ^ 16 → awaited → (tileByTag co tag).isSome = true →
        exec (.memRdData k pl 0 0) s = .next (tileData u (pDst h) tag (bits (pArg h) 0 16) f.pkt.payload))
    ∧ (∀ r ∈ ([(.memRdData k pl 0 0, 0xA), (.memWrAck k pl 0 0, 0xC)] : List (Instr × Nat)), TakesPacket s k pl r.2 f →
        f.pkt.note < 2 ^ 16 → ¬ awaited →
        exec r.1 s = .next (setCore u (pDst h) { co with deadTags := co.deadTags.filter (· != tag) }))
    ∧ (∀ d p, TakesPacket s k pl 0xC f → f.pkt.note < 2 ^ 16 → awaited → bits (pArg h) 0 16 = 0 →
        dmaByTag co tag = some (d, p) → p.writing = true →
        exec (.memWrAck k pl 0 0) s =
          .next (setCore u (pDst h) (setDma co { d with pieces := d.pieces.filter (·.tag != tag) })))

/-- R267, R268, R311: a consumer takes the record at TAIL and moves TAIL past it, past a PAD to the start of the data area; a malformed
record raises 0x3020 and stops the ring; a splice link that loses lock puts its seam into uniform mode and its links among the dead. -/
def Obligations.RingAndSpliceSteps : Prop :=
  ∀ (s : State) (k : ClusterId) (ctl : Fin 1048576) (sm : SeamId) (l0 l1 : Byte) (cause : LockCause),
    let c := getCl s (clKey k)
    let a := 16 * ctl.val
    let size := 2 ^ bits (ramWord c.mem a).toNat 0 5
    let head := ramWord c.mem (a + 4)
    let tail := ramWord c.mem (a + 8)
    let p := tail.toNat % size
    let w := (ramWord c.mem (a + 16 + p / 4)).toNat
    let clean : Prop := ∀ x ∈ [a, a + 4, a + 8, a + 16 + p / 4], ramLanes c.mem x = 0
    let ready : Prop := c.ringStops.contains ctl.val = false ∧ 7 ≤ bits (ramWord c.mem a).toNat 0 5
      ∧ bits (ramWord c.mem a).toNat 0 5 ≤ 24 ∧ head ≠ tail
    (clean → ready → p % 64 = 0 → ringRecBad (bits w 0 16) (bits w 16 16) size p = false →
        exec (.ringRecordConsume k ctl) s = .next (setCl s (clKey k) { c with
          mem := ramPutWord c.mem (a + 8) (tail + BitVec.ofNat 32
            (if bits w 0 16 = 1 then ringMsgLen (bits w 16 16) else size - p)) }))
    ∧ (clean → ready → p % 64 ≠ 0 ∨ ringRecBad (bits w 0 16) (bits w 16 16) size p = true →
        exec (.ringRecordConsume k ctl) s = .next (raiseEv (setCl s (clKey k) { c with ringStops := c.ringStops ++ [ctl.val] })
          0x3020 2 noFrame [(28, 8, 64 * ctl.val), (36, 4, p), (40, 2, bits w 0 16)]))
    ∧ (clean → c.ringStops.contains ctl.val = true → head ≠ 0 ∨ tail ≠ 0 → exec (.ringRecordConsume k ctl) s = .next s)
    ∧ (s.splice.contains sm.val = true →
        let d := smapGet (0, 0) s.floor.dead sm.val
        exec (.spliceLockLoss sm l0 l1 cause) s =
          .next (raiseEv { s with
              splice := s.splice.filter (· != sm.val)
              floor := { s.floor with
                generation := s.floor.generation + 1
                changed := s.clock.timeNs
                dead := smapSet (0, 0) s.floor.dead sm.val (d.1 ||| l0, d.2 ||| l1) } }
            0x4001 1 noFrame [(28, 1, sm.val), (29, 1, l0.toNat), (30, 1, l1.toNat),
              (31, 1, match cause with | .lock => 1 | .deskew => 2)]))

/-! ### Vaults -/

/-- R323, R325, R327, R332: a port that works applies the oldest request it may and tells its requester; a read of lines that match
their CRC gives their words and changes nothing; a write whose lines match, or are covered whole, stores its words and no other byte,
frees the immutable ranges it touches, and leaves every line it wrote in with a CRC that matches. -/
def Obligations.VaultAccesses : Prop :=
  ∀ (s : State) (k : ClusterId),
    let cl := clKey k
    let v := (getCl s cl).vault
    let stored (w : Nat) (ws : List Word) : Vault := { vaultStore v w ws with
      imm := v.imm.map fun e =>
        if e.kind ≠ 0 ∧ e.base.toNat < w + ws.length ∧ w < e.base.toNat + e.len.toNat then .free else e }
    let works : Prop := v.mode = .active ∨ v.mode = .hardHold
    (∀ r u out, works → vaultPick v v.queue [] = some r → vaultRun s cl r = (u, out) → out ≠ .wait →
        let w := (getCl u cl).vault
        exec (.vaultPortRequest k) s = .next (vaultAnswer (setVault u cl { w with queue := w.queue.erase r }) cl r out))
    ∧ (∀ r, works → vaultPick v v.queue [] = some r → r.data = none → (∀ l ∈ linesOf r.w r.len, lineBad v l = false) →
        exec (.vaultPortRequest k) s =
          .next (vaultAnswer (setVault s cl { v with queue := v.queue.erase r }) cl r (.ok (ramWords v.mem r.w r.len))))
    ∧ (∀ r ws, works → v.locked = none → vaultPick v v.queue [] = some r → r.data = some ws →
        let new := reqWords v r ws
        (∀ l ∈ linesOf r.w new.length, partialLine r.w new.length l = true → lineBad v l = false) →
        exec (.vaultPortRequest k) s = .next (vaultAnswer
          (setVault (setVault s cl (stored r.w new)) cl { stored r.w new with queue := v.queue.erase r }) cl r (.ok [])))
    ∧ (works ∧ vaultPick v v.queue [] = none ∨ ¬ works → exec (.vaultPortRequest k) s = .next s)
    ∧ (∀ w n code idx req, v.locked = none → (∀ l ∈ linesOf w n, lineBad v l = false) →
        vaultRead s cl w n code idx req = (s, .ok (ramWords v.mem w n)))
    ∧ (∀ w ws idx req, v.locked = none →
        (∀ l ∈ linesOf w ws.length, partialLine w ws.length l = true → lineBad v l = false) →
        vaultWrite s cl w ws idx req = (setVault s cl (stored w ws), .ok [])
        ∧ (∀ l ∈ linesOf w ws.length, lineBad (stored w ws) l = false)
        ∧ ∀ x, x < 4 * w ∨ 4 * (w + ws.length) ≤ x → ramByte (stored w ws).mem x = ramByte v.mem x)

/-- R329, R330, R334 to R337: the 64 bytes of a HOST origin repair the locked line, which then matches its CRC, and the request that
waited is served; other data, or none in 10 ms, fail the repair with 0x2020 and answer that request with an error; the patrol of an idle
port reads its line and goes to the next, and round after the last. A sample moves a vault up to the band of its
temperature at once, and down only once it lies two degrees below its band. -/
def Obligations.VaultRepairAndRefresh : Prop :=
  (∀ (s : State) (k : ClusterId) (data : List Byte) (r : Refetch) (e : ImmEntry),
      let cl := clKey k
      let v := (getCl s cl).vault
      let own := ownerOf s 3 cl (16 * r.line)
      let mended := setVault s cl (crcRenew { v with
        mem := ramPutBytes v.mem (64 * r.line) data, locked := none, refetchDone := satAdd 0xFFFF v.refetchDone 1 } [r.line])
      let told := raiseEv mended 0x2021 1 ⟨none, own, none⟩ [(28, 2, targetOfCl cl), (30, 4, r.line), (34, 1, r.code),
        (35, 1, r.entry), (36, 4, (now s - r.since) / 1000)]
      let idx := match r.req with | some q => vaultCoreIdx q | none => 0xFF
      let lost (failure : Nat) : State :=
        let u := setVault s cl { v with locked := none, refetchFailed := satAdd 0xFFFF v.refetchFailed 1 }
        let w := detect (raiseEv u 0x2020 2 ⟨none, own, none⟩ [(28, 2, targetOfCl cl), (30, 4, r.line), (34, 1, r.code),
          (35, 1, idx), (36, 1, 1), (37, 1, failure)]) ⟨0x2020, 4, none, own.toList, none⟩
        match r.req with
        | none => w
        | some q => vaultAnswer w cl q .err
      (v.locked = some r → r.origin = e → e.kind = 1 → data.length = 64 →
          (r.req = none → exec (.vaultRefetchDone k data) s = .next told)
          ∧ (∀ q u out, r.req = some q → vaultRun told cl q = (u, out) → out ≠ .wait →
            exec (.vaultRefetchDone k data) s = .next (vaultAnswer u cl q out))
          ∧ (getCl mended cl).vault.locked = none ∧ lineBad (getCl mended cl).vault r.line = false
          ∧ ∀ x, x < 64 * r.line ∨ 64 * r.line + 64 ≤ x →
            ramByte (ramPutBytes v.mem (64 * r.line) data) x = ramByte v.mem x)
      ∧ (v.locked = some r → r.origin = e → e.kind = 1 → data.length ≠ 64 → exec (.vaultRefetchDone k data) s = .next (lost 1))
      ∧ (v.locked = some r → exec (.vaultRefetchTimeout k) s = .next (refetchForget (lost 4) cl))
      ∧ (v.mode = .active → v.queue = [] → scrubbing s cl = false → v.patrolEn = true → noVaults s = false → v.locked = none →
          lineBad v v.patrolLine = false →
          exec (.vaultPatrol k) s = .next (setVault s cl { v with
            patrolLine := if 16 * (v.patrolLine + 1) < vaultWords s then v.patrolLine + 1 else 0 })))
  ∧ ((∀ b : Nat, b ≤ 3 → ∀ t : Int,
        (100 ≤ t → bandNext b t = 3)
        ∧ (95 ≤ t → t < 100 → bandNext b t = if b = 3 ∧ 98 < t then 3 else 2)
        ∧ (85 ≤ t → t < 95 → bandNext b t = if b = 2 ∧ 93 < t ∨ b = 3 ∧ 93 < t then 2 else 1)
        ∧ (t < 85 → bandNext b t = if 1 ≤ b ∧ 83 < t then 1 else 0))
    ∧ ∀ (s : State) (k : ClusterId) (raw : Word16), noVaults s = false →
        exec (.vaultTempSample k raw) s = .next (vaultTemp s (clKey k) (sensorDegrees s (4096 + clKey k) raw)))

/-! ### Vexaz Link -/

/-- R347, R350, R351: a frame for an enabled port joins its received packets, one with a bad FCS is counted; a packet that
fails its checks is counted and answered by NAK; a DATA packet in sequence is accepted and another answered by NAK;
acknowledgements release packets, and a NAK resends from the SEQ it names; an INIT_ACK waits while the peer pauses priority 3. -/
def Obligations.LinkReception : Prop :=
  ∀ (s : State) (e : EdgePort) (m : List Byte) (rest : List (Nat × List Byte)),
    let p := getPort s e.val
    let u := vexazTaken s e rest
    (∀ frame, p.enable = true → frameForPort s e.val frame = true →
        exec (.ethFrameReceive e true frame) s = .next (setPort s e.val
          { p with rxq := p.rxq ++ [(beNat ((frame.drop 14).take 2) / 2 ^ 13, frame.drop 18)] }))
    ∧ (∀ frame, p.enable = true →
        exec (.ethFrameReceive e false frame) s = .next (setPort s e.val { p with fcsErr := satAdd 0xFFFFFFFF p.fcsErr 1 }))
    ∧ (∀ pcp, ∀ i ∈ [Instr.init e, .initAck e, .vexazData e, .ack e, .nak e, .idle e], p.rxq = (pcp, m) :: rest →
        vexazBad m = true → exec i s = .next (vexazDiscard u e.val pcp))
    ∧ (VexazHead s e 1 m rest →
        let v := initVersion (getLe (vxPay m) 0 1) (getLe (vxPay m) 1 1)
        let t := sendVexaz u e.val 2 3 0 0 0 (initPay u e.val v)
        let c : CtlPkt := ⟨2, 0, 0, 0, initPay u e.val v⟩
        (p.paused.getD 3 false = false →
          exec (.init e) s = .next (linkTry (setPort t e.val { getPort t e.val with ackSent := some v }) e.val))
        ∧ (p.paused.getD 3 false = true → (getPort u e.val).ctlHeld.contains c = false →
          exec (.init e) s = .next (setPort u e.val { getPort u e.val with ctlHeld := (getPort u e.val).ctlHeld ++ [c] })))
    ∧ (VexazHead s e 2 m rest →
        let b := vxPay m
        exec (.initAck e) s = .next (linkTry (setPort u e.val
          { getPort u e.val with ackRcvd := some (getLe b 6 1, getLe b 2 1, getLe b 3 1, getLe b 1 1) }) e.val))
    ∧ (VexazHead s e 3 m rest → (getPort u e.val).link = .up →
        let cls := vxClass m
        let a := if vxAckCl m ≤ 2 then ackAdvance u e.val (vxAckCl m) (vxAck m) else u
        let r := rxOf (getPort a e.val) cls
        (vxSeq m = r.expected →
          let b := payloadIn (setPort a e.val (setRx (getPort a e.val) cls ⟨r.expected + 1, false, r.unreported + 1⟩))
            e.val cls (vxPay m)
          exec (.vexazData e) s = .next (pfcCheck
            (if 32 ≤ (rxOf (getPort b e.val) cls).unreported then sendAck b e.val cls 4 else b) e.val))
        ∧ (vxSeq m ≠ r.expected → exec (.vexazData e) s = .next (sendNak a e.val cls)))
    ∧ (VexazHead s e 4 m rest → (getPort u e.val).link = .up → vxAckCl m ≤ 2 →
        exec (.ack e) s = .next (ackAdvance u e.val (vxAckCl m) (vxAck m)))
    ∧ (VexazHead s e 6 m rest → (getPort u e.val).link = .up → vxAckCl m ≤ 2 →
        exec (.idle e) s = .next (ackAdvance u e.val (vxAckCl m) (vxAck m)))
    ∧ (VexazHead s e 5 m rest → (getPort u e.val).link = .up → vxAckCl m ≤ 2 →
        exec (.nak e) s = .next (resendFrom u e.val (vxAckCl m) (vxSeq m)))

/-- R349, R351 to R353, R356: the port's own times and pins: INIT at lock and every 100 µs until link-up, expected values
at 1 µs, IDLE at 10 µs, a resend from the oldest packet, PFC repeated above the low mark, a pause that runs out, stream
pause, and the end of a link. -/
def Obligations.LinkTimers : Prop :=
  ∀ (s : State) (e : EdgePort),
    let p := getPort s e.val
    (p.enable = true → p.pcs = false → s.clock.hold = false →
        exec (.pcsLock e) s = .next (linkTry (sendInit (setPort s e.val { p with pcs := true }) e.val) e.val))
    ∧ (p.enable = true → p.pcs = true → p.link ≠ .up → exec (.initRepeat e) s = .next (sendInit s e.val))
    ∧ exec (.ackDue e) s = .next ([0, 1, 2].foldl (fun t c =>
        if 0 < (rxOf (getPort t e.val) c).unreported then sendAck t e.val c 4 else t) s)
    ∧ (p.link = .up → exec (.idleDue e) s = .next (sendAck s e.val (if p.role then 1 else 0) 6))
    ∧ (∀ (c : VClass) q m rest, p.link = .up → (txOf p c.val).unacked = (q, m) :: rest →
        exec (.retryTimeout e c) s = .next (resendFrom s e.val c.val q)
        ∧ (16 ≤ (txOf p c.val).resends → maySend p c.val = true → pausedIn s e.val = false →
          exec (.retryTimeout e c) s = .next (linkDown s e.val 2)))
    ∧ (p.enable = true → p.pcs = true → p.link = .up →
        exec (.linkDown e) s = .next (linkDown (setPort s e.val { p with pcs := false }) e.val 1))
    ∧ (p.pfcTx = true → exec (.pfcRepeat e) s = .next (sendPfc s e.val true))
    ∧ (∀ (mask : Byte) quanta, p.enable = true →
        let paused := [0, 1, 2, 3].map fun i =>
          if mask.getLsbD i then decide (quanta.getD i 0 ≠ (0 : Word16)) else p.paused.getD i false
        let xoff := [0, 1, 2, 3].any fun i => mask.getLsbD i && decide (quanta.getD i 0 ≠ (0 : Word16))
        exec (.pfcFrame e mask quanta) s = .next ([0, 1, 2].foldl (fun t c => pumpAll t e.val c)
          (ctlFlush (setPort s e.val { p with paused := paused, xoffRx := if xoff then satAdd 0xFFFF p.xoffRx 1 else p.xoffRx }) e.val)))
    ∧ (∀ prio : Fin 8, p.paused.getD prio.val false = true →
        exec (.pfcQuantaExpiry e prio) s =
          .next (pumpAll (ctlFlush (setPort s e.val { p with paused := p.paused.set prio.val false }) e.val) e.val prio.val))
    ∧ (∀ pin : SbPin, (getPin s pin.val).func = 2 →
        let block := (getPin s pin.val).block
        exec (.streamPauseIn pin) s = .next (setPin s pin.val { getPin s pin.val with level := true })
        ∧ exec (.streamPauseInRelease pin) s = .next ((List.range 8).foldl (fun t i => pumpAll t (8 * block + i) 0)
          (setPin s pin.val { getPin s pin.val with level := false })))

/-! ### Reels -/

/-- R280, R362, R363, R366 to R368, R370: RHELLO_ACK settles the version, tells of the link-up, sends the keyframe copies that wait or,
under version 1, refuses every write, and opens every slot that is not HELD, or holds every bound slot with cause 4; an OPEN_ACK in range
gives the slot its block size and sends its PUTs again, another holds it with cause 3; an ERROR holds it with cause 2; PUT_ACK completes
its writes, asks once for the same message again at status 5, or refuses them; so it does for a keyframe copy. -/
def Obligations.ReelMessages : Prop :=
  ∀ (s : State) (e : EdgePort) (m : List Byte) (rest : List (Nat × List Byte)) (x : ReelSlot) (q : Put),
    let u := msgsLeft s e rest
    let i := getLe m 4 3 % 128
    let put (t : State) : State :=
      sendReel t e.val 11 x.reel (q.start / 2 ^ 32) (q.start % 2 ^ 32) (q.data ++ leBytes 4 (crc32c q.data))
    let v := getLe m 12 1
    let shown (t : State) (ver : Nat) : State :=
      if (getPort t e.val).upPending then
        let w := setPort t e.val { getPort t e.val with upPending := false }
        raiseEv w 0x5001 0 noFrame
          [(28, 1, e.val), (29, 1, (getPort w e.val).vlver.toNat), (30, 1, lanesOf (getPort w e.val)), (31, 1, ver)]
      else t
    let up := shown (setPort u e.val { getPort u e.val with reelver := BitVec.ofNat 2 v, reelUp := true }) v
    let opened (t : State) : State := refetchBegin ((getPort t e.val).slots.foldl
      (fun t b => match slotOf t e.val b.1 with
        | some y => if y.held then t else sendReel t e.val 3 y.reel 0 0 []
        | none => t) t) e.val
    (ReelHead s e 2 m rest → 2 ≤ v → v ≤ 3 →
        exec (.rhelloAck e) s =
          .next (pfcCheck (opened ((getPort up e.val).copyPuts.foldl (fun t q => putOut t e.val q.1 q.2) up)) e.val))
    ∧ (ReelHead s e 2 m rest → v = 1 → exec (.rhelloAck e) s = .next (pfcCheck (opened (writesRefused up e.val)) e.val))
    ∧ (ReelHead s e 2 m rest → v = 0 ∨ 3 < v →
        exec (.rhelloAck e) s = .next (pfcCheck ((getPort u e.val).slots.foldl (fun t b => slotHold t e.val b.1 4 0 0)
          (shown (setPort u e.val { getPort u e.val with reelver := 0, reelUp := false }) 0)) e.val))
    ∧ (ReelHead s e 4 m rest → slotForReel u e.val (getLe m 4 3) = some x → x.held = false →
        (getLe m 8 4 = x.blocks → 0 < getLe m 12 4 → getLe m 12 4 ≤ 1048576 → x.reserved = false →
          exec (.openAck e) s = .next (pfcCheck (reserveAll (x.puts.foldl (fun t q => putOut t e.val x.reel q) (setSlot u e.val i
            (some { x with maxblk := getLe m 12 4, acked := true, credit := 0 }))) e.val) e.val))
        ∧ (getLe m 8 4 ≠ x.blocks ∨ getLe m 12 4 = 0 ∨ 1048576 < getLe m 12 4 →
          exec (.openAck e) s = .next (pfcCheck (slotHold u e.val i 3 (getLe m 2 2) 0) e.val)))
    ∧ (ReelHead s e 9 m rest → slotForReel u e.val (getLe m 4 3) = some x → x.requested.contains (getLe m 8 4) = true →
        exec (.error e) s = .next (pfcCheck (slotHold u e.val i 2 (getLe m 2 2) (getLe m 8 4)) e.val))
    ∧ (ReelHead s e 12 m rest → slotForReel u e.val (getLe m 4 3) = some x →
        x.puts.find? (fun q => q.start == getLe m 8 4 * 2 ^ 32 + getLe m 12 4) = some q →
        (getLe m 2 2 = 5 → q.resent = false →
          exec (.putAck e) s = .next (pfcCheck (put (setSlot u e.val i (some { x with
            puts := x.puts.map fun r => if r = q then { q with resent := true } else r }))) e.val))
        ∧ (getLe m 2 2 = 5 → q.resent = true → exec (.putAck e) s = .next (pfcCheck (putDone u e.val i x q false) e.val))
        ∧ (getLe m 2 2 ≠ 5 →
          exec (.putAck e) s = .next (pfcCheck (putDone u e.val i x q (decide (getLe m 2 2 = 0))) e.val)))
    ∧ (ReelHead s e 12 m rest → slotForReel u e.val (getLe m 4 3) = none →
        let id := getLe m 4 3
        let key := reelKey e.val id
        let p := getPort u e.val
        let gone := setPort u e.val { p with copyPuts := p.copyPuts.erase (id, q) }
        let marked := p.copyPuts.map fun r => if r = (id, q) then (id, { q with resent := true }) else r
        let failed := u.works.copies.map fun j => if j.kf = (KfDest.reel id e.val) ∧ j.status = 0 then { j with status := 0x0903 } else j
        p.copyPuts.find? (fun q => q.1 == id && q.2.start == getLe m 8 4 * 2 ^ 32 + getLe m 12 4) = some (id, q) →
        let stored := smapSet Ram.zero u.reelCopies key (ramPutBytes (smapGet Ram.zero u.reelCopies key) q.start q.data)
        (getLe m 2 2 = 0 → exec (.putAck e) s = .next (pfcCheck { gone with reelCopies := stored } e.val))
        ∧ (getLe m 2 2 = 5 → q.resent = false → exec (.putAck e) s =
          .next (pfcCheck (putOut (setPort u e.val { p with copyPuts := marked }) e.val id q) e.val))
        ∧ (getLe m 2 2 ≠ 0 → getLe m 2 2 ≠ 5 ∨ q.resent = true → exec (.putAck e) s =
          .next (pfcCheck { gone with works := { u.works with copies := failed } } e.val)))

/-- R358, R364 to R367: a read joins its slot's reads at the word its offset names from the cursor, a write joins its
writes and the words gathered for PUT; an access no slot takes is refused with REEL_ERROR; the segments of the block asked
for gather until its length and CRC match, which gives the block and its acknowledgement; the first mismatch retries the
block, the second holds the slot with cause 1; a segment not asked for holds it with cause 3; one of a cut slate is discarded and
counted. -/
def Obligations.ReelBlocks : Prop :=
  ∀ (s : State) (e : EdgePort) (m : List Byte) (rest : List (Nat × List Byte)) (x : ReelSlot) (p : Packet) (pl : Nat),
    let u := msgsLeft s e rest
    let t := portTaken s e p pl
    let off := pArg p.hdr % 2 ^ 27
    let w := reelWord x (off % 2 ^ 20)
    let rd : Packet → Bool := fun p => pType p.hdr == 9
    let wr : Packet → Bool := fun p => pType p.hdr == 0xB && decide (pArg p.hdr < 2 ^ 28)
    let b := getLe m 8 4
    let body := m.drop 16
    let n := body.length - 8
    let old := match x.data.find? fun d => d.idx == b with | some d => d.data | none => []
    let with_ (bytes : List Byte) (chk : Bool) : List ReelBlock := (x.data.filter fun d => d.idx != b) ++ [⟨b, old ++ bytes, chk⟩]
    let fits (bytes : List Byte) : Prop :=
      getLe m 12 4 = old.length ∧ 0 < bytes.length ∧ bytes.length ≤ 8192 ∧ old.length + bytes.length ≤ x.maxblk
    let i := getLe m 4 3 % 128
    let asked := slotForReel u e.val (getLe m 4 3) = some x ∧ retired u x.slate = false ∧ x.held = false ∧ x.dropping = []
    let passes := getLe body n 4 = old.length + n ∧ getLe body (n + 4) 4 = crc32c (old ++ body.take n)
    (PortTakes s e rd p pl → slotOf t e.val (off / 2 ^ 20) = some x →
        exec (.reelRead e) s = .next (slotGo (setSlot t e.val (off / 2 ^ 20) (some { x with
          cursor := max x.cursor (w + pArg2 p.hdr % 256 - 1)
          reads := x.reads ++ [⟨p, pl, w, pArg2 p.hdr % 256⟩] })) e.val (off / 2 ^ 20)))
    ∧ (PortTakes s e rd p pl → slotOf t e.val (off / 2 ^ 20) = none →
        exec (.reelRead e) s = .next (portReadReply t e.val ⟨p, pl, 0, 0⟩ 0x0903 []))
    ∧ (PortTakes s e wr p pl → slotOf t e.val (off / 2 ^ 20) = some x → (getPort t e.val).reelver ≠ 1 →
        exec (.reelWrite e) s = .next (slotGo (gatherFull (setSlot t e.val (off / 2 ^ 20) (some { x with
          cursor := max x.cursor (w + p.payload.length - 1)
          writes := x.writes ++ [⟨p, pl, w, 4 * p.payload.length⟩]
          gather := gatherAdd (4 * w) (wordsBytes p.payload) x.gather })) e.val (off / 2 ^ 20)) e.val (off / 2 ^ 20)))
    ∧ (PortTakes s e wr p pl → slotOf t e.val (off / 2 ^ 20) = none ∨ (getPort t e.val).reelver = 1 →
        exec (.reelWrite e) s = .next (portWriteReply t e.val ⟨p, pl, 0, 0⟩ 0x0903))
    ∧ exec (.putFlush e) s = .next ((getPort s e.val).slots.foldl (fun t q => match slotOf t e.val q.1 with
        | some y => y.gather.foldl (fun t g => sendPut t e.val q.1 g) (setSlot t e.val q.1 (some { y with gather := [] }))
        | none => t) s)
    ∧ (ReelHead s e 6 m rest → asked → x.requested.head? = some b → getLe m 1 1 % 2 = 0 → fits body →
        exec (.reelData e) s = .next (pfcCheck (pfcCheck
          (slotGo (setSlot u e.val i (some { x with data := with_ body false })) e.val i) e.val) e.val))
    ∧ (ReelHead s e 6 m rest → asked → x.requested.head? = some b → getLe m 1 1 % 2 = 1 → fits (body.take n) → passes →
        (b + 1 < x.blocks → old.length + n = x.maxblk) → 8 ≤ body.length →
        exec (.reelData e) s = .next (pfcCheck (pfcCheck
          (slotGo (sendReel (setSlot u e.val i (some { x with
              data := with_ (body.take n) true
              requested := x.requested.tail
              okBlocks := max x.okBlocks (b + 1)
              used := x.used.filter fun y => y.2 != b })) e.val 8 x.reel b 0 []) e.val i) e.val) e.val))
    ∧ (ReelHead s e 6 m rest → asked → x.requested.head? = some b → getLe m 1 1 % 2 = 1 → fits (body.take n) → ¬ passes →
        8 ≤ body.length →
        exec (.reelData e) s = .next (pfcCheck (pfcCheck
          (if x.failed = some b then
            slotHold (setSlot u e.val i (some { x with data := with_ (body.take n) false })) e.val i 1 0 b
          else blockRetry u e.val i b { x with data := with_ (body.take n) false }) e.val) e.val))
    ∧ (ReelHead s e 6 m rest → asked → x.requested.head? ≠ some b → refetchMatches (getPort u e.val) (getLe m 4 3) b = false →
        exec (.reelData e) s = .next (pfcCheck (pfcCheck (slotHold u e.val i 3 0 b) e.val) e.val))
    ∧ (ReelHead s e 6 m rest → slotForReel u e.val (getLe m 4 3) = some x → retired u x.slate = true →
        x.requested.head? = some b →
        exec (.reelData e) s = .next (pfcCheck (pfcCheck (countRetired u x.slate) e.val) e.val))

/-! ### The fabric -/

/-- R373, R377, R384, R386, R388, R390, R391: a packet for another module goes out of the port its table entry chooses, one hop less;
without a usable entry, or without hops left, it is discarded and a write is answered with NO_ROUTE; one handed over by another port
leaves by this one; an unassigned module discards it and counts it; a WACK completes the
write its gateway keeps, or counts as late; an origin write is sent with the next SEQ of its core, and one without a WACK
in time completes with FAB_TIMEOUT. -/
def Obligations.FabricRouting : Prop :=
  ∀ (s : State) (e : EdgePort) (q : Nat × List Byte) (p : Packet) (pl : Nat),
    let u := msgsLeft s e ((getPort s e.val).msgs.erase q)
    let m := q.2
    let less := putLe m 8 1 (fbHops m - 1)
    let out (dst : Nat) : Nat := choiceOf (destWord u dst) (bits (destWord u dst).toNat 28 2)
    let usable (dst : Nat) : Prop := (destWord u dst).getLsbD 31 = true ∧ fabUp u (out dst) = true
    let mine := (getPort u e.val).outWrites.find? fun o =>
      o.seq == fbSeq m && bits (pArg2 o.pkt.hdr) 8 8 == fbTag m && pSrc o.pkt.hdr == fbXy m
    let t := portTaken s e p pl
    let ori : Packet → Bool := fun p => pType p.hdr == 0xB && decide (2 ^ 28 ≤ pArg p.hdr) && decide (p.note < 2 ^ 16)
    (FabricHead s e 0x10 q → engId u ≠ 0x7FFF → fbDst m ≠ engId u →
        (usable (fbDst m) → 0 < fbHops m → fabFits u (out (fbDst m)) less = true →
          exec (.wwrite e) s = .next (pfcCheck (fabOut u e.val (out (fbDst m)) less) e.val))
        ∧ (usable (fbDst m) → 0 < fbHops m → fabFits u (out (fbDst m)) less = false →
          exec (.wwrite e) s = .next (pfcCheck (sendWack (norouteEvent u e.val (fbDst less) 4) e.val less 0x0102) e.val))
        ∧ (usable (fbDst m) → fbHops m = 0 →
          exec (.wwrite e) s = .next (pfcCheck (sendWack (noRoute u e.val (fbDst m) 2) e.val m 0x0705) e.val))
        ∧ (¬ usable (fbDst m) →
          exec (.wwrite e) s = .next (pfcCheck (sendWack (noRoute u e.val (fbDst m) 1) e.val m 0x0705) e.val)))
    ∧ (FabricHead s e 0x11 q → engId u ≠ 0x7FFF → fbSrc m ≠ engId u →
        (usable (fbSrc m) → 0 < fbHops m → fabFits u (out (fbSrc m)) less = true →
          exec (.wack e) s = .next (pfcCheck (fabOut u e.val (out (fbSrc m)) less) e.val))
        ∧ (usable (fbSrc m) → 0 < fbHops m → fabFits u (out (fbSrc m)) less = false →
          exec (.wack e) s = .next (pfcCheck (countNoroute u) e.val))
        ∧ (usable (fbSrc m) → fbHops m = 0 → exec (.wack e) s = .next (pfcCheck (noRoute u e.val (fbSrc m) 2) e.val))
        ∧ (¬ usable (fbSrc m) → exec (.wack e) s = .next (pfcCheck (noRoute u e.val (fbSrc m) 1) e.val)))
    ∧ (∀ r ∈ ([(.wwrite e, 0x10), (.wack e, 0x11)] : List (Instr × Nat)), FabricHead s e r.2 q → engId u = 0x7FFF →
        exec r.1 s = .next (pfcCheck { u with fabric := { u.fabric with malf := satAdd 0xFFFFFFFF u.fabric.malf 1 } } e.val))
    ∧ (∀ r ∈ ([(.wwrite e, 0x10), (.wack e, 0x11)] : List (Instr × Nat)), ∀ b h w, FabricHanded s e r.2 b h w →
        let v := portWriteReply w e.val ⟨h.1, h.2, 0, 0⟩ 0
        fbType b = r.2 → engId v ≠ 0x7FFF → retiredPkt v b = false → fbSrc b ≠ engId v ∨ r.2 = 0x10 → fabUp v e.val = true →
        fabFits v e.val b = true →
        exec r.1 s = .next (sendData v e.val (fbClass b) (putLe b 1 1 (fabVer (getPort v e.val)))))
    ∧ (FabricHead s e 0x11 q → engId u ≠ 0x7FFF → fbSrc m = engId u → fbGw m ≠ e.val →
        exec (.wack e) s = .next (pfcCheck (fabCross u e.val (fbGw m) m) e.val))
    ∧ (∀ o, FabricHead s e 0x11 q → engId u ≠ 0x7FFF → fbSrc m = engId u → fbGw m = e.val → mine = some o →
        exec (.wack e) s = .next (pfcCheck (portWriteReply
          (setPort u e.val { getPort u e.val with outWrites := (getPort u e.val).outWrites.erase o }) e.val
          ⟨o.pkt, o.plane, 0, 0⟩ (if fbStatus m = 0x0501 then 0 else fbStatus m)) e.val))
    ∧ (FabricHead s e 0x11 q → engId u ≠ 0x7FFF → fbSrc m = engId u → fbGw m = e.val → mine = none →
        let late := satAdd 0xFFFFFFFF u.fabric.late 1
        (retiredPkt u m = false → exec (.wack e) s = .next (pfcCheck { u with fabric := { u.fabric with late := late } } e.val))
        ∧ (retiredPkt u m = true → exec (.wack e) s = .next (pfcCheck (countRetired { u with fabric :=
          { u.fabric with late := late, stale := satAdd 0xFFFFFFFF u.fabric.stale 1 } } (fbSlate m)) e.val)))
    ∧ (PortTakes s e ori p pl → (portTag (getPort s e.val)).isSome = true →
        let k := pSrc p.hdr
        let dst := bits (p.payload.getD 0 0).toNat 0 15
        (engId t = 0x7FFF →
          exec (.originWrite e) s = .next (portWriteReply (noRoute t e.val dst 3) e.val ⟨p, pl, 0, 0⟩ 0x0705))
        ∧ (engId t ≠ 0x7FFF → sceneOf t (getCore t k) = none →
          exec (.originWrite e) s = .next (portWriteReply (countRetired t (pSlate p.hdr)) e.val ⟨p, pl, 0, 0⟩ 0x0402))
        ∧ (∀ x, engId t ≠ 0x7FFF → sceneOf t (getCore t k) = some x →
          let o := ((x.winCount.find? fun q => q.1 == k).map (·.2)).getD 0
          let seq := runOf x k * 2 ^ 20 + windowIndex t x k * 2 ^ 12 + o
          let v := setScene t { x with winCount := (k, o + 1) :: x.winCount.filter fun q => q.1 != k }
          let kept := setPort v e.val { getPort v e.val with
            outWrites := (getPort v e.val).outWrites ++ [⟨seq, dst, bits (p.payload.getD 0 0).toNat 16 14, p, pl⟩] }
          (o < 4096 → exec (.originWrite e) s =
            .next (routeWrite kept e.val (originHdr kept e.val p seq ++ wordsBytes (p.payload.drop 2))))
          ∧ (4096 ≤ o → exec (.originWrite e) s = .next (portWriteReply t e.val ⟨p, pl, 0, 0⟩ 0x0301))))
    ∧ (∀ (seq : Word) o v say, (getPort s e.val).outWrites.find? (fun o => o.seq == seq.toNat) = some o →
        oncePerSec s 0x44 o.dst = (v, say) →
        let late := if say then raiseEv v 0x5044 1 noFrame [(28, 1, e.val), (30, 2, o.dst), (32, 2, o.win),
          (34, 2, ((getPort s e.val).outWrites.filter fun x => x.dst == o.dst).length)] else v
        exec (.fabricTimeout e seq) s = .next (portWriteReply
          (setPort late e.val { getPort late e.val with outWrites := (getPort late e.val).outWrites.erase o }) e.val
          ⟨o.pkt, o.plane, 0, 0⟩ 0x0601))

/-- R393 to R397, R451: a write into a window is refused for a frozen flow, for a window that is not OPEN, for a source
the window does not list and for words beyond its length; a write new to its flow is applied once and recorded, a
repeated one only answered, one of an older incarnation discarded; a CLOSING window whose accepted writes are all
applied becomes FREE and its command completes. -/
def Obligations.FabricWindows : Prop :=
  ∀ (s : State) (e : EdgePort) (q : Nat × List Byte),
    let u := msgsLeft s e ((getPort s e.val).msgs.erase q)
    let m := q.2
    let w := winOf u (fbWin m)
    let f := flowOf m w.slate
    let thawed := u.fabric.frozen.contains f = false
    let admitted := w.state = .opened ∧ thawed ∧ w.peers.any (peerFits m) = true
    (FabricHead s e 0x10 q → engId u ≠ 0x7FFF → fbDst m = engId u →
        (w.state ≠ .free → u.fabric.frozen.contains f = true →
          exec (.wwrite e) s = .next (pfcCheck (sendWack u e.val m 0x0703) e.val))
        ∧ (w.state = .free ∨ w.state = .closing ∧ thawed →
          exec (.wwrite e) s = .next (pfcCheck (sendWack u e.val m 0x0701) e.val))
        ∧ (w.state = .opened → thawed → w.peers.any (peerFits m) = false →
          exec (.wwrite e) s = .next (pfcCheck (denyWrite u e.val m w.slate 1) e.val))
        ∧ (admitted → w.len < fbOff m + fbLen m / 4 →
          exec (.wwrite e) s = .next (pfcCheck (denyWrite u e.val m w.slate 2) e.val))
        ∧ (admitted → fbOff m + fbLen m / 4 ≤ w.len →
          exec (.wwrite e) s = .next (pfcCheck (match judge u f (fbInc m) (fbSeq m) with
            | .full => sendWack u e.val m 0x0301
            | .stale r => staleWrite u r m
            | .older r => sendWack (countDup (setFlow u r)) e.val m 0x0501
            | .dup r => duplicateWrite (setFlow u r) e.val m w.slate
            | .fresh r => applyWrite (setFlow u r) e.val m w) e.val)))
    ∧ (∀ r inc seq, s.fabric.flows.find? (fun r => r.flow == f) = some r →
        (2 ^ 15 ≤ (inc + 65536 - r.inc) % 65536 → judge s f inc seq = .stale r)
        ∧ (inc = r.inc → inc < 65536 → seq / 2 ^ 20 = r.run → r.run < 4096 →
            judge s f inc seq =
              if r.map.contains (seq % 2 ^ 20) then .dup r else .fresh { r with map := (seq % 2 ^ 20) :: r.map }))
    ∧ (∀ (win : Fin 16384), (winOf s win.val).state = .closing → windowQuiet s win.val = true →
        let v := windowFree s win.val
        exec (.windowCloseDone win) s =
          .next ((v.works.windowClose.filter fun w => w.2 == win.val).foldl (fun t w => finish t w.1 0 [])
            { v with works := { v.works with windowClose := v.works.windowClose.filter fun w => !(w.2 == win.val) } }))

/-- R379 to R381: FHELLO tells the peer's identity and raises an event at a change; a discovery packet records the port it
came by and goes on, or is answered where its route ends; an unassigned module takes the engine ID of an ID_ASSIGN; an
answer ends the command at its origin and goes back elsewhere; 100 ms without one end it with TIMEOUT. -/
def Obligations.FabricDiscovery : Prop :=
  ∀ (s : State) (e : EdgePort) (q : Nat × List Byte),
    let u := msgsLeft s e ((getPort s e.val).msgs.erase q)
    let m := q.2
    let b := fbPay m
    let i := getLe m 33 1
    let walked := if i < 8 then putLe m (42 + i) 1 e.val else m
    let next := getLe walked (34 + i) 1
    let goes := i < getLe walked 32 1 ∧ i < 8 ∧ next < 120 ∧ fabUp u next = true
    let passed := fabOut u e.val next (putLe (putLe walked 33 1 (i + 1)) 8 1 (fbHops walked - 1))
    (∀ w0, FabricHead s e 1 q →
        w0 = BitVec.ofNat 32 (getLe b 2 2 % 2 ^ 15 + 2 ^ 15 + getLe b 4 1 % 2 ^ 7 * 2 ^ 16
          + initVersion (getLe b 0 1) (getLe b 1 1) * 2 ^ 24) →
        let new : Port := { getPort u e.val with
          peer0 := w0, peerSerial := BitVec.ofNat 64 (getLe b 8 8), peerGen := BitVec.ofNat 8 (getLe b 5 1) }
        exec (.fhello e) s = .next (pfcCheck
          (if w0 = (getPort u e.val).peer0 ∧ new.peerSerial = (getPort u e.val).peerSerial ∧ new.peerGen = (getPort u e.val).peerGen
            then setPort u e.val new
            else raiseEv (setPort u e.val new) 0x5040 0 noFrame [(28, 1, e.val),
              (29, 1, initVersion (getLe b 0 1) (getLe b 1 1)), (30, 2, getLe b 2 2), (32, 8, getLe b 8 8),
              (40, 1, getLe b 4 1), (41, 1, getLe b 5 1)]) e.val))
    ∧ (fabUp s e.val = true →
        exec (.fhelloRepeat e) s = .next (fabSend s e.val (fbHdr 1 24 0 0 0 0 ++ record 24
          [(0, 1, 1), (1, 1, 2), (2, 2, engId s), (4, 1, e.val), (5, 1, 1), (6, 2, 3), (8, 8, s.otp.serial.toNat)])))
    ∧ (FabricHead s e 2 q →
        (fbHops walked = 0 → exec (.discReq e) s = .next (pfcCheck (if fbType walked = 2
          then discBack u e.val 3 walked (discInfo u) 0 else idAssignHere u e.val walked) e.val))
        ∧ (fbHops walked ≠ 0 → goes → exec (.discReq e) s = .next (pfcCheck passed e.val))
        ∧ (fbHops walked ≠ 0 → ¬ goes →
          exec (.discReq e) s = .next (pfcCheck (discBack u e.val 3 walked (discInfo u) 0x0705) e.val)))
    ∧ (FabricHead s e 4 q →
        (fbHops walked = 0 → fbType walked = 4 → engId u = 0x7FFF →
          let v := setEngId u (getLe (fbPay walked) 18 2) e.val
          exec (.idAssign e) s = .next (pfcCheck (discBack v e.val 5 walked (leBytes 2 (engId v)) 0) e.val))
        ∧ (fbHops walked = 0 → fbType walked = 4 → engId u ≠ 0x7FFF →
          exec (.idAssign e) s = .next (pfcCheck (discBack u e.val 5 walked (leBytes 2 (engId u)) 0x0202) e.val))
        ∧ (fbHops walked ≠ 0 → goes → exec (.idAssign e) s = .next (pfcCheck passed e.val)))
    ∧ (∀ r ∈ ([(.discRsp e, 3), (.idAssignAck e, 5)] : List (Instr × Nat)), FabricHead s e r.2 q →
        (∀ cmd addr since, i = 0 → u.works.discovery = some (cmd, addr, since) →
          exec r.1 s = .next (pfcCheck (finish (hostWrite { u with works := { u.works with discovery := none } }
            cmd.port addr.toNat b) cmd (fbStatus m) []) e.val))
        ∧ (i ≠ 0 → i < 8 → getLe m (42 + i) 1 < 120 → fabUp u (getLe m (42 + i) 1) = true →
          exec r.1 s = .next (pfcCheck (fabOut u e.val (getLe m (42 + i) 1)
            (putLe (putLe m 33 1 (i - 1)) 8 1 (fbHops m - 1))) e.val)))
    ∧ (∀ p cmd addr since, s.works.discovery = some (cmd, addr, since) → cmd.port = p →
        exec (.discoveryTimeout p) s = .next (finish { s with works := { s.works with discovery := none } } cmd 0x0601 []))

/-! ### Stored bytes and host rings -/

/-- R8, R9, R205: bytes and words written are read back little-endian, every other byte stays, the write regenerates
parity, and the memory keeps its canonical form. -/
def Obligations.StoredBytesReadBack : Prop :=
  (∀ (m : Ram) (a : Nat) (bs : List Byte), m.wf = true →
    ramBytes (ramPutBytes m a bs) a bs.length = bs ∧ (ramPutBytes m a bs).wf = true
    ∧ (ramPutBytes m a bs).bad = m.bad.filter (fun b => decide (b < a ∨ a + bs.length ≤ b))
    ∧ ∀ x, x < a ∨ a + bs.length ≤ x → ramByte (ramPutBytes m a bs) x = ramByte m x)
  ∧ ∀ (m : Ram) (w : Nat) (v : Word), m.wf = true →
    ramWord (ramPutWord m w v) w = v ∧ ramLanes (ramPutWord m w v) w = 0
    ∧ ∀ i, i < 4 → ramByte (ramPutWord m w v) (4 * w + i) = BitVec.ofNat 8 (v.toNat / 2 ^ (8 * i))

/-- R411, R415, R417, R419: while a ring takes records, one stands in host memory at BASE + HEAD mod SIZE with the ring's
sequence number and no other byte changes but a shadow's; HEAD moves 64 bytes on; a record that finds no room is held, and an
event past 256 of them is dropped and counted. -/
def Obligations.RingRecords : Prop :=
  ∀ (s : State) (p : HostPort) (rcd : List Byte), rcd.length = 64 → (getHost s p).mem.wf = true →
    let h := getHost s p
    let at_ (r : Ring) : Nat := r.base.toNat / 64 * 64 + r.head.toNat % 2 ^ r.log2
    (heldCpl s p = [] → ringOpen h h.cpl = true → h.cpl.shadow = 0 →
      let g := getHost (postCpl s p rcd) p
      g.cpl.head = h.cpl.head + 64 ∧ g.cpl.tail = h.cpl.tail ∧ g.cpl.seq = h.cpl.seq + 1
      ∧ ramBytes g.mem (at_ h.cpl) 64 = putLe rcd 4 4 h.cpl.seq.toNat
      ∧ ∀ x, x < at_ h.cpl ∨ at_ h.cpl + 64 ≤ x → ramByte g.mem x = ramByte h.mem x)
    ∧ (heldCpl s p ≠ [] ∨ ringOpen h h.cpl = false → postCpl s p rcd = setHeldCpl s p (heldCpl s p ++ [rcd]))
    ∧ (h.holding = [] → h.dropped = 0 → ringOpen h h.evt = true → h.evt.shadow = 0 →
      let g := getHost (postEvent s p rcd) p
      g.evt.head = h.evt.head + 64 ∧ g.evt.tail = h.evt.tail ∧ g.evt.seq = h.evt.seq + 1
      ∧ ramBytes g.mem (at_ h.evt) 64 = putLe rcd 24 4 h.evt.seq.toNat
      ∧ ∀ x, x < at_ h.evt ∨ at_ h.evt + 64 ≤ x → ramByte g.mem x = ramByte h.mem x)
    ∧ (ringOpen h h.evt = false → getLe rcd 0 2 ≠ 0xB000 → h.holding.length < 256 →
      postEvent s p rcd = setHost s p { h with holding := h.holding ++ [rcd] })
    ∧ (ringOpen h h.evt = false → getLe rcd 0 2 ≠ 0xB000 → 256 ≤ h.holding.length →
      postEvent s p rcd = setHost s p { h with evtLost := satAdd 0xFFFFFFFF h.evtLost 1, dropped := h.dropped + 1 })

/-- R411, R412, R415, R428, R430, R431, R434: the host's HEAD and TAIL writes take effect, and one out of range stops its
ring; RING_CTRL starts a ring at zero and ends it; a moderated vector fires once its time has passed; held records follow
when there is room; the loss of a link ends the session, and its return flushes completions. -/
def Obligations.HostRings : Prop :=
  ∀ (s : State) (p : HostPort) (v : Word),
    let h := getHost s p
    let d := (v - h.cmd.tail).toNat
    let headed := setHost s p { h with cmd := { h.cmd with head := v } }
    let cplTailed := setHost s p { h with cpl := { h.cpl with tail := v } }
    let evtTailed := setHost s p { h with evt := { h.evt with tail := v } }
    (d ≤ 2 ^ h.cmd.log2 → d % 64 = 0 → exec (.cmdDoorbell p v) s = .next headed)
    ∧ (h.cmd.en = true → h.cmd.stop = false → 2 ^ h.cmd.log2 < d ∨ d % 64 ≠ 0 →
        exec (.cmdDoorbell p v) s = .next (ringViolation headed p 2 0 v.toNat))
    ∧ ((h.cpl.head - v).toNat < 2 ^ 31 → exec (.cplTail p v) s = .next (flushCpl cplTailed p))
    ∧ (h.cpl.en = true → h.cpl.stop = false → 2 ^ 31 ≤ (h.cpl.head - v).toNat →
        exec (.cplTail p v) s = .next (ringViolation cplTailed p 3 1 v.toNat))
    ∧ ((h.evt.head - v).toNat < 2 ^ 31 → exec (.evtTail p v) s = .next evtTailed)
    ∧ (h.evt.en = true → h.evt.stop = false → 2 ^ 31 ≤ (h.evt.head - v).toNat →
        exec (.evtTail p v) s = .next (ringViolation evtTailed p 3 2 v.toNat))
    ∧ (h.cmd.en = false → v.getLsbD 0 = true → v.getLsbD 1 = h.cpl.en → v.getLsbD 2 = h.evt.en →
        7 ≤ bits v.toNat 8 5 → bits v.toNat 8 5 ≤ 18 → h.cpl.en = true → h.evt.en = true →
        exec (.ringEnable p v) s = .next (flushCpl (setHost s p { h with
          cmd := { h.cmd with log2 := bits v.toNat 8 5, en := true, head := 0, tail := 0, seq := 0, unsignalled := 0 } }) p))
    ∧ (h.cmd.en = true → h.cpl.en = true → h.evt.en = true → v.getLsbD 0 = false → v.getLsbD 1 = true → v.getLsbD 2 = true →
        exec (.ringDisable p v) s = .next (flushCpl (setHost s p { h with cmd := { h.cmd with en := false, stop := false } }) p))
    ∧ (bits h.irqMod.toNat 16 16 ≠ 0 →
        (h.cpl.unsignalled ≠ 0 → exec (.irqModTimeout p .cpl) s =
          .next (fireVector (setHost s p { h with cpl := { h.cpl with unsignalled := 0 } }) p h.cplVec.toNat))
        ∧ (h.evt.unsignalled ≠ 0 → exec (.irqModTimeout p .evt) s =
          .next (fireVector (setHost s p { h with evt := { h.evt with unsignalled := 0 } }) p h.evtVec.toNat)))
    ∧ (∀ rcd, h.holding = [rcd] → h.dropped = 0 → ringOpen h h.evt = true →
        (getHost (writeEvt (setHost s p { h with holding := [] }) p rcd) p).dropped = 0 →
        exec (.holdingBufferFlush p) s = .next (writeEvt (setHost s p { h with holding := [] }) p rcd))
    ∧ (∀ c, h.width ≠ 0 → exec (.hostLinkLoss p c) s =
        .next (let conf : PciConf := if c = .busMaster then { h.pci with busMaster := false } else .reset
          let t := refetchHostDown (endSession (setHost s p { h with linkUp := false, rate := 0, width := 0, pci := conf }) p 3) p
          postEvent t (otherPort p) (evRecord t 0x6001 1 noFrame
            [(28, 1, portNo p), (29, 1, 1), (30, 1, h.rate), (31, 1, h.width)])))
    ∧ (∀ (rate : LinkRate) (width : Fin 5), s.powered = true → width.val = 1 ∨ width.val = 2 ∨ width.val = 4 →
        8 ≤ rateNo rate → exec (.hostLinkUp p rate width) s = .next (flushCpl
          (raiseEv (setHost s p
              { h with linkUp := true, rate := rateNo rate, width := width.val, pci := { h.pci with busMaster := true } }) 0x6001 1 noFrame
            [(28, 1, portNo p), (29, 1, 2), (30, 1, rateNo rate), (31, 1, width.val)]) p))
    ∧ (∀ t, endSession t p 3 =
        let u := setHost t p { getHost t p with session := none }
        if u.authority = some p then
          raiseEv { u with authority := none } 0x6030 0 noFrame [(28, 1, portNo p), (29, 1, 2), (30, 1, 3)] else u)

/-- R9, R11, R109, R201, R236, R320, R342, R371, R402, R435, R468, R517: a read answers a register's value and zeroes the
counter it clears; a write of a one to a status bit clears it, MX_CTRL takes a write only while debug-unlocked, ring bases
only while their ring is disabled, and a read-only register keeps its value. -/
def Obligations.RegisterAccesses : Prop :=
  ∀ (s : State) (c : CoreId) (k : ClusterId) (e : EdgePort) (p : HostPort) (v : DWord),
    let co := getCore s (coreKey c)
    let vt := (getCl s (clKey k)).vault
    let pt := getPort s e.val
    let h := getHost s p
    let f := s.fabric
    let answers (t : State) (x : Nat) : Host.Outcome State Fault Refusal := .next (emit t (.regData (BitVec.ofNat 64 x)))
    let set (co : Core) : State := setCore s (coreKey c) co
    (exec (.rcRegisterRead (.core c 0x0C)) s = answers (set { co with mxRetakes := 0 }) (BitVec.ofNat 32 co.mxRetakes).toNat
      ∧ exec (.rcRegisterRead (.core c 0x2C)) s = answers (set { co with vxOvf := 0 }) (BitVec.ofNat 32 co.vxOvf).toNat
      ∧ exec (.rcRegisterRead (.core c 0xC8)) s = answers (set { co with cacheMisses := 0 }) (BitVec.ofNat 32 co.cacheMisses).toNat
      ∧ exec (.rcRegisterRead (.core c 0x180)) s = answers (set { co with qStale := 0 }) (BitVec.ofNat 32 co.qStale).toNat
      ∧ exec (.rcRegisterRead (.core c 0xA4)) s = answers (set co) (BitVec.ofNat 32 co.pc.toNat).toNat
      ∧ (noVaults s = false → exec (.rcRegisterRead (.cluster k 0x108)) s = answers (setVault s (clKey k) { vt with crcErr := 0 }) vt.crcErr)
      ∧ exec (.rcRegisterRead (.port e 0x08)) s =
          answers (setPort s e.val { pt with discard := 0, resent := 0 }) (pt.discard + pt.resent * 2 ^ 16)
      ∧ exec (.rcRegisterRead (.fabric 0x08)) s = answers { s with fabric := { f with noroute := 0 } } f.noroute
      ∧ exec (.rcRegisterRead (.clock 0x04)) s = answers { s with clock := { s.clock with holds := 0 } } s.clock.holds
      ∧ exec (.rcRegisterRead (.bar0 p 0x148)) s = answers (setHost s p { h with evtLost := 0 }) h.evtLost
      ∧ exec (.rcRegisterRead (.bar0 p 0x110)) s = answers s h.cmd.head.toNat
      ∧ exec (.rcRegisterRead (.bar0 p 0x28)) s =
          answers (setHost s p { h with tcapHi := BitVec.ofNat 32 (s.tcap.toNat / 2 ^ 32) }) (bits s.tcap.toNat 0 32)
      ∧ exec (.rcRegisterRead (.bar0 p 0x2C)) s = answers s h.tcapHi.toNat
      ∧ exec (.rcRegisterRead (.port e 0x1C)) s = answers s (bits pt.peerSerial.toNat 0 32)
      ∧ exec (.rcRegisterRead (.core c 0xC0)) s =
          answers (set co) (BitVec.ofNat 32 (co.split.toNat + bitAt (splitClaimed co) 2 + bitAt (co.cache.any fun l => l.dirty != 0) 3)).toNat)
    ∧ exec (.registerWrite (.core c 0xA0) v) s =
        .next (set { co with csat := co.csat && !v.getLsbD 5, wdog := co.wdog && !v.getLsbD 6 })
    ∧ exec (.registerWrite (.core c 0x10) v) s =
        .next (set (if s.boot.scopes.getLsbD 1 then { co with rchkAllow := v.getLsbD 0 } else co))
    ∧ exec (.registerWrite (.core c 0xA4) v) s = .next (set co)
    ∧ (noVaults s = false → v.getLsbD 31 = true →
        exec (.registerWrite (.cluster k 0x110) v) s = .next (setVault s (clKey k) { vt with errlog := vt.errlog &&& 0x7FFFFFFF }))
    ∧ exec (.registerWrite (.bar0 p 0x108) v) s = .next (setHost s p (if h.cmd.en then h else { h with cmd := { h.cmd with
        base := BitVec.ofNat 64 (h.cmd.base.toNat / 2 ^ 32 * 2 ^ 32 + v.toNat % 2 ^ 32) } }))
    ∧ exec (.registerWrite (.bar0 p 0x184) v) s = .next (setHost s p { h with irqMod := v.setWidth 32 })
    ∧ (∀ off, exec (.registerWrite (.port e off) v) s = .next s ∧ exec (.registerWrite (.fabric off) v) s = .next s)

/-- R407 to R410: a mapped word is read and its enabled bytes are written in place; an access to nothing reads all ones or
writes nothing, and is counted; a word whose parity does not match answers a poisoned completion. -/
def Obligations.ApertureAccesses : Prop :=
  ∀ (s : State) (p : HostPort) (off t w : Nat) (be : BitVec 4) (v : Word), aperServed s p off = true →
    (aperWord s p off = none →
      exec (.apertureRead p off) s = .next (emit (aperMiss s p off false) (.readData p 0xFFFFFFFF false))
      ∧ exec (.apertureWrite p off be v) s = .next (aperMiss s p off true))
    ∧ (aperWord s p off = some (1, t, w) →
      (ramLanes (getCore s t).sp w = 0 →
        exec (.apertureRead p off) s = .next (emit s (.readData p (ramWord (getCore s t).sp w) false)))
      ∧ (ramLanes (getCore s t).sp w ≠ 0 →
        exec (.apertureRead p off) s = .next (poisoned (spError s t 0 w (ramLanes (getCore s t).sp w) id) p))
      ∧ exec (.apertureWrite p off be v) s = .next (setCore s t { getCore s t with sp := ramPutLanes (getCore s t).sp w be v }))
    ∧ (aperWord s p off = some (2, t, w) →
      (ramLanes (getCl s t).mem w = 0 →
        exec (.apertureRead p off) s = .next (emit s (.readData p (ramWord (getCl s t).mem w) false)))
      ∧ exec (.apertureWrite p off be v) s = .next (setCl s t { getCl s t with mem := ramPutLanes (getCl s t).mem w be v }))
    ∧ (aperWord s p off = some (3, t, w) →
      exec (.apertureRead p off) s = .next (vaultEnqueue s t { user := .mgmt p 0xF, w := w, len := 1, data := none })
      ∧ exec (.apertureWrite p off be v) s = .next (vaultEnqueue s t { user := .mgmt p be, w := w, len := 1, data := some [v] }))
    ∧ ∀ m : Ram, m.wf = true →
      (∀ i, i < 4 → ramByte (ramPutLanes m w be v) (4 * w + i) =
        if be.getLsbD i then BitVec.ofNat 8 (v.toNat / 2 ^ (8 * i)) else ramByte m (4 * w + i))
      ∧ ∀ x, x < 4 * w ∨ 4 * w + 4 ≤ x → ramByte (ramPutLanes m w be v) x = ramByte m x

/-! ### The mailbox -/

/-- R411, R414, R416, R420 to R425, R428: a record is judged in the orders of R423. A bad header stops the ring; a record
without a session, of another version, opcode or buffer, is turned away and consumes no CSEQ; a CSEQ in sequence is
consumed; a record whose opcode no row lists is turned away too, and one of another row is left to it; a repeated one completes with SEQ_DUPLICATE, one beyond with SEQ_GAP, and a stale one of a slate freezes the
port for it; a frozen port, missing authority and a foreign slate refuse the command. -/
def Obligations.MailboxOrders : Prop :=
  ∀ (s : State) (i : Instr) (p : HostPort) (r : CmdRec) (m : CmdSpec), mailRow s i = some (p, r, m) →
    let u := consumeCmd s p
    let ref := refOf m.opcode p r
    let h := getHost s p
    let headerOk := r.hdrType = 1 ∧ r.len = 56 ∧ r.seq = h.cmd.seq ∧ r.scopeRsv = 0 ∧ r.rsv = 0
    let sp := seqSpace u p m r
    let sequenced := CmdConsumed s m p r ∧ ¬ Unsequenced u m p r ∧ slateFree u m r = false
    let mine := r.opcode.toNat = m.opcode
    (mine → cmdReady s p m.opcode r = false → exec i s = .next s)
    ∧ (¬ mine → opcodes.contains r.opcode.toNat = true → exec i s = .next s)
    ∧ (¬ mine → opcodes.contains r.opcode.toNat = false → cmdReady s p r.opcode.toNat r = true → headerOk →
        (getHost u p).session = some (r.ifMajor.toNat, r.ifMinor.toNat) →
        exec i s = .next (turnAway u (refOf r.opcode.toNat p r) 0x0101 []))
    ∧ (mine → cmdReady s p m.opcode r = true → ¬ headerOk →
        exec i s = .next (ringViolation u p 1 0 h.cmd.tail.toNat))
    ∧ (mine → cmdReady s p m.opcode r = true → headerOk → m.opcode ≠ 1 →
        (getHost u p).session ≠ some (r.ifMajor.toNat, r.ifMinor.toNat) → exec i s = .next (turnAway u ref 0x0102 []))
    ∧ (mine → cmdReady s p m.opcode r = true → headerOk → versionBad u p m r = false → opcodeBad u p m = true →
        exec i s = .next (turnAway u ref 0x0101 []))
    ∧ (mine → cmdReady s p m.opcode r = true → headerOk → versionBad u p m r = false → opcodeBad u p m = false →
        bufferBad m r = true → exec i s = .next (turnAway u ref 0x0103 []))
    ∧ (CmdConsumed s m p r → ¬ Unsequenced u m p r → slateFree u m r = true →
        exec i s = .next (turnAway u ref 0x0402 []))
    ∧ (sequenced → 2 ^ 32 - 256 ≤ (r.cseq - sp.1).toNat → exec i s = .next (duplicate u ref sp.2))
    ∧ (sequenced → r.cseq ≠ sp.1 → (r.cseq - sp.1).toNat ≤ 2 ^ 31 → exec i s = .next (turnAway u ref 0x0502 []))
    ∧ (sequenced → 2 ^ 31 < (r.cseq - sp.1).toNat → (r.cseq - sp.1).toNat < 2 ^ 32 - 256 →
        exec i s = .next (if m.perSlate then hostFreeze u p ref r.slate.toNat sp.1 else duplicate u ref []))
    ∧ (sequenced → r.cseq = sp.1 →
        let t := seqAdvance u p m r
        laterStatus t p m r ≠ 0 → exec i s = .next (finish t ref (laterStatus t p m r) []))

/-- R420, R421, R426: HELLO ends the port's session, answers the highest version within both ranges and starts its CSEQ
space; authority goes to the first port that claims it, is refused to the other and returns by its holder's release. -/
def Obligations.SessionCommands : Prop :=
  ∀ (s t : State) (p : HostPort) (r : CmdRec) (ref : CmdRef),
    let u := endSession t p 4
    let range := [(26, 1, u.boot.ifLo.2), (27, 1, u.boot.ifLo.1), (28, 1, u.boot.ifHi.2), (29, 1, u.boot.ifHi.1)]
    (RowTaken s (.hello p r) t ref →
      (∀ v, rsvOk r [(36, 0, 32)] = true → chooseVersion u (pb r 37 1, pb r 36 1) (pb r 39 1, pb r 38 1) = some v →
        exec (.hello p r) s = .next (finish (setHost u p { getHost u p with session := some v, nextCseq := ref.cseq + 1 }) ref 0
          ([(24, 1, v.2), (25, 1, v.1)] ++ range)))
      ∧ (rsvOk r [(36, 0, 32)] = true → chooseVersion u (pb r 37 1, pb r 36 1) (pb r 39 1, pb r 38 1) = none →
        exec (.hello p r) s = .next (finish u ref 0x0102 range)))
    ∧ (∀ lo hi v, chooseVersion t lo hi = some v → verNo lo ≤ verNo v ∧ verNo v ≤ verNo hi ∧ verNo t.boot.ifLo ≤ verNo v
        ∧ verNo v ≤ verNo t.boot.ifHi ∧ ∀ w, verNo w ≤ verNo hi → verNo w ≤ verNo t.boot.ifHi → verNo w ≤ verNo v)
    ∧ (RowTaken s (.claimAuthority p r) t ref → rsvOk r [] = true →
      (t.authority = none → exec (.claimAuthority p r) s = .next (finish
        (raiseEv { t with authority := some p } 0x6030 0 noFrame [(28, 1, portNo p), (29, 1, portNo p), (30, 1, 1)]) ref 0 []))
      ∧ (t.authority = some p → exec (.claimAuthority p r) s = .next (finish t ref 0 []))
      ∧ (t.authority = some (otherPort p) →
        exec (.claimAuthority p r) s = .next (finish t ref 0x0202 [(24, 1, portNo (otherPort p))])))
    ∧ (RowTaken s (.releaseAuthority p r) t ref → rsvOk r [] = true →
      (t.authority = some p → exec (.releaseAuthority p r) s = .next (finish
        (raiseEv { t with authority := none } 0x6030 0 noFrame [(28, 1, portNo p), (29, 1, 2), (30, 1, 2)]) ref 0 []))
      ∧ (t.authority ≠ some p → exec (.releaseAuthority p r) s = .next (finish t ref 0x0201 [])))

/-! ### Slates -/

/-- R439, R440, R448, R458, R465, R466: SLATE_OPEN gives a FREE slate its owner, ranges, incarnation and generation, and
is refused where they meet another's; SLATE_STATUS reports a slate; SLATE_RELEASE lets its frozen cores and masters go;
SLATE_CUT begins the cut, and a second waits for the first. -/
def Obligations.SlateCommands : Prop :=
  ∀ (s t : State) (p : HostPort) (r : CmdRec) (ref : CmdRef),
    let n := r.slate.toNat
    let v := getSlate t n
    let inc := nextInc v (BitVec.ofNat 16 (pb r 38 2))
    let runs := if pbit r 36 0 then BitVec.ofNat 12 (pb r 40 2) else v.runNext
    (RowTaken s (.slateOpen p r) t ref → openBad t r = false → v.mode = .free → openBusy t (openRanges r) = false →
      exec (.slateOpen p r) s = .next (finish (setSlate t n { Slate.reset with
          mode := .opened, owner := p, ranges := openRanges r, inc := inc, incKnown := true, hgen := v.hgen + 1
          runNext := runs, nextCseq := ref.cseq + 1 }) ref 0
        [(24, 2, inc.toNat), (26, 2, (v.hgen + 1).toNat), (28, 2, runs.toNat)]))
    ∧ (RowTaken s (.slateOpen p r) t ref → v.mode = .free → openBad t r = false → openBusy t (openRanges r) = true →
      exec (.slateOpen p r) s = .next (turnAway t ref 0x0301 []))
    ∧ (v.incKnown = true → inc = if (BitVec.ofNat 16 (pb r 38 2) - (v.inc + 1)).toNat ≤ 32767
        then BitVec.ofNat 16 (pb r 38 2) else v.inc + 1)
    ∧ (RowTaken s (.slateStatus p r) t ref → rsvOk r [] = true → smapGet (0, 0) t.recordBad n = (0, 0) →
      exec (.slateStatus p r) s =
        .next (if v.mode = .free then turnAway t ref 0 (statusResult t n) else finish t ref 0 (statusResult t n)))
    ∧ (RowTaken s (.slateRelease p r) t ref → rsvOk r [] = true →
      let u := thawMasters (thawCores t n) n
      ((getSlate u n).mode = .frozen → exec (.slateRelease p r) s =
        .next (finish (setMode u n (if (scenesOf u n).isEmpty then .opened else .held)) ref 0 []))
      ∧ ((getSlate u n).mode ≠ .frozen → exec (.slateRelease p r) s = .next (finish u ref 0 [])))
    ∧ (RowTaken s (.slateCut p r) t ref → rsvOk r [(36, 0, 32), (40, 0, 1), (44, 0, 64)] = true → pb r 36 4 ≤ 1000000 →
      (pbit r 40 0 = true → pb r 44 8 ≠ 0) →
      (v.mode = .cutting →
        exec (.slateCut p r) s = .next (setCut (accept t ref []) n fun c => { c with also := c.also ++ [ref] }))
      ∧ (v.mode ≠ .cutting → exec (.slateCut p r) s = .next (cutBegin (accept t ref []) n
          { cmd := ref, also := [], dl := if pb r 36 4 = 0 then 1000 else pb r 36 4
            dailies := if pbit r 40 0 then some (pb r 44 8) else none, step := 2, owed := [], fenced := 0, discarded := 0 })))

/-- R458 to R463: the cut goes on once its transfers are settled, or at its deadline, which fences and counts what is
not; it retires the incarnation once the mesh holds none of its packets, writes dailies first where asked, scrubs, and
ends with every unfinished command at SLATE_GONE and the slate FREE, its incarnation, generation and run number kept. -/
def Obligations.CutSteps : Prop :=
  ∀ (s : State) (sl : SlateId) (us : Word) (c : Cut),
    let n := sl.val
    (cutAt s n 2 = some c → unsettled s n = 0 → incoming s n = false →
      exec (.cutDrainDone sl) s = .next (setCut s n fun c => { c with step := 3 }))
    ∧ (cutAt s n 2 = some c → unsettled s n ≠ 0 ∨ incoming s n = true → exec (.cutDrainDone sl) s = .next s)
    ∧ (cutAt s n 2 = some c →
      let ks := (slateCores s n).filter fun k => decide (coreTransfers (getCore s k) ≠ 0)
      let u := dropWorks (ks.foldl coreReset s) n
      exec (.cutDeadline sl) s = .next (setCut (u.ports.foldl (fun t q => fencePort t n q) u) n
        fun c => { c with step := 3, owed := c.owed ++ slateWorks s n, fenced := unsettled s n }))
    ∧ (cutAt s n 3 = some c → incoming s n = false → s.mesh.any (fun f => ownFlight n f && !frozenFlight s f) = false →
      let u := markFrozen s n
      (c.dailies = none → exec (.cutRetire sl) s = .next (scrubBegin u n))
      ∧ (∀ a, c.dailies = some a → exec (.cutRetire sl) s =
          .next (dailiesStart (setCut u n fun c => { c with step := 4 }) (slateAsk u (getSlate u n).owner 3 n 0) a none (some n) none)))
    ∧ (∀ (u : State) d, cutAt s n 5 = some c → (getSlate s n).ranges.any (vaultWaits s) = false →
      u = discardSlate ((getSlate s n).ranges.foldl scrubRange s) n → (getSlate u n).cut = some d →
      let gone := completeGone u n d.owed
      let told := raiseEv gone.1 0x7002 0 ⟨none, some n, none⟩
        [(28, 4, gone.2), (32, 4, d.fenced), (36, 4, d.discarded), (40, 4, us.toNat)]
      let v := getSlate s n
      exec (.scrubDone sl us) s = .next (setSlate ((d.cmd :: d.also).foldl (fun t q => finish t q 0
          [(24, 4, gone.2), (28, 4, d.fenced), (32, 4, d.discarded), (36, 4, us.toNat), (40, 8, v.energy.toNat)]) told) n
        { Slate.reset with inc := v.inc, incKnown := v.incKnown, hgen := v.hgen, runNext := v.runNext }))
    ∧ (∀ w rest, s.works.dailies = w :: rest → w.hang = none → ∀ m, w.cut = some m →
      (cutAt (dailiesEnd s w) m 4).isSome = true → exec .dailiesWritten s = .next (scrubBegin (dailiesEnd s w) m))

/-! ### Storyboards and scenes -/

/-- R231, R275 to R278, R281, R292, R293, R335, R603: a load that passes its checks stores the storyboard under its number, in a vault
once its port takes the write, a failing image is refused at its first wrong word; SCENE_RUN queues a scene that passes the orders of
R278, on a variant without vaults from the image as it is read again; SCENE_HALT halts and holds it, a resume returns it to RUNNING;
KEYFRAME_TAKE starts a copy and ends with it, once every byte has reached its completion point, or with the copy's failure;
KEYFRAME_RELEASE frees its ranges. -/
def Obligations.SceneCommands : Prop :=
  ∀ (s t : State) (p : HostPort) (r : CmdRec) (ref : CmdRef),
    let n := r.slate.toNat
    (RowTaken s (.storyboardLoad p r) t ref → loadStatus t n r = 0 →
      exec (.storyboardLoad p r) s = .next (accept { t with works := { t.works with load := t.works.load ++
        [{ cmd := ref, slate := n, vault := loadVault r, host := BitVec.ofNat 64 (pb r 48 8), sbn := loadReplaces r }] } } ref []))
    ∧ (∀ (sl : SlateId) words w, s.works.load.find? (fun w => w.slate == sl.val) = some w →
      let u := { s with works := { s.works with load := s.works.load.erase w } }
      (∀ o, loadBad u w words = some o →
        exec (.storyboardLoadDone sl words) s = .next (finish u w.cmd 0x0103 [(28, 4, o)]))
      ∧ (∀ ws, words = some ws → loadBad u w words = none → w.sbn = none →
        let img := ws.take (imLength ws)
        let n := freeBoard u
        let board : Storyboard := { slate := sl.val, words := img, vault := w.vault, host := w.host, substs := [] }
        (w.vault = none → exec (.storyboardLoadDone sl words) s = .next (finish (setBoard
          (hostWrite (boardForget u n) w.cmd.port w.host.toNat (wordsBytes img)) n (some board)) w.cmd 0 [(24, 1, n)]))
        ∧ (∀ v, w.vault.isSome = true →
          (∀ l, vaultImage u w img = (v, .ok l) → exec (.storyboardLoadDone sl words) s =
            .next (finish (setBoard (vaultRegister (boardForget v n) w img) n (some board)) w.cmd 0 [(24, 1, n)]))
          ∧ (vaultImage u w img = (v, .wait) → exec (.storyboardLoadDone sl words) s =
            .next { v with works := { v.works with load := s.works.load } })
          ∧ (vaultImage u w img = (v, .err) → exec (.storyboardLoadDone sl words) s = .next (finish v w.cmd 0x0901 [])))))
    ∧ (∀ v, RowTaken s (.sceneRun p r) t ref → t.clock.hold = false → imageAgain t p (pb r 36 1) = (v, false) →
      exec (.sceneRun p r) s = .next (finish v ref 0x0103 []))
    ∧ (∀ v b x, RowTaken s (.sceneRun p r) t ref → t.clock.hold = false → imageAgain t p (pb r 36 1) = (v, true) →
      runOrder1 v r = some (b, x) → slateStatus v p (boundSlates x) = 0 →
      let y := { x with cmd := ref }
      let cut := runCut b r x.idx
      let cand := candidate v b y
      (admitStatus v cand cut true = 0 →
        let u := if cut then (cutScenes v cand.scene.region).foldl cutClose v else v
        exec (.sceneRun p r) s = .next { u with queuedRuns := u.queuedRuns ++ [{ cand.scene with cut := cut }] })
      ∧ (admitStatus v cand cut true ≠ 0 →
        exec (.sceneRun p r) s = .next (finish v ref (admitStatus v cand cut true) [])))
    ∧ (noVaults t = false → imageAgain t p (pb r 36 1) = (t, true))
    ∧ (∀ b x y, RowTaken s (.sceneRunResume p r) t ref → t.clock.hold = false → runOrder1 t r = some (b, x) →
      slateStatus t p (boundSlates x) = 0 →
      t.scenes.find? (fun y => y.sbn == x.sbn && y.idx == x.idx && slotsMatch y x && y.phase == .halted) = some y →
      resumeStatus t x (some y) = 0 →
      let u := y.cores.foldl (fun t q => releaseCore t q.1) (accept t ref [])
      let z := { y with phase := .running, lastProgress := now u }
      exec (.sceneRunResume p r) s = .next (sceneCheck (finish
        ((boundSlates z).foldl (fun t n => slateRuns t z n) (setScene u z)) ref 0 []) z.sbn (scKey z)))
    ∧ (∀ x, RowTaken s (.sceneHalt p r) t ref → phaseScene t r [.running, .ended] = some x →
      rsvOk r [(36, 0, 8), (38, 0, 16)] = true →
      ((boundSlates x).any (fun n => (getSlate t n).owner != p) = false → exec (.sceneHalt p r) s =
        .next (finish ((boundSlates x).foldl (fun t n => holdSlate t n 5) (haltScene (accept t ref []) x)) ref 0 []))
      ∧ ((boundSlates x).any (fun n => (getSlate t n).owner != p) = true →
        exec (.sceneHalt p r) s = .next (finish t ref 0x0203 [])))
    ∧ (∀ x kf b, RowTaken s (.keyframeTake p r) t ref → phaseScene t r [.running, .halted, .ended] = some x →
      kfParam r (if pbit r 48 0 then 2 else 1) = some kf → rsvOk r [(36, 0, 8), (38, 0, 16), (40, 0, 64), (48, 0, 1)] = true →
      let u := accept { t with works := { t.works with takes := t.works.takes ++ [⟨ref, x.sbn, x.idx, kf⟩] } } ref []
      getBoard u x.sbn = some b → exec (.keyframeTake p r) s = .next (copyStart u .take b x.sbn x.idx x.idx ref.port kf none 0))
    ∧ (∀ (sc : SceneId) (st : Word16) k, s.works.takes.find? (fun k => k.sbn == sc.sbn.val && k.idx == sc.idx.val) = some k →
      let ended (v : State) (n : Nat) : State :=
        finish { v with works := { v.works with takes := v.works.takes.erase k } } k.cmd n []
      (copyJob s .take sc.sbn.val sc.idx.val = none → exec (.keyframeTakeDone sc st) s = .next (ended s st.toNat))
      ∧ (∀ j, copyJob s .take sc.sbn.val sc.idx.val = some j →
        (j.status ≠ 0 ∨ st.toNat ≠ 0 → exec (.keyframeTakeDone sc st) s =
          .next (ended (copyDrop s j) (if j.status = 0 then st.toNat else j.status)))
        ∧ (∀ v i, j.status = 0 → st.toNat = 0 → copyWork s j = (v, i) →
          (copyDone v i = true → exec (.keyframeTakeDone sc st) s = .next (ended (copyDrop v i) 0))
          ∧ (copyDone v i = false → i.status ≠ 0 → exec (.keyframeTakeDone sc st) s = .next (ended (copyDrop v i) i.status))
          ∧ (copyDone v i = false → i.status = 0 → exec (.keyframeTakeDone sc st) s = .next v))))
    ∧ (∀ (j : CopyJob) a off k w n, j.status = 0 → j.kf = .host a → (getHost s j.port).linkUp = true → j.left = [(off, 1, k, w, n)] →
      badWord (getCore s k).sp w n = none →
      let u := hostWrite s j.port (a.toNat + off) (wordsBytes (ramWords (getCore s k).sp w n))
      let i := { j with left := [] }
      copyWork s j = ({ u with works := { s.works with copies := s.works.copies.map fun q => if q = j then i else q } }, i)
        ∧ copyDone u i = true)
    ∧ (∀ b q, RowTaken s (.keyframeRelease p r) t ref →
      let sbn := pb r 36 1
      let idx := pb r 38 2
      getBoard t sbn = some b → rsvOk r [(36, 0, 8), (38, 0, 16)] = true → idx < imScenes b.words →
      t.scenes.any (fun x => x.sbn == sbn && x.idx == idx && x.slots.contains n) = false →
      unfinishedFor t sbn idx n = none →
      t.closedScenes.find? (fun q => q.sbn == sbn && q.idx == idx && q.slate == n) = some q →
      let pick := releasedEntries q (destBytes b idx)
      let u := immFreeWhere t fun _ e => pick e
      exec (.keyframeRelease p r) s = .next (finish
        { u with closedScenes := u.closedScenes.map fun k => if k = q then { q with kfs := [] } else k } ref 0
        [(24, 4, t.clusters.foldl (fun a c => a + (c.2.vault.imm.filter pick).length) 0)]))

/-- R279, R280, R441, R456, R477, R478: admission waits for its region and an epoch, installs the scene, copies its
keyframe and reaches ACCEPTED, or gives all of it back; the start order sets a core RUNNING and the scene with its first;
a REPLAY of recorded work queues it again, its restore done or failed; REMAP records a substitution. -/
def Obligations.AdmissionAndReplay : Prop :=
  ∀ (s t : State) (p : HostPort) (r : CmdRec) (ref : CmdRef) (sc : SceneId) (c : CoreId) (st : Word16),
    let n := r.slate.toNat
    let sbn := sc.sbn.val
    let idx := sc.idx.val
    (∀ x b e, s.queuedRuns.find? (fun y => y.sbn == sbn && y.idx == idx && !y.restoring) = some x →
      getBoard s sbn = some b →
      let q := candidate s b x
      let u := { s with queuedRuns := s.queuedRuns.erase x }
      (s.scenes.any (fun y => regionsMeet y.region q.scene.region || sameScene y x) = true →
        exec (.sceneAdmission sc) s = .next s)
      ∧ (s.scenes.any (fun y => regionsMeet y.region q.scene.region || sameScene y x) = false →
        nextEpoch s q.scene.region = some e →
        let v := (admitInstall u q e).1
        let y := (admitInstall u q e).2
        exec (.sceneAdmission sc) s = .next (if y.kf = .inPlace ∨ y.latest.isSome = true then admitAccept v y false
          else copyStart v .admission b sbn idx (scKey y) y.cmd.port y.kf none 0)))
    ∧ (∀ x b, copyingScene s sbn idx = some (x, b) →
      let own := match copyJob s .admission x.sbn (scKey x) with | some j => j.status | none => 0
      (∀ j v i, copyJob s .admission x.sbn (scKey x) = some j → copyWork s j = (v, i) →
        (copyDone v i = true → exec (.admissionCopyDone sc) s = .next (admitAccept (copyDrop v i) x true))
        ∧ (copyDone v i = false → exec (.admissionCopyDone sc) s = .next v))
      ∧ (x.replay = none → exec (.admissionCopyFailed sc st) s =
          .next (finish (admitUndo s b x) x.cmd (if own = 0 then st.toNat else own) [])))
    ∧ (∀ x, let co := getCore s (coreKey c)
      sceneOf s co = some x → co.mode = .idle → co.started = false → co.sheet.isSome = true →
      (x.stage = 3 → exec (.coreSceneStart c) s = .next (startCore s (coreKey c)))
      ∧ (x.stage = 2 → x.phase = .admitting → s.clock.hold = true → exec (.coreSceneStart c) s = .next s)
      ∧ (x.stage = 2 → x.phase = .admitting → s.clock.hold = false → exec (.coreSceneStart c) s =
          .next (startCore (sceneStrobe (setScene s { x with stage := 3, phase := .running })) (coreKey c))))
    ∧ (∀ b0 b q u, RowTaken s (.replay p r) t ref → t.clock.hold = false → getBoard t (pb r 36 1) = some b0 → pbit r 37 1 = false →
      runRecord t (pb r 36 1) (pb r 38 2) n = some q →
      rsvOk r [(36, 0, 8), (37, 0, 2), (38, 0, 16), (40, 0, 12), (48, 0, 64)] = true →
      imageAgain (setSlate t n { getSlate t n with faultHeld := false }) p (pb r 36 1) = (u, true) → getBoard u (pb r 36 1) = some b →
      let a : ReplayAsk := { port := p, slate := n, sbn := pb r 36 1, idx := pb r 38 2, boundary := pbit r 37 0, cause := 0, cmd := some ref }
      let v := replayClose u (pb r 36 1) (pb r 38 2) n
      let x := replayScene b a q
      let cut := scCut b.words (pb r 38 2)
      (slateStatus v p [n] = 0 → admitStatus v (candidate v b x) cut false = 0 →
        let w := accept (if cut then (cutScenes v (candidate v b x).scene.region).foldl cutClose v else v) ref []
        exec (.replay p r) s = .next (replayEvent { w with queuedRuns := w.queuedRuns ++ [(candidate v b x).scene] } a q))
      ∧ (slateStatus v p [n] = 0 → admitStatus v (candidate v b x) cut false ≠ 0 →
        exec (.replay p r) s = .next (finish v ref (admitStatus v (candidate v b x) cut false) [])))
    ∧ (∀ x, s.queuedRuns.find? (fun x => x.sbn == sbn && x.idx == idx && x.restoring) = some x →
      (∀ b v, st.toNat = 0 → getBoard s sbn = some b →
        (∀ l, replayRestore s b x = (v, .ok l) → exec (.keyframeRestoreDone sc st) s =
          .next { v with queuedRuns := v.queuedRuns.map fun y => if y = x then { y with restoring := false } else y })
        ∧ (replayRestore s b x = (v, .wait) → exec (.keyframeRestoreDone sc st) s = .next v)
        ∧ (∀ m k, replayRestore s b x = (v, .err) → x.replay = some (m, some k) → exec (.keyframeRestoreDone sc st) s =
          .next (finish { v with queuedRuns := v.queuedRuns.erase x } k 0x0901 [])))
      ∧ (∀ m k, st.toNat ≠ 0 → x.replay = some (m, some k) → exec (.keyframeRestoreDone sc st) s =
          .next (finish { s with queuedRuns := s.queuedRuns.erase x } k st.toNat [])))
    ∧ (∀ b q k, RowTaken s (.remap p r) t ref → rsvOk r [(36, 0, 8), (38, 0, 16), (40, 0, 18), (44, 0, 18)] = true →
      getBoard t (pb r 36 1) = some b → runRecord t (pb r 36 1) (pb r 38 2) n = some q →
      (remapCheck t b q (pb r 38 2) n (pb r 40 4) (pb r 44 4) = (0, k) →
        let u := setBoard t (pb r 36 1) (some { b with substs := b.substs ++ [(pb r 38 2, pb r 40 4, k)] })
        exec (.remap p r) s = .next (autoReplay (finish (raiseEv u 0xB032 1 ⟨none, some n, some (q.number, 0)⟩
          [(28, 4, pb r 40 4), (32, 4, k), (36, 2, pb r 36 1), (38, 2, pb r 38 2), (40, 1, 0)]) ref 0 [(24, 4, k)]) n))
      ∧ (∀ e, e ≠ 0 → remapCheck t b q (pb r 38 2) n (pb r 40 4) (pb r 44 4) = (e, k) →
        exec (.remap p r) s = .next (finish t ref e [])))

/-! ### Ports, routes and windows by command -/

/-- R354, R355, R380, R383 to R385, R393, R396, R402, R408: a port takes its new configuration unless its claims forbid the
change; FAB_TMO and the gateways of a rectangle are set; table entries are written; a walk leaves by its first port, or
fails with NO_ROUTE; a window opens at the next free number and closes; pages map a slate's memory. -/
def Obligations.FabricCommands : Prop :=
  ∀ (s t : State) (p : HostPort) (r : CmdRec) (ref : CmdRef),
    let e := pb r 36 1
    let q := configured (getPort t e) r
    let tmo (u : State) : State :=
      if 1 ≤ pb r 40 2 ∧ pb r 40 2 ≤ 1000 then { u with fabric := { u.fabric with tmo := BitVec.ofNat 16 (pb r 40 2) } } else u
    let n := r.slate.toNat
    (RowTaken s (.portConfig p r) t ref → portConfigBad t r = false →
      (portChanges (getPort t e) q = false ∨ portClaimed t e = false →
        exec (.portConfig p r) s = .next (finish (portApply t e q) ref 0 []))
      ∧ (portChanges (getPort t e) q = true → portClaimed t e = true →
        exec (.portConfig p r) s = .next (finish t ref 0x0302 [])))
    ∧ (RowTaken s (.portConfigFabricForm p r) t ref → fabricFormBad t r = false →
      (pbit r 43 0 = false → exec (.portConfigFabricForm p r) s = .next (finish (tmo t) ref 0 []))
      ∧ (pbit r 43 0 = true → exec (.portConfigFabricForm p r) s = .next (finish ((rectCls (pb r 44 4)).foldl
          (fun u cl => setCl u cl { getCl u cl with gwPort := BitVec.ofNat 7 (pb r 42 1) }) (tmo t)) ref 0 [])))
    ∧ (RowTaken s (.routeTableWrite p r) t ref → rsvOk r [(36, 0, 16), (38, 0, 16)] = true →
      let first := pb r 36 2
      let k := pb r 38 2
      (0 < k → k ≤ 1024 → first + k ≤ 20480 → (List.range k).all (fun i => routeOk t (routeWord r i)) = true →
        exec (.routeTableWrite p r) s = .next (finish { t with fabric := { t.fabric with
          dest := (List.range k).foldl (fun m i => smapSet 0x0FFFFFFF m (first + i) (routeWord r i)) t.fabric.dest } } ref 0 []))
      ∧ (k = 0 ∨ 1024 < k ∨ 20480 < first + k → exec (.routeTableWrite p r) s = .next (finish t ref 0x0103 [])))
    ∧ (∀ i ∈ [Instr.probe p r, .assign p r], RowTaken s i t ref → walkBad r = false →
      let u := accept t ref []
      (t.works.discovery.isSome = true → exec i s = .next (finish t ref 0x0301 []))
      ∧ (t.works.discovery = none → pb r 38 1 < 120 → fabUp u (pb r 38 1) = true →
        exec i s = .next (fabSend { u with works := { u.works with discovery := some (ref, BitVec.ofNat 64 (pb r 48 8), now u) } }
          (pb r 38 1) (walkPacket u r)))
      ∧ (t.works.discovery = none → ¬ (pb r 38 1 < 120 ∧ fabUp u (pb r 38 1) = true) →
        exec i s = .next (finish u ref 0x0705 [])))
    ∧ (∀ u id from0, setEngId u id from0 = fhelloAll (raiseEv { u with fabric := { u.fabric with engId := BitVec.ofNat 15 id } }
        0x5041 1 noFrame [(28, 1, from0), (30, 2, engId u), (32, 2, id)]))
    ∧ (∀ w, RowTaken s (.windowOpen p r) t ref → windowBad t r = false → engId t ≠ 0x7FFF → nextWindow t = some w →
      let v : FabWindow := { state := .opened, space := pb r 36 1, cl := clOfTarget (pb r 38 2), base := pb r 40 4, len := pb r 44 4, slate := n, peers := (List.range (pb r 48 1)).map (peerAt r) }
      exec (.windowOpen p r) s = .next (finish
        { t with fabric := { t.fabric with lastWin := w, windows := smapSet .free t.fabric.windows w v } } ref 0 [(24, 2, w)]))
    ∧ (RowTaken s (.windowClose p r) t ref → rsvOk r [(36, 0, 14)] = true →
      (winOf t (pb r 36 2)).state = .opened → (winOf t (pb r 36 2)).slate = n →
      let u := windowShut (accept t ref []) (pb r 36 2)
      exec (.windowClose p r) s = .next { u with works := { u.works with windowClose := u.works.windowClose ++ [(ref, pb r 36 2)] } })
    ∧ (RowTaken s (.mapAperture p r) t ref →
      (mapStatus t p r = 0 → exec (.mapAperture p r) s = .next (finish
        ((List.range (pb r 38 2)).foldl (fun u k => setPage u p (pb r 36 2 + k) (pageOf r k)) t) ref 0 []))
      ∧ (mapStatus t p r ≠ 0 → exec (.mapAperture p r) s = .next (finish t ref (mapStatus t p r) [])))

/-! ### Power -/

/-- R382: SET_LOCAL writes the module's own engine ID, from 0 to 20,479, and CLEAR_LOCAL sets it to 0x7FFF; both are refused
with BUSY while any window is OPEN or CLOSING or any window write of this module is outstanding. -/
def Obligations.EngineIdOrders : Prop :=
  ∀ (s t : State) (p : HostPort) (r : CmdRec) (ref : CmdRef),
    let busy : Prop := (∃ w ∈ t.fabric.windows, w.2.state = .opened ∨ w.2.state = .closing)
      ∨ ∃ q ∈ t.ports, q.2.outWrites ≠ []
    rsvOk r discFields = true →
    (RowTaken s (.setLocal p r) t ref → pb r 46 2 ≤ 20479 →
      (¬ busy → ∃ u, exec (.setLocal p r) s = .next u ∧ u = finish (setEngId (accept t ref []) (pb r 46 2) 0xFF) ref 0 []
        ∧ engId u = pb r 46 2)
      ∧ (busy → exec (.setLocal p r) s = .next (finish t ref 0x0301 [])))
    ∧ (RowTaken s (.clearLocal p r) t ref →
      (¬ busy → ∃ u, exec (.clearLocal p r) s = .next u ∧ u = finish (setEngId (accept t ref []) 0x7FFF 0xFF) ref 0 []
        ∧ engId u = 0x7FFF)
      ∧ (busy → exec (.clearLocal p r) s = .next (finish t ref 0x0301 [])))

/-- R306, R501, R523, R524, R535 to R539, R542: a budget and its lease replace the old; FADE and UNFADE begin where their checks pass
and end, once their route fence is over, with their clusters dark or lit, the frames fed from nodes that run and the event of each; stop limits are set; energy counters are written to host
memory. -/
def Obligations.PowerCommands : Prop :=
  ∀ (s t : State) (p : HostPort) (r : CmdRec) (ref : CmdRef) (w : FadeWork),
    let b := pb r 36 4
    let ms := pb r 40 4
    (RowTaken s (.powerBudgetSet p r) t ref → rsvOk r [(36, 0, 32), (40, 0, 32)] = true →
      (30000 ≤ b → b ≤ 84000 → ms = 0 ∨ 100 ≤ ms ∧ ms ≤ 600000 → exec (.powerBudgetSet p r) s = .next (finish { t with power :=
        { t.power with budget := b, lease := if ms = 0 then none else some (now t + ms * 1000000), fallback := false } } ref 0
          [(24, 4, t.power.budget)]))
      ∧ (b < 30000 ∨ 84000 < b → exec (.powerBudgetSet p r) s = .next (finish t ref 0x0103 [])))
    ∧ (RowTaken s (.fade p r) t ref → t.clock.hold = false → askBad r false = false →
      (fadeStatus t (askOf r) = 0 →
        exec (.fade p r) s = .next (fadeBegin (accept t ref []) (askOf r) (some ref) none 0))
      ∧ (fadeStatus t (askOf r) ≠ 0 → exec (.fade p r) s = .next (finish t ref (fadeStatus t (askOf r)) [])))
    ∧ (RowTaken s (.unfade p r) t ref → t.clock.hold = false → askBad r true = false →
      (unfadeStatus t (askOf r) = 0 →
        exec (.unfade p r) s = .next (unfadeBegin (accept t ref []) (askOf r) (some ref) none))
      ∧ (unfadeStatus t (askOf r) ≠ 0 → exec (.unfade p r) s = .next (finish t ref (unfadeStatus t (askOf r)) [])))
    ∧ (let u := fenceStep s
      (u.routeFence = none → u.works.fades.find? (·.off) = some w → fadeFlits u w = false →
        exec .fadeComplete s = .next (fadeReply (fadeEvent ((framesOf w.clusters).foldl settleSource
          (w.clusters.foldl (fadeCluster w.retain) (dropFade u w))) 0x9040 w w.clusters.length) w 0))
      ∧ (u.works.fades.find? (·.off) = some w → u.routeFence.isSome = true ∨ fadeFlits u w = true →
        exec .fadeComplete s = .next u)
      ∧ (s.routeFence = none → u = s))
    ∧ (s.works.fades.find? (fun w => !w.off) = some w →
      (∀ u, unfadeFailed s w = false → fenceTo (fenceStep s) (darkSet s [] w.clusters) = u →
        (u.routeFence = none → exec .unfadeComplete s = .next (fadeReply (fadeEvent ((framesOf w.clusters).foldl settleSource
          (w.clusters.foldl unfadeCluster (dropFade u w))) 0x9041 w w.clusters.length) w 0))
        ∧ (u.routeFence.isSome = true → exec .unfadeComplete s = .next u))
      ∧ (unfadeFailed s w = true → exec .unfadeComplete s = .next (fadeReply (dropFade s w) w 0x0601)))
    ∧ (RowTaken s (.stopLimitSet p r) t ref → rsvOk r [(36, 0, 8), (37, 0, 8)] = true → pb r 37 1 ≤ 15 →
      pb r 36 1 = 0xFF ∨ frameOk t (pb r 36 1) = true →
      exec (.stopLimitSet p r) s = .next (finish
        ((if pb r 36 1 = 0xFF then (List.range 56).filter (frameOk t) else [pb r 36 1]).foldl
          (fun u f => setFrame u f { getFrame u f with limit := BitVec.ofNat 4 (pb r 37 1) }) t) ref 0 []))
    ∧ (RowTaken s (.energyRead p r) t ref → energyBad t r = false →
      let u := growEnergy t (pb r 36 1) (pb r 40 4) (pb r 44 4)
      exec (.energyRead p r) s = .next (finish (hostWrite u p (pb r 48 8)
        ((List.range (pb r 44 4)).flatMap fun i => leBytes 8 (energyOf u (pb r 36 1) (pb r 40 4 + i)))) ref 0 [(24, 8, u.power.boundary)])
      ∧ (pb r 36 1 ≤ 3 ∨ pb r 36 1 = 4 ∧ usesUnits t (pb r 40 4) = false → u = t))

/-- R519, R523, R526, R529 to R534, R544: a frame's correction charges its energy and moves its stop; a lease that runs out
falls back where armed; an unmet budget, a droop, a bad inlet and bad coolant are reported; a rail under its stop
stretches until it ends; a sample makes a cluster SOFT at 95 °C and until below 93, and trips it at 110. -/
def Obligations.PowerEvents : Prop :=
  ∀ (s : State) (f : FrameId) (k : ClusterId) (mw : Word) (mv : Word16) (cs : CoolantSample) (raw : Word16),
    let fr := getFrame s (frKey f)
    let w := s.power
    (frameOk s (frKey f) = true →
      let u := chargeFrame (if frKey f = 0 then moduleInterval s else s) (frKey f) mw.toNat
      let g := getFrame u (frKey f)
      let v := setFrame u (frKey f)
        { g with stop := BitVec.ofNat 4 (if g.stretched then g.stop.toNat else nextStop u (frKey f) mw.toNat) }
      exec (.frameCorrection f mw) s =
        .next (setFrame v (frKey f) { getFrame v (frKey f) with reason := BitVec.ofNat 4 (chargeReason v (frKey f)) }))
    ∧ (∀ until_, w.lease = some until_ →
      let fb := (getPolicy s 4).armed
      let new := if fb then getLe (getPolicy s 4).args 0 4 else w.budget
      exec .leaseExpired s = .next (raiseEv { s with power := { w with budget := new, lease := none, fallback := w.fallback || fb } }
        0x9030 2 noFrame [(28, 4, w.budget), (32, 4, new), (36, 1, bitAt fb 0)]))
    ∧ (allSlowest s = true → (ceiling s).1 * 1000 < mw.toNat →
      exec (.budgetUnmet mw) s = .next (raiseEv { s with power := { w with pSt := mw.toNat / 1000 } } 0x9031 2 noFrame
        [(28, 4, (ceiling s).1), (32, 4, mw.toNat / 1000)]))
    ∧ (frameOk s (frKey f) = true → fr.stretched = false → (mv.toNat : Int) ≤ stopMilliVolts s (frKey f) fr.stop.toNat - 30 →
      (fr.droopEvent = none → exec (.droopDetect f mv) s = .next (raiseEv
        (setFrame s (frKey f) { fr with stretched := true, droops := satAdd 0xFFFFFFFF fr.droops 1, droopEvent := some (now s) })
        0x9020 1 noFrame [(28, 1, frKey f), (29, 1, fr.stop.toNat), (32, 4, 0)]))
      ∧ (∀ x, fr.droopEvent = some x → now s < x + 1000000000 → exec (.droopDetect f mv) s =
        .next (setFrame s (frKey f) { fr with stretched := true, droops := satAdd 0xFFFFFFFF fr.droops 1 })))
    ∧ (fr.stretched = true → exec (.droopEnd f) s = .next (setFrame s (frKey f) { fr with stretched := false }))
    ∧ (let t := sensorDegrees s (clKey k) raw
      let c := getCl s (clKey k)
      let soft := decide (95 ≤ t) || (c.therm.getLsbD 8 && decide (93 ≤ t))
      let u := setCl s (clKey k) { c with therm := BitVec.ofNat 32 (codeOf 8 t + bitAt soft 8 + c.therm.toNat / 2 ^ 9 * 2 ^ 9) }
      let detail := [(28, 2, targetOfCl (clKey k)), (30, 1, codeOf 8 t)]
      let v := if soft = true ∧ c.therm.getLsbD 8 = false then raiseEv u 0x9010 1 noFrame detail
        else if soft = false ∧ c.therm.getLsbD 8 = true then raiseEv u 0x9012 0 noFrame detail else u
      fusedCl s (clKey k) = false →
      exec (.logicSensorSample k raw) s = .next (thermalFade
        (if 110 ≤ t ∧ (getCl v (clKey k)).dark = .lit then trip v (clKey k) t else v) (clKey k)))
    ∧ (720 ≤ cs.flow.toNat → cs.tIn.toInt ≤ 32 → ¬ (s.boot.fw = .loading ∧ s.boot.step = 6) →
      exec (.coolantSample cs) s = .next { s with coolantOk := true, power := { w with
        flow := cs.flow.toNat, tIn := cs.tIn.toNat, tOut := cs.tOut.toNat
        pQ := 76000 * min 800 cs.flow.toNat * min 15 (45 - cs.tIn.toInt).toNat / (800 * 15) } })
    ∧ (∀ mv : Word, let u := { s with power := { w with volts := mv.toNat / 1000 % 1024 } }
      exec (.inletRange mv) s = .next (if (690000 ≤ mv.toNat ∧ mv.toNat < 700000) ∨ (850000 < mv.toNat ∧ mv.toNat ≤ 870000) then
        raiseEv u 0x9001 2 noFrame [(28, 2, mv.toNat / 1000), (30, 1, if mv.toNat < 700000 then 1 else 2)] else u)
      ∧ exec (.inletDisconnect mv) s = .next (if mv.toNat < 690000 ∨ 870000 < mv.toNat then powerLost s else s))

/-! ### Faults and recovery -/

/-- R472, R486, R489, R602: a policy is replaced and the old one returned; FENCE_CORE fences an idle core and halts a
running one; UNFENCE_CORE gives a core back that was fenced in service; a dailies image is latched; a reset takes its domain
down unless a core of it runs. -/
def Obligations.RecoveryCommands : Prop :=
  ∀ (s t : State) (p : HostPort) (r : CmdRec) (ref : CmdRef),
    let code := pb r 36 1
    let k := pb r 40 4
    (RowTaken s (.policySet p r) t ref →
      (policyBad t r = false → exec (.policySet p r) s = .next (finish
        (setPolicy t code ⟨decide (pb r 37 1 = 1), argBytes r⟩) ref 0
          [(24, 1, bitAt (getPolicy t code).armed 0), (25, 24, leNat (getPolicy t code).args)]))
      ∧ (policyBad t r = true → exec (.policySet p r) s = .next (finish t ref 0x0103 [])))
    ∧ (RowTaken s (.fenceCore p r) t ref →
      let u := accept t ref []
      (fenceTarget t r = true → inScene u k = false →
        exec (.fenceCore p r) s = .next (finish (fenceCore u k) ref 0 []))
      ∧ (fenceTarget t r = true → inScene u k = true → exec (.fenceCore p r) s = .next (finish
          (faultHalt u ⟨0, 1, some k, (sheetSlate (getCore u k)).toList, (getCore u k).scene⟩) ref 0 []))
      ∧ (fenceTarget t r = false → exec (.fenceCore p r) s = .next (finish t ref 0x0103 [])))
    ∧ (RowTaken s (.unfenceCore p r) t ref →
      let c := getCore t k
      let able := fenceTarget t r = true ∧ c.mode = .fenced ∧ c.fencedInService = true ∧ goodCore t k = true
      (able → exec (.unfenceCore p r) s = .next (finish (bumpFloor (setCore t k { c with
          mode := if (getCl t (clOf k)).dark = .gated then .faded else .idle, fencedInService := false })) ref 0 []))
      ∧ (¬ able → exec (.unfenceCore p r) s = .next (finish t ref 0x0103 [])))
    ∧ (RowTaken s (.dailiesCollect p r) t ref → rsvOk r [(36, 0, 8), (40, 0, 24), (48, 0, 64), (56, 0, 32)] = true →
      code ≤ 1 → k = 0 ∨ rectWordOk k = true → pb r 48 8 ≠ 0 →
      let a := if code = 0 then slateAsk t p 1 r.slate.toNat k else moduleAsk t p k
      (imageSize a ≤ pb r 56 4 → exec (.dailiesCollect p r) s =
        .next (dailiesStart (accept t ref []) a (pb r 48 8) (some ref) none none))
      ∧ (pb r 56 4 < imageSize a → exec (.dailiesCollect p r) s = .next (finish t ref 0x0103 [])))
    ∧ (RowTaken s (.reset p r) t ref → rsvOk r [(36, 0, 8), (37, 0, 8), (40, 0, 32)] = true → code ≤ 5 →
      (if code = 5 then pb r 37 1 else 0) ≤ 1 → targetOk t code k = true →
      let mode := if code = 5 then pb r 37 1 else 0
      ((∀ c ∈ domainCores code k, (getCore t c).mode ≠ .running) → code < 5 →
        let u := domainReset (accept t ref []) code 0 k
        exec (.reset p r) s = .next { u with works := { u.works with
          resets := u.works.resets ++ [{ cmd := some ref, domain := code, mode := 0, target := k, since := now t }] } })
      ∧ (code = 5 → let u := if mode = 1 then moduleCold (accept t ref []) else moduleWarm (accept t ref [])
        exec (.reset p r) s = .next { u with works := { u.works with resets := u.works.resets ++
          [{ cmd := if mode = 1 then none else some ref, domain := 5, mode := mode, target := k, since := 0 }] } })
      ∧ ((∃ c ∈ domainCores code k, (getCore t c).mode = .running) →
        exec (.reset p r) s = .next (finish t ref 0x0301 [])))

/-- R475, R483 to R487, R489, R493, R494: written dailies raise 0xB002; a completed reset raises 0xB040; the oldest
detection halts its slates' scenes; a scene that reports progress is not hung, one without is declared so and recovered
where AUTO_REPLAY and the areas allow it; a core that does not come back takes its cluster down; a suspect that closes its
scene is not guilty; the heartbeat counts; the watchdog resets the controller. -/
def Obligations.RecoveryEvents : Prop :=
  ∀ (s : State) (sc : SceneId) (c : CoreId) (n : SlateId),
    (∀ w rest, s.works.dailies = w :: rest → w.cut = none → w.hang = none →
      let u := raiseEv (hostWrite { s with works := { s.works with dailies := rest } } w.port w.addr.toNat w.image) 0xB002 0 noFrame
        [(28, 1, portNo w.port), (29, 1, 1), (32, 4, w.cores), (36, 8, w.image.length), (44, 8, w.addr.toNat)]
      (w.cmd = none → exec .dailiesWritten s = .next u)
      ∧ (∀ ref, w.cmd = some ref → exec .dailiesWritten s = .next (finish u ref 0 [])))
    ∧ (∀ w rest ref, s.works.resets = w :: rest → w.cmd = some ref → w.domain < 4 ∨ s.boot.ready = true →
      exec .resetDone s = .next (finish (raiseEv (domainReady { s with works := { s.works with resets := rest } } w.domain w.target)
        0xB040 1 noFrame [(28, 1, w.domain), (29, 1, w.mode), (32, 4, w.target), (36, 4, (now s - w.since) / 1000)]) ref 0 []))
    ∧ (∀ d rest, s.detections = d :: rest →
      let ns := d.slates.filter fun n => (getSlate s n).mode != .free
      (ns ≠ [] → exec .faultHalt s =
        .next (ns.foldl (fun u n => faultHaltSlate u d n) { s with detections := rest }))
      ∧ (∀ k, ns = [] → d.cls = 1 → d.core = some k → exec .faultHalt s = .next (fenceCore { s with detections := rest } k)))
    ∧ exec .hangProgressReport s = .next { s with scenes := s.scenes.map fun x =>
        if x.progress = true then { x with progress := false, lastProgress := now s, hung := false } else x }
    ∧ (∀ x, s.scenes.find? (fun x => x.sbn == sc.sbn.val && x.idx == sc.idx.val && (x.phase == .running || x.phase == .ended)
          && !x.hung && !x.progress) = some x → (getPolicy s 7).armed = true →
      let y := { x with hung := true }
      let u := setScene s y
      suspectOf u y = none →
      (hangRecovers u y = true → exec (.hangDeclared sc) s = .next (hangRecover (hangEvent u y 1) y))
      ∧ (hangRecovers u y = false → exec (.hangDeclared sc) s = .next (hangEvent u y 0)))
    ∧ (∀ w, s.works.resets.find? (fun w => w.cmd.isNone && w.domain == 0 && w.target == coreKey c) = some w →
      s.hangs.any (fun h => h.resetting.contains (coreKey c)) = true →
      let u := clusterReset s (clOf (coreKey c))
      exec (.hangCoreResetTimeout c) s = .next { u with works := { u.works with resets := u.works.resets.map fun v =>
        if v = w then { v with domain := 1, target := targetOfCl (clOf (coreKey c)), since := now u } else v } })
    ∧ (∀ h, s.hangs.find? (fun h => h.current == some n.val) = some h →
      (suspectScene s h n.val = none → exec (.hangSuspectEnded n) s =
        .next (hangGoOn (setHang s h fun y => { y with current := none }) h))
      ∧ (∀ x, suspectScene s h n.val = some x → x.hung = true → exec (.hangSuspectEnded n) s = .next (hangGuilty s h x n.val))
      ∧ (∀ x, suspectScene s h n.val = some x → x.hung = false → exec (.hangSuspectEnded n) s = .next s))
    ∧ (s.boot.fw ≠ .rom →
      (∃ u, exec .heartbeat s = .next u ∧ u.heartbeat = s.heartbeat + 1 ∧ u.cores = s.cores ∧ u.slates = s.slates)
      ∧ exec .controllerWatchdog s = .next (controllerReset { s with monFault := s.monFault ||| 16 } 1))
    ∧ (s.boot.fw = .rom → exec .heartbeat s = .next s ∧ exec .controllerWatchdog s = .next s)

/-! ### Clocks and sideband -/

/-- R502, R505, R507 to R512: a selection waits for its source, or fails with TIMEOUT; a unit that counts out ungates or
fails with 0x8004; loss of the selected source enters HOLD, a return qualifies it again, and the lock leaves HOLD; a REFLOC
that fails while REFREC is selected raises 0x8005 alone. -/
def Obligations.ClockSteps : Prop :=
  ∀ (s t : State) (p : HostPort) (r : CmdRec) (ref : CmdRef) (u : ClockUnit) (cause : RefCause),
    let e := pb r 37 1
    let c := s.clock
    (RowTaken s (.clockSourceSelect p r) t ref → rsvOk r [(36, 0, 8), (37, 0, 8)] = true →
      (pb r 36 1 = 0 ∨ pb r 36 1 = 1 ∧ e ≤ 119 ∧ removedPort t e = false ∧ (t.clock.hold = true ∨ (getPort t e).link = .up) →
        exec (.clockSourceSelect p r) s = .next (selectBegin (accept t ref []) ⟨decide (pb r 36 1 = 1), e, some ref⟩))
      ∧ (1 < pb r 36 1 ∨ pb r 36 1 = 1 ∧ (119 < e ∨ removedPort t e = true ∨ t.clock.hold = false ∧ (getPort t e).link ≠ .up) →
        exec (.clockSourceSelect p r) s = .next (finish t ref 0x0103 [])))
    ∧ (∀ w rest k, s.works.clock = w :: rest → w.cmd = some k → exec .clockSelectTimeout s =
        .next (selectReady (finish { s with works := { s.works with clock := rest } } k 0x0601 [])))
    ∧ (unitCounts s u = true →
      (u ≠ .refrec → u ≠ .refloc → exec (.oscQualified u) s = .next (unitEnd s (unitKey u) false))
      ∧ (u = .refrec → exec (.oscQualified u) s = .next (sourceQualified (unitEnd s (unitKey u) false) true))
      ∧ (u = .refloc → exec (.oscQualified u) s = .next (sourceQualified (unitEnd s (unitKey u) false) false))
      ∧ (u ≠ .refrec → u ≠ .refloc → ∃ n : BitVec 14, exec (.oscNotStable u) s =
          .next (raiseEv (unitEnd { s with freeCtr := s.freeCtr + 3 } (unitKey u) true) 0x8004 2 noFrame
            [(28, 2, (unitNo s u).1), (30, 1, (unitNo s u).2), (32, 4, n.toNat)])))
    ∧ (unitCounts s u = false → exec (.oscQualified u) s = .next s ∧ exec (.oscNotStable u) s = .next s)
    ∧ (s.powered = true → refCauseOk s cause = true →
      (c.hold = false → exec (.refLost cause) s = .next (enterHold s (refCauseNo cause)))
      ∧ (c.hold = true → exec (.refLost cause) s = .next (sourceGone s)))
    ∧ (c.hold = true → c.engaged = none → s.works.clock = [] → c.qualifying = false →
      let v := unitRestart s (sourceUnit c.refrec)
      exec .refReturn s = .next { v with clock := { v.clock with qualifying := true } })
    ∧ (∀ way, c.hold = true → c.engaged = some way →
      let v := (List.range 15).foldl pauseOut
        (pinsHold { s with clock := { c with hold := false, locked := true, holdover := false, engaged := none } } false)
      exec .meshLock s = .next (raiseEv v 0x8002 1 noFrame
        [(28, 1, sourceNo c.refrec), (29, 1, c.port), (30, 1, wayNo way), (32, 8, now v - c.holdSince)]))
    ∧ (c.hold = false → unitOk s (sourceUnit c.refrec) = true → exec .meshLock s = .next { s with clock := { c with locked := true } })
    ∧ (s.powered = true → c.refrec = true → exec .reflocFailed s = .next (raiseEv
        (unitRestart { s with clock := { c with reflocOk := false, reflocFailed := true } } (sourceUnit false))
        0x8005 2 noFrame [(28, 1, 0)]))

/-- R578 to R580, R582, R584: SB_ASSIGN gives a pin its function; pulses leave and are latched; a fade request orders a
fade; bits of MON_FAULT are cleared by writing 1; the monitoring target takes and gives back a dynamic address; a private
JTAG instruction without scope bit 0 is BYPASS. The all-ones code of BYPASS and that SETDASA always assigns are the model's
(log entry 76). -/
def Obligations.SidebandSteps : Prop :=
  ∀ (s t : State) (p : HostPort) (r : CmdRec) (ref : CmdRef) (pin : SbPin) (v : Byte) (a : BitVec 7) (level : Bool),
    let n := pb r 36 1
    let old := getPin s pin.val
    (RowTaken s (.sbAssign p r) t ref →
      (sbBad t r = true → exec (.sbAssign p r) s = .next (finish t ref 0x0103 []))
      ∧ (sbBad t r = false → sbClaimed t r = true → exec (.sbAssign p r) s = .next (finish t ref 0x0302 []))
      ∧ (sbBad t r = false → pb r 37 1 = 0 → exec (.sbAssign p r) s = .next (finish (setPin t n Pin.reset) ref 0
          [(24, 1, (getPin t n).func), (25, 1, (getPin t n).block), (26, 1, 0xFF)]))
      ∧ (sbBad t r = false → sbClaimed t r = false → 1 < pb r 37 1 → exec (.sbAssign p r) s =
          .next (finish (setPin t n (sbPin t p r)) ref 0
            [(24, 1, (getPin t n).func), (25, 1, (getPin t n).block), (26, 1, (sbPin t p r).timer.getD 0xFF)])))
    ∧ (old.func = 3 → exec (.timePulseOut pin) s = .next (if s.clock.hold = true then s else emit s (.pulse pin.val)))
    ∧ (old.func = 4 → exec (.timePulseIn pin) s = .next { s with tcap := s.clock.timeNs })
    ∧ (old.func = 5 →
      let u := setPin s pin.val { old with level := level }
      let x := if level = true then Instr.fadeReqInAssert pin else Instr.fadeReqInRelease pin
      (old.level = level → exec x s = .next u)
      ∧ (old.level ≠ level → pinBusy u pin.val = false → exec x s = .next (pinOrder u pin.val))
      ∧ (old.level ≠ level → pinBusy u pin.val = true →
        exec x s = .next (setPin u pin.val { getPin u pin.val with waiting := true })))
    ∧ (s.powered = true →
      exec (.monFaultWrite v) s = .next { s with monFault := s.monFault &&& ~~~(v &&& 0x1F) }
      ∧ exec (.setdasa a) s = .next { s with monAddr := some a }
      ∧ exec .rstdaa s = .next { s with monAddr := none }
      ∧ (jtagKind v = 0 ∨ jtagKind v = 1 ∨ jtagKind v = 3 ∧ s.boot.scopes.getLsbD 0 = true →
        exec (.jtagInstruction v) s = .next { s with jtagIr := v })
      ∧ (jtagKind v = 3 → s.boot.scopes.getLsbD 0 = false → exec (.jtagInstruction v) s = .next { s with jtagIr := 0xFF })
      ∧ (jtagKind v = 2 → exec (.jtagInstruction v) s = .next (emit { s with jtagIr := v } (.jtag (idcode s)))))

/-! ### Start-up and security -/

/-- R454, R547, R550 to R552, R555 to R559, R561, R565, R570: an image is asked for, checked in order and handed over, or
refused with the first failing check; the wait for calibration ends; BIST builds the floor plan, and the module is ready or
has failed; overlays are loaded; the floor plan is read; a debug grant adds its scopes once; the feed comes and goes. -/
def Obligations.BootSteps : Prop :=
  ∀ (s t : State) (p : HostPort) (r : CmdRec) (ref : CmdRef) (b : List Byte) (x : BistResult),
    (RowTaken s (.fwLoad p r) t ref →
      (t.boot.fw = .rom → t.boot.load = none → rsvOk r [(36, 0, 1), (40, 0, 32)] = true → pb r 40 4 ≤ 60000 →
        let u := accept t ref []
        exec (.fwLoad p r) s =
          .next { u with boot := { u.boot with load := some (ref, pbit r 36 0, r.dataLen.toNat, pb r 40 4) } })
      ∧ (t.boot.fw ≠ .rom → exec (.fwLoad p r) s = .next (finish t ref 0x0301 [])))
    ∧ (∀ k commit len wait, s.boot.load = some (k, commit, len, wait) → k.port = p → s.boot.fw = .rom →
      (imageReason s b len = 0 → exec (.fwHandover p b) s = .next (handover s k commit wait b))
      ∧ (imageReason s b len ≠ 0 → exec (.fwHandover p b) s =
          .next (finish { s with boot := { s.boot with load := none } } k 0x0103 [(24, 1, imageReason s b len)])))
    ∧ (s.boot.fw = .loading → s.boot.step = 5 → exec .calWaitExpiry s = .next (powerFrames s))
    ∧ (s.boot.fw = .loading → s.boot.step = 8 →
      let u := bistEvent { s with floor := bistPlan s x } x
      let good := goodCount u
      let off := (disabledCls u).length
      (off ≤ 24 → guaranteed u ≤ good - fencedCount u →
        exec (.bistComplete x) s = .next (moduleReady (startMesh (startVaults (fenceBad u))) 1))
      ∧ (24 < off ∨ good - fencedCount u < guaranteed u →
        let v := { u with boot := { u.boot with fw := .failed, step := 9 }, monFault := u.monFault ||| 2 }
        exec (.bistComplete x) s = .next (raiseEv v 0xA040 3 noFrame [(28, 1, 2), (29, 1, 9), (32, 4, good), (36, 2, off)])))
    ∧ (s.boot.fw = .loading → s.boot.step = 7 → exec .fastPathDone s =
        .next (moduleReady (startMesh ((allCls s).foldl vaultWake s)) 2))
    ∧ (RowTaken s (.calLoad p r) t ref →
      let d := bufBytes r
      let n := d.length / 8
      rsvOk r [(36, 0, 1)] = true → d.length % 8 = 0 → 0 < n → n ≤ 8192 → (∀ i < n, calEntryOk t d i = true) →
      let es := (List.range n).map (calEntry d)
      let changed := (es.filter fun e => decide (calValue e ≠ e.2.2)).length
      let u := if pbit r 36 0 = true then { t with boot := { t.boot with overlayV := [], overlayS := [], overlayL := [] } } else t
      exec (.calLoad p r) s = .next (calWaitEnd (raiseEv
        (finish (extendMeas (es.foldl calApply u) 3 (Config.sha512 d)) ref 0 [(24, 4, n), (28, 4, changed)])
        0xA002 0 noFrame [(28, 4, n), (32, 4, changed), (36, 1, bitAt (pbit r 36 0) 0)])))
    ∧ (RowTaken s (.floorplanRead p r) t ref → rsvOk r [(40, 0, 64), (48, 0, 32)] = true → pb r 40 8 ≠ 0 →
      (86948 ≤ pb r 48 4 → exec (.floorplanRead p r) s = .next (finish (hostWrite t p (pb r 40 8) (fpImage t)) ref 0 []))
      ∧ (pb r 48 4 < 86948 → exec (.floorplanRead p r) s = .next (finish t ref 0x0103 [])))
    ∧ (RowTaken s (.debugUnlockNonce p r) t ref → rsvOk r [(36, 0, 8)] = true → pb r 36 1 = 0 →
      ∃ d : List Byte, d.length = 32 ∧ exec (.debugUnlockNonce p r) s = .next (finish
        { t with freeCtr := t.freeCtr + 1, boot := { t.boot with nonce := some (d, now t) } } ref 0
          [(24, 32, leNat d), (56, 8, t.otp.serial.toNat)]))
    ∧ (RowTaken s (.debugUnlockGrant p r) t ref →
      (∀ d at0, t.boot.nonce = some (d, at0) → grantOk t r (d, at0) = true →
        let scope := pb r 37 1
        let u := extendMeas { t with boot := { t.boot with nonce := none } } 4 (Config.sha512 (grantRecord t d scope))
        let v := { u with boot := { u.boot with scopes := u.boot.scopes ||| BitVec.ofNat 3 scope } }
        exec (.debugUnlockGrant p r) s = .next (finish (raiseEv v 0xA030 1 noFrame
          [(28, 1, scope), (29, 1, v.boot.scopes.toNat), (30, 1, portNo p)]) ref 0 []))
      ∧ (∀ d at0, t.boot.nonce = some (d, at0) → grantOk t r (d, at0) = false → exec (.debugUnlockGrant p r) s =
          .next (finish { t with boot := { t.boot with nonce := none } } ref 0x0103 []))
      ∧ (t.boot.nonce = none → exec (.debugUnlockGrant p r) s = .next (finish t ref 0x0103 [])))
    ∧ exec .inletEnClose s = .next { s with inletEn := true }
    ∧ exec .inletEnOpen s = .next (powerLost { s with inletEn := false })
    ∧ (s.inletEn = true → s.powered = false → exec .hotSwapRampDone s = .next { s with powered := true })

/-- R405, R554, R563, R564: a powered port with a link answers each SPDM request of version 1.3 in the phase that allows
it; requests out of turn answer ERROR and change nothing else. Message layouts, phases and codes are the model's, from DMTF
SPDM 1.3 (log entry 25). -/
def Obligations.SpdmSteps : Prop :=
  ∀ (s : State) (p : HostPort) (m : List Byte),
    let v := getSpdm s p
    let send (u : State) (w : Spdm) (b : List Byte) : State := emit (setSpdm u p w) (.spdm p b)
    (getHost s p).width ≠ 0 → s.powered = true →
    (spdmCode m = 0x84 → getLe m 0 1 = 0x10 → exec (.getVersion p m) s = .next (send s
      { Spdm.none with
        phase := 1, nonceCtr := v.nonceCtr, ideKeys := v.ideKeys, ideOn := v.ideOn, transcript := m ++ versionRsp } versionRsp))
    ∧ (getLe m 0 1 = 0x13 →
      (spdmCode m = 0xE1 → v.phase = 1 → 4 ≤ m.length → ∃ b : List Byte, exec (.getCapabilities p m) s =
        .next (send { s with freeCtr := s.freeCtr + 1 } { v with phase := 2, transcript := v.transcript ++ m ++ b } b))
      ∧ (spdmCode m = 0xE3 → v.phase = 2 → 32 ≤ m.length → bits (getLe m 8 4) 10 1 = 1 → bits (getLe m 12 4) 2 1 = 1 →
        exec (.negotiateAlgorithms p m) s =
          .next (send s { v with phase := 3, transcript := v.transcript ++ m ++ algorithmsRsp } algorithmsRsp))
      ∧ (spdmCode m = 0xE3 → v.phase ≠ 2 → exec (.negotiateAlgorithms p m) s = .next (emit s (.spdm p (spdmError 0x04))))
      ∧ (spdmCode m = 0x81 → 3 ≤ v.phase → v.phase ≤ 5 → 4 ≤ m.length →
        let b := spdmRsp 0x01 1 1 (exactly 64 (Config.sha512 s.otp.certs))
        exec (.getDigests p m) s = .next (send s { v with certMsgs := v.certMsgs ++ m ++ b } b))
      ∧ (spdmCode m = 0x82 → 3 ≤ v.phase → v.phase ≤ 5 → 8 ≤ m.length → spdmP1 m = 0 → getLe m 4 2 < s.otp.certs.length →
        let part := (s.otp.certs.drop (getLe m 4 2)).take (getLe m 6 2)
        let b := spdmRsp 0x02 0 0
          (leBytes 2 part.length ++ leBytes 2 (s.otp.certs.length - getLe m 4 2 - part.length) ++ part)
        exec (.getCertificate p m) s = .next (send s { v with certMsgs := v.certMsgs ++ m ++ b } b))
      ∧ (spdmCode m = 0x83 → v.phase = 3 → 44 ≤ m.length → spdmP1 m = 0 → summaryOk (spdmP2 m) = true →
        ∃ b : List Byte, exec (.challenge p m) s = .next (send s { v with nonceCtr := v.nonceCtr + 1, certMsgs := [] }
          (b ++ signed (v.transcript ++ v.certMsgs ++ m ++ b))))
      ∧ (spdmCode m = 0xE0 → 3 ≤ v.phase → v.phase ≤ 5 → 45 ≤ m.length → spdmP2 m ≤ 5 → bits (spdmP1 m) 0 1 = 1 →
        ∃ b : List Byte, exec (.getMeasurements p m) s = .next (send s { v with nonceCtr := v.nonceCtr + 1, measMsgs := [] }
          (b ++ signed (v.transcript ++ v.measMsgs ++ m ++ b))))
      ∧ (spdmCode m = 0xE4 → v.phase = 3 → 138 ≤ m.length → spdmP2 m = 0 → summaryOk (spdmP1 m) = true →
        ∃ b y : List Byte, exec (.keyExchange p m) s = .next (send { s with freeCtr := s.freeCtr + 1 }
          { v with nonceCtr := v.nonceCtr + 1, phase := 4, session := getLe m 4 2 + v.nonceCtr % 2 ^ 16 * 2 ^ 16, keyUpdates := 0, measMsgs := y } b))
      ∧ (spdmCode m = 0xE5 → v.phase = 4 → 68 ≤ m.length →
        let good := m.drop (m.length - 64) =
          exactly 64 (Config.sessionMac v.session 1 (v.measMsgs ++ m.take (m.length - 64)))
        (good → exec (.finish p m) s = .next (send s { v with phase := 5, measMsgs := [] } (spdmRsp 0x65 0 0 [])))
        ∧ (¬ good → exec (.finish p m) s = .next (send s { v with phase := 3, session := 0, measMsgs := [] } (spdmError 0x06))))
      ∧ (spdmCode m = 0xE8 → v.phase = 5 → 4 ≤ m.length →
        exec (.spdmHeartbeat p m) s = .next (emit s (.spdm p (spdmRsp 0x68 0 0 []))))
      ∧ (spdmCode m = 0xE9 → v.phase = 5 → 4 ≤ m.length → 1 ≤ spdmP1 m → spdmP1 m ≤ 3 → exec (.keyUpdate p m) s =
        .next (send s { v with keyUpdates := if spdmP1 m = 3 then v.keyUpdates else v.keyUpdates + 1 }
          (spdmRsp 0x69 (spdmP1 m) (spdmP2 m) [])))
      ∧ (spdmCode m = 0xEC → v.phase = 5 → 4 ≤ m.length → exec (.endSession p m) s =
        .next (send s { v with phase := if bits (spdmP1 m) 0 1 = 0 then 3 else 0, session := 0, keyUpdates := 0 }
          (spdmRsp 0x6C 0 0 [])))
      ∧ (spdmCode m = 0xFE → v.phase = 5 → 11 ≤ m.length → getLe m 4 2 = 3 → getLe m 6 1 = 2 → getLe m 7 2 = 1 →
        let b := (m.drop 11).take (getLe m 9 2)
        let sel := (getLe b 4 1, getLe b 6 1)
        (∀ a, ideAnswer s v b = some a → exec (.vendorDefinedRequest p m) s =
          .next (send { s with freeCtr := s.freeCtr + 1 } a.2
            (spdmRsp 0x7E 0 0 ((m.drop 4).take 5 ++ leBytes 2 a.1.length ++ a.1))))
        ∧ (getLe b 0 1 = 0 →
          (getLe b 1 1 = 2 → keyProgStatus v b = 0 → ∃ y, ideAnswer s v b =
            some (y, { v with ideKeys := (sel, b.drop 8) :: v.ideKeys.filter fun k => k.1 != sel }))
          ∧ (getLe b 1 1 = 4 → v.ideKeys.any (fun k => k.1 == sel) = true → ∃ y, ideAnswer s v b =
            some (y, { v with ideOn := sel :: v.ideOn.filter (· != sel) }))
          ∧ (getLe b 1 1 = 5 → ∃ y, ideAnswer s v b =
            some (y, { v with ideOn := v.ideOn.filter (· != sel) })))))

/-! ### The machine -/

/-- A step takes the command at the front of the queue and runs it with the queue's rest. On an empty queue one nanosecond
of TIME passes, once firmware has started (the model's, log entry 2). -/
def Obligations.StepTakesFront : Prop :=
  ∀ (s : State) (c : Instr),
    step { s with pending := c :: s.pending } = exec c s
    ∧ (s.pending = [] → step s = .next (if s.boot.fw = .rom then s
        else { s with clock := { s.clock with timeNs := s.clock.timeNs + 1 } }))

/-- R282, R372, R384, R432, R473, R504, R524, R554: what a cold reset leaves: no engine ID, no valid route, no policy armed
but HANG with 2,000 ms and no areas, EPOCH_NEXT zero, the measurements zero but for the boot ROM's, REFLOC selected, a budget
of 42,000 W, the boot ROM serving, no authority, no slate, no ring enabled; no command waits, and every memory is
in canonical form. -/
def Obligations.ResetState : Prop :=
  let s := State.reset
  engId s = 0x7FFF ∧ (∀ i, smapGet 0x0FFFFFFF s.fabric.dest i = 0x0FFFFFFF) ∧ (∀ k, (getPolicy s k).armed = decide (k = 7))
    ∧ hangArgs s = (2000, 0, 0, 0) ∧ s.epochNext = 0 ∧ (∀ i : Fin 5, 0 < i.val → s.boot.meas[i] = List.replicate 64 0)
    ∧ s.boot.meas[0] = Config.sha512 (List.replicate 64 0 ++ Config.romDigest) ∧ s.clock.refrec = false ∧ s.power.budget = 42000
    ∧ s.boot.fw = .rom ∧ s.boot.ready = false ∧ s.authority = none ∧ (∀ n, (getSlate s n).mode = .free)
    ∧ (∀ p, (getHost s p).cmd.en = false ∧ (getHost s p).cpl.en = false ∧ (getHost s p).evt.en = false)
    ∧ s.pending = [] ∧ s.memOk = true

/-- R552, R557, R560: every step answers a next state; it takes the front command off the queue and adds none, and it changes
no factory value but the anti-rollback counter, which never falls. -/
def Obligations.EveryStepIsSteady : Prop :=
  ∀ s : State, ∃ t, stepsTo s t ∧ Steady { s with pending := s.pending.tail } t

end Statements
end

