-- ==== Sys2Proof/Laws/Store.lean ====
section
/-! SUPPORT. Laws of the sparse tables and of the byte memories: reads after writes, and the canonical form is kept. -/

namespace Sys2Proof.Machine

open Sys2Proof

/-! ### Tables -/

/-- Every key of the table is above `k`. -/
def keysAbove {α : Type} (k : Nat) (m : SMap α) : Prop := ∀ p ∈ m, k < p.1

theorem smapSorted_cons {α : Type} {i : Nat} {v : α} {m : SMap α} :
    smapSorted ((i, v) :: m) = true ↔ keysAbove i m ∧ smapSorted m = true := by
  induction m generalizing i v with
  | nil => simp [smapSorted, keysAbove]
  | cons q m ih =>
    obtain ⟨j, w⟩ := q
    simp only [smapSorted, Bool.and_eq_true, decide_eq_true_eq]
    constructor
    · rintro ⟨h, hs⟩
      refine ⟨?_, hs⟩
      intro p hp
      rcases List.mem_cons.mp hp with rfl | hp
      · exact h
      · exact lt_trans h ((ih.mp hs).1 p hp)
    · rintro ⟨h, hs⟩
      exact ⟨h (j, w) (List.mem_cons_self ..), hs⟩

theorem smapGet_of_above {α : Type} (d : α) {m : SMap α} {k : Nat} (h : keysAbove k m) : smapGet d m k = d := by
  induction m with
  | nil => rfl
  | cons q m ih =>
    obtain ⟨j, w⟩ := q
    have hj : k < j := h (j, w) (List.mem_cons_self ..)
    have hm : keysAbove k m := fun p hp => h p (List.mem_cons_of_mem _ hp)
    simp [smapGet, Nat.ne_of_gt hj, ih hm]

/-- A key that has just been put reads as what was put. -/
theorem smapGet_smapPut_self {α : Type} (d : α) (m : SMap α) (k : Nat) (v : α) : smapGet d (smapPut m k v) k = v := by
  induction m with
  | nil => simp [smapPut, smapGet]
  | cons q m ih =>
    obtain ⟨j, w⟩ := q
    unfold smapPut
    split
    · simp [smapGet]
    · split
      · simp [smapGet]
      · rename_i h1 h2
        simp [smapGet, Ne.symm h2, ih]

/-- Putting a key leaves every other key. -/
theorem smapGet_smapPut_other {α : Type} (d : α) (m : SMap α) {k l : Nat} (v : α) (h : l ≠ k) :
    smapGet d (smapPut m k v) l = smapGet d m l := by
  induction m with
  | nil => simp [smapPut, smapGet, Ne.symm h]
  | cons q m ih =>
    obtain ⟨j, w⟩ := q
    unfold smapPut
    split
    · simp [smapGet, Ne.symm h]
    · split
      · rename_i h2
        subst h2
        simp [smapGet, Ne.symm h]
      · by_cases hj : j = l
        · simp [smapGet, hj]
        · simp [smapGet, hj, ih]

/-- Putting a key twice is putting it once. -/
theorem smapPut_smapPut {α : Type} (m : SMap α) (k : Nat) (v w : α) : smapPut (smapPut m k v) k w = smapPut m k w := by
  induction m with
  | nil => simp [smapPut]
  | cons q m ih =>
    obtain ⟨j, x⟩ := q
    by_cases h1 : k < j
    · simp [smapPut, h1]
    · by_cases h2 : k = j
      · subst h2
        simp [smapPut]
      · simp [smapPut, h1, h2, ih]

/-- Removing a key leaves every other key. -/
theorem smapGet_smapDel_other {α : Type} (d : α) (m : SMap α) {k l : Nat} (h : l ≠ k) :
    smapGet d (smapDel m k) l = smapGet d m l := by
  induction m with
  | nil => simp [smapDel]
  | cons q m ih =>
    obtain ⟨j, w⟩ := q
    unfold smapDel
    split
    · rename_i hj
      subst hj
      simp [smapGet, Ne.symm h]
    · by_cases hj : j = l
      · simp [smapGet, hj]
      · simp [smapGet, hj, ih]

/-- A removed key of a sorted table reads as the default. -/
theorem smapGet_smapDel_self {α : Type} (d : α) {m : SMap α} (k : Nat) (hs : smapSorted m = true) :
    smapGet d (smapDel m k) k = d := by
  induction m with
  | nil => rfl
  | cons q m ih =>
    obtain ⟨j, w⟩ := q
    have h := smapSorted_cons.mp hs
    unfold smapDel
    split
    · rename_i hj
      subst hj
      exact smapGet_of_above d h.1
    · rename_i hj
      simp [smapGet, hj, ih h.2]

/-- Reading the key that was set. -/
theorem smapGet_smapSet_self {α : Type} [DecidableEq α] (d : α) {m : SMap α} (k : Nat) (v : α) (hs : smapSorted m = true) :
    smapGet d (smapSet d m k v) k = v := by
  unfold smapSet
  split
  · rename_i h
    rw [smapGet_smapDel_self d k hs, h]
  · exact smapGet_smapPut_self d m k v

/-- Reading a key set to a value other than the default; no premise on the table. -/
theorem smapGet_smapSet_of_ne {α : Type} [DecidableEq α] {d : α} (m : SMap α) (k : Nat) {v : α} (h : v ≠ d) :
    smapGet d (smapSet d m k v) k = v := by
  simp [smapSet, h, smapGet_smapPut_self]

/-- Setting a key leaves every other key. -/
theorem smapGet_smapSet_other {α : Type} [DecidableEq α] (d : α) (m : SMap α) {k l : Nat} (v : α) (h : l ≠ k) :
    smapGet d (smapSet d m k v) l = smapGet d m l := by
  unfold smapSet
  split
  · exact smapGet_smapDel_other d m h
  · exact smapGet_smapPut_other d m v h

/-- Setting a key twice is setting it once, when the second value is not the default. -/
theorem smapSet_smapSet_of_ne {α : Type} [DecidableEq α] {d : α} (m : SMap α) (k : Nat) {v w : α} (hv : v ≠ d) (hw : w ≠ d) :
    smapSet d (smapSet d m k v) k w = smapSet d m k w := by
  simp [smapSet, hv, hw, smapPut_smapPut]

theorem mem_smapPut {α : Type} {m : SMap α} {k : Nat} {v : α} {p : Nat × α} (h : p ∈ smapPut m k v) : p = (k, v) ∨ p ∈ m := by
  induction m with
  | nil => simpa [smapPut] using h
  | cons q m ih =>
    obtain ⟨j, w⟩ := q
    unfold smapPut at h
    split at h
    · rcases List.mem_cons.mp h with h | h
      · exact .inl h
      · exact .inr h
    · split at h
      · rcases List.mem_cons.mp h with h | h
        · exact .inl h
        · exact .inr (List.mem_cons_of_mem _ h)
      · rcases List.mem_cons.mp h with h | h
        · exact .inr (h ▸ List.mem_cons_self ..)
        · rcases ih h with h | h
          · exact .inl h
          · exact .inr (List.mem_cons_of_mem _ h)

theorem mem_smapDel {α : Type} {m : SMap α} {k : Nat} {p : Nat × α} (h : p ∈ smapDel m k) : p ∈ m := by
  induction m with
  | nil => simp [smapDel] at h
  | cons q m ih =>
    obtain ⟨j, w⟩ := q
    unfold smapDel at h
    split at h
    · exact List.mem_cons_of_mem _ h
    · rcases List.mem_cons.mp h with h | h
      · exact h ▸ List.mem_cons_self ..
      · exact List.mem_cons_of_mem _ (ih h)

/-- What a table holds after a key is set: the new entry, or entries it held before. -/
theorem mem_smapSet {α : Type} [DecidableEq α] {d : α} {m : SMap α} {k : Nat} {v : α} {p : Nat × α} (h : p ∈ smapSet d m k v) :
    p = (k, v) ∨ p ∈ m := by
  unfold smapSet at h
  split at h
  · exact .inr (mem_smapDel h)
  · exact mem_smapPut h

theorem smapSorted_smapPut {α : Type} {m : SMap α} (k : Nat) (v : α) (hs : smapSorted m = true) :
    smapSorted (smapPut m k v) = true := by
  induction m with
  | nil => simp [smapPut, smapSorted]
  | cons q m ih =>
    obtain ⟨j, w⟩ := q
    have h := smapSorted_cons.mp hs
    unfold smapPut
    split
    · rename_i hk
      refine smapSorted_cons.mpr ⟨?_, hs⟩
      intro p hp
      rcases List.mem_cons.mp hp with rfl | hp
      · exact hk
      · exact lt_trans hk (h.1 p hp)
    · split
      · rename_i hj
        subst hj
        exact smapSorted_cons.mpr h
      · rename_i h1 h2
        refine smapSorted_cons.mpr ⟨?_, ih h.2⟩
        intro p hp
        rcases mem_smapPut hp with rfl | hp
        · exact lt_of_le_of_ne (Nat.le_of_not_lt h1) (Ne.symm h2)
        · exact h.1 p hp

theorem smapSorted_smapDel {α : Type} {m : SMap α} (k : Nat) (hs : smapSorted m = true) : smapSorted (smapDel m k) = true := by
  induction m with
  | nil => simp [smapDel, smapSorted]
  | cons q m ih =>
    obtain ⟨j, w⟩ := q
    have h := smapSorted_cons.mp hs
    unfold smapDel
    split
    · exact h.2
    · exact smapSorted_cons.mpr ⟨fun p hp => h.1 p (mem_smapDel hp), ih h.2⟩

/-- Setting a key keeps the canonical form. -/
theorem smapOk_smapSet {α : Type} [DecidableEq α] {d : α} {m : SMap α} (k : Nat) (v : α) (h : smapOk d m = true) :
    smapOk d (smapSet d m k v) = true := by
  simp only [smapOk, Bool.and_eq_true, List.all_eq_true, decide_eq_true_eq] at h ⊢
  obtain ⟨hs, hd⟩ := h
  unfold smapSet
  split
  · exact ⟨smapSorted_smapDel k hs, fun p hp => hd p (mem_smapDel hp)⟩
  · rename_i hv
    refine ⟨smapSorted_smapPut k v hs, fun p hp => ?_⟩
    rcases mem_smapPut hp with rfl | hp
    · exact hv
    · exact hd p hp

/-- A filtered table keeps the canonical form. -/
theorem smapOk_filter {α : Type} [DecidableEq α] {d : α} {m : SMap α} (f : Nat × α → Bool) (h : smapOk d m = true) :
    smapOk d (m.filter f) = true := by
  simp only [smapOk, Bool.and_eq_true, List.all_eq_true, decide_eq_true_eq] at h ⊢
  obtain ⟨hs, hd⟩ := h
  refine ⟨?_, fun p hp => hd p (List.mem_of_mem_filter hp)⟩
  clear hd
  induction m with
  | nil => rfl
  | cons q m ih =>
    obtain ⟨j, w⟩ := q
    have hq := smapSorted_cons.mp hs
    rw [List.filter_cons]
    split
    · exact smapSorted_cons.mpr ⟨fun p hp => hq.1 p (List.mem_of_mem_filter hp), ih hq.2⟩
    · exact ih hq.2

/-! ### Memories -/

theorem Ram.wf_zero : Ram.zero.wf = true := by decide

/-- A byte write keeps the canonical form. -/
theorem Ram.wf_putByte {m : Ram} (a : Nat) (b : Byte) (h : m.wf = true) : (ramPutByte m a b).wf = true :=
  smapOk_smapSet a b h

/-- A write of bytes keeps the canonical form. -/
theorem Ram.wf_putBytes {m : Ram} (a : Nat) (bs : List Byte) (h : m.wf = true) : (ramPutBytes m a bs).wf = true := by
  induction bs generalizing m a with
  | nil => exact h
  | cons b bs ih => exact ih (a + 1) (Ram.wf_putByte a b h)

/-- A word write keeps the canonical form. -/
theorem Ram.wf_putWord {m : Ram} (w : Nat) (v : Word) (h : m.wf = true) : (ramPutWord m w v).wf = true :=
  Ram.wf_putBytes _ _ h

/-- A write of words keeps the canonical form. -/
theorem Ram.wf_putWords {m : Ram} (w : Nat) (vs : List Word) (h : m.wf = true) : (ramPutWords m w vs).wf = true := by
  induction vs generalizing m w with
  | nil => exact h
  | cons v vs ih => exact ih (w + 1) (Ram.wf_putWord w v h)

/-- Zeroing keeps the canonical form. -/
theorem Ram.wf_ramZero {m : Ram} (a n : Nat) (h : m.wf = true) : (ramZero m a n).wf = true := smapOk_filter _ h

/-- A byte reads as what was written to it. -/
theorem ramByte_putByte_self {m : Ram} (a : Nat) (b : Byte) (h : m.wf = true) : ramByte (ramPutByte m a b) a = b := by
  simp only [Ram.wf, smapOk, Bool.and_eq_true] at h
  exact smapGet_smapSet_self 0 a b h.1

/-- A byte write leaves every other byte. -/
theorem ramByte_putByte_other (m : Ram) {a x : Nat} (b : Byte) (h : x ≠ a) : ramByte (ramPutByte m a b) x = ramByte m x :=
  smapGet_smapSet_other 0 m.cells b h

/-- A write of bytes leaves every byte outside them. -/
theorem ramByte_putBytes_other (m : Ram) {a x : Nat} (bs : List Byte) (h : x < a ∨ a + bs.length ≤ x) :
    ramByte (ramPutBytes m a bs) x = ramByte m x := by
  induction bs generalizing m a with
  | nil => rfl
  | cons b bs ih =>
    have hx : x ≠ a := by
      rcases h with h | h
      · omega
      · simp only [List.length_cons] at h
        omega
    have := ih (ramPutByte m a b) (a := a + 1) (by
      simp only [List.length_cons] at h
      omega)
    exact this.trans (ramByte_putByte_other m b hx)

/-- A word write leaves every byte outside the word. -/
theorem ramByte_putWord_other (m : Ram) {w x : Nat} (v : Word) (h : x < 4 * w ∨ 4 * w + 4 ≤ x) :
    ramByte (ramPutWord m w v) x = ramByte m x := by
  apply ramByte_putBytes_other
  have : (leBytes 4 v.toNat).length = 4 := rfl
  omega

end Sys2Proof.Machine
end

