-- ==== Sys2Proof/Laws/State.lean ====
section
/-! SUPPORT. What each update of the state does to each field, and what each part reads after each part's update. -/

namespace Sys2Proof.Machine

open Sys2Proof

/-! ### One lemma per field per update -/

/-! `setCore` writes only `cores`. -/

@[simp] theorem setCore_pending (s : State) (k : Nat) (c : Core) : (setCore s k c).pending = s.pending := rfl
@[simp] theorem setCore_freeCtr (s : State) (k : Nat) (c : Core) : (setCore s k c).freeCtr = s.freeCtr := rfl
@[simp] theorem setCore_emitted (s : State) (k : Nat) (c : Core) : (setCore s k c).emitted = s.emitted := rfl
@[simp] theorem setCore_cores (s : State) (k : Nat) (c : Core) : (setCore s k c).cores = smapSet Core.reset s.cores k c := rfl
@[simp] theorem setCore_clusters (s : State) (k : Nat) (c : Core) : (setCore s k c).clusters = s.clusters := rfl
@[simp] theorem setCore_mesh (s : State) (k : Nat) (c : Core) : (setCore s k c).mesh = s.mesh := rfl
@[simp] theorem setCore_routeDark (s : State) (k : Nat) (c : Core) : (setCore s k c).routeDark = s.routeDark := rfl
@[simp] theorem setCore_routeFence (s : State) (k : Nat) (c : Core) : (setCore s k c).routeFence = s.routeFence := rfl
@[simp] theorem setCore_splice (s : State) (k : Nat) (c : Core) : (setCore s k c).splice = s.splice := rfl
@[simp] theorem setCore_ports (s : State) (k : Nat) (c : Core) : (setCore s k c).ports = s.ports := rfl
@[simp] theorem setCore_fabric (s : State) (k : Nat) (c : Core) : (setCore s k c).fabric = s.fabric := rfl
@[simp] theorem setCore_portA (s : State) (k : Nat) (c : Core) : (setCore s k c).portA = s.portA := rfl
@[simp] theorem setCore_portB (s : State) (k : Nat) (c : Core) : (setCore s k c).portB = s.portB := rfl
@[simp] theorem setCore_authority (s : State) (k : Nat) (c : Core) : (setCore s k c).authority = s.authority := rfl
@[simp] theorem setCore_heartbeat (s : State) (k : Nat) (c : Core) : (setCore s k c).heartbeat = s.heartbeat := rfl
@[simp] theorem setCore_slates (s : State) (k : Nat) (c : Core) : (setCore s k c).slates = s.slates := rfl
@[simp] theorem setCore_storyboards (s : State) (k : Nat) (c : Core) : (setCore s k c).storyboards = s.storyboards := rfl
@[simp] theorem setCore_scenes (s : State) (k : Nat) (c : Core) : (setCore s k c).scenes = s.scenes := rfl
@[simp] theorem setCore_queuedRuns (s : State) (k : Nat) (c : Core) : (setCore s k c).queuedRuns = s.queuedRuns := rfl
@[simp] theorem setCore_reelCopies (s : State) (k : Nat) (c : Core) : (setCore s k c).reelCopies = s.reelCopies := rfl
@[simp] theorem setCore_closedScenes (s : State) (k : Nat) (c : Core) : (setCore s k c).closedScenes = s.closedScenes := rfl
@[simp] theorem setCore_epochNext (s : State) (k : Nat) (c : Core) : (setCore s k c).epochNext = s.epochNext := rfl
@[simp] theorem setCore_unfinished (s : State) (k : Nat) (c : Core) : (setCore s k c).unfinished = s.unfinished := rfl
@[simp] theorem setCore_recordBad (s : State) (k : Nat) (c : Core) : (setCore s k c).recordBad = s.recordBad := rfl
@[simp] theorem setCore_heldA (s : State) (k : Nat) (c : Core) : (setCore s k c).heldA = s.heldA := rfl
@[simp] theorem setCore_heldB (s : State) (k : Nat) (c : Core) : (setCore s k c).heldB = s.heldB := rfl
@[simp] theorem setCore_policies (s : State) (k : Nat) (c : Core) : (setCore s k c).policies = s.policies := rfl
@[simp] theorem setCore_detections (s : State) (k : Nat) (c : Core) : (setCore s k c).detections = s.detections := rfl
@[simp] theorem setCore_hangs (s : State) (k : Nat) (c : Core) : (setCore s k c).hangs = s.hangs := rfl
@[simp] theorem setCore_works (s : State) (k : Nat) (c : Core) : (setCore s k c).works = s.works := rfl
@[simp] theorem setCore_clock (s : State) (k : Nat) (c : Core) : (setCore s k c).clock = s.clock := rfl
@[simp] theorem setCore_frames (s : State) (k : Nat) (c : Core) : (setCore s k c).frames = s.frames := rfl
@[simp] theorem setCore_power (s : State) (k : Nat) (c : Core) : (setCore s k c).power = s.power := rfl
@[simp] theorem setCore_boot (s : State) (k : Nat) (c : Core) : (setCore s k c).boot = s.boot := rfl
@[simp] theorem setCore_otp (s : State) (k : Nat) (c : Core) : (setCore s k c).otp = s.otp := rfl
@[simp] theorem setCore_floor (s : State) (k : Nat) (c : Core) : (setCore s k c).floor = s.floor := rfl
@[simp] theorem setCore_pins (s : State) (k : Nat) (c : Core) : (setCore s k c).pins = s.pins := rfl
@[simp] theorem setCore_tcap (s : State) (k : Nat) (c : Core) : (setCore s k c).tcap = s.tcap := rfl
@[simp] theorem setCore_powered (s : State) (k : Nat) (c : Core) : (setCore s k c).powered = s.powered := rfl
@[simp] theorem setCore_inletEn (s : State) (k : Nat) (c : Core) : (setCore s k c).inletEn = s.inletEn := rfl
@[simp] theorem setCore_monFault (s : State) (k : Nat) (c : Core) : (setCore s k c).monFault = s.monFault := rfl
@[simp] theorem setCore_monAddr (s : State) (k : Nat) (c : Core) : (setCore s k c).monAddr = s.monAddr := rfl
@[simp] theorem setCore_jtagIr (s : State) (k : Nat) (c : Core) : (setCore s k c).jtagIr = s.jtagIr := rfl
@[simp] theorem setCore_coolantOk (s : State) (k : Nat) (c : Core) : (setCore s k c).coolantOk = s.coolantOk := rfl

/-! `setCl` writes only `clusters`. -/

@[simp] theorem setCl_pending (s : State) (k : Nat) (c : Cluster) : (setCl s k c).pending = s.pending := rfl
@[simp] theorem setCl_freeCtr (s : State) (k : Nat) (c : Cluster) : (setCl s k c).freeCtr = s.freeCtr := rfl
@[simp] theorem setCl_emitted (s : State) (k : Nat) (c : Cluster) : (setCl s k c).emitted = s.emitted := rfl
@[simp] theorem setCl_cores (s : State) (k : Nat) (c : Cluster) : (setCl s k c).cores = s.cores := rfl
@[simp] theorem setCl_clusters (s : State) (k : Nat) (c : Cluster) : (setCl s k c).clusters = smapSet Cluster.reset s.clusters k c := rfl
@[simp] theorem setCl_mesh (s : State) (k : Nat) (c : Cluster) : (setCl s k c).mesh = s.mesh := rfl
@[simp] theorem setCl_routeDark (s : State) (k : Nat) (c : Cluster) : (setCl s k c).routeDark = s.routeDark := rfl
@[simp] theorem setCl_routeFence (s : State) (k : Nat) (c : Cluster) : (setCl s k c).routeFence = s.routeFence := rfl
@[simp] theorem setCl_splice (s : State) (k : Nat) (c : Cluster) : (setCl s k c).splice = s.splice := rfl
@[simp] theorem setCl_ports (s : State) (k : Nat) (c : Cluster) : (setCl s k c).ports = s.ports := rfl
@[simp] theorem setCl_fabric (s : State) (k : Nat) (c : Cluster) : (setCl s k c).fabric = s.fabric := rfl
@[simp] theorem setCl_portA (s : State) (k : Nat) (c : Cluster) : (setCl s k c).portA = s.portA := rfl
@[simp] theorem setCl_portB (s : State) (k : Nat) (c : Cluster) : (setCl s k c).portB = s.portB := rfl
@[simp] theorem setCl_authority (s : State) (k : Nat) (c : Cluster) : (setCl s k c).authority = s.authority := rfl
@[simp] theorem setCl_heartbeat (s : State) (k : Nat) (c : Cluster) : (setCl s k c).heartbeat = s.heartbeat := rfl
@[simp] theorem setCl_slates (s : State) (k : Nat) (c : Cluster) : (setCl s k c).slates = s.slates := rfl
@[simp] theorem setCl_storyboards (s : State) (k : Nat) (c : Cluster) : (setCl s k c).storyboards = s.storyboards := rfl
@[simp] theorem setCl_scenes (s : State) (k : Nat) (c : Cluster) : (setCl s k c).scenes = s.scenes := rfl
@[simp] theorem setCl_queuedRuns (s : State) (k : Nat) (c : Cluster) : (setCl s k c).queuedRuns = s.queuedRuns := rfl
@[simp] theorem setCl_reelCopies (s : State) (k : Nat) (c : Cluster) : (setCl s k c).reelCopies = s.reelCopies := rfl
@[simp] theorem setCl_closedScenes (s : State) (k : Nat) (c : Cluster) : (setCl s k c).closedScenes = s.closedScenes := rfl
@[simp] theorem setCl_epochNext (s : State) (k : Nat) (c : Cluster) : (setCl s k c).epochNext = s.epochNext := rfl
@[simp] theorem setCl_unfinished (s : State) (k : Nat) (c : Cluster) : (setCl s k c).unfinished = s.unfinished := rfl
@[simp] theorem setCl_recordBad (s : State) (k : Nat) (c : Cluster) : (setCl s k c).recordBad = s.recordBad := rfl
@[simp] theorem setCl_heldA (s : State) (k : Nat) (c : Cluster) : (setCl s k c).heldA = s.heldA := rfl
@[simp] theorem setCl_heldB (s : State) (k : Nat) (c : Cluster) : (setCl s k c).heldB = s.heldB := rfl
@[simp] theorem setCl_policies (s : State) (k : Nat) (c : Cluster) : (setCl s k c).policies = s.policies := rfl
@[simp] theorem setCl_detections (s : State) (k : Nat) (c : Cluster) : (setCl s k c).detections = s.detections := rfl
@[simp] theorem setCl_hangs (s : State) (k : Nat) (c : Cluster) : (setCl s k c).hangs = s.hangs := rfl
@[simp] theorem setCl_works (s : State) (k : Nat) (c : Cluster) : (setCl s k c).works = s.works := rfl
@[simp] theorem setCl_clock (s : State) (k : Nat) (c : Cluster) : (setCl s k c).clock = s.clock := rfl
@[simp] theorem setCl_frames (s : State) (k : Nat) (c : Cluster) : (setCl s k c).frames = s.frames := rfl
@[simp] theorem setCl_power (s : State) (k : Nat) (c : Cluster) : (setCl s k c).power = s.power := rfl
@[simp] theorem setCl_boot (s : State) (k : Nat) (c : Cluster) : (setCl s k c).boot = s.boot := rfl
@[simp] theorem setCl_otp (s : State) (k : Nat) (c : Cluster) : (setCl s k c).otp = s.otp := rfl
@[simp] theorem setCl_floor (s : State) (k : Nat) (c : Cluster) : (setCl s k c).floor = s.floor := rfl
@[simp] theorem setCl_pins (s : State) (k : Nat) (c : Cluster) : (setCl s k c).pins = s.pins := rfl
@[simp] theorem setCl_tcap (s : State) (k : Nat) (c : Cluster) : (setCl s k c).tcap = s.tcap := rfl
@[simp] theorem setCl_powered (s : State) (k : Nat) (c : Cluster) : (setCl s k c).powered = s.powered := rfl
@[simp] theorem setCl_inletEn (s : State) (k : Nat) (c : Cluster) : (setCl s k c).inletEn = s.inletEn := rfl
@[simp] theorem setCl_monFault (s : State) (k : Nat) (c : Cluster) : (setCl s k c).monFault = s.monFault := rfl
@[simp] theorem setCl_monAddr (s : State) (k : Nat) (c : Cluster) : (setCl s k c).monAddr = s.monAddr := rfl
@[simp] theorem setCl_jtagIr (s : State) (k : Nat) (c : Cluster) : (setCl s k c).jtagIr = s.jtagIr := rfl
@[simp] theorem setCl_coolantOk (s : State) (k : Nat) (c : Cluster) : (setCl s k c).coolantOk = s.coolantOk := rfl

/-! `setPort` writes only `ports`. -/

@[simp] theorem setPort_pending (s : State) (e : Nat) (p : Port) : (setPort s e p).pending = s.pending := rfl
@[simp] theorem setPort_freeCtr (s : State) (e : Nat) (p : Port) : (setPort s e p).freeCtr = s.freeCtr := rfl
@[simp] theorem setPort_emitted (s : State) (e : Nat) (p : Port) : (setPort s e p).emitted = s.emitted := rfl
@[simp] theorem setPort_cores (s : State) (e : Nat) (p : Port) : (setPort s e p).cores = s.cores := rfl
@[simp] theorem setPort_clusters (s : State) (e : Nat) (p : Port) : (setPort s e p).clusters = s.clusters := rfl
@[simp] theorem setPort_mesh (s : State) (e : Nat) (p : Port) : (setPort s e p).mesh = s.mesh := rfl
@[simp] theorem setPort_routeDark (s : State) (e : Nat) (p : Port) : (setPort s e p).routeDark = s.routeDark := rfl
@[simp] theorem setPort_routeFence (s : State) (e : Nat) (p : Port) : (setPort s e p).routeFence = s.routeFence := rfl
@[simp] theorem setPort_splice (s : State) (e : Nat) (p : Port) : (setPort s e p).splice = s.splice := rfl
@[simp] theorem setPort_ports (s : State) (e : Nat) (p : Port) : (setPort s e p).ports = smapSet Port.reset s.ports e p := rfl
@[simp] theorem setPort_fabric (s : State) (e : Nat) (p : Port) : (setPort s e p).fabric = s.fabric := rfl
@[simp] theorem setPort_portA (s : State) (e : Nat) (p : Port) : (setPort s e p).portA = s.portA := rfl
@[simp] theorem setPort_portB (s : State) (e : Nat) (p : Port) : (setPort s e p).portB = s.portB := rfl
@[simp] theorem setPort_authority (s : State) (e : Nat) (p : Port) : (setPort s e p).authority = s.authority := rfl
@[simp] theorem setPort_heartbeat (s : State) (e : Nat) (p : Port) : (setPort s e p).heartbeat = s.heartbeat := rfl
@[simp] theorem setPort_slates (s : State) (e : Nat) (p : Port) : (setPort s e p).slates = s.slates := rfl
@[simp] theorem setPort_storyboards (s : State) (e : Nat) (p : Port) : (setPort s e p).storyboards = s.storyboards := rfl
@[simp] theorem setPort_scenes (s : State) (e : Nat) (p : Port) : (setPort s e p).scenes = s.scenes := rfl
@[simp] theorem setPort_queuedRuns (s : State) (e : Nat) (p : Port) : (setPort s e p).queuedRuns = s.queuedRuns := rfl
@[simp] theorem setPort_reelCopies (s : State) (e : Nat) (p : Port) : (setPort s e p).reelCopies = s.reelCopies := rfl
@[simp] theorem setPort_closedScenes (s : State) (e : Nat) (p : Port) : (setPort s e p).closedScenes = s.closedScenes := rfl
@[simp] theorem setPort_epochNext (s : State) (e : Nat) (p : Port) : (setPort s e p).epochNext = s.epochNext := rfl
@[simp] theorem setPort_unfinished (s : State) (e : Nat) (p : Port) : (setPort s e p).unfinished = s.unfinished := rfl
@[simp] theorem setPort_recordBad (s : State) (e : Nat) (p : Port) : (setPort s e p).recordBad = s.recordBad := rfl
@[simp] theorem setPort_heldA (s : State) (e : Nat) (p : Port) : (setPort s e p).heldA = s.heldA := rfl
@[simp] theorem setPort_heldB (s : State) (e : Nat) (p : Port) : (setPort s e p).heldB = s.heldB := rfl
@[simp] theorem setPort_policies (s : State) (e : Nat) (p : Port) : (setPort s e p).policies = s.policies := rfl
@[simp] theorem setPort_detections (s : State) (e : Nat) (p : Port) : (setPort s e p).detections = s.detections := rfl
@[simp] theorem setPort_hangs (s : State) (e : Nat) (p : Port) : (setPort s e p).hangs = s.hangs := rfl
@[simp] theorem setPort_works (s : State) (e : Nat) (p : Port) : (setPort s e p).works = s.works := rfl
@[simp] theorem setPort_clock (s : State) (e : Nat) (p : Port) : (setPort s e p).clock = s.clock := rfl
@[simp] theorem setPort_frames (s : State) (e : Nat) (p : Port) : (setPort s e p).frames = s.frames := rfl
@[simp] theorem setPort_power (s : State) (e : Nat) (p : Port) : (setPort s e p).power = s.power := rfl
@[simp] theorem setPort_boot (s : State) (e : Nat) (p : Port) : (setPort s e p).boot = s.boot := rfl
@[simp] theorem setPort_otp (s : State) (e : Nat) (p : Port) : (setPort s e p).otp = s.otp := rfl
@[simp] theorem setPort_floor (s : State) (e : Nat) (p : Port) : (setPort s e p).floor = s.floor := rfl
@[simp] theorem setPort_pins (s : State) (e : Nat) (p : Port) : (setPort s e p).pins = s.pins := rfl
@[simp] theorem setPort_tcap (s : State) (e : Nat) (p : Port) : (setPort s e p).tcap = s.tcap := rfl
@[simp] theorem setPort_powered (s : State) (e : Nat) (p : Port) : (setPort s e p).powered = s.powered := rfl
@[simp] theorem setPort_inletEn (s : State) (e : Nat) (p : Port) : (setPort s e p).inletEn = s.inletEn := rfl
@[simp] theorem setPort_monFault (s : State) (e : Nat) (p : Port) : (setPort s e p).monFault = s.monFault := rfl
@[simp] theorem setPort_monAddr (s : State) (e : Nat) (p : Port) : (setPort s e p).monAddr = s.monAddr := rfl
@[simp] theorem setPort_jtagIr (s : State) (e : Nat) (p : Port) : (setPort s e p).jtagIr = s.jtagIr := rfl
@[simp] theorem setPort_coolantOk (s : State) (e : Nat) (p : Port) : (setPort s e p).coolantOk = s.coolantOk := rfl

/-! `setSlate` writes only `slates`. -/

@[simp] theorem setSlate_pending (s : State) (n : Nat) (v : Slate) : (setSlate s n v).pending = s.pending := rfl
@[simp] theorem setSlate_freeCtr (s : State) (n : Nat) (v : Slate) : (setSlate s n v).freeCtr = s.freeCtr := rfl
@[simp] theorem setSlate_emitted (s : State) (n : Nat) (v : Slate) : (setSlate s n v).emitted = s.emitted := rfl
@[simp] theorem setSlate_cores (s : State) (n : Nat) (v : Slate) : (setSlate s n v).cores = s.cores := rfl
@[simp] theorem setSlate_clusters (s : State) (n : Nat) (v : Slate) : (setSlate s n v).clusters = s.clusters := rfl
@[simp] theorem setSlate_mesh (s : State) (n : Nat) (v : Slate) : (setSlate s n v).mesh = s.mesh := rfl
@[simp] theorem setSlate_routeDark (s : State) (n : Nat) (v : Slate) : (setSlate s n v).routeDark = s.routeDark := rfl
@[simp] theorem setSlate_routeFence (s : State) (n : Nat) (v : Slate) : (setSlate s n v).routeFence = s.routeFence := rfl
@[simp] theorem setSlate_splice (s : State) (n : Nat) (v : Slate) : (setSlate s n v).splice = s.splice := rfl
@[simp] theorem setSlate_ports (s : State) (n : Nat) (v : Slate) : (setSlate s n v).ports = s.ports := rfl
@[simp] theorem setSlate_fabric (s : State) (n : Nat) (v : Slate) : (setSlate s n v).fabric = s.fabric := rfl
@[simp] theorem setSlate_portA (s : State) (n : Nat) (v : Slate) : (setSlate s n v).portA = s.portA := rfl
@[simp] theorem setSlate_portB (s : State) (n : Nat) (v : Slate) : (setSlate s n v).portB = s.portB := rfl
@[simp] theorem setSlate_authority (s : State) (n : Nat) (v : Slate) : (setSlate s n v).authority = s.authority := rfl
@[simp] theorem setSlate_heartbeat (s : State) (n : Nat) (v : Slate) : (setSlate s n v).heartbeat = s.heartbeat := rfl
@[simp] theorem setSlate_slates (s : State) (n : Nat) (v : Slate) : (setSlate s n v).slates = smapSet Slate.reset s.slates n v := rfl
@[simp] theorem setSlate_storyboards (s : State) (n : Nat) (v : Slate) : (setSlate s n v).storyboards = s.storyboards := rfl
@[simp] theorem setSlate_scenes (s : State) (n : Nat) (v : Slate) : (setSlate s n v).scenes = s.scenes := rfl
@[simp] theorem setSlate_queuedRuns (s : State) (n : Nat) (v : Slate) : (setSlate s n v).queuedRuns = s.queuedRuns := rfl
@[simp] theorem setSlate_reelCopies (s : State) (n : Nat) (v : Slate) : (setSlate s n v).reelCopies = s.reelCopies := rfl
@[simp] theorem setSlate_closedScenes (s : State) (n : Nat) (v : Slate) : (setSlate s n v).closedScenes = s.closedScenes := rfl
@[simp] theorem setSlate_epochNext (s : State) (n : Nat) (v : Slate) : (setSlate s n v).epochNext = s.epochNext := rfl
@[simp] theorem setSlate_unfinished (s : State) (n : Nat) (v : Slate) : (setSlate s n v).unfinished = s.unfinished := rfl
@[simp] theorem setSlate_recordBad (s : State) (n : Nat) (v : Slate) : (setSlate s n v).recordBad = s.recordBad := rfl
@[simp] theorem setSlate_heldA (s : State) (n : Nat) (v : Slate) : (setSlate s n v).heldA = s.heldA := rfl
@[simp] theorem setSlate_heldB (s : State) (n : Nat) (v : Slate) : (setSlate s n v).heldB = s.heldB := rfl
@[simp] theorem setSlate_policies (s : State) (n : Nat) (v : Slate) : (setSlate s n v).policies = s.policies := rfl
@[simp] theorem setSlate_detections (s : State) (n : Nat) (v : Slate) : (setSlate s n v).detections = s.detections := rfl
@[simp] theorem setSlate_hangs (s : State) (n : Nat) (v : Slate) : (setSlate s n v).hangs = s.hangs := rfl
@[simp] theorem setSlate_works (s : State) (n : Nat) (v : Slate) : (setSlate s n v).works = s.works := rfl
@[simp] theorem setSlate_clock (s : State) (n : Nat) (v : Slate) : (setSlate s n v).clock = s.clock := rfl
@[simp] theorem setSlate_frames (s : State) (n : Nat) (v : Slate) : (setSlate s n v).frames = s.frames := rfl
@[simp] theorem setSlate_power (s : State) (n : Nat) (v : Slate) : (setSlate s n v).power = s.power := rfl
@[simp] theorem setSlate_boot (s : State) (n : Nat) (v : Slate) : (setSlate s n v).boot = s.boot := rfl
@[simp] theorem setSlate_otp (s : State) (n : Nat) (v : Slate) : (setSlate s n v).otp = s.otp := rfl
@[simp] theorem setSlate_floor (s : State) (n : Nat) (v : Slate) : (setSlate s n v).floor = s.floor := rfl
@[simp] theorem setSlate_pins (s : State) (n : Nat) (v : Slate) : (setSlate s n v).pins = s.pins := rfl
@[simp] theorem setSlate_tcap (s : State) (n : Nat) (v : Slate) : (setSlate s n v).tcap = s.tcap := rfl
@[simp] theorem setSlate_powered (s : State) (n : Nat) (v : Slate) : (setSlate s n v).powered = s.powered := rfl
@[simp] theorem setSlate_inletEn (s : State) (n : Nat) (v : Slate) : (setSlate s n v).inletEn = s.inletEn := rfl
@[simp] theorem setSlate_monFault (s : State) (n : Nat) (v : Slate) : (setSlate s n v).monFault = s.monFault := rfl
@[simp] theorem setSlate_monAddr (s : State) (n : Nat) (v : Slate) : (setSlate s n v).monAddr = s.monAddr := rfl
@[simp] theorem setSlate_jtagIr (s : State) (n : Nat) (v : Slate) : (setSlate s n v).jtagIr = s.jtagIr := rfl
@[simp] theorem setSlate_coolantOk (s : State) (n : Nat) (v : Slate) : (setSlate s n v).coolantOk = s.coolantOk := rfl

/-! `setFrame` writes only `frames`. -/

@[simp] theorem setFrame_pending (s : State) (f : Nat) (v : Frame) : (setFrame s f v).pending = s.pending := rfl
@[simp] theorem setFrame_freeCtr (s : State) (f : Nat) (v : Frame) : (setFrame s f v).freeCtr = s.freeCtr := rfl
@[simp] theorem setFrame_emitted (s : State) (f : Nat) (v : Frame) : (setFrame s f v).emitted = s.emitted := rfl
@[simp] theorem setFrame_cores (s : State) (f : Nat) (v : Frame) : (setFrame s f v).cores = s.cores := rfl
@[simp] theorem setFrame_clusters (s : State) (f : Nat) (v : Frame) : (setFrame s f v).clusters = s.clusters := rfl
@[simp] theorem setFrame_mesh (s : State) (f : Nat) (v : Frame) : (setFrame s f v).mesh = s.mesh := rfl
@[simp] theorem setFrame_routeDark (s : State) (f : Nat) (v : Frame) : (setFrame s f v).routeDark = s.routeDark := rfl
@[simp] theorem setFrame_routeFence (s : State) (f : Nat) (v : Frame) : (setFrame s f v).routeFence = s.routeFence := rfl
@[simp] theorem setFrame_splice (s : State) (f : Nat) (v : Frame) : (setFrame s f v).splice = s.splice := rfl
@[simp] theorem setFrame_ports (s : State) (f : Nat) (v : Frame) : (setFrame s f v).ports = s.ports := rfl
@[simp] theorem setFrame_fabric (s : State) (f : Nat) (v : Frame) : (setFrame s f v).fabric = s.fabric := rfl
@[simp] theorem setFrame_portA (s : State) (f : Nat) (v : Frame) : (setFrame s f v).portA = s.portA := rfl
@[simp] theorem setFrame_portB (s : State) (f : Nat) (v : Frame) : (setFrame s f v).portB = s.portB := rfl
@[simp] theorem setFrame_authority (s : State) (f : Nat) (v : Frame) : (setFrame s f v).authority = s.authority := rfl
@[simp] theorem setFrame_heartbeat (s : State) (f : Nat) (v : Frame) : (setFrame s f v).heartbeat = s.heartbeat := rfl
@[simp] theorem setFrame_slates (s : State) (f : Nat) (v : Frame) : (setFrame s f v).slates = s.slates := rfl
@[simp] theorem setFrame_storyboards (s : State) (f : Nat) (v : Frame) : (setFrame s f v).storyboards = s.storyboards := rfl
@[simp] theorem setFrame_scenes (s : State) (f : Nat) (v : Frame) : (setFrame s f v).scenes = s.scenes := rfl
@[simp] theorem setFrame_queuedRuns (s : State) (f : Nat) (v : Frame) : (setFrame s f v).queuedRuns = s.queuedRuns := rfl
@[simp] theorem setFrame_reelCopies (s : State) (f : Nat) (v : Frame) : (setFrame s f v).reelCopies = s.reelCopies := rfl
@[simp] theorem setFrame_closedScenes (s : State) (f : Nat) (v : Frame) : (setFrame s f v).closedScenes = s.closedScenes := rfl
@[simp] theorem setFrame_epochNext (s : State) (f : Nat) (v : Frame) : (setFrame s f v).epochNext = s.epochNext := rfl
@[simp] theorem setFrame_unfinished (s : State) (f : Nat) (v : Frame) : (setFrame s f v).unfinished = s.unfinished := rfl
@[simp] theorem setFrame_recordBad (s : State) (f : Nat) (v : Frame) : (setFrame s f v).recordBad = s.recordBad := rfl
@[simp] theorem setFrame_heldA (s : State) (f : Nat) (v : Frame) : (setFrame s f v).heldA = s.heldA := rfl
@[simp] theorem setFrame_heldB (s : State) (f : Nat) (v : Frame) : (setFrame s f v).heldB = s.heldB := rfl
@[simp] theorem setFrame_policies (s : State) (f : Nat) (v : Frame) : (setFrame s f v).policies = s.policies := rfl
@[simp] theorem setFrame_detections (s : State) (f : Nat) (v : Frame) : (setFrame s f v).detections = s.detections := rfl
@[simp] theorem setFrame_hangs (s : State) (f : Nat) (v : Frame) : (setFrame s f v).hangs = s.hangs := rfl
@[simp] theorem setFrame_works (s : State) (f : Nat) (v : Frame) : (setFrame s f v).works = s.works := rfl
@[simp] theorem setFrame_clock (s : State) (f : Nat) (v : Frame) : (setFrame s f v).clock = s.clock := rfl
@[simp] theorem setFrame_frames (s : State) (f : Nat) (v : Frame) : (setFrame s f v).frames = smapSet Frame.reset s.frames f v := rfl
@[simp] theorem setFrame_power (s : State) (f : Nat) (v : Frame) : (setFrame s f v).power = s.power := rfl
@[simp] theorem setFrame_boot (s : State) (f : Nat) (v : Frame) : (setFrame s f v).boot = s.boot := rfl
@[simp] theorem setFrame_otp (s : State) (f : Nat) (v : Frame) : (setFrame s f v).otp = s.otp := rfl
@[simp] theorem setFrame_floor (s : State) (f : Nat) (v : Frame) : (setFrame s f v).floor = s.floor := rfl
@[simp] theorem setFrame_pins (s : State) (f : Nat) (v : Frame) : (setFrame s f v).pins = s.pins := rfl
@[simp] theorem setFrame_tcap (s : State) (f : Nat) (v : Frame) : (setFrame s f v).tcap = s.tcap := rfl
@[simp] theorem setFrame_powered (s : State) (f : Nat) (v : Frame) : (setFrame s f v).powered = s.powered := rfl
@[simp] theorem setFrame_inletEn (s : State) (f : Nat) (v : Frame) : (setFrame s f v).inletEn = s.inletEn := rfl
@[simp] theorem setFrame_monFault (s : State) (f : Nat) (v : Frame) : (setFrame s f v).monFault = s.monFault := rfl
@[simp] theorem setFrame_monAddr (s : State) (f : Nat) (v : Frame) : (setFrame s f v).monAddr = s.monAddr := rfl
@[simp] theorem setFrame_jtagIr (s : State) (f : Nat) (v : Frame) : (setFrame s f v).jtagIr = s.jtagIr := rfl
@[simp] theorem setFrame_coolantOk (s : State) (f : Nat) (v : Frame) : (setFrame s f v).coolantOk = s.coolantOk := rfl

/-! `setPin` writes only `pins`. -/

@[simp] theorem setPin_pending (s : State) (n : Nat) (v : Pin) : (setPin s n v).pending = s.pending := rfl
@[simp] theorem setPin_freeCtr (s : State) (n : Nat) (v : Pin) : (setPin s n v).freeCtr = s.freeCtr := rfl
@[simp] theorem setPin_emitted (s : State) (n : Nat) (v : Pin) : (setPin s n v).emitted = s.emitted := rfl
@[simp] theorem setPin_cores (s : State) (n : Nat) (v : Pin) : (setPin s n v).cores = s.cores := rfl
@[simp] theorem setPin_clusters (s : State) (n : Nat) (v : Pin) : (setPin s n v).clusters = s.clusters := rfl
@[simp] theorem setPin_mesh (s : State) (n : Nat) (v : Pin) : (setPin s n v).mesh = s.mesh := rfl
@[simp] theorem setPin_routeDark (s : State) (n : Nat) (v : Pin) : (setPin s n v).routeDark = s.routeDark := rfl
@[simp] theorem setPin_routeFence (s : State) (n : Nat) (v : Pin) : (setPin s n v).routeFence = s.routeFence := rfl
@[simp] theorem setPin_splice (s : State) (n : Nat) (v : Pin) : (setPin s n v).splice = s.splice := rfl
@[simp] theorem setPin_ports (s : State) (n : Nat) (v : Pin) : (setPin s n v).ports = s.ports := rfl
@[simp] theorem setPin_fabric (s : State) (n : Nat) (v : Pin) : (setPin s n v).fabric = s.fabric := rfl
@[simp] theorem setPin_portA (s : State) (n : Nat) (v : Pin) : (setPin s n v).portA = s.portA := rfl
@[simp] theorem setPin_portB (s : State) (n : Nat) (v : Pin) : (setPin s n v).portB = s.portB := rfl
@[simp] theorem setPin_authority (s : State) (n : Nat) (v : Pin) : (setPin s n v).authority = s.authority := rfl
@[simp] theorem setPin_heartbeat (s : State) (n : Nat) (v : Pin) : (setPin s n v).heartbeat = s.heartbeat := rfl
@[simp] theorem setPin_slates (s : State) (n : Nat) (v : Pin) : (setPin s n v).slates = s.slates := rfl
@[simp] theorem setPin_storyboards (s : State) (n : Nat) (v : Pin) : (setPin s n v).storyboards = s.storyboards := rfl
@[simp] theorem setPin_scenes (s : State) (n : Nat) (v : Pin) : (setPin s n v).scenes = s.scenes := rfl
@[simp] theorem setPin_queuedRuns (s : State) (n : Nat) (v : Pin) : (setPin s n v).queuedRuns = s.queuedRuns := rfl
@[simp] theorem setPin_reelCopies (s : State) (n : Nat) (v : Pin) : (setPin s n v).reelCopies = s.reelCopies := rfl
@[simp] theorem setPin_closedScenes (s : State) (n : Nat) (v : Pin) : (setPin s n v).closedScenes = s.closedScenes := rfl
@[simp] theorem setPin_epochNext (s : State) (n : Nat) (v : Pin) : (setPin s n v).epochNext = s.epochNext := rfl
@[simp] theorem setPin_unfinished (s : State) (n : Nat) (v : Pin) : (setPin s n v).unfinished = s.unfinished := rfl
@[simp] theorem setPin_recordBad (s : State) (n : Nat) (v : Pin) : (setPin s n v).recordBad = s.recordBad := rfl
@[simp] theorem setPin_heldA (s : State) (n : Nat) (v : Pin) : (setPin s n v).heldA = s.heldA := rfl
@[simp] theorem setPin_heldB (s : State) (n : Nat) (v : Pin) : (setPin s n v).heldB = s.heldB := rfl
@[simp] theorem setPin_policies (s : State) (n : Nat) (v : Pin) : (setPin s n v).policies = s.policies := rfl
@[simp] theorem setPin_detections (s : State) (n : Nat) (v : Pin) : (setPin s n v).detections = s.detections := rfl
@[simp] theorem setPin_hangs (s : State) (n : Nat) (v : Pin) : (setPin s n v).hangs = s.hangs := rfl
@[simp] theorem setPin_works (s : State) (n : Nat) (v : Pin) : (setPin s n v).works = s.works := rfl
@[simp] theorem setPin_clock (s : State) (n : Nat) (v : Pin) : (setPin s n v).clock = s.clock := rfl
@[simp] theorem setPin_frames (s : State) (n : Nat) (v : Pin) : (setPin s n v).frames = s.frames := rfl
@[simp] theorem setPin_power (s : State) (n : Nat) (v : Pin) : (setPin s n v).power = s.power := rfl
@[simp] theorem setPin_boot (s : State) (n : Nat) (v : Pin) : (setPin s n v).boot = s.boot := rfl
@[simp] theorem setPin_otp (s : State) (n : Nat) (v : Pin) : (setPin s n v).otp = s.otp := rfl
@[simp] theorem setPin_floor (s : State) (n : Nat) (v : Pin) : (setPin s n v).floor = s.floor := rfl
@[simp] theorem setPin_pins (s : State) (n : Nat) (v : Pin) : (setPin s n v).pins = smapSet Pin.reset s.pins n v := rfl
@[simp] theorem setPin_tcap (s : State) (n : Nat) (v : Pin) : (setPin s n v).tcap = s.tcap := rfl
@[simp] theorem setPin_powered (s : State) (n : Nat) (v : Pin) : (setPin s n v).powered = s.powered := rfl
@[simp] theorem setPin_inletEn (s : State) (n : Nat) (v : Pin) : (setPin s n v).inletEn = s.inletEn := rfl
@[simp] theorem setPin_monFault (s : State) (n : Nat) (v : Pin) : (setPin s n v).monFault = s.monFault := rfl
@[simp] theorem setPin_monAddr (s : State) (n : Nat) (v : Pin) : (setPin s n v).monAddr = s.monAddr := rfl
@[simp] theorem setPin_jtagIr (s : State) (n : Nat) (v : Pin) : (setPin s n v).jtagIr = s.jtagIr := rfl
@[simp] theorem setPin_coolantOk (s : State) (n : Nat) (v : Pin) : (setPin s n v).coolantOk = s.coolantOk := rfl

/-! `setPolicy` writes only `policies`. -/

@[simp] theorem setPolicy_pending (s : State) (n : Nat) (v : Policy) : (setPolicy s n v).pending = s.pending := rfl
@[simp] theorem setPolicy_freeCtr (s : State) (n : Nat) (v : Policy) : (setPolicy s n v).freeCtr = s.freeCtr := rfl
@[simp] theorem setPolicy_emitted (s : State) (n : Nat) (v : Policy) : (setPolicy s n v).emitted = s.emitted := rfl
@[simp] theorem setPolicy_cores (s : State) (n : Nat) (v : Policy) : (setPolicy s n v).cores = s.cores := rfl
@[simp] theorem setPolicy_clusters (s : State) (n : Nat) (v : Policy) : (setPolicy s n v).clusters = s.clusters := rfl
@[simp] theorem setPolicy_mesh (s : State) (n : Nat) (v : Policy) : (setPolicy s n v).mesh = s.mesh := rfl
@[simp] theorem setPolicy_routeDark (s : State) (n : Nat) (v : Policy) : (setPolicy s n v).routeDark = s.routeDark := rfl
@[simp] theorem setPolicy_routeFence (s : State) (n : Nat) (v : Policy) : (setPolicy s n v).routeFence = s.routeFence := rfl
@[simp] theorem setPolicy_splice (s : State) (n : Nat) (v : Policy) : (setPolicy s n v).splice = s.splice := rfl
@[simp] theorem setPolicy_ports (s : State) (n : Nat) (v : Policy) : (setPolicy s n v).ports = s.ports := rfl
@[simp] theorem setPolicy_fabric (s : State) (n : Nat) (v : Policy) : (setPolicy s n v).fabric = s.fabric := rfl
@[simp] theorem setPolicy_portA (s : State) (n : Nat) (v : Policy) : (setPolicy s n v).portA = s.portA := rfl
@[simp] theorem setPolicy_portB (s : State) (n : Nat) (v : Policy) : (setPolicy s n v).portB = s.portB := rfl
@[simp] theorem setPolicy_authority (s : State) (n : Nat) (v : Policy) : (setPolicy s n v).authority = s.authority := rfl
@[simp] theorem setPolicy_heartbeat (s : State) (n : Nat) (v : Policy) : (setPolicy s n v).heartbeat = s.heartbeat := rfl
@[simp] theorem setPolicy_slates (s : State) (n : Nat) (v : Policy) : (setPolicy s n v).slates = s.slates := rfl
@[simp] theorem setPolicy_storyboards (s : State) (n : Nat) (v : Policy) : (setPolicy s n v).storyboards = s.storyboards := rfl
@[simp] theorem setPolicy_scenes (s : State) (n : Nat) (v : Policy) : (setPolicy s n v).scenes = s.scenes := rfl
@[simp] theorem setPolicy_queuedRuns (s : State) (n : Nat) (v : Policy) : (setPolicy s n v).queuedRuns = s.queuedRuns := rfl
@[simp] theorem setPolicy_reelCopies (s : State) (n : Nat) (v : Policy) : (setPolicy s n v).reelCopies = s.reelCopies := rfl
@[simp] theorem setPolicy_closedScenes (s : State) (n : Nat) (v : Policy) : (setPolicy s n v).closedScenes = s.closedScenes := rfl
@[simp] theorem setPolicy_epochNext (s : State) (n : Nat) (v : Policy) : (setPolicy s n v).epochNext = s.epochNext := rfl
@[simp] theorem setPolicy_unfinished (s : State) (n : Nat) (v : Policy) : (setPolicy s n v).unfinished = s.unfinished := rfl
@[simp] theorem setPolicy_recordBad (s : State) (n : Nat) (v : Policy) : (setPolicy s n v).recordBad = s.recordBad := rfl
@[simp] theorem setPolicy_heldA (s : State) (n : Nat) (v : Policy) : (setPolicy s n v).heldA = s.heldA := rfl
@[simp] theorem setPolicy_heldB (s : State) (n : Nat) (v : Policy) : (setPolicy s n v).heldB = s.heldB := rfl
@[simp] theorem setPolicy_policies (s : State) (n : Nat) (v : Policy) : (setPolicy s n v).policies = smapSet policyDefault s.policies n v := rfl
@[simp] theorem setPolicy_detections (s : State) (n : Nat) (v : Policy) : (setPolicy s n v).detections = s.detections := rfl
@[simp] theorem setPolicy_hangs (s : State) (n : Nat) (v : Policy) : (setPolicy s n v).hangs = s.hangs := rfl
@[simp] theorem setPolicy_works (s : State) (n : Nat) (v : Policy) : (setPolicy s n v).works = s.works := rfl
@[simp] theorem setPolicy_clock (s : State) (n : Nat) (v : Policy) : (setPolicy s n v).clock = s.clock := rfl
@[simp] theorem setPolicy_frames (s : State) (n : Nat) (v : Policy) : (setPolicy s n v).frames = s.frames := rfl
@[simp] theorem setPolicy_power (s : State) (n : Nat) (v : Policy) : (setPolicy s n v).power = s.power := rfl
@[simp] theorem setPolicy_boot (s : State) (n : Nat) (v : Policy) : (setPolicy s n v).boot = s.boot := rfl
@[simp] theorem setPolicy_otp (s : State) (n : Nat) (v : Policy) : (setPolicy s n v).otp = s.otp := rfl
@[simp] theorem setPolicy_floor (s : State) (n : Nat) (v : Policy) : (setPolicy s n v).floor = s.floor := rfl
@[simp] theorem setPolicy_pins (s : State) (n : Nat) (v : Policy) : (setPolicy s n v).pins = s.pins := rfl
@[simp] theorem setPolicy_tcap (s : State) (n : Nat) (v : Policy) : (setPolicy s n v).tcap = s.tcap := rfl
@[simp] theorem setPolicy_powered (s : State) (n : Nat) (v : Policy) : (setPolicy s n v).powered = s.powered := rfl
@[simp] theorem setPolicy_inletEn (s : State) (n : Nat) (v : Policy) : (setPolicy s n v).inletEn = s.inletEn := rfl
@[simp] theorem setPolicy_monFault (s : State) (n : Nat) (v : Policy) : (setPolicy s n v).monFault = s.monFault := rfl
@[simp] theorem setPolicy_monAddr (s : State) (n : Nat) (v : Policy) : (setPolicy s n v).monAddr = s.monAddr := rfl
@[simp] theorem setPolicy_jtagIr (s : State) (n : Nat) (v : Policy) : (setPolicy s n v).jtagIr = s.jtagIr := rfl
@[simp] theorem setPolicy_coolantOk (s : State) (n : Nat) (v : Policy) : (setPolicy s n v).coolantOk = s.coolantOk := rfl

/-! `emit` writes only `emitted`. -/

@[simp] theorem emit_pending (s : State) (e : Emission) : (emit s e).pending = s.pending := rfl
@[simp] theorem emit_freeCtr (s : State) (e : Emission) : (emit s e).freeCtr = s.freeCtr := rfl
@[simp] theorem emit_emitted (s : State) (e : Emission) : (emit s e).emitted = s.emitted ++ [e] := rfl
@[simp] theorem emit_cores (s : State) (e : Emission) : (emit s e).cores = s.cores := rfl
@[simp] theorem emit_clusters (s : State) (e : Emission) : (emit s e).clusters = s.clusters := rfl
@[simp] theorem emit_mesh (s : State) (e : Emission) : (emit s e).mesh = s.mesh := rfl
@[simp] theorem emit_routeDark (s : State) (e : Emission) : (emit s e).routeDark = s.routeDark := rfl
@[simp] theorem emit_routeFence (s : State) (e : Emission) : (emit s e).routeFence = s.routeFence := rfl
@[simp] theorem emit_splice (s : State) (e : Emission) : (emit s e).splice = s.splice := rfl
@[simp] theorem emit_ports (s : State) (e : Emission) : (emit s e).ports = s.ports := rfl
@[simp] theorem emit_fabric (s : State) (e : Emission) : (emit s e).fabric = s.fabric := rfl
@[simp] theorem emit_portA (s : State) (e : Emission) : (emit s e).portA = s.portA := rfl
@[simp] theorem emit_portB (s : State) (e : Emission) : (emit s e).portB = s.portB := rfl
@[simp] theorem emit_authority (s : State) (e : Emission) : (emit s e).authority = s.authority := rfl
@[simp] theorem emit_heartbeat (s : State) (e : Emission) : (emit s e).heartbeat = s.heartbeat := rfl
@[simp] theorem emit_slates (s : State) (e : Emission) : (emit s e).slates = s.slates := rfl
@[simp] theorem emit_storyboards (s : State) (e : Emission) : (emit s e).storyboards = s.storyboards := rfl
@[simp] theorem emit_scenes (s : State) (e : Emission) : (emit s e).scenes = s.scenes := rfl
@[simp] theorem emit_queuedRuns (s : State) (e : Emission) : (emit s e).queuedRuns = s.queuedRuns := rfl
@[simp] theorem emit_reelCopies (s : State) (e : Emission) : (emit s e).reelCopies = s.reelCopies := rfl
@[simp] theorem emit_closedScenes (s : State) (e : Emission) : (emit s e).closedScenes = s.closedScenes := rfl
@[simp] theorem emit_epochNext (s : State) (e : Emission) : (emit s e).epochNext = s.epochNext := rfl
@[simp] theorem emit_unfinished (s : State) (e : Emission) : (emit s e).unfinished = s.unfinished := rfl
@[simp] theorem emit_recordBad (s : State) (e : Emission) : (emit s e).recordBad = s.recordBad := rfl
@[simp] theorem emit_heldA (s : State) (e : Emission) : (emit s e).heldA = s.heldA := rfl
@[simp] theorem emit_heldB (s : State) (e : Emission) : (emit s e).heldB = s.heldB := rfl
@[simp] theorem emit_policies (s : State) (e : Emission) : (emit s e).policies = s.policies := rfl
@[simp] theorem emit_detections (s : State) (e : Emission) : (emit s e).detections = s.detections := rfl
@[simp] theorem emit_hangs (s : State) (e : Emission) : (emit s e).hangs = s.hangs := rfl
@[simp] theorem emit_works (s : State) (e : Emission) : (emit s e).works = s.works := rfl
@[simp] theorem emit_clock (s : State) (e : Emission) : (emit s e).clock = s.clock := rfl
@[simp] theorem emit_frames (s : State) (e : Emission) : (emit s e).frames = s.frames := rfl
@[simp] theorem emit_power (s : State) (e : Emission) : (emit s e).power = s.power := rfl
@[simp] theorem emit_boot (s : State) (e : Emission) : (emit s e).boot = s.boot := rfl
@[simp] theorem emit_otp (s : State) (e : Emission) : (emit s e).otp = s.otp := rfl
@[simp] theorem emit_floor (s : State) (e : Emission) : (emit s e).floor = s.floor := rfl
@[simp] theorem emit_pins (s : State) (e : Emission) : (emit s e).pins = s.pins := rfl
@[simp] theorem emit_tcap (s : State) (e : Emission) : (emit s e).tcap = s.tcap := rfl
@[simp] theorem emit_powered (s : State) (e : Emission) : (emit s e).powered = s.powered := rfl
@[simp] theorem emit_inletEn (s : State) (e : Emission) : (emit s e).inletEn = s.inletEn := rfl
@[simp] theorem emit_monFault (s : State) (e : Emission) : (emit s e).monFault = s.monFault := rfl
@[simp] theorem emit_monAddr (s : State) (e : Emission) : (emit s e).monAddr = s.monAddr := rfl
@[simp] theorem emit_jtagIr (s : State) (e : Emission) : (emit s e).jtagIr = s.jtagIr := rfl
@[simp] theorem emit_coolantOk (s : State) (e : Emission) : (emit s e).coolantOk = s.coolantOk := rfl

/-! `detect` writes only `detections`. -/

@[simp] theorem detect_pending (s : State) (d : Detection) : (detect s d).pending = s.pending := rfl
@[simp] theorem detect_freeCtr (s : State) (d : Detection) : (detect s d).freeCtr = s.freeCtr := rfl
@[simp] theorem detect_emitted (s : State) (d : Detection) : (detect s d).emitted = s.emitted := rfl
@[simp] theorem detect_cores (s : State) (d : Detection) : (detect s d).cores = s.cores := rfl
@[simp] theorem detect_clusters (s : State) (d : Detection) : (detect s d).clusters = s.clusters := rfl
@[simp] theorem detect_mesh (s : State) (d : Detection) : (detect s d).mesh = s.mesh := rfl
@[simp] theorem detect_routeDark (s : State) (d : Detection) : (detect s d).routeDark = s.routeDark := rfl
@[simp] theorem detect_routeFence (s : State) (d : Detection) : (detect s d).routeFence = s.routeFence := rfl
@[simp] theorem detect_splice (s : State) (d : Detection) : (detect s d).splice = s.splice := rfl
@[simp] theorem detect_ports (s : State) (d : Detection) : (detect s d).ports = s.ports := rfl
@[simp] theorem detect_fabric (s : State) (d : Detection) : (detect s d).fabric = s.fabric := rfl
@[simp] theorem detect_portA (s : State) (d : Detection) : (detect s d).portA = s.portA := rfl
@[simp] theorem detect_portB (s : State) (d : Detection) : (detect s d).portB = s.portB := rfl
@[simp] theorem detect_authority (s : State) (d : Detection) : (detect s d).authority = s.authority := rfl
@[simp] theorem detect_heartbeat (s : State) (d : Detection) : (detect s d).heartbeat = s.heartbeat := rfl
@[simp] theorem detect_slates (s : State) (d : Detection) : (detect s d).slates = s.slates := rfl
@[simp] theorem detect_storyboards (s : State) (d : Detection) : (detect s d).storyboards = s.storyboards := rfl
@[simp] theorem detect_scenes (s : State) (d : Detection) : (detect s d).scenes = s.scenes := rfl
@[simp] theorem detect_queuedRuns (s : State) (d : Detection) : (detect s d).queuedRuns = s.queuedRuns := rfl
@[simp] theorem detect_reelCopies (s : State) (d : Detection) : (detect s d).reelCopies = s.reelCopies := rfl
@[simp] theorem detect_closedScenes (s : State) (d : Detection) : (detect s d).closedScenes = s.closedScenes := rfl
@[simp] theorem detect_epochNext (s : State) (d : Detection) : (detect s d).epochNext = s.epochNext := rfl
@[simp] theorem detect_unfinished (s : State) (d : Detection) : (detect s d).unfinished = s.unfinished := rfl
@[simp] theorem detect_recordBad (s : State) (d : Detection) : (detect s d).recordBad = s.recordBad := rfl
@[simp] theorem detect_heldA (s : State) (d : Detection) : (detect s d).heldA = s.heldA := rfl
@[simp] theorem detect_heldB (s : State) (d : Detection) : (detect s d).heldB = s.heldB := rfl
@[simp] theorem detect_policies (s : State) (d : Detection) : (detect s d).policies = s.policies := rfl
@[simp] theorem detect_detections (s : State) (d : Detection) : (detect s d).detections = s.detections ++ [d] := rfl
@[simp] theorem detect_hangs (s : State) (d : Detection) : (detect s d).hangs = s.hangs := rfl
@[simp] theorem detect_works (s : State) (d : Detection) : (detect s d).works = s.works := rfl
@[simp] theorem detect_clock (s : State) (d : Detection) : (detect s d).clock = s.clock := rfl
@[simp] theorem detect_frames (s : State) (d : Detection) : (detect s d).frames = s.frames := rfl
@[simp] theorem detect_power (s : State) (d : Detection) : (detect s d).power = s.power := rfl
@[simp] theorem detect_boot (s : State) (d : Detection) : (detect s d).boot = s.boot := rfl
@[simp] theorem detect_otp (s : State) (d : Detection) : (detect s d).otp = s.otp := rfl
@[simp] theorem detect_floor (s : State) (d : Detection) : (detect s d).floor = s.floor := rfl
@[simp] theorem detect_pins (s : State) (d : Detection) : (detect s d).pins = s.pins := rfl
@[simp] theorem detect_tcap (s : State) (d : Detection) : (detect s d).tcap = s.tcap := rfl
@[simp] theorem detect_powered (s : State) (d : Detection) : (detect s d).powered = s.powered := rfl
@[simp] theorem detect_inletEn (s : State) (d : Detection) : (detect s d).inletEn = s.inletEn := rfl
@[simp] theorem detect_monFault (s : State) (d : Detection) : (detect s d).monFault = s.monFault := rfl
@[simp] theorem detect_monAddr (s : State) (d : Detection) : (detect s d).monAddr = s.monAddr := rfl
@[simp] theorem detect_jtagIr (s : State) (d : Detection) : (detect s d).jtagIr = s.jtagIr := rfl
@[simp] theorem detect_coolantOk (s : State) (d : Detection) : (detect s d).coolantOk = s.coolantOk := rfl

/-! `setScene` writes only `scenes`. -/

@[simp] theorem setScene_pending (s : State) (x : Scene) : (setScene s x).pending = s.pending := rfl
@[simp] theorem setScene_freeCtr (s : State) (x : Scene) : (setScene s x).freeCtr = s.freeCtr := rfl
@[simp] theorem setScene_emitted (s : State) (x : Scene) : (setScene s x).emitted = s.emitted := rfl
@[simp] theorem setScene_cores (s : State) (x : Scene) : (setScene s x).cores = s.cores := rfl
@[simp] theorem setScene_clusters (s : State) (x : Scene) : (setScene s x).clusters = s.clusters := rfl
@[simp] theorem setScene_mesh (s : State) (x : Scene) : (setScene s x).mesh = s.mesh := rfl
@[simp] theorem setScene_routeDark (s : State) (x : Scene) : (setScene s x).routeDark = s.routeDark := rfl
@[simp] theorem setScene_routeFence (s : State) (x : Scene) : (setScene s x).routeFence = s.routeFence := rfl
@[simp] theorem setScene_splice (s : State) (x : Scene) : (setScene s x).splice = s.splice := rfl
@[simp] theorem setScene_ports (s : State) (x : Scene) : (setScene s x).ports = s.ports := rfl
@[simp] theorem setScene_fabric (s : State) (x : Scene) : (setScene s x).fabric = s.fabric := rfl
@[simp] theorem setScene_portA (s : State) (x : Scene) : (setScene s x).portA = s.portA := rfl
@[simp] theorem setScene_portB (s : State) (x : Scene) : (setScene s x).portB = s.portB := rfl
@[simp] theorem setScene_authority (s : State) (x : Scene) : (setScene s x).authority = s.authority := rfl
@[simp] theorem setScene_heartbeat (s : State) (x : Scene) : (setScene s x).heartbeat = s.heartbeat := rfl
@[simp] theorem setScene_slates (s : State) (x : Scene) : (setScene s x).slates = s.slates := rfl
@[simp] theorem setScene_storyboards (s : State) (x : Scene) : (setScene s x).storyboards = s.storyboards := rfl
@[simp] theorem setScene_scenes (s : State) (x : Scene) : (setScene s x).scenes = s.scenes.map fun y => if sameScene y x then x else y := rfl
@[simp] theorem setScene_queuedRuns (s : State) (x : Scene) : (setScene s x).queuedRuns = s.queuedRuns := rfl
@[simp] theorem setScene_reelCopies (s : State) (x : Scene) : (setScene s x).reelCopies = s.reelCopies := rfl
@[simp] theorem setScene_closedScenes (s : State) (x : Scene) : (setScene s x).closedScenes = s.closedScenes := rfl
@[simp] theorem setScene_epochNext (s : State) (x : Scene) : (setScene s x).epochNext = s.epochNext := rfl
@[simp] theorem setScene_unfinished (s : State) (x : Scene) : (setScene s x).unfinished = s.unfinished := rfl
@[simp] theorem setScene_recordBad (s : State) (x : Scene) : (setScene s x).recordBad = s.recordBad := rfl
@[simp] theorem setScene_heldA (s : State) (x : Scene) : (setScene s x).heldA = s.heldA := rfl
@[simp] theorem setScene_heldB (s : State) (x : Scene) : (setScene s x).heldB = s.heldB := rfl
@[simp] theorem setScene_policies (s : State) (x : Scene) : (setScene s x).policies = s.policies := rfl
@[simp] theorem setScene_detections (s : State) (x : Scene) : (setScene s x).detections = s.detections := rfl
@[simp] theorem setScene_hangs (s : State) (x : Scene) : (setScene s x).hangs = s.hangs := rfl
@[simp] theorem setScene_works (s : State) (x : Scene) : (setScene s x).works = s.works := rfl
@[simp] theorem setScene_clock (s : State) (x : Scene) : (setScene s x).clock = s.clock := rfl
@[simp] theorem setScene_frames (s : State) (x : Scene) : (setScene s x).frames = s.frames := rfl
@[simp] theorem setScene_power (s : State) (x : Scene) : (setScene s x).power = s.power := rfl
@[simp] theorem setScene_boot (s : State) (x : Scene) : (setScene s x).boot = s.boot := rfl
@[simp] theorem setScene_otp (s : State) (x : Scene) : (setScene s x).otp = s.otp := rfl
@[simp] theorem setScene_floor (s : State) (x : Scene) : (setScene s x).floor = s.floor := rfl
@[simp] theorem setScene_pins (s : State) (x : Scene) : (setScene s x).pins = s.pins := rfl
@[simp] theorem setScene_tcap (s : State) (x : Scene) : (setScene s x).tcap = s.tcap := rfl
@[simp] theorem setScene_powered (s : State) (x : Scene) : (setScene s x).powered = s.powered := rfl
@[simp] theorem setScene_inletEn (s : State) (x : Scene) : (setScene s x).inletEn = s.inletEn := rfl
@[simp] theorem setScene_monFault (s : State) (x : Scene) : (setScene s x).monFault = s.monFault := rfl
@[simp] theorem setScene_monAddr (s : State) (x : Scene) : (setScene s x).monAddr = s.monAddr := rfl
@[simp] theorem setScene_jtagIr (s : State) (x : Scene) : (setScene s x).jtagIr = s.jtagIr := rfl
@[simp] theorem setScene_coolantOk (s : State) (x : Scene) : (setScene s x).coolantOk = s.coolantOk := rfl

/-! `bumpFloor` writes only `floor`. -/

@[simp] theorem bumpFloor_pending (s : State) : (bumpFloor s).pending = s.pending := rfl
@[simp] theorem bumpFloor_freeCtr (s : State) : (bumpFloor s).freeCtr = s.freeCtr := rfl
@[simp] theorem bumpFloor_emitted (s : State) : (bumpFloor s).emitted = s.emitted := rfl
@[simp] theorem bumpFloor_cores (s : State) : (bumpFloor s).cores = s.cores := rfl
@[simp] theorem bumpFloor_clusters (s : State) : (bumpFloor s).clusters = s.clusters := rfl
@[simp] theorem bumpFloor_mesh (s : State) : (bumpFloor s).mesh = s.mesh := rfl
@[simp] theorem bumpFloor_routeDark (s : State) : (bumpFloor s).routeDark = s.routeDark := rfl
@[simp] theorem bumpFloor_routeFence (s : State) : (bumpFloor s).routeFence = s.routeFence := rfl
@[simp] theorem bumpFloor_splice (s : State) : (bumpFloor s).splice = s.splice := rfl
@[simp] theorem bumpFloor_ports (s : State) : (bumpFloor s).ports = s.ports := rfl
@[simp] theorem bumpFloor_fabric (s : State) : (bumpFloor s).fabric = s.fabric := rfl
@[simp] theorem bumpFloor_portA (s : State) : (bumpFloor s).portA = s.portA := rfl
@[simp] theorem bumpFloor_portB (s : State) : (bumpFloor s).portB = s.portB := rfl
@[simp] theorem bumpFloor_authority (s : State) : (bumpFloor s).authority = s.authority := rfl
@[simp] theorem bumpFloor_heartbeat (s : State) : (bumpFloor s).heartbeat = s.heartbeat := rfl
@[simp] theorem bumpFloor_slates (s : State) : (bumpFloor s).slates = s.slates := rfl
@[simp] theorem bumpFloor_storyboards (s : State) : (bumpFloor s).storyboards = s.storyboards := rfl
@[simp] theorem bumpFloor_scenes (s : State) : (bumpFloor s).scenes = s.scenes := rfl
@[simp] theorem bumpFloor_queuedRuns (s : State) : (bumpFloor s).queuedRuns = s.queuedRuns := rfl
@[simp] theorem bumpFloor_reelCopies (s : State) : (bumpFloor s).reelCopies = s.reelCopies := rfl
@[simp] theorem bumpFloor_closedScenes (s : State) : (bumpFloor s).closedScenes = s.closedScenes := rfl
@[simp] theorem bumpFloor_epochNext (s : State) : (bumpFloor s).epochNext = s.epochNext := rfl
@[simp] theorem bumpFloor_unfinished (s : State) : (bumpFloor s).unfinished = s.unfinished := rfl
@[simp] theorem bumpFloor_recordBad (s : State) : (bumpFloor s).recordBad = s.recordBad := rfl
@[simp] theorem bumpFloor_heldA (s : State) : (bumpFloor s).heldA = s.heldA := rfl
@[simp] theorem bumpFloor_heldB (s : State) : (bumpFloor s).heldB = s.heldB := rfl
@[simp] theorem bumpFloor_policies (s : State) : (bumpFloor s).policies = s.policies := rfl
@[simp] theorem bumpFloor_detections (s : State) : (bumpFloor s).detections = s.detections := rfl
@[simp] theorem bumpFloor_hangs (s : State) : (bumpFloor s).hangs = s.hangs := rfl
@[simp] theorem bumpFloor_works (s : State) : (bumpFloor s).works = s.works := rfl
@[simp] theorem bumpFloor_clock (s : State) : (bumpFloor s).clock = s.clock := rfl
@[simp] theorem bumpFloor_frames (s : State) : (bumpFloor s).frames = s.frames := rfl
@[simp] theorem bumpFloor_power (s : State) : (bumpFloor s).power = s.power := rfl
@[simp] theorem bumpFloor_boot (s : State) : (bumpFloor s).boot = s.boot := rfl
@[simp] theorem bumpFloor_otp (s : State) : (bumpFloor s).otp = s.otp := rfl
@[simp] theorem bumpFloor_floor (s : State) : (bumpFloor s).floor = { s.floor with generation := s.floor.generation + 1, changed := s.clock.timeNs } := rfl
@[simp] theorem bumpFloor_pins (s : State) : (bumpFloor s).pins = s.pins := rfl
@[simp] theorem bumpFloor_tcap (s : State) : (bumpFloor s).tcap = s.tcap := rfl
@[simp] theorem bumpFloor_powered (s : State) : (bumpFloor s).powered = s.powered := rfl
@[simp] theorem bumpFloor_inletEn (s : State) : (bumpFloor s).inletEn = s.inletEn := rfl
@[simp] theorem bumpFloor_monFault (s : State) : (bumpFloor s).monFault = s.monFault := rfl
@[simp] theorem bumpFloor_monAddr (s : State) : (bumpFloor s).monAddr = s.monAddr := rfl
@[simp] theorem bumpFloor_jtagIr (s : State) : (bumpFloor s).jtagIr = s.jtagIr := rfl
@[simp] theorem bumpFloor_coolantOk (s : State) : (bumpFloor s).coolantOk = s.coolantOk := rfl

/-! `setHost` writes only `portA` and `portB`. -/

@[simp] theorem setHost_pending (s : State) (p : HostPort) (h : HPort) : (setHost s p h).pending = s.pending := by cases p <;> rfl
@[simp] theorem setHost_freeCtr (s : State) (p : HostPort) (h : HPort) : (setHost s p h).freeCtr = s.freeCtr := by cases p <;> rfl
@[simp] theorem setHost_emitted (s : State) (p : HostPort) (h : HPort) : (setHost s p h).emitted = s.emitted := by cases p <;> rfl
@[simp] theorem setHost_cores (s : State) (p : HostPort) (h : HPort) : (setHost s p h).cores = s.cores := by cases p <;> rfl
@[simp] theorem setHost_clusters (s : State) (p : HostPort) (h : HPort) : (setHost s p h).clusters = s.clusters := by cases p <;> rfl
@[simp] theorem setHost_mesh (s : State) (p : HostPort) (h : HPort) : (setHost s p h).mesh = s.mesh := by cases p <;> rfl
@[simp] theorem setHost_routeDark (s : State) (p : HostPort) (h : HPort) : (setHost s p h).routeDark = s.routeDark := by cases p <;> rfl
@[simp] theorem setHost_routeFence (s : State) (p : HostPort) (h : HPort) : (setHost s p h).routeFence = s.routeFence := by cases p <;> rfl
@[simp] theorem setHost_splice (s : State) (p : HostPort) (h : HPort) : (setHost s p h).splice = s.splice := by cases p <;> rfl
@[simp] theorem setHost_ports (s : State) (p : HostPort) (h : HPort) : (setHost s p h).ports = s.ports := by cases p <;> rfl
@[simp] theorem setHost_fabric (s : State) (p : HostPort) (h : HPort) : (setHost s p h).fabric = s.fabric := by cases p <;> rfl
@[simp] theorem setHost_authority (s : State) (p : HostPort) (h : HPort) : (setHost s p h).authority = s.authority := by cases p <;> rfl
@[simp] theorem setHost_heartbeat (s : State) (p : HostPort) (h : HPort) : (setHost s p h).heartbeat = s.heartbeat := by cases p <;> rfl
@[simp] theorem setHost_slates (s : State) (p : HostPort) (h : HPort) : (setHost s p h).slates = s.slates := by cases p <;> rfl
@[simp] theorem setHost_storyboards (s : State) (p : HostPort) (h : HPort) : (setHost s p h).storyboards = s.storyboards := by cases p <;> rfl
@[simp] theorem setHost_scenes (s : State) (p : HostPort) (h : HPort) : (setHost s p h).scenes = s.scenes := by cases p <;> rfl
@[simp] theorem setHost_queuedRuns (s : State) (p : HostPort) (h : HPort) : (setHost s p h).queuedRuns = s.queuedRuns := by cases p <;> rfl
@[simp] theorem setHost_reelCopies (s : State) (p : HostPort) (h : HPort) : (setHost s p h).reelCopies = s.reelCopies := by cases p <;> rfl
@[simp] theorem setHost_closedScenes (s : State) (p : HostPort) (h : HPort) : (setHost s p h).closedScenes = s.closedScenes := by cases p <;> rfl
@[simp] theorem setHost_epochNext (s : State) (p : HostPort) (h : HPort) : (setHost s p h).epochNext = s.epochNext := by cases p <;> rfl
@[simp] theorem setHost_unfinished (s : State) (p : HostPort) (h : HPort) : (setHost s p h).unfinished = s.unfinished := by cases p <;> rfl
@[simp] theorem setHost_recordBad (s : State) (p : HostPort) (h : HPort) : (setHost s p h).recordBad = s.recordBad := by cases p <;> rfl
@[simp] theorem setHost_heldA (s : State) (p : HostPort) (h : HPort) : (setHost s p h).heldA = s.heldA := by cases p <;> rfl
@[simp] theorem setHost_heldB (s : State) (p : HostPort) (h : HPort) : (setHost s p h).heldB = s.heldB := by cases p <;> rfl
@[simp] theorem setHost_policies (s : State) (p : HostPort) (h : HPort) : (setHost s p h).policies = s.policies := by cases p <;> rfl
@[simp] theorem setHost_detections (s : State) (p : HostPort) (h : HPort) : (setHost s p h).detections = s.detections := by cases p <;> rfl
@[simp] theorem setHost_hangs (s : State) (p : HostPort) (h : HPort) : (setHost s p h).hangs = s.hangs := by cases p <;> rfl
@[simp] theorem setHost_works (s : State) (p : HostPort) (h : HPort) : (setHost s p h).works = s.works := by cases p <;> rfl
@[simp] theorem setHost_clock (s : State) (p : HostPort) (h : HPort) : (setHost s p h).clock = s.clock := by cases p <;> rfl
@[simp] theorem setHost_frames (s : State) (p : HostPort) (h : HPort) : (setHost s p h).frames = s.frames := by cases p <;> rfl
@[simp] theorem setHost_power (s : State) (p : HostPort) (h : HPort) : (setHost s p h).power = s.power := by cases p <;> rfl
@[simp] theorem setHost_boot (s : State) (p : HostPort) (h : HPort) : (setHost s p h).boot = s.boot := by cases p <;> rfl
@[simp] theorem setHost_otp (s : State) (p : HostPort) (h : HPort) : (setHost s p h).otp = s.otp := by cases p <;> rfl
@[simp] theorem setHost_floor (s : State) (p : HostPort) (h : HPort) : (setHost s p h).floor = s.floor := by cases p <;> rfl
@[simp] theorem setHost_pins (s : State) (p : HostPort) (h : HPort) : (setHost s p h).pins = s.pins := by cases p <;> rfl
@[simp] theorem setHost_tcap (s : State) (p : HostPort) (h : HPort) : (setHost s p h).tcap = s.tcap := by cases p <;> rfl
@[simp] theorem setHost_powered (s : State) (p : HostPort) (h : HPort) : (setHost s p h).powered = s.powered := by cases p <;> rfl
@[simp] theorem setHost_inletEn (s : State) (p : HostPort) (h : HPort) : (setHost s p h).inletEn = s.inletEn := by cases p <;> rfl
@[simp] theorem setHost_monFault (s : State) (p : HostPort) (h : HPort) : (setHost s p h).monFault = s.monFault := by cases p <;> rfl
@[simp] theorem setHost_monAddr (s : State) (p : HostPort) (h : HPort) : (setHost s p h).monAddr = s.monAddr := by cases p <;> rfl
@[simp] theorem setHost_jtagIr (s : State) (p : HostPort) (h : HPort) : (setHost s p h).jtagIr = s.jtagIr := by cases p <;> rfl
@[simp] theorem setHost_coolantOk (s : State) (p : HostPort) (h : HPort) : (setHost s p h).coolantOk = s.coolantOk := by cases p <;> rfl

/-! `setHeldCpl` writes only `heldA` and `heldB`. -/

@[simp] theorem setHeldCpl_pending (s : State) (p : HostPort) (l : List (List Byte)) : (setHeldCpl s p l).pending = s.pending := by cases p <;> rfl
@[simp] theorem setHeldCpl_freeCtr (s : State) (p : HostPort) (l : List (List Byte)) : (setHeldCpl s p l).freeCtr = s.freeCtr := by cases p <;> rfl
@[simp] theorem setHeldCpl_emitted (s : State) (p : HostPort) (l : List (List Byte)) : (setHeldCpl s p l).emitted = s.emitted := by cases p <;> rfl
@[simp] theorem setHeldCpl_cores (s : State) (p : HostPort) (l : List (List Byte)) : (setHeldCpl s p l).cores = s.cores := by cases p <;> rfl
@[simp] theorem setHeldCpl_clusters (s : State) (p : HostPort) (l : List (List Byte)) : (setHeldCpl s p l).clusters = s.clusters := by cases p <;> rfl
@[simp] theorem setHeldCpl_mesh (s : State) (p : HostPort) (l : List (List Byte)) : (setHeldCpl s p l).mesh = s.mesh := by cases p <;> rfl
@[simp] theorem setHeldCpl_routeDark (s : State) (p : HostPort) (l : List (List Byte)) : (setHeldCpl s p l).routeDark = s.routeDark := by cases p <;> rfl
@[simp] theorem setHeldCpl_routeFence (s : State) (p : HostPort) (l : List (List Byte)) : (setHeldCpl s p l).routeFence = s.routeFence := by cases p <;> rfl
@[simp] theorem setHeldCpl_splice (s : State) (p : HostPort) (l : List (List Byte)) : (setHeldCpl s p l).splice = s.splice := by cases p <;> rfl
@[simp] theorem setHeldCpl_ports (s : State) (p : HostPort) (l : List (List Byte)) : (setHeldCpl s p l).ports = s.ports := by cases p <;> rfl
@[simp] theorem setHeldCpl_fabric (s : State) (p : HostPort) (l : List (List Byte)) : (setHeldCpl s p l).fabric = s.fabric := by cases p <;> rfl
@[simp] theorem setHeldCpl_portA (s : State) (p : HostPort) (l : List (List Byte)) : (setHeldCpl s p l).portA = s.portA := by cases p <;> rfl
@[simp] theorem setHeldCpl_portB (s : State) (p : HostPort) (l : List (List Byte)) : (setHeldCpl s p l).portB = s.portB := by cases p <;> rfl
@[simp] theorem setHeldCpl_authority (s : State) (p : HostPort) (l : List (List Byte)) : (setHeldCpl s p l).authority = s.authority := by cases p <;> rfl
@[simp] theorem setHeldCpl_heartbeat (s : State) (p : HostPort) (l : List (List Byte)) : (setHeldCpl s p l).heartbeat = s.heartbeat := by cases p <;> rfl
@[simp] theorem setHeldCpl_slates (s : State) (p : HostPort) (l : List (List Byte)) : (setHeldCpl s p l).slates = s.slates := by cases p <;> rfl
@[simp] theorem setHeldCpl_storyboards (s : State) (p : HostPort) (l : List (List Byte)) : (setHeldCpl s p l).storyboards = s.storyboards := by cases p <;> rfl
@[simp] theorem setHeldCpl_scenes (s : State) (p : HostPort) (l : List (List Byte)) : (setHeldCpl s p l).scenes = s.scenes := by cases p <;> rfl
@[simp] theorem setHeldCpl_queuedRuns (s : State) (p : HostPort) (l : List (List Byte)) : (setHeldCpl s p l).queuedRuns = s.queuedRuns := by cases p <;> rfl
@[simp] theorem setHeldCpl_reelCopies (s : State) (p : HostPort) (l : List (List Byte)) : (setHeldCpl s p l).reelCopies = s.reelCopies := by cases p <;> rfl
@[simp] theorem setHeldCpl_closedScenes (s : State) (p : HostPort) (l : List (List Byte)) : (setHeldCpl s p l).closedScenes = s.closedScenes := by cases p <;> rfl
@[simp] theorem setHeldCpl_epochNext (s : State) (p : HostPort) (l : List (List Byte)) : (setHeldCpl s p l).epochNext = s.epochNext := by cases p <;> rfl
@[simp] theorem setHeldCpl_unfinished (s : State) (p : HostPort) (l : List (List Byte)) : (setHeldCpl s p l).unfinished = s.unfinished := by cases p <;> rfl
@[simp] theorem setHeldCpl_recordBad (s : State) (p : HostPort) (l : List (List Byte)) : (setHeldCpl s p l).recordBad = s.recordBad := by cases p <;> rfl
@[simp] theorem setHeldCpl_policies (s : State) (p : HostPort) (l : List (List Byte)) : (setHeldCpl s p l).policies = s.policies := by cases p <;> rfl
@[simp] theorem setHeldCpl_detections (s : State) (p : HostPort) (l : List (List Byte)) : (setHeldCpl s p l).detections = s.detections := by cases p <;> rfl
@[simp] theorem setHeldCpl_hangs (s : State) (p : HostPort) (l : List (List Byte)) : (setHeldCpl s p l).hangs = s.hangs := by cases p <;> rfl
@[simp] theorem setHeldCpl_works (s : State) (p : HostPort) (l : List (List Byte)) : (setHeldCpl s p l).works = s.works := by cases p <;> rfl
@[simp] theorem setHeldCpl_clock (s : State) (p : HostPort) (l : List (List Byte)) : (setHeldCpl s p l).clock = s.clock := by cases p <;> rfl
@[simp] theorem setHeldCpl_frames (s : State) (p : HostPort) (l : List (List Byte)) : (setHeldCpl s p l).frames = s.frames := by cases p <;> rfl
@[simp] theorem setHeldCpl_power (s : State) (p : HostPort) (l : List (List Byte)) : (setHeldCpl s p l).power = s.power := by cases p <;> rfl
@[simp] theorem setHeldCpl_boot (s : State) (p : HostPort) (l : List (List Byte)) : (setHeldCpl s p l).boot = s.boot := by cases p <;> rfl
@[simp] theorem setHeldCpl_otp (s : State) (p : HostPort) (l : List (List Byte)) : (setHeldCpl s p l).otp = s.otp := by cases p <;> rfl
@[simp] theorem setHeldCpl_floor (s : State) (p : HostPort) (l : List (List Byte)) : (setHeldCpl s p l).floor = s.floor := by cases p <;> rfl
@[simp] theorem setHeldCpl_pins (s : State) (p : HostPort) (l : List (List Byte)) : (setHeldCpl s p l).pins = s.pins := by cases p <;> rfl
@[simp] theorem setHeldCpl_tcap (s : State) (p : HostPort) (l : List (List Byte)) : (setHeldCpl s p l).tcap = s.tcap := by cases p <;> rfl
@[simp] theorem setHeldCpl_powered (s : State) (p : HostPort) (l : List (List Byte)) : (setHeldCpl s p l).powered = s.powered := by cases p <;> rfl
@[simp] theorem setHeldCpl_inletEn (s : State) (p : HostPort) (l : List (List Byte)) : (setHeldCpl s p l).inletEn = s.inletEn := by cases p <;> rfl
@[simp] theorem setHeldCpl_monFault (s : State) (p : HostPort) (l : List (List Byte)) : (setHeldCpl s p l).monFault = s.monFault := by cases p <;> rfl
@[simp] theorem setHeldCpl_monAddr (s : State) (p : HostPort) (l : List (List Byte)) : (setHeldCpl s p l).monAddr = s.monAddr := by cases p <;> rfl
@[simp] theorem setHeldCpl_jtagIr (s : State) (p : HostPort) (l : List (List Byte)) : (setHeldCpl s p l).jtagIr = s.jtagIr := by cases p <;> rfl
@[simp] theorem setHeldCpl_coolantOk (s : State) (p : HostPort) (l : List (List Byte)) : (setHeldCpl s p l).coolantOk = s.coolantOk := by cases p <;> rfl

/-! ### Reading a part after an update of another -/

@[simp] theorem getCl_setCore (s : State) (k : Nat) (c : Core) (i : Nat) : getCl (setCore s k c) i = getCl s i := rfl
@[simp] theorem getPort_setCore (s : State) (k : Nat) (c : Core) (i : Nat) : getPort (setCore s k c) i = getPort s i := rfl
@[simp] theorem getSlate_setCore (s : State) (k : Nat) (c : Core) (i : Nat) : getSlate (setCore s k c) i = getSlate s i := rfl
@[simp] theorem getFrame_setCore (s : State) (k : Nat) (c : Core) (i : Nat) : getFrame (setCore s k c) i = getFrame s i := rfl
@[simp] theorem getPin_setCore (s : State) (k : Nat) (c : Core) (i : Nat) : getPin (setCore s k c) i = getPin s i := rfl
@[simp] theorem getPolicy_setCore (s : State) (k : Nat) (c : Core) (i : Nat) : getPolicy (setCore s k c) i = getPolicy s i := rfl
@[simp] theorem getHost_setCore (s : State) (k : Nat) (c : Core) (q : HostPort) : getHost (setCore s k c) q = getHost s q := by cases q <;> rfl
@[simp] theorem heldCpl_setCore (s : State) (k : Nat) (c : Core) (q : HostPort) : heldCpl (setCore s k c) q = heldCpl s q := by cases q <;> rfl

@[simp] theorem getCore_setCl (s : State) (k : Nat) (c : Cluster) (i : Nat) : getCore (setCl s k c) i = getCore s i := rfl
@[simp] theorem getPort_setCl (s : State) (k : Nat) (c : Cluster) (i : Nat) : getPort (setCl s k c) i = getPort s i := rfl
@[simp] theorem getSlate_setCl (s : State) (k : Nat) (c : Cluster) (i : Nat) : getSlate (setCl s k c) i = getSlate s i := rfl
@[simp] theorem getFrame_setCl (s : State) (k : Nat) (c : Cluster) (i : Nat) : getFrame (setCl s k c) i = getFrame s i := rfl
@[simp] theorem getPin_setCl (s : State) (k : Nat) (c : Cluster) (i : Nat) : getPin (setCl s k c) i = getPin s i := rfl
@[simp] theorem getPolicy_setCl (s : State) (k : Nat) (c : Cluster) (i : Nat) : getPolicy (setCl s k c) i = getPolicy s i := rfl
@[simp] theorem getHost_setCl (s : State) (k : Nat) (c : Cluster) (q : HostPort) : getHost (setCl s k c) q = getHost s q := by cases q <;> rfl
@[simp] theorem heldCpl_setCl (s : State) (k : Nat) (c : Cluster) (q : HostPort) : heldCpl (setCl s k c) q = heldCpl s q := by cases q <;> rfl

@[simp] theorem getCore_setPort (s : State) (e : Nat) (p : Port) (i : Nat) : getCore (setPort s e p) i = getCore s i := rfl
@[simp] theorem getCl_setPort (s : State) (e : Nat) (p : Port) (i : Nat) : getCl (setPort s e p) i = getCl s i := rfl
@[simp] theorem getSlate_setPort (s : State) (e : Nat) (p : Port) (i : Nat) : getSlate (setPort s e p) i = getSlate s i := rfl
@[simp] theorem getFrame_setPort (s : State) (e : Nat) (p : Port) (i : Nat) : getFrame (setPort s e p) i = getFrame s i := rfl
@[simp] theorem getPin_setPort (s : State) (e : Nat) (p : Port) (i : Nat) : getPin (setPort s e p) i = getPin s i := rfl
@[simp] theorem getPolicy_setPort (s : State) (e : Nat) (p : Port) (i : Nat) : getPolicy (setPort s e p) i = getPolicy s i := rfl
@[simp] theorem getHost_setPort (s : State) (e : Nat) (p : Port) (q : HostPort) : getHost (setPort s e p) q = getHost s q := by cases q <;> rfl
@[simp] theorem heldCpl_setPort (s : State) (e : Nat) (p : Port) (q : HostPort) : heldCpl (setPort s e p) q = heldCpl s q := by cases q <;> rfl

@[simp] theorem getCore_setSlate (s : State) (n : Nat) (v : Slate) (i : Nat) : getCore (setSlate s n v) i = getCore s i := rfl
@[simp] theorem getCl_setSlate (s : State) (n : Nat) (v : Slate) (i : Nat) : getCl (setSlate s n v) i = getCl s i := rfl
@[simp] theorem getPort_setSlate (s : State) (n : Nat) (v : Slate) (i : Nat) : getPort (setSlate s n v) i = getPort s i := rfl
@[simp] theorem getFrame_setSlate (s : State) (n : Nat) (v : Slate) (i : Nat) : getFrame (setSlate s n v) i = getFrame s i := rfl
@[simp] theorem getPin_setSlate (s : State) (n : Nat) (v : Slate) (i : Nat) : getPin (setSlate s n v) i = getPin s i := rfl
@[simp] theorem getPolicy_setSlate (s : State) (n : Nat) (v : Slate) (i : Nat) : getPolicy (setSlate s n v) i = getPolicy s i := rfl
@[simp] theorem getHost_setSlate (s : State) (n : Nat) (v : Slate) (q : HostPort) : getHost (setSlate s n v) q = getHost s q := by cases q <;> rfl
@[simp] theorem heldCpl_setSlate (s : State) (n : Nat) (v : Slate) (q : HostPort) : heldCpl (setSlate s n v) q = heldCpl s q := by cases q <;> rfl

@[simp] theorem getCore_setFrame (s : State) (f : Nat) (v : Frame) (i : Nat) : getCore (setFrame s f v) i = getCore s i := rfl
@[simp] theorem getCl_setFrame (s : State) (f : Nat) (v : Frame) (i : Nat) : getCl (setFrame s f v) i = getCl s i := rfl
@[simp] theorem getPort_setFrame (s : State) (f : Nat) (v : Frame) (i : Nat) : getPort (setFrame s f v) i = getPort s i := rfl
@[simp] theorem getSlate_setFrame (s : State) (f : Nat) (v : Frame) (i : Nat) : getSlate (setFrame s f v) i = getSlate s i := rfl
@[simp] theorem getPin_setFrame (s : State) (f : Nat) (v : Frame) (i : Nat) : getPin (setFrame s f v) i = getPin s i := rfl
@[simp] theorem getPolicy_setFrame (s : State) (f : Nat) (v : Frame) (i : Nat) : getPolicy (setFrame s f v) i = getPolicy s i := rfl
@[simp] theorem getHost_setFrame (s : State) (f : Nat) (v : Frame) (q : HostPort) : getHost (setFrame s f v) q = getHost s q := by cases q <;> rfl
@[simp] theorem heldCpl_setFrame (s : State) (f : Nat) (v : Frame) (q : HostPort) : heldCpl (setFrame s f v) q = heldCpl s q := by cases q <;> rfl

@[simp] theorem getCore_setPin (s : State) (n : Nat) (v : Pin) (i : Nat) : getCore (setPin s n v) i = getCore s i := rfl
@[simp] theorem getCl_setPin (s : State) (n : Nat) (v : Pin) (i : Nat) : getCl (setPin s n v) i = getCl s i := rfl
@[simp] theorem getPort_setPin (s : State) (n : Nat) (v : Pin) (i : Nat) : getPort (setPin s n v) i = getPort s i := rfl
@[simp] theorem getSlate_setPin (s : State) (n : Nat) (v : Pin) (i : Nat) : getSlate (setPin s n v) i = getSlate s i := rfl
@[simp] theorem getFrame_setPin (s : State) (n : Nat) (v : Pin) (i : Nat) : getFrame (setPin s n v) i = getFrame s i := rfl
@[simp] theorem getPolicy_setPin (s : State) (n : Nat) (v : Pin) (i : Nat) : getPolicy (setPin s n v) i = getPolicy s i := rfl
@[simp] theorem getHost_setPin (s : State) (n : Nat) (v : Pin) (q : HostPort) : getHost (setPin s n v) q = getHost s q := by cases q <;> rfl
@[simp] theorem heldCpl_setPin (s : State) (n : Nat) (v : Pin) (q : HostPort) : heldCpl (setPin s n v) q = heldCpl s q := by cases q <;> rfl

@[simp] theorem getCore_setPolicy (s : State) (n : Nat) (v : Policy) (i : Nat) : getCore (setPolicy s n v) i = getCore s i := rfl
@[simp] theorem getCl_setPolicy (s : State) (n : Nat) (v : Policy) (i : Nat) : getCl (setPolicy s n v) i = getCl s i := rfl
@[simp] theorem getPort_setPolicy (s : State) (n : Nat) (v : Policy) (i : Nat) : getPort (setPolicy s n v) i = getPort s i := rfl
@[simp] theorem getSlate_setPolicy (s : State) (n : Nat) (v : Policy) (i : Nat) : getSlate (setPolicy s n v) i = getSlate s i := rfl
@[simp] theorem getFrame_setPolicy (s : State) (n : Nat) (v : Policy) (i : Nat) : getFrame (setPolicy s n v) i = getFrame s i := rfl
@[simp] theorem getPin_setPolicy (s : State) (n : Nat) (v : Policy) (i : Nat) : getPin (setPolicy s n v) i = getPin s i := rfl
@[simp] theorem getHost_setPolicy (s : State) (n : Nat) (v : Policy) (q : HostPort) : getHost (setPolicy s n v) q = getHost s q := by cases q <;> rfl
@[simp] theorem heldCpl_setPolicy (s : State) (n : Nat) (v : Policy) (q : HostPort) : heldCpl (setPolicy s n v) q = heldCpl s q := by cases q <;> rfl

@[simp] theorem getCore_emit (s : State) (e : Emission) (i : Nat) : getCore (emit s e) i = getCore s i := rfl
@[simp] theorem getCl_emit (s : State) (e : Emission) (i : Nat) : getCl (emit s e) i = getCl s i := rfl
@[simp] theorem getPort_emit (s : State) (e : Emission) (i : Nat) : getPort (emit s e) i = getPort s i := rfl
@[simp] theorem getSlate_emit (s : State) (e : Emission) (i : Nat) : getSlate (emit s e) i = getSlate s i := rfl
@[simp] theorem getFrame_emit (s : State) (e : Emission) (i : Nat) : getFrame (emit s e) i = getFrame s i := rfl
@[simp] theorem getPin_emit (s : State) (e : Emission) (i : Nat) : getPin (emit s e) i = getPin s i := rfl
@[simp] theorem getPolicy_emit (s : State) (e : Emission) (i : Nat) : getPolicy (emit s e) i = getPolicy s i := rfl
@[simp] theorem getHost_emit (s : State) (e : Emission) (q : HostPort) : getHost (emit s e) q = getHost s q := by cases q <;> rfl
@[simp] theorem heldCpl_emit (s : State) (e : Emission) (q : HostPort) : heldCpl (emit s e) q = heldCpl s q := by cases q <;> rfl

@[simp] theorem getCore_detect (s : State) (d : Detection) (i : Nat) : getCore (detect s d) i = getCore s i := rfl
@[simp] theorem getCl_detect (s : State) (d : Detection) (i : Nat) : getCl (detect s d) i = getCl s i := rfl
@[simp] theorem getPort_detect (s : State) (d : Detection) (i : Nat) : getPort (detect s d) i = getPort s i := rfl
@[simp] theorem getSlate_detect (s : State) (d : Detection) (i : Nat) : getSlate (detect s d) i = getSlate s i := rfl
@[simp] theorem getFrame_detect (s : State) (d : Detection) (i : Nat) : getFrame (detect s d) i = getFrame s i := rfl
@[simp] theorem getPin_detect (s : State) (d : Detection) (i : Nat) : getPin (detect s d) i = getPin s i := rfl
@[simp] theorem getPolicy_detect (s : State) (d : Detection) (i : Nat) : getPolicy (detect s d) i = getPolicy s i := rfl
@[simp] theorem getHost_detect (s : State) (d : Detection) (q : HostPort) : getHost (detect s d) q = getHost s q := by cases q <;> rfl
@[simp] theorem heldCpl_detect (s : State) (d : Detection) (q : HostPort) : heldCpl (detect s d) q = heldCpl s q := by cases q <;> rfl

@[simp] theorem getCore_setScene (s : State) (x : Scene) (i : Nat) : getCore (setScene s x) i = getCore s i := rfl
@[simp] theorem getCl_setScene (s : State) (x : Scene) (i : Nat) : getCl (setScene s x) i = getCl s i := rfl
@[simp] theorem getPort_setScene (s : State) (x : Scene) (i : Nat) : getPort (setScene s x) i = getPort s i := rfl
@[simp] theorem getSlate_setScene (s : State) (x : Scene) (i : Nat) : getSlate (setScene s x) i = getSlate s i := rfl
@[simp] theorem getFrame_setScene (s : State) (x : Scene) (i : Nat) : getFrame (setScene s x) i = getFrame s i := rfl
@[simp] theorem getPin_setScene (s : State) (x : Scene) (i : Nat) : getPin (setScene s x) i = getPin s i := rfl
@[simp] theorem getPolicy_setScene (s : State) (x : Scene) (i : Nat) : getPolicy (setScene s x) i = getPolicy s i := rfl
@[simp] theorem getHost_setScene (s : State) (x : Scene) (q : HostPort) : getHost (setScene s x) q = getHost s q := by cases q <;> rfl
@[simp] theorem heldCpl_setScene (s : State) (x : Scene) (q : HostPort) : heldCpl (setScene s x) q = heldCpl s q := by cases q <;> rfl

@[simp] theorem getCore_bumpFloor (s : State) (i : Nat) : getCore (bumpFloor s) i = getCore s i := rfl
@[simp] theorem getCl_bumpFloor (s : State) (i : Nat) : getCl (bumpFloor s) i = getCl s i := rfl
@[simp] theorem getPort_bumpFloor (s : State) (i : Nat) : getPort (bumpFloor s) i = getPort s i := rfl
@[simp] theorem getSlate_bumpFloor (s : State) (i : Nat) : getSlate (bumpFloor s) i = getSlate s i := rfl
@[simp] theorem getFrame_bumpFloor (s : State) (i : Nat) : getFrame (bumpFloor s) i = getFrame s i := rfl
@[simp] theorem getPin_bumpFloor (s : State) (i : Nat) : getPin (bumpFloor s) i = getPin s i := rfl
@[simp] theorem getPolicy_bumpFloor (s : State) (i : Nat) : getPolicy (bumpFloor s) i = getPolicy s i := rfl
@[simp] theorem getHost_bumpFloor (s : State) (q : HostPort) : getHost (bumpFloor s) q = getHost s q := by cases q <;> rfl
@[simp] theorem heldCpl_bumpFloor (s : State) (q : HostPort) : heldCpl (bumpFloor s) q = heldCpl s q := by cases q <;> rfl

@[simp] theorem getCore_setHost (s : State) (p : HostPort) (h : HPort) (i : Nat) : getCore (setHost s p h) i = getCore s i := by cases p <;> rfl
@[simp] theorem getCl_setHost (s : State) (p : HostPort) (h : HPort) (i : Nat) : getCl (setHost s p h) i = getCl s i := by cases p <;> rfl
@[simp] theorem getPort_setHost (s : State) (p : HostPort) (h : HPort) (i : Nat) : getPort (setHost s p h) i = getPort s i := by cases p <;> rfl
@[simp] theorem getSlate_setHost (s : State) (p : HostPort) (h : HPort) (i : Nat) : getSlate (setHost s p h) i = getSlate s i := by cases p <;> rfl
@[simp] theorem getFrame_setHost (s : State) (p : HostPort) (h : HPort) (i : Nat) : getFrame (setHost s p h) i = getFrame s i := by cases p <;> rfl
@[simp] theorem getPin_setHost (s : State) (p : HostPort) (h : HPort) (i : Nat) : getPin (setHost s p h) i = getPin s i := by cases p <;> rfl
@[simp] theorem getPolicy_setHost (s : State) (p : HostPort) (h : HPort) (i : Nat) : getPolicy (setHost s p h) i = getPolicy s i := by cases p <;> rfl
@[simp] theorem heldCpl_setHost (s : State) (p : HostPort) (h : HPort) (q : HostPort) : heldCpl (setHost s p h) q = heldCpl s q := by cases q <;> cases p <;> rfl

@[simp] theorem getCore_setHeldCpl (s : State) (p : HostPort) (l : List (List Byte)) (i : Nat) : getCore (setHeldCpl s p l) i = getCore s i := by cases p <;> rfl
@[simp] theorem getCl_setHeldCpl (s : State) (p : HostPort) (l : List (List Byte)) (i : Nat) : getCl (setHeldCpl s p l) i = getCl s i := by cases p <;> rfl
@[simp] theorem getPort_setHeldCpl (s : State) (p : HostPort) (l : List (List Byte)) (i : Nat) : getPort (setHeldCpl s p l) i = getPort s i := by cases p <;> rfl
@[simp] theorem getSlate_setHeldCpl (s : State) (p : HostPort) (l : List (List Byte)) (i : Nat) : getSlate (setHeldCpl s p l) i = getSlate s i := by cases p <;> rfl
@[simp] theorem getFrame_setHeldCpl (s : State) (p : HostPort) (l : List (List Byte)) (i : Nat) : getFrame (setHeldCpl s p l) i = getFrame s i := by cases p <;> rfl
@[simp] theorem getPin_setHeldCpl (s : State) (p : HostPort) (l : List (List Byte)) (i : Nat) : getPin (setHeldCpl s p l) i = getPin s i := by cases p <;> rfl
@[simp] theorem getPolicy_setHeldCpl (s : State) (p : HostPort) (l : List (List Byte)) (i : Nat) : getPolicy (setHeldCpl s p l) i = getPolicy s i := by cases p <;> rfl
@[simp] theorem getHost_setHeldCpl (s : State) (p : HostPort) (l : List (List Byte)) (q : HostPort) : getHost (setHeldCpl s p l) q = getHost s q := by cases q <;> cases p <;> rfl

/-! ### Reading a part after its own update -/

/-- In a canonical table the part reads as written. -/
theorem getCore_setCore_self (s : State) (k : Nat) (c : Core) (h : smapSorted s.cores = true) : getCore (setCore s k c) k = c :=
  smapGet_smapSet_self _ k c h

/-- A part that differs from its reset value reads as written in any table. -/
theorem getCore_setCore_of_ne (s : State) (k : Nat) {c : Core} (h : c ≠ Core.reset) : getCore (setCore s k c) k = c :=
  smapGet_smapSet_of_ne _ k h

/-- Other parts are left alone. -/
theorem getCore_setCore_other (s : State) {k j : Nat} (c : Core) (h : j ≠ k) : getCore (setCore s k c) j = getCore s j :=
  smapGet_smapSet_other _ _ c h

/-- Of two updates with values other than the reset value the later one stays. -/
theorem setCore_setCore (s : State) (k : Nat) {c d : Core} (hc : c ≠ Core.reset) (hd : d ≠ Core.reset) : setCore (setCore s k c) k d = setCore s k d := by
  simp [setCore, smapSet_smapSet_of_ne _ k hc hd]

/-- In a canonical table the part reads as written. -/
theorem getCl_setCl_self (s : State) (k : Nat) (c : Cluster) (h : smapSorted s.clusters = true) : getCl (setCl s k c) k = c :=
  smapGet_smapSet_self _ k c h

/-- A part that differs from its reset value reads as written in any table. -/
theorem getCl_setCl_of_ne (s : State) (k : Nat) {c : Cluster} (h : c ≠ Cluster.reset) : getCl (setCl s k c) k = c :=
  smapGet_smapSet_of_ne _ k h

/-- Other parts are left alone. -/
theorem getCl_setCl_other (s : State) {k j : Nat} (c : Cluster) (h : j ≠ k) : getCl (setCl s k c) j = getCl s j :=
  smapGet_smapSet_other _ _ c h

/-- Of two updates with values other than the reset value the later one stays. -/
theorem setCl_setCl (s : State) (k : Nat) {c d : Cluster} (hc : c ≠ Cluster.reset) (hd : d ≠ Cluster.reset) : setCl (setCl s k c) k d = setCl s k d := by
  simp [setCl, smapSet_smapSet_of_ne _ k hc hd]

/-- In a canonical table the part reads as written. -/
theorem getPort_setPort_self (s : State) (k : Nat) (c : Port) (h : smapSorted s.ports = true) : getPort (setPort s k c) k = c :=
  smapGet_smapSet_self _ k c h

/-- A part that differs from its reset value reads as written in any table. -/
theorem getPort_setPort_of_ne (s : State) (k : Nat) {c : Port} (h : c ≠ Port.reset) : getPort (setPort s k c) k = c :=
  smapGet_smapSet_of_ne _ k h

/-- Other parts are left alone. -/
theorem getPort_setPort_other (s : State) {k j : Nat} (c : Port) (h : j ≠ k) : getPort (setPort s k c) j = getPort s j :=
  smapGet_smapSet_other _ _ c h

/-- Of two updates with values other than the reset value the later one stays. -/
theorem setPort_setPort (s : State) (k : Nat) {c d : Port} (hc : c ≠ Port.reset) (hd : d ≠ Port.reset) : setPort (setPort s k c) k d = setPort s k d := by
  simp [setPort, smapSet_smapSet_of_ne _ k hc hd]

/-- In a canonical table the part reads as written. -/
theorem getSlate_setSlate_self (s : State) (k : Nat) (c : Slate) (h : smapSorted s.slates = true) : getSlate (setSlate s k c) k = c :=
  smapGet_smapSet_self _ k c h

/-- A part that differs from its reset value reads as written in any table. -/
theorem getSlate_setSlate_of_ne (s : State) (k : Nat) {c : Slate} (h : c ≠ Slate.reset) : getSlate (setSlate s k c) k = c :=
  smapGet_smapSet_of_ne _ k h

/-- Other parts are left alone. -/
theorem getSlate_setSlate_other (s : State) {k j : Nat} (c : Slate) (h : j ≠ k) : getSlate (setSlate s k c) j = getSlate s j :=
  smapGet_smapSet_other _ _ c h

/-- Of two updates with values other than the reset value the later one stays. -/
theorem setSlate_setSlate (s : State) (k : Nat) {c d : Slate} (hc : c ≠ Slate.reset) (hd : d ≠ Slate.reset) : setSlate (setSlate s k c) k d = setSlate s k d := by
  simp [setSlate, smapSet_smapSet_of_ne _ k hc hd]

/-- In a canonical table the part reads as written. -/
theorem getFrame_setFrame_self (s : State) (k : Nat) (c : Frame) (h : smapSorted s.frames = true) : getFrame (setFrame s k c) k = c :=
  smapGet_smapSet_self _ k c h

/-- A part that differs from its reset value reads as written in any table. -/
theorem getFrame_setFrame_of_ne (s : State) (k : Nat) {c : Frame} (h : c ≠ Frame.reset) : getFrame (setFrame s k c) k = c :=
  smapGet_smapSet_of_ne _ k h

/-- Other parts are left alone. -/
theorem getFrame_setFrame_other (s : State) {k j : Nat} (c : Frame) (h : j ≠ k) : getFrame (setFrame s k c) j = getFrame s j :=
  smapGet_smapSet_other _ _ c h

/-- Of two updates with values other than the reset value the later one stays. -/
theorem setFrame_setFrame (s : State) (k : Nat) {c d : Frame} (hc : c ≠ Frame.reset) (hd : d ≠ Frame.reset) : setFrame (setFrame s k c) k d = setFrame s k d := by
  simp [setFrame, smapSet_smapSet_of_ne _ k hc hd]

/-- In a canonical table the part reads as written. -/
theorem getPin_setPin_self (s : State) (k : Nat) (c : Pin) (h : smapSorted s.pins = true) : getPin (setPin s k c) k = c :=
  smapGet_smapSet_self _ k c h

/-- A part that differs from its reset value reads as written in any table. -/
theorem getPin_setPin_of_ne (s : State) (k : Nat) {c : Pin} (h : c ≠ Pin.reset) : getPin (setPin s k c) k = c :=
  smapGet_smapSet_of_ne _ k h

/-- Other parts are left alone. -/
theorem getPin_setPin_other (s : State) {k j : Nat} (c : Pin) (h : j ≠ k) : getPin (setPin s k c) j = getPin s j :=
  smapGet_smapSet_other _ _ c h

/-- Of two updates with values other than the reset value the later one stays. -/
theorem setPin_setPin (s : State) (k : Nat) {c d : Pin} (hc : c ≠ Pin.reset) (hd : d ≠ Pin.reset) : setPin (setPin s k c) k d = setPin s k d := by
  simp [setPin, smapSet_smapSet_of_ne _ k hc hd]

/-- In a canonical table the part reads as written. -/
theorem getPolicy_setPolicy_self (s : State) (k : Nat) (c : Policy) (h : smapSorted s.policies = true) : getPolicy (setPolicy s k c) k = c :=
  smapGet_smapSet_self _ k c h

/-- A part that differs from its reset value reads as written in any table. -/
theorem getPolicy_setPolicy_of_ne (s : State) (k : Nat) {c : Policy} (h : c ≠ policyDefault) : getPolicy (setPolicy s k c) k = c :=
  smapGet_smapSet_of_ne _ k h

/-- Other parts are left alone. -/
theorem getPolicy_setPolicy_other (s : State) {k j : Nat} (c : Policy) (h : j ≠ k) : getPolicy (setPolicy s k c) j = getPolicy s j :=
  smapGet_smapSet_other _ _ c h

/-- Of two updates with values other than the reset value the later one stays. -/
theorem setPolicy_setPolicy (s : State) (k : Nat) {c d : Policy} (hc : c ≠ policyDefault) (hd : d ≠ policyDefault) : setPolicy (setPolicy s k c) k d = setPolicy s k d := by
  simp [setPolicy, smapSet_smapSet_of_ne _ k hc hd]

@[simp] theorem getHost_setHost_self (s : State) (p : HostPort) (h : HPort) : getHost (setHost s p h) p = h := by
  cases p <;> rfl

theorem getHost_setHost_other (s : State) {p q : HostPort} (h : HPort) (n : q ≠ p) :
    getHost (setHost s p h) q = getHost s q := by
  cases p <;> cases q <;> first | rfl | exact absurd rfl n

@[simp] theorem heldCpl_setHeldCpl_self (s : State) (p : HostPort) (l : List (List Byte)) :
    heldCpl (setHeldCpl s p l) p = l := by
  cases p <;> rfl

@[simp] theorem setHost_setHost (s : State) (p : HostPort) (h g : HPort) : setHost (setHost s p h) p g = setHost s p g := by
  cases p <;> rfl

end Sys2Proof.Machine
end

