-- ==== Sys2Proof/Laws/Cue.lean ====
section
/-! SUPPORT. The course of a cue instruction: which check takes it, and where it goes on. -/

namespace Sys2Proof.Machine

open Sys2Proof

/-- A core that is not IDLE is not the reset value of the table of cores. -/
theorem Core.ne_reset {c : Core} (h : c.mode ≠ .idle) : c ≠ Core.reset := fun e => h (by rw [e]; rfl)

/-- A core that is not IDLE reads as written. -/
theorem getCore_setCore_of_mode (s : State) (k : Nat) {c : Core} (h : c.mode ≠ .idle) : getCore (setCore s k c) k = c :=
  getCore_setCore_of_ne s k (Core.ne_reset h)

/-- Of two writes of a core that is not IDLE the later stays. -/
theorem setCore_setCore_of_mode (s : State) (k : Nat) {c d : Core} (hc : c.mode ≠ .idle) (hd : d.mode ≠ .idle) :
    setCore (setCore s k c) k d = setCore s k d :=
  setCore_setCore s k (Core.ne_reset hc) (Core.ne_reset hd)

/-- A legal word of the row's opcode takes the row's action. -/
theorem cueStep_at {s : State} {c : CoreId} {opc w : Nat} (act : State → Nat → State) (h : CueAt s c opc w) :
    cueStep (coreKey c) opc act s = act s w := by
  obtain ⟨hm, hw, hc, ho, hl, hi⟩ := h
  simp only [coreOf] at *
  simp [cueStep, cueReady, hm, hw, hc, hl, hi, ho]

/-- A fetched parity error stops every row of the cue core (R172). -/
theorem cueStep_parity {s : State} {k opc : Nat} (act : State → Nat → State) (hr : cueReady (getCore s k) = true)
    (hl : ramLanes (getCore s k).istore (getCore s k).pc.toNat ≠ 0) :
    cueStep k opc act s =
      istoreError s k (ramLanes (getCore s k).istore (getCore s k).pc.toNat) (cueWord (getCore s k)) := by
  simp [cueStep, hr, hl]

/-- A word that breaks R177 stops every row of the cue core. -/
theorem cueStep_illegal {s : State} {k opc : Nat} (act : State → Nat → State) (hr : cueReady (getCore s k) = true)
    (hl : ramLanes (getCore s k).istore (getCore s k).pc.toNat = 0)
    (hi : cueIllegal (getCore s k) (cueWord (getCore s k)) = true) :
    cueStep k opc act s = cueViolate s k 0x10 0x7020 (cueWord (getCore s k)) 0 := by
  simp [cueStep, hr, hl, hi]

/-- Branching to an address inside the program. -/
theorem goTo_inside {s : State} {k w t : Nat} (h : t < sheetPlen (getCore s k)) :
    goTo s k w t = setCore s k { getCore s k with pc := BitVec.ofNat 12 t, wait := .none } := by
  simp [goTo, h]

/-- Going on with a core just written. -/
theorem goNext_setCore {s : State} {c : CoreId} {w : Nat} {co : Core} (hm : co.mode ≠ .idle) (hp : co.pc = (coreOf s c).pc)
    (hs : co.sheet = (coreOf s c).sheet) (hn : NextInside s c) :
    goNext (setCore s (coreKey c) co) (coreKey c) w = advance s c co := by
  have hplen : sheetPlen co = sheetPlen (coreOf s c) := by simp [sheetPlen, sheetW, hs]
  have hlt : (getCore (setCore s (coreKey c) co) (coreKey c)).pc.toNat + 1
      < sheetPlen (getCore (setCore s (coreKey c) co) (coreKey c)) := by
    rw [getCore_setCore_of_mode s _ hm, hplen, hp]; exact hn
  rw [goNext, goTo_inside hlt, getCore_setCore_of_mode s _ hm]
  have hpc : BitVec.ofNat 12 (co.pc.toNat + 1) = (coreOf s c).pc + 1 := by
    rw [hp]; apply BitVec.eq_of_toNat_eq; simp
  rw [hpc, setCore_setCore_of_mode s _ hm (by exact hm)]
  rfl

/-- Going on with a core unchanged. -/
theorem goNext_advance {s : State} {c : CoreId} {w : Nat} (hn : NextInside s c) :
    goNext s (coreKey c) w = advance s c (coreOf s c) := by
  have hpc : BitVec.ofNat 12 ((coreOf s c).pc.toNat + 1) = (coreOf s c).pc + 1 := by
    apply BitVec.eq_of_toNat_eq; simp
  simp only [NextInside, coreOf] at hn hpc
  rw [goNext, goTo_inside hn, hpc]
  rfl

/-- An instruction that writes gd. -/
theorem actG_advance {s : State} {c : CoreId} {w : Nat} (f : Core → Nat → Word) (hm : (coreOf s c).mode = .running)
    (hn : NextInside s c) : actG (coreKey c) f s w = advance s c (setG (coreOf s c) (fD w) (f (coreOf s c) w)) := by
  refine goNext_setCore (co := setG (coreOf s c) (fD w) (f (coreOf s c) w)) ?_ rfl rfl hn
  simp [setG, hm]

/-- A range that passes its checks and conflicts with nothing takes its action. -/
theorem withRange_ok {s : State} {k h : Nat} {u : HUse} {p : HPerm} {off n : Nat} (act : State → State)
    (hk : handleCheck s k (getCore s k) h u p (spanOf off n) = none)
    (hs : sbConflict (getCore s k) [rngOf (getCore s k) h (spanOf off n) (decide (p = .w))] = false) :
    withRange s k h u p off n act = act s := by
  simp [withRange, hk, hs]

/-- A range that a check refuses is a handle fault. -/
theorem withRange_bad {s : State} {k h : Nat} {u : HUse} {p : HPerm} {off n : Nat} (act : State → State) {r : Nat × Int}
    (hk : handleCheck s k (getCore s k) h u p (spanOf off n) = some r) :
    withRange s k h u p off n act = handleFault s k (getCore s k).pc.toNat h r := by
  simp [withRange, hk]

end Sys2Proof.Machine
end

