-- ==== Sys2Proof/Laws/Frame.lean ====
section
/-! SUPPORT. What every shared operation and every command row leaves alone: the waiting commands and the factory values. -/

namespace Sys2Proof.Machine

open Sys2Proof

/-- The waiting commands and the factory values. -/
def State.kept (s : State) : List Instr × Otp := (s.pending, s.otp)

theorem kept_mk {x0 x1 x2 x3 x4 x5 x6 x7 x8 x9 x10 x11 x12 x13 x14 x15 x16 x17 x18 x19 x20 x21 x22 x23 x24 x25 x26 x27 x28 x29 x30
    x31 x32 x33 x34 x35 x36 x37 x38 x39 x40 x41 x42 x43} :
    State.kept (State.mk x0 x1 x2 x3 x4 x5 x6 x7 x8 x9 x10 x11 x12 x13 x14 x15 x16 x17 x18 x19 x20 x21 x22 x23 x24 x25 x26 x27 x28
        x29 x30 x31 x32 x33 x34 x35 x36 x37 x38 x39 x40 x41 x42 x43) = (x0, x34) := rfl

theorem kept_fold (s : State) : (s.pending, s.otp) = s.kept := rfl

theorem foldl_kept {β : Type} (g : State → β → State) (h : ∀ s x, (g s x).kept = s.kept) (l : List β) (s : State) :
    (l.foldl g s).kept = s.kept := by
  induction l generalizing s with
  | nil => rfl
  | cons x l ih => exact (ih _).trans (h s x)

theorem foldl_kept1 {β γ : Type} (g : State × γ → β → State × γ) (h : ∀ a x, (g a x).1.kept = a.1.kept) (l : List β)
    (a : State × γ) : (l.foldl g a).1.kept = a.1.kept := by
  induction l generalizing a with
  | nil => rfl
  | cons x l ih => exact (ih _).trans (h a x)

theorem ite_kept2 {α : Type} (c : Prop) [Decidable c] (a b : α × State) :
    (if c then a else b).2.kept = if c then a.2.kept else b.2.kept := by split <;> rfl

theorem setCore_kept : ∀ s a1 a2, (setCore s a1 a2).kept = s.kept := by
  intro s a1 a2
  unfold setCore
  simp only [kept_mk, kept_fold]

theorem setCl_kept : ∀ s a1 a2, (setCl s a1 a2).kept = s.kept := by
  intro s a1 a2
  unfold setCl
  simp only [kept_mk, kept_fold]

theorem setPort_kept : ∀ s a1 a2, (setPort s a1 a2).kept = s.kept := by
  intro s a1 a2
  unfold setPort
  simp only [kept_mk, kept_fold]

theorem setSlate_kept : ∀ s a1 a2, (setSlate s a1 a2).kept = s.kept := by
  intro s a1 a2
  unfold setSlate
  simp only [kept_mk, kept_fold]

theorem setFrame_kept : ∀ s a1 a2, (setFrame s a1 a2).kept = s.kept := by
  intro s a1 a2
  unfold setFrame
  simp only [kept_mk, kept_fold]

theorem setPin_kept : ∀ s a1 a2, (setPin s a1 a2).kept = s.kept := by
  intro s a1 a2
  unfold setPin
  simp only [kept_mk, kept_fold]

theorem setPolicy_kept : ∀ s a1 a2, (setPolicy s a1 a2).kept = s.kept := by
  intro s a1 a2
  unfold setPolicy
  simp only [kept_mk, kept_fold]

theorem setHost_kept : ∀ s a1 a2, (setHost s a1 a2).kept = s.kept := by
  intro s a1 a2
  unfold setHost
  (repeat' split) <;> simp only [kept_mk, kept_fold]

theorem emit_kept : ∀ s a1, (emit s a1).kept = s.kept := by
  intro s a1
  unfold emit
  simp only [kept_mk, kept_fold]

theorem fireVector_kept : ∀ s a1 a2, (fireVector s a1 a2).kept = s.kept := by
  intro s a1 a2
  unfold fireVector
  dsimp only
  (repeat' split) <;> simp only [↓setHost_kept, ↓emit_kept]

theorem writeCpl_kept : ∀ s a1 a2, (writeCpl s a1 a2).kept = s.kept := by
  intro s a1 a2
  unfold writeCpl
  dsimp only
  (repeat' split) <;> simp only [↓setHost_kept, ↓fireVector_kept]

theorem writeEvt_kept : ∀ s a1 a2, (writeEvt s a1 a2).kept = s.kept := by
  intro s a1 a2
  unfold writeEvt
  dsimp only
  (repeat' split) <;> simp only [↓setHost_kept, ↓fireVector_kept]

theorem postEvent_kept : ∀ s a1 a2, (postEvent s a1 a2).kept = s.kept := by
  intro s a1 a2
  unfold postEvent
  dsimp only
  (repeat' split) <;> simp only [↓writeEvt_kept, ↓setHost_kept]

theorem raiseEv_kept : ∀ s a1 a2 a3 a4, (raiseEv s a1 a2 a3 a4).kept = s.kept := by
  intro s a1 a2 a3 a4
  unfold raiseEv
  dsimp only
  (repeat' split) <;> simp only [↓postEvent_kept, kept_mk, kept_fold]

theorem detect_kept : ∀ s a1, (detect s a1).kept = s.kept := by
  intro s a1
  unfold detect
  simp only [kept_mk, kept_fold]

theorem hostWrite_kept : ∀ s a1 a2 a3, (hostWrite s a1 a2 a3).kept = s.kept := by
  intro s a1 a2 a3
  unfold hostWrite
  simp only [↓setHost_kept]

theorem setHeldCpl_kept : ∀ s a1 a2, (setHeldCpl s a1 a2).kept = s.kept := by
  intro s a1 a2
  unfold setHeldCpl
  (repeat' split) <;> simp only [kept_mk, kept_fold]

theorem postCpl_kept : ∀ s a1 a2, (postCpl s a1 a2).kept = s.kept := by
  intro s a1 a2
  unfold postCpl
  (repeat' split) <;> simp only [↓writeCpl_kept, ↓setHeldCpl_kept]

theorem noteCmd_kept : ∀ s a1 a2 a3, (noteCmd s a1 a2 a3).kept = s.kept := by
  intro s a1 a2 a3
  unfold noteCmd
  (repeat' split) <;> simp only [↓setHost_kept, ↓setSlate_kept]

theorem flushLate_kept : ∀ s, (flushLate s).kept = s.kept := by
  intro s
  unfold flushLate
  repeat' first
    | simp only [↓postCpl_kept, kept_mk, kept_fold]
    | refine (foldl_kept _ (fun _ _ => ?_) _ _).trans ?_
    | split

theorem complete_kept : ∀ s a1 a2 a3 a4 a5, (complete s a1 a2 a3 a4 a5).kept = s.kept := by
  intro s a1 a2 a3 a4 a5
  unfold complete
  dsimp only
  (repeat' split) <;> simp only [↓noteCmd_kept, ↓flushLate_kept, ↓postCpl_kept, kept_mk, kept_fold]

theorem finish_kept : ∀ s a1 a2 a3, (finish s a1 a2 a3).kept = s.kept := by
  intro s a1 a2 a3
  unfold finish
  simp only [↓complete_kept]

theorem accept_kept : ∀ s a1 a2, (accept s a1 a2).kept = s.kept := by
  intro s a1 a2
  unfold accept
  simp only [↓complete_kept]

theorem setScene_kept : ∀ s a1, (setScene s a1).kept = s.kept := by
  intro s a1
  unfold setScene
  simp only [kept_mk, kept_fold]

theorem noteProgress_kept : ∀ s a1, (noteProgress s a1).kept = s.kept := by
  intro s a1
  unfold noteProgress
  (repeat' split) <;> simp only [kept_mk, kept_fold]

theorem coreEv_kept : ∀ s a1 a2 a3 a4, (coreEv s a1 a2 a3 a4).kept = s.kept := by
  intro s a1 a2 a3 a4
  unfold coreEv
  simp only [↓raiseEv_kept]

theorem orderHold_kept : ∀ s a1, (orderHold s a1).kept = s.kept := by
  intro s a1
  unfold orderHold
  dsimp only
  (repeat' split) <;> simp only [↓setCore_kept]

theorem haltScene_kept : ∀ s a1, (haltScene s a1).kept = s.kept := by
  intro s a1
  unfold haltScene
  repeat' first
    | simp only [↓setScene_kept, ↓orderHold_kept, ↓setCore_kept]
    | refine (foldl_kept _ (fun _ _ => ?_) _ _).trans ?_
    | split

theorem holdSlate_kept : ∀ s a1 a2, (holdSlate s a1 a2).kept = s.kept := by
  intro s a1 a2
  unfold holdSlate
  dsimp only
  (repeat' split) <;> simp only [↓setSlate_kept, ↓raiseEv_kept]

theorem haltSlateScenes_kept : ∀ s a1 a2, (haltSlateScenes s a1 a2).kept = s.kept := by
  intro s a1 a2
  unfold haltSlateScenes
  repeat' first
    | simp only [↓haltScene_kept, ↓holdSlate_kept]
    | refine (foldl_kept _ (fun _ _ => ?_) _ _).trans ?_
    | split

theorem freezeSlate_kept : ∀ s a1 a2, (freezeSlate s a1 a2).kept = s.kept := by
  intro s a1 a2
  unfold freezeSlate
  dsimp only
  (repeat' split) <;> simp only [↓setSlate_kept, ↓raiseEv_kept, ↓haltSlateScenes_kept]

theorem violate_kept : ∀ s a1 a2 a3 a4, (violate s a1 a2 a3 a4).kept = s.kept := by
  intro s a1 a2 a3 a4
  unfold violate
  dsimp only
  (repeat' split) <;> simp only [↓setCore_kept, ↓coreEv_kept, ↓freezeSlate_kept]

theorem bumpFloor_kept : ∀ s, (bumpFloor s).kept = s.kept := by
  intro s
  unfold bumpFloor
  simp only [kept_mk, kept_fold]

theorem coreFault_kept : ∀ s a1 a2, (coreFault s a1 a2).kept = s.kept := by
  intro s a1 a2
  unfold coreFault
  simp only [↓detect_kept]

theorem countRetired_kept : ∀ s a1, (countRetired s a1).kept = s.kept := by
  intro s a1
  unfold countRetired
  (repeat' split) <;> simp only [↓setSlate_kept]

theorem oncePerSec_kept : ∀ s a1 a2, (oncePerSec s a1 a2).1.kept = s.kept := by
  intro s a1 a2
  unfold oncePerSec
  dsimp only
  (repeat' split) <;> simp only [kept_mk, kept_fold]

theorem oncePerSec_kept' {s a1 a2 s' x} (h : oncePerSec s a1 a2 = (s', x)) : s'.kept = s.kept := by
  have := oncePerSec_kept s a1 a2; rw [h] at this; exact this

theorem countNoroute_kept : ∀ s, (countNoroute s).kept = s.kept := by
  intro s
  unfold countNoroute
  simp only [kept_mk, kept_fold]

theorem norouteEvent_kept : ∀ s a1 a2 a3, (norouteEvent s a1 a2 a3).kept = s.kept := by
  intro s a1 a2 a3
  unfold norouteEvent
  simp only [↓raiseEv_kept]

theorem noRoute_kept : ∀ s a1 a2 a3, (noRoute s a1 a2 a3).kept = s.kept := by
  intro s a1 a2 a3
  unfold noRoute
  repeat' first
    | simp only [↓countNoroute_kept, ↓norouteEvent_kept]
    | refine (oncePerSec_kept' (by assumption)).trans ?_
    | split

theorem freshIdx_kept : ∀ s, (freshIdx s).2.kept = s.kept := by
  intro s
  unfold freshIdx
  simp only [kept_mk, kept_fold]

theorem freshIdx_kept' {s s' x} (h : freshIdx s = (x, s')) : s'.kept = s.kept := by
  have := freshIdx_kept s; rw [h] at this; exact this

theorem putCore_kept : ∀ s a1 a2, (putCore s a1 a2).kept = s.kept := by
  intro s a1 a2
  unfold putCore
  dsimp only
  (repeat' split) <;> simp only [↓setCore_kept, ↓noteProgress_kept]

theorem handleFault_kept : ∀ s a1 a2 a3 a4, (handleFault s a1 a2 a3 a4).kept = s.kept := by
  intro s a1 a2 a3 a4
  unfold handleFault
  simp only [↓violate_kept]

theorem fillLocal_kept : ∀ a b c n s, (fillLocal a b c n s).kept = s.kept := by
  intro a b c n s
  induction n generalizing s with
  | zero => rfl
  | succ n ih =>
    unfold fillLocal
    repeat' first
      | simp only [↓setCl_kept, ↓ih, kept_mk, kept_fold]
      | exact ih _
      | refine (foldl_kept _ (fun _ _ => ?_) _ _).trans ?_
      | refine (foldl_kept1 _ (fun _ _ => ?_) _ _).trans ?_
      | dsimp only
      | split

theorem injectGo_kept : ∀ s a1 a2 a3, (injectGo s a1 a2 a3).kept = s.kept := by
  intro s a1 a2 a3
  unfold injectGo
  simp only [↓fillLocal_kept]

theorem inject_kept : ∀ s a1 a2 a3 a4, (inject s a1 a2 a3 a4).kept = s.kept := by
  intro s a1 a2 a3 a4
  unfold inject
  simp only [↓injectGo_kept, kept_mk, kept_fold]

theorem injectFrom_kept : ∀ s a1 a2 a3 a4, (injectFrom s a1 a2 a3 a4).kept = s.kept := by
  intro s a1 a2 a3 a4
  unfold injectFrom
  simp only [↓inject_kept]

theorem grantArb_kept : ∀ s a1 a2 a3, (grantArb s a1 a2 a3).kept = s.kept := by
  intro s a1 a2 a3
  unfold grantArb
  simp only [↓setCl_kept]

theorem measure_kept : ∀ s, (measure s).kept = s.kept := by
  intro s
  unfold measure
  simp only [kept_mk, kept_fold]

theorem shareOut_kept : ∀ s, (shareOut s).kept = s.kept := by
  intro s
  unfold shareOut
  repeat' first
    | simp only [↓measure_kept, ↓setFrame_kept]
    | refine (foldl_kept _ (fun _ _ => ?_) _ _).trans ?_
    | split

theorem startFrames_kept : ∀ s a1, (startFrames s a1).kept = s.kept := by
  intro s a1
  unfold startFrames
  repeat' first
    | simp only [↓shareOut_kept, ↓setFrame_kept, kept_mk, kept_fold]
    | refine (foldl_kept _ (fun _ _ => ?_) _ _).trans ?_
    | split

theorem learnRun_kept : ∀ s a1, (learnRun s a1).kept = s.kept := by
  intro s a1
  unfold learnRun
  simp only [kept_mk, kept_fold]

theorem growSlate_kept : ∀ s a1, (growSlate s a1).kept = s.kept := by
  intro s a1
  unfold growSlate
  (repeat' split) <;> simp only [↓setSlate_kept, kept_mk, kept_fold]

theorem sendVexaz_kept : ∀ s a1 a2 a3 a4 a5 a6 a7, (sendVexaz s a1 a2 a3 a4 a5 a6 a7).kept = s.kept := by
  intro s a1 a2 a3 a4 a5 a6 a7
  unfold sendVexaz
  simp only [↓emit_kept]

theorem sendCtl_kept : ∀ s a1 a2, (sendCtl s a1 a2).kept = s.kept := by
  intro s a1 a2
  unfold sendCtl
  dsimp only
  (repeat' split) <;> simp only [↓setPort_kept, ↓sendVexaz_kept]

theorem sendDataPkt_kept : ∀ s a1 a2 a3 a4, (sendDataPkt s a1 a2 a3 a4).kept = s.kept := by
  intro s a1 a2 a3 a4
  unfold sendDataPkt
  simp only [↓sendVexaz_kept, ↓setPort_kept]

theorem pump_kept : ∀ s a b n, (pump s a b n).kept = s.kept := by
  intro s a b n
  induction n generalizing s with
  | zero => rfl
  | succ n ih =>
    unfold pump
    repeat' first
      | simp only [↓setPort_kept, ↓sendDataPkt_kept, ↓ih]
      | exact ih _
      | refine (foldl_kept _ (fun _ _ => ?_) _ _).trans ?_
      | refine (foldl_kept1 _ (fun _ _ => ?_) _ _).trans ?_
      | dsimp only
      | split

theorem pumpAll_kept : ∀ s a1 a2, (pumpAll s a1 a2).kept = s.kept := by
  intro s a1 a2
  unfold pumpAll
  simp only [↓pump_kept]

theorem sendData_kept : ∀ s a1 a2 a3, (sendData s a1 a2 a3).kept = s.kept := by
  intro s a1 a2 a3
  unfold sendData
  simp only [↓pumpAll_kept, ↓setPort_kept]

theorem sendAck_kept : ∀ s a1 a2 a3, (sendAck s a1 a2 a3).kept = s.kept := by
  intro s a1 a2 a3
  unfold sendAck
  simp only [↓sendCtl_kept, ↓setPort_kept]

theorem ackAdvance_kept : ∀ s a1 a2 a3, (ackAdvance s a1 a2 a3).kept = s.kept := by
  intro s a1 a2 a3
  unfold ackAdvance
  dsimp only
  (repeat' split) <;> simp only [↓pumpAll_kept, ↓setPort_kept]

theorem pauseOut_kept : ∀ s a1, (pauseOut s a1).kept = s.kept := by
  intro s a1
  unfold pauseOut
  simp only [kept_mk, kept_fold]

theorem sendPfc_kept : ∀ s a1 a2, (sendPfc s a1 a2).kept = s.kept := by
  intro s a1 a2
  unfold sendPfc
  simp only [↓setPort_kept, ↓emit_kept]

theorem pfcCheck_kept : ∀ s a1, (pfcCheck s a1).kept = s.kept := by
  intro s a1
  unfold pfcCheck
  dsimp only
  (repeat' split) <;> simp only [↓pauseOut_kept, ↓sendPfc_kept]

theorem upEvent_kept : ∀ s a1 a2, (upEvent s a1 a2).kept = s.kept := by
  intro s a1 a2
  unfold upEvent
  simp only [↓raiseEv_kept]

theorem sendReel_kept : ∀ s a1 a2 a3 a4 a5 a6, (sendReel s a1 a2 a3 a4 a5 a6).kept = s.kept := by
  intro s a1 a2 a3 a4 a5 a6
  unfold sendReel
  simp only [↓sendData_kept]

theorem setSlot_kept : ∀ s a1 a2 a3, (setSlot s a1 a2 a3).kept = s.kept := by
  intro s a1 a2 a3
  unfold setSlot
  simp only [↓setPort_kept]

theorem refetchPump_kept : ∀ s a1, (refetchPump s a1).kept = s.kept := by
  intro s a1
  unfold refetchPump
  dsimp only
  (repeat' split) <;> simp only [↓setPort_kept, ↓setSlot_kept, ↓sendReel_kept]

theorem refetchBegin_kept : ∀ s a1, (refetchBegin s a1).kept = s.kept := by
  intro s a1
  unfold refetchBegin
  dsimp only
  (repeat' split) <;> simp only [↓refetchPump_kept, ↓sendReel_kept]

theorem refetchStart_kept : ∀ s a1 a2 a3 a4, (refetchStart s a1 a2 a3 a4).kept = s.kept := by
  intro s a1 a2 a3 a4
  unfold refetchStart
  dsimp only
  (repeat' split) <;> simp only [↓setPort_kept, ↓refetchBegin_kept]

theorem refetchDrop_kept : ∀ s a1, (refetchDrop s a1).kept = s.kept := by
  intro s a1
  unfold refetchDrop
  dsimp only
  (repeat' split) <;> simp only [↓refetchBegin_kept, ↓setPort_kept]

theorem setVault_kept : ∀ s a1 a2, (setVault s a1 a2).kept = s.kept := by
  intro s a1 a2
  unfold setVault
  simp only [↓setCl_kept]

theorem immRegister_kept : ∀ s a1 a2, (immRegister s a1 a2).kept = s.kept := by
  intro s a1 a2
  unfold immRegister
  dsimp only
  (repeat' split) <;> simp only [↓setVault_kept]

theorem immFreeWhere_kept : ∀ s a1, (immFreeWhere s a1).kept = s.kept := by
  intro s a1
  unfold immFreeWhere
  repeat' first
    | simp only [↓setVault_kept]
    | refine (foldl_kept _ (fun _ _ => ?_) _ _).trans ?_
    | split

theorem vaultCrcEvent_kept : ∀ s a1 a2 a3 a4 a5 a6, (vaultCrcEvent s a1 a2 a3 a4 a5 a6).kept = s.kept := by
  intro s a1 a2 a3 a4 a5 a6
  unfold vaultCrcEvent
  simp only [↓raiseEv_kept, ↓detect_kept]

theorem vaultBad_kept : ∀ s a1 a2 a3 a4 a5, (vaultBad s a1 a2 a3 a4 a5).1.kept = s.kept := by
  intro s a1 a2 a3 a4 a5
  unfold vaultBad
  dsimp only
  (repeat' split) <;> simp only [↓vaultCrcEvent_kept, ↓setVault_kept, ↓refetchStart_kept]

theorem vaultBad_kept' {s a1 a2 a3 a4 a5 s' x} (h : vaultBad s a1 a2 a3 a4 a5 = (s', x)) : s'.kept = s.kept := by
  have := vaultBad_kept s a1 a2 a3 a4 a5; rw [h] at this; exact this

theorem vaultEnqueue_kept : ∀ s a1 a2, (vaultEnqueue s a1 a2).kept = s.kept := by
  intro s a1 a2
  unfold vaultEnqueue
  simp only [↓setVault_kept]

theorem vaultRead_kept : ∀ s a1 a2 a3 a4 a5 a6, (vaultRead s a1 a2 a3 a4 a5 a6).1.kept = s.kept := by
  intro s a1 a2 a3 a4 a5 a6
  unfold vaultRead
  dsimp only
  (repeat' split) <;> simp only [↓vaultBad_kept]

theorem vaultRead_kept' {s a1 a2 a3 a4 a5 a6 s' x} (h : vaultRead s a1 a2 a3 a4 a5 a6 = (s', x)) : s'.kept = s.kept := by
  have := vaultRead_kept s a1 a2 a3 a4 a5 a6; rw [h] at this; exact this

theorem vaultWrite_kept : ∀ s a1 a2 a3 a4 a5, (vaultWrite s a1 a2 a3 a4 a5).1.kept = s.kept := by
  intro s a1 a2 a3 a4 a5
  unfold vaultWrite
  dsimp only
  (repeat' split) <;> simp only [↓vaultBad_kept, ↓setVault_kept]

theorem vaultWrite_kept' {s a1 a2 a3 a4 a5 s' x} (h : vaultWrite s a1 a2 a3 a4 a5 = (s', x)) : s'.kept = s.kept := by
  have := vaultWrite_kept s a1 a2 a3 a4 a5; rw [h] at this; exact this

theorem spError_kept : ∀ s a1 a2 a3 a4 a5, (spError s a1 a2 a3 a4 a5).kept = s.kept := by
  intro s a1 a2 a3 a4 a5
  unfold spError
  simp only [↓coreEv_kept, ↓setCore_kept, ↓coreFault_kept]

theorem cmError_kept : ∀ s a1 a2 a3 a4 a5 a6, (cmError s a1 a2 a3 a4 a5 a6).kept = s.kept := by
  intro s a1 a2 a3 a4 a5 a6
  unfold cmError
  simp only [↓coreEv_kept, ↓detect_kept, ↓setCore_kept]

theorem writeBackRun_kept : ∀ s a1 a2 a3 a4, (writeBackRun s a1 a2 a3 a4).kept = s.kept := by
  intro s a1 a2 a3 a4
  unfold writeBackRun
  repeat' first
    | simp only [↓vaultEnqueue_kept, ↓setCl_kept]
    | refine (vaultWrite_kept' (by assumption)).trans ?_
    | split

theorem cacheWriteBack_kept : ∀ s a1 a2, (cacheWriteBack s a1 a2).kept = s.kept := by
  intro s a1 a2
  unfold cacheWriteBack
  repeat' first
    | simp only [↓spError_kept, ↓writeBackRun_kept]
    | refine (foldl_kept _ (fun _ _ => ?_) _ _).trans ?_
    | split

theorem cacheMakeRoom_kept : ∀ s a1 a2, (cacheMakeRoom s a1 a2).1.kept = s.kept := by
  intro s a1 a2
  unfold cacheMakeRoom
  dsimp only
  (repeat' split) <;> simp only [↓cacheWriteBack_kept, ↓setCore_kept]

theorem cacheMakeRoom_kept' {s a1 a2 s' x} (h : cacheMakeRoom s a1 a2 = (s', x)) : s'.kept = s.kept := by
  have := cacheMakeRoom_kept s a1 a2; rw [h] at this; exact this

theorem cachePut_kept : ∀ s a1 a2, (cachePut s a1 a2).kept = s.kept := by
  intro s a1 a2
  unfold cachePut
  simp only [↓setCore_kept]

theorem cacheReadLine.fill_kept : ∀ a0 a1 a2 a3 a4 a5 a6 s a8 a9 a10 a11, (cacheReadLine.fill a0 a1 a2 a3 a4 a5 a6 s a8 a9 a10
    a11).1.kept = s.kept := by
  intro a0 a1 a2 a3 a4 a5 a6 s a8 a9 a10 a11
  unfold cacheReadLine.fill
  dsimp only
  (repeat' split) <;> simp only [↓spError_kept, ↓setCore_kept, ↓vaultRead_kept, ↓cmError_kept, ↓cacheMakeRoom_kept, ↓cachePut_kept]

theorem cacheReadLine.fill_kept' {a0 a1 a2 a3 a4 a5 a6 s a8 a9 a10 a11 s' x} (h : cacheReadLine.fill a0 a1 a2 a3 a4 a5 a6 s a8 a9
    a10 a11 = (s', x)) : s'.kept = s.kept := by
  have := cacheReadLine.fill_kept a0 a1 a2 a3 a4 a5 a6 s a8 a9 a10 a11; rw [h] at this; exact this

theorem cacheReadLine_kept : ∀ s a1 a2 a3 a4 a5 a6 a7, (cacheReadLine s a1 a2 a3 a4 a5 a6 a7).1.kept = s.kept := by
  intro s a1 a2 a3 a4 a5 a6 a7
  unfold cacheReadLine
  dsimp only
  (repeat' split) <;> simp only [↓spError_kept, ↓setCore_kept, ↓cachePut_kept, ↓cacheReadLine.fill_kept]

theorem cacheReadLine_kept' {s a1 a2 a3 a4 a5 a6 a7 s' x} (h : cacheReadLine s a1 a2 a3 a4 a5 a6 a7 = (s', x)) : s'.kept = s.kept := by
  have := cacheReadLine_kept s a1 a2 a3 a4 a5 a6 a7; rw [h] at this; exact this

theorem cacheWriteLine_kept : ∀ s a1 a2 a3 a4 a5 a6, (cacheWriteLine s a1 a2 a3 a4 a5 a6).kept = s.kept := by
  intro s a1 a2 a3 a4 a5 a6
  unfold cacheWriteLine
  dsimp only
  (repeat' split) <;> simp only [↓setCore_kept, ↓cachePut_kept, ↓cacheMakeRoom_kept]

theorem cacheRead_kept : ∀ s a1 a2 a3 a4 a5 a6, (cacheRead s a1 a2 a3 a4 a5 a6).1.kept = s.kept := by
  intro s a1 a2 a3 a4 a5 a6
  unfold cacheRead
  repeat' first
    | simp only [↓cacheReadLine_kept]
    | refine (foldl_kept1 _ (fun _ _ => ?_) _ _).trans ?_
    | split

theorem cacheRead_kept' {s a1 a2 a3 a4 a5 a6 s' x} (h : cacheRead s a1 a2 a3 a4 a5 a6 = (s', x)) : s'.kept = s.kept := by
  have := cacheRead_kept s a1 a2 a3 a4 a5 a6; rw [h] at this; exact this

theorem cacheWrite_kept : ∀ s a1 a2 a3 a4 a5, (cacheWrite s a1 a2 a3 a4 a5).kept = s.kept := by
  intro s a1 a2 a3 a4 a5
  unfold cacheWrite
  repeat' first
    | simp only [↓cacheWriteLine_kept]
    | refine (foldl_kept1 _ (fun _ _ => ?_) _ _).trans ?_
    | split

theorem memRead_kept : ∀ s a1 a2 a3 a4 a5 a6, (memRead s a1 a2 a3 a4 a5 a6).1.kept = s.kept := by
  intro s a1 a2 a3 a4 a5 a6
  unfold memRead
  dsimp only
  (repeat' split) <;> simp only [↓spError_kept, ↓cacheRead_kept, ↓cmError_kept]

theorem memRead_kept' {s a1 a2 a3 a4 a5 a6 s' x} (h : memRead s a1 a2 a3 a4 a5 a6 = (s', x)) : s'.kept = s.kept := by
  have := memRead_kept s a1 a2 a3 a4 a5 a6; rw [h] at this; exact this

theorem memWrite_kept : ∀ s a1 a2 a3 a4 a5, (memWrite s a1 a2 a3 a4 a5).kept = s.kept := by
  intro s a1 a2 a3 a4 a5
  unfold memWrite
  (repeat' split) <;> simp only [↓setCore_kept, ↓cacheWrite_kept, ↓setCl_kept]

theorem memWriteBytes_kept : ∀ s a1 a2 a3 a4, (memWriteBytes s a1 a2 a3 a4).kept = s.kept := by
  intro s a1 a2 a3 a4
  unfold memWriteBytes
  (repeat' split) <;> simp only [↓setCore_kept, ↓setCl_kept]

theorem cacheFlush_kept : ∀ s a1, (cacheFlush s a1).kept = s.kept := by
  intro s a1
  unfold cacheFlush
  repeat' first
    | simp only [↓cacheWriteBack_kept, ↓setCore_kept]
    | refine (foldl_kept _ (fun _ _ => ?_) _ _).trans ?_
    | split

theorem sendCredit_kept : ∀ s a1 a2 a3 a4 a5 a6, (sendCredit s a1 a2 a3 a4 a5 a6).kept = s.kept := by
  intro s a1 a2 a3 a4 a5 a6
  unfold sendCredit
  simp only [↓injectFrom_kept]

theorem creditAfter_kept : ∀ s a1 a2 a3, (creditAfter s a1 a2 a3).kept = s.kept := by
  intro s a1 a2 a3
  unfold creditAfter
  repeat' first
    | simp only [↓setCore_kept, ↓sendCredit_kept]
    | refine (foldl_kept _ (fun _ _ => ?_) _ _).trans ?_
    | split

theorem popCycles_kept : ∀ s a b n m ps, (popCycles s a b n m ps).1.kept = s.kept := by
  intro s a b n m ps
  induction n generalizing s m ps with
  | zero => rfl
  | succ n ih =>
    unfold popCycles
    repeat' first
      | simp only [↓creditAfter_kept, ↓putCore_kept, ↓ih]
      | exact ih _
      | refine (foldl_kept _ (fun _ _ => ?_) _ _).trans ?_
      | refine (foldl_kept1 _ (fun _ _ => ?_) _ _).trans ?_
      | dsimp only
      | split

theorem popCycles_kept' {s a b n m ps s' x} (h : popCycles s a b n m ps = (s', x)) : s'.kept = s.kept := by
  have := popCycles_kept s a b n m ps; rw [h] at this; exact this

theorem mxRead_kept : ∀ s a1 a2 a3 a4, (mxRead s a1 a2 a3 a4).1.kept = s.kept := by
  intro s a1 a2 a3 a4
  unfold mxRead
  simp only [↓memRead_kept]

theorem mxRead_kept' {s a1 a2 a3 a4 s' x} (h : mxRead s a1 a2 a3 a4 = (s', x)) : s'.kept = s.kept := by
  have := mxRead_kept s a1 a2 a3 a4; rw [h] at this; exact this

theorem mxReadBytes_kept : ∀ s a1 a2 a3 a4, (mxReadBytes s a1 a2 a3 a4).1.kept = s.kept := by
  intro s a1 a2 a3 a4
  unfold mxReadBytes
  repeat' first
    | simp only []
    | refine (mxRead_kept' (by assumption)).trans ?_
    | split

theorem mxReadBytes_kept' {s a1 a2 a3 a4 s' x} (h : mxReadBytes s a1 a2 a3 a4 = (s', x)) : s'.kept = s.kept := by
  have := mxReadBytes_kept s a1 a2 a3 a4; rw [h] at this; exact this

theorem mxReadRow_kept : ∀ s a1 a2 a3 a4 a5, (mxReadRow s a1 a2 a3 a4 a5).1.kept = s.kept := by
  intro s a1 a2 a3 a4 a5
  unfold mxReadRow
  repeat' first
    | simp only []
    | refine (mxRead_kept' (by assumption)).trans ?_
    | refine (mxReadBytes_kept' (by assumption)).trans ?_
    | split

theorem mxReadRow_kept' {s a1 a2 a3 a4 a5 s' x} (h : mxReadRow s a1 a2 a3 a4 a5 = (s', x)) : s'.kept = s.kept := by
  have := mxReadRow_kept s a1 a2 a3 a4 a5; rw [h] at this; exact this

theorem mxFeed_kept : ∀ s a1 a2 a3, (mxFeed s a1 a2 a3).1.kept = s.kept := by
  intro s a1 a2 a3
  unfold mxFeed
  (repeat' split) <;> simp only [↓spError_kept, ↓mxReadRow_kept]

theorem mxFeed_kept' {s a1 a2 a3 s' x} (h : mxFeed s a1 a2 a3 = (s', x)) : s'.kept = s.kept := by
  have := mxFeed_kept s a1 a2 a3; rw [h] at this; exact this

theorem mxWork_kept : ∀ s a1 a2 a3 a4, (mxWork s a1 a2 a3 a4).kept = s.kept := by
  intro s a1 a2 a3 a4
  unfold mxWork
  simp only [↓setCore_kept]

theorem mxRetake_kept : ∀ s a1 a2 a3 a4 a5 a6, (mxRetake s a1 a2 a3 a4 a5 a6).kept = s.kept := by
  intro s a1 a2 a3 a4 a5 a6
  unfold mxRetake
  (repeat' split) <;> simp only [↓mxWork_kept, ↓setCore_kept, ↓coreEv_kept, ↓coreFault_kept]

theorem mxWriteRow_kept : ∀ s a1 a2 a3, (mxWriteRow s a1 a2 a3).kept = s.kept := by
  intro s a1 a2 a3
  unfold mxWriteRow
  (repeat' split) <;> simp only [↓memWriteBytes_kept]

theorem mxViolate_kept : ∀ s a1 a2 a3, (mxViolate s a1 a2 a3).kept = s.kept := by
  intro s a1 a2 a3
  unfold mxViolate
  simp only [↓violate_kept, ↓setCore_kept]

theorem sendRead_kept : ∀ s a1 a2 a3 a4 a5 a6 a7, (sendRead s a1 a2 a3 a4 a5 a6 a7).kept = s.kept := by
  intro s a1 a2 a3 a4 a5 a6 a7
  unfold sendRead
  simp only [↓injectFrom_kept]

theorem dmaRefuse_kept : ∀ s a1 a2 a3 a4 a5, (dmaRefuse s a1 a2 a3 a4 a5).kept = s.kept := by
  intro s a1 a2 a3 a4 a5
  unfold dmaRefuse
  dsimp only
  (repeat' split) <;> simp only [↓setCore_kept]

theorem dmaWrite_kept : ∀ s a1 a2 a3 a4 a5 a6, (dmaWrite s a1 a2 a3 a4 a5 a6).kept = s.kept := by
  intro s a1 a2 a3 a4 a5 a6
  unfold dmaWrite
  dsimp only
  (repeat' split) <;> simp only [↓memWrite_kept, ↓setCore_kept, ↓dmaRefuse_kept, ↓noRoute_kept, ↓injectFrom_kept, ↓vaultEnqueue_kept]

theorem dmaPiece_kept : ∀ s a1 a2, (dmaPiece s a1 a2).1.kept = s.kept := by
  intro s a1 a2
  unfold dmaPiece
  dsimp only
  (repeat' split) <;> simp only [↓memRead_kept, ↓dmaWrite_kept, ↓setCore_kept, ↓vaultEnqueue_kept, ↓sendRead_kept]

theorem dmaPiece_kept' {s a1 a2 s' x} (h : dmaPiece s a1 a2 = (s', x)) : s'.kept = s.kept := by
  have := dmaPiece_kept s a1 a2; rw [h] at this; exact this

theorem dmaRow_kept : ∀ a b c n s, (dmaRow a b c n s).kept = s.kept := by
  intro a b c n s
  induction n generalizing s with
  | zero => rfl
  | succ n ih =>
    unfold dmaRow
    repeat' first
      | simp only [↓ih]
      | refine (dmaPiece_kept' (by assumption)).trans ?_
      | exact ih _
      | refine (foldl_kept _ (fun _ _ => ?_) _ _).trans ?_
      | refine (foldl_kept1 _ (fun _ _ => ?_) _ _).trans ?_
      | dsimp only
      | split

theorem dmaRewind_kept : ∀ s a1 a2 a3, (dmaRewind s a1 a2 a3).kept = s.kept := by
  intro s a1 a2 a3
  unfold dmaRewind
  dsimp only
  (repeat' split) <;> simp only [↓setCore_kept]

theorem dmaDrop_kept : ∀ s a1 a2 a3, (dmaDrop s a1 a2 a3).kept = s.kept := by
  intro s a1 a2 a3
  unfold dmaDrop
  simp only [↓setCore_kept]

theorem dmaData_kept : ∀ s a1 a2 a3 a4, (dmaData s a1 a2 a3 a4).kept = s.kept := by
  intro s a1 a2 a3 a4
  unfold dmaData
  dsimp only
  (repeat' split) <;> simp only [↓dmaDrop_kept, ↓dmaWrite_kept, ↓dmaRewind_kept, ↓dmaRefuse_kept]

theorem dmaAck_kept : ∀ s a1 a2 a3, (dmaAck s a1 a2 a3).kept = s.kept := by
  intro s a1 a2 a3
  unfold dmaAck
  dsimp only
  (repeat' split) <;> simp only [↓setCore_kept, ↓dmaRefuse_kept]

theorem dmaImmutable_kept : ∀ s a1 a2, (dmaImmutable s a1 a2).kept = s.kept := by
  intro s a1 a2
  unfold dmaImmutable
  dsimp only
  (repeat' split) <;> simp only [↓immRegister_kept]

theorem dmaComplete_kept : ∀ s a1 a2, (dmaComplete s a1 a2).kept = s.kept := by
  intro s a1 a2
  unfold dmaComplete
  dsimp only
  (repeat' split) <;> simp only [↓memWrite_kept, ↓dmaImmutable_kept, ↓putCore_kept, ↓coreEv_kept]

theorem tileSend_kept : ∀ s a b c d n, (tileSend s a b c d n).kept = s.kept := by
  intro s a b c d n
  induction n generalizing s with
  | zero => rfl
  | succ n ih =>
    unfold tileSend
    repeat' first
      | simp only [↓setCore_kept, ↓sendRead_kept, ↓ih]
      | exact ih _
      | refine (foldl_kept _ (fun _ _ => ?_) _ _).trans ?_
      | refine (foldl_kept1 _ (fun _ _ => ?_) _ _).trans ?_
      | dsimp only
      | split

theorem reelUnchecked_kept : ∀ s a1 a2 a3 a4, (reelUnchecked s a1 a2 a3 a4).kept = s.kept := by
  intro s a1 a2 a3 a4
  unfold reelUnchecked
  simp only [↓raiseEv_kept, ↓detect_kept]

theorem reelTaint_kept : ∀ s a1 a2 a3, (reelTaint s a1 a2 a3).kept = s.kept := by
  intro s a1 a2 a3
  unfold reelTaint
  dsimp only
  (repeat' split) <;> simp only [↓setPort_kept, ↓reelUnchecked_kept]

theorem tileData_kept : ∀ s a1 a2 a3 a4, (tileData s a1 a2 a3 a4).kept = s.kept := by
  intro s a1 a2 a3 a4
  unfold tileData
  repeat' first
    | simp only [↓reelTaint_kept, ↓setCore_kept, ↓tileSend_kept]
    | split

theorem setRouter_kept : ∀ s a1 a2 a3, (setRouter s a1 a2 a3).kept = s.kept := by
  intro s a1 a2 a3
  unfold setRouter
  simp only [↓setCl_kept]

theorem meshDrop_kept : ∀ s a1, (meshDrop s a1).kept = s.kept := by
  intro s a1
  unfold meshDrop
  simp only [kept_mk, kept_fold]

theorem injectAll_kept : ∀ s, (injectAll s).kept = s.kept := by
  intro s
  unfold injectAll
  repeat' first
    | simp only [↓injectGo_kept]
    | refine (foldl_kept _ (fun _ _ => ?_) _ _).trans ?_
    | split

theorem fenceStep_kept : ∀ s, (fenceStep s).kept = s.kept := by
  intro s
  unfold fenceStep
  (repeat' split) <;> simp only [↓injectAll_kept, kept_mk, kept_fold]

theorem leaveMesh_kept : ∀ s a1 a2, (leaveMesh s a1 a2).kept = s.kept := by
  intro s a1 a2
  unfold leaveMesh
  simp only [↓fenceStep_kept, ↓injectGo_kept, ↓setRouter_kept, ↓meshDrop_kept]

theorem darkReturn_kept : ∀ s a1, (darkReturn s a1).kept = s.kept := by
  intro s a1
  unfold darkReturn
  dsimp only
  (repeat' split) <;> simp only [↓leaveMesh_kept, ↓inject_kept]

theorem hop_kept : ∀ s a1 a2 a3, (hop s a1 a2 a3).kept = s.kept := by
  intro s a1 a2 a3
  unfold hop
  simp only [↓setRouter_kept, ↓meshDrop_kept, ↓injectGo_kept, kept_mk, kept_fold]

theorem forward_kept : ∀ s a1, (forward s a1).kept = s.kept := by
  intro s a1
  unfold forward
  dsimp only
  (repeat' split) <;> simp only [↓darkReturn_kept, ↓hop_kept, ↓grantArb_kept]

theorem fenceTo_kept : ∀ s a1, (fenceTo s a1).kept = s.kept := by
  intro s a1
  unfold fenceTo
  (repeat' split) <;> simp only [↓fenceStep_kept, kept_mk, kept_fold]

theorem meshCheckFailed_kept : ∀ s a1 a2 a3 a4, (meshCheckFailed s a1 a2 a3 a4).kept = s.kept := by
  intro s a1 a2 a3 a4
  unfold meshCheckFailed
  simp only [↓leaveMesh_kept, ↓raiseEv_kept, ↓detect_kept]

theorem eject_kept : ∀ s a b c d, (∀ s f, (d s f).kept = s.kept) →
    (eject s a b c d).kept = s.kept := by
  intro s a b c d h
  unfold eject
  dsimp only
  (repeat' split) <;> simp only [↓meshCheckFailed_kept, ↓leaveMesh_kept, ↓h]

theorem replyTo_kept : ∀ s a1 a2 a3 a4 a5 a6 a7, (replyTo s a1 a2 a3 a4 a5 a6 a7).kept = s.kept := by
  intro s a1 a2 a3 a4 a5 a6 a7
  unfold replyTo
  simp only [↓inject_kept]

theorem readReply_kept : ∀ s a1 a2 a3 a4 a5, (readReply s a1 a2 a3 a4 a5).kept = s.kept := by
  intro s a1 a2 a3 a4 a5
  unfold readReply
  simp only [↓replyTo_kept]

theorem writeReply_kept : ∀ s a1 a2 a3 a4, (writeReply s a1 a2 a3 a4).kept = s.kept := by
  intro s a1 a2 a3 a4
  unfold writeReply
  simp only [↓replyTo_kept]

theorem vaultAnswer_kept : ∀ s a1 a2 a3, (vaultAnswer s a1 a2 a3).kept = s.kept := by
  intro s a1 a2 a3
  unfold vaultAnswer
  dsimp only
  (repeat' split) <;> simp only [↓dmaData_kept, ↓dmaAck_kept, ↓setCore_kept, ↓readReply_kept, ↓writeReply_kept, ↓emit_kept, kept_mk,
      kept_fold]

theorem vaultRun_kept : ∀ s a1 a2, (vaultRun s a1 a2).1.kept = s.kept := by
  intro s a1 a2
  unfold vaultRun
  (repeat' split) <;> simp only [↓vaultRead_kept, ↓vaultWrite_kept]

theorem vaultRun_kept' {s a1 a2 s' x} (h : vaultRun s a1 a2 = (s', x)) : s'.kept = s.kept := by
  have := vaultRun_kept s a1 a2; rw [h] at this; exact this

theorem vaultServe_kept : ∀ s a1, (vaultServe s a1).kept = s.kept := by
  intro s a1
  unfold vaultServe
  repeat' first
    | simp only [↓setVault_kept, ↓vaultAnswer_kept]
    | refine (vaultRun_kept' (by assumption)).trans ?_
    | split

theorem vaultDrain_kept : ∀ s a1, (vaultDrain s a1).kept = s.kept := by
  intro s a1
  unfold vaultDrain
  repeat' first
    | simp only [↓vaultServe_kept]
    | refine (foldl_kept _ (fun _ _ => ?_) _ _).trans ?_
    | split

theorem vaultRepair_kept : ∀ s a1 a2, (vaultRepair s a1 a2).kept = s.kept := by
  intro s a1 a2
  unfold vaultRepair
  repeat' first
    | simp only [↓setVault_kept, ↓raiseEv_kept, ↓vaultAnswer_kept]
    | refine (vaultRun_kept' (by assumption)).trans ?_
    | split

theorem refetchArrive_kept : ∀ s a1 a2 a3, (refetchArrive s a1 a2 a3).kept = s.kept := by
  intro s a1 a2 a3
  unfold refetchArrive
  (repeat' split) <;> simp only [↓vaultRepair_kept]

theorem vaultRefetchFail_kept : ∀ s a1 a2, (vaultRefetchFail s a1 a2).kept = s.kept := by
  intro s a1 a2
  unfold vaultRefetchFail
  dsimp only
  (repeat' split) <;> simp only [↓setVault_kept, ↓vaultCrcEvent_kept, ↓vaultAnswer_kept]

theorem refetchHostDown_kept : ∀ s a1, (refetchHostDown s a1).kept = s.kept := by
  intro s a1
  unfold refetchHostDown
  repeat' first
    | simp only [↓vaultRefetchFail_kept]
    | refine (foldl_kept _ (fun _ _ => ?_) _ _).trans ?_
    | split

theorem refetchForget_kept : ∀ s a1, (refetchForget s a1).kept = s.kept := by
  intro s a1
  unfold refetchForget
  repeat' first
    | simp only [↓refetchDrop_kept, ↓setPort_kept]
    | refine (foldl_kept _ (fun _ _ => ?_) _ _).trans ?_
    | split

theorem vaultTemp_kept : ∀ s a1 a2, (vaultTemp s a1 a2).kept = s.kept := by
  intro s a1 a2
  unfold vaultTemp
  dsimp only
  (repeat' split) <;> simp only [↓vaultDrain_kept, ↓setVault_kept, ↓raiseEv_kept]

theorem portReadReply_kept : ∀ s a1 a2 a3 a4, (portReadReply s a1 a2 a3 a4).kept = s.kept := by
  intro s a1 a2 a3 a4
  unfold portReadReply
  simp only [↓readReply_kept]

theorem portWriteReply_kept : ∀ s a1 a2 a3, (portWriteReply s a1 a2 a3).kept = s.kept := by
  intro s a1 a2 a3
  unfold portWriteReply
  simp only [↓writeReply_kept]

theorem putOut_kept : ∀ s a1 a2 a3, (putOut s a1 a2 a3).kept = s.kept := by
  intro s a1 a2 a3
  unfold putOut
  simp only [↓sendReel_kept]

theorem reelHeldEvent_kept : ∀ s a1 a2 a3 a4 a5, (reelHeldEvent s a1 a2 a3 a4 a5).kept = s.kept := by
  intro s a1 a2 a3 a4 a5
  unfold reelHeldEvent
  simp only [↓raiseEv_kept, ↓detect_kept]

theorem slotHold_kept : ∀ s a1 a2 a3 a4 a5, (slotHold s a1 a2 a3 a4 a5).kept = s.kept := by
  intro s a1 a2 a3 a4 a5
  unfold slotHold
  (repeat' split) <;> simp only [↓reelHeldEvent_kept, ↓setSlot_kept]

theorem slotCredit_kept : ∀ s a1 a2 a3, (slotCredit s a1 a2 a3).kept = s.kept := by
  intro s a1 a2 a3
  unfold slotCredit
  (repeat' split) <;> simp only [↓sendReel_kept, ↓setSlot_kept]

theorem slotPump_kept : ∀ s a1 a2, (slotPump s a1 a2).kept = s.kept := by
  intro s a1 a2
  unfold slotPump
  repeat' first
    | simp only [↓slotCredit_kept, ↓setSlot_kept, ↓sendReel_kept]
    | refine (foldl_kept _ (fun _ _ => ?_) _ _).trans ?_
    | split

theorem slotReserve_kept : ∀ s a1 a2, (slotReserve s a1 a2).kept = s.kept := by
  intro s a1 a2
  unfold slotReserve
  (repeat' split) <;> simp only [↓slotPump_kept, ↓slotCredit_kept, ↓setSlot_kept]

theorem reserveAll_kept : ∀ s a1, (reserveAll s a1).kept = s.kept := by
  intro s a1
  unfold reserveAll
  repeat' first
    | simp only [↓slotReserve_kept, ↓pfcCheck_kept, ↓refetchPump_kept]
    | refine (foldl_kept _ (fun _ _ => ?_) _ _).trans ?_
    | split

theorem reelBind_kept : ∀ s a1 a2 a3 a4 a5 a6, (reelBind s a1 a2 a3 a4 a5 a6).kept = s.kept := by
  intro s a1 a2 a3 a4 a5 a6
  unfold reelBind
  dsimp only
  (repeat' split) <;> simp only [↓setSlot_kept, ↓sendReel_kept]

theorem reelRelease_kept : ∀ s a1 a2, (reelRelease s a1 a2).kept = s.kept := by
  intro s a1 a2
  unfold reelRelease
  dsimp only
  (repeat' split) <;> simp only [↓setSlot_kept, ↓setPort_kept, ↓reserveAll_kept, ↓sendReel_kept]

theorem slotServe_kept : ∀ s a b n, (slotServe s a b n).kept = s.kept := by
  intro s a b n
  induction n generalizing s with
  | zero => rfl
  | succ n ih =>
    unfold slotServe
    repeat' first
      | simp only [↓portReadReply_kept, ↓setSlot_kept, ↓ih]
      | exact ih _
      | refine (foldl_kept _ (fun _ _ => ?_) _ _).trans ?_
      | refine (foldl_kept1 _ (fun _ _ => ?_) _ _).trans ?_
      | dsimp only
      | split

theorem slotGo_kept : ∀ s a1 a2, (slotGo s a1 a2).kept = s.kept := by
  intro s a1 a2
  unfold slotGo
  (repeat' split) <;> simp only [↓pfcCheck_kept, ↓slotPump_kept, ↓slotServe_kept]

theorem reelRefuse_kept : ∀ s a1 a2 a3, (reelRefuse s a1 a2 a3).kept = s.kept := by
  intro s a1 a2 a3
  unfold reelRefuse
  (repeat' split) <;> simp only [↓portReadReply_kept, ↓portWriteReply_kept]

theorem reelRead_kept : ∀ s a1 a2 a3, (reelRead s a1 a2 a3).kept = s.kept := by
  intro s a1 a2 a3
  unfold reelRead
  dsimp only
  (repeat' split) <;> simp only [↓reelRefuse_kept, ↓slotGo_kept, ↓setSlot_kept]

theorem blockRetry_kept : ∀ s a1 a2 a3 a4, (blockRetry s a1 a2 a3 a4).kept = s.kept := by
  intro s a1 a2 a3 a4
  unfold blockRetry
  repeat' first
    | simp only [↓setSlot_kept, ↓portReadReply_kept, ↓slotCredit_kept, ↓sendReel_kept, ↓setPort_kept, ↓raiseEv_kept, ↓reelUnchecked_kept]
    | refine (foldl_kept _ (fun _ _ => ?_) _ _).trans ?_
    | split

theorem blockFail_kept : ∀ s a1 a2 a3 a4, (blockFail s a1 a2 a3 a4).kept = s.kept := by
  intro s a1 a2 a3 a4
  unfold blockFail
  (repeat' split) <;> simp only [↓slotHold_kept, ↓setSlot_kept, ↓blockRetry_kept]

theorem slotSegment_kept : ∀ s a1 a2 a3 a4 a5 a6 a7, (slotSegment s a1 a2 a3 a4 a5 a6 a7).kept = s.kept := by
  intro s a1 a2 a3 a4 a5 a6 a7
  unfold slotSegment
  dsimp only
  (repeat' split) <;> simp only [↓slotHold_kept, ↓slotGo_kept, ↓setSlot_kept, ↓blockFail_kept, ↓sendReel_kept]

theorem slotData_kept : ∀ s a1 a2 a3 a4, (slotData s a1 a2 a3 a4).kept = s.kept := by
  intro s a1 a2 a3 a4
  unfold slotData
  dsimp only
  (repeat' split) <;> simp only [↓countRetired_kept, ↓slotCredit_kept, ↓setSlot_kept, ↓slotSegment_kept, ↓slotHold_kept]

theorem refetchCredit_kept : ∀ s a1 a2 a3, (refetchCredit s a1 a2 a3).kept = s.kept := by
  intro s a1 a2 a3
  unfold refetchCredit
  (repeat' split) <;> simp only [↓slotCredit_kept, ↓sendReel_kept]

theorem refetchSend_kept : ∀ s a1 a2 a3, (refetchSend s a1 a2 a3).kept = s.kept := by
  intro s a1 a2 a3
  unfold refetchSend
  (repeat' split) <;> simp only [↓inject_kept]

theorem refetchData_kept : ∀ s a1 a2 a3 a4, (refetchData s a1 a2 a3 a4).kept = s.kept := by
  intro s a1 a2 a3 a4
  unfold refetchData
  dsimp only
  (repeat' split) <;> simp only [↓setPort_kept, ↓sendReel_kept, ↓reserveAll_kept, ↓refetchDrop_kept, ↓pfcCheck_kept,
      ↓vaultRefetchFail_kept, ↓refetchCredit_kept, ↓refetchSend_kept]

theorem reelData_kept : ∀ s a1 a2, (reelData s a1 a2).kept = s.kept := by
  intro s a1 a2
  unfold reelData
  dsimp only
  (repeat' split) <;> simp only [↓refetchData_kept, ↓pfcCheck_kept, ↓slotData_kept]

theorem openAck_kept : ∀ s a1 a2, (openAck s a1 a2).kept = s.kept := by
  intro s a1 a2
  unfold openAck
  repeat' first
    | simp only [↓slotHold_kept, ↓setSlot_kept, ↓slotPump_kept, ↓slotCredit_kept, ↓putOut_kept, ↓reserveAll_kept, ↓refetchDrop_kept,
        ↓vaultRefetchFail_kept, ↓refetchPump_kept, ↓setPort_kept]
    | refine (foldl_kept _ (fun _ _ => ?_) _ _).trans ?_
    | split

theorem reelStoreError_kept : ∀ s a1 a2, (reelStoreError s a1 a2).kept = s.kept := by
  intro s a1 a2
  unfold reelStoreError
  dsimp only
  (repeat' split) <;> simp only [↓reserveAll_kept, ↓refetchDrop_kept, ↓vaultRefetchFail_kept, ↓slotHold_kept]

theorem sendCopyPuts_kept : ∀ s a b c bs n, (sendCopyPuts s a b c bs n).kept = s.kept := by
  intro s a b c bs n
  induction n generalizing s c bs with
  | zero => rfl
  | succ n ih =>
    unfold sendCopyPuts
    repeat' first
      | simp only [↓putOut_kept, ↓setPort_kept, ↓ih]
      | exact ih _
      | refine (foldl_kept _ (fun _ _ => ?_) _ _).trans ?_
      | refine (foldl_kept1 _ (fun _ _ => ?_) _ _).trans ?_
      | dsimp only
      | split

theorem copyPutFail_kept : ∀ s a1 a2, (copyPutFail s a1 a2).kept = s.kept := by
  intro s a1 a2
  unfold copyPutFail
  simp only [kept_mk, kept_fold]

theorem copyPutAck_kept : ∀ s a1 a2 a3 a4, (copyPutAck s a1 a2 a3 a4).kept = s.kept := by
  intro s a1 a2 a3 a4
  unfold copyPutAck
  (repeat' split) <;> simp only [↓putOut_kept, ↓setPort_kept, ↓copyPutFail_kept, kept_mk, kept_fold]

theorem sendPut_kept : ∀ s a1 a2 a3, (sendPut s a1 a2 a3).kept = s.kept := by
  intro s a1 a2 a3
  unfold sendPut
  dsimp only
  (repeat' split) <;> simp only [↓setSlot_kept, ↓putOut_kept]

theorem gatherFull_kept : ∀ s a1 a2, (gatherFull s a1 a2).kept = s.kept := by
  intro s a1 a2
  unfold gatherFull
  repeat' first
    | simp only [↓setSlot_kept, ↓sendPut_kept]
    | refine (foldl_kept _ (fun _ _ => ?_) _ _).trans ?_
    | split

theorem reelWrite_kept : ∀ s a1 a2 a3, (reelWrite s a1 a2 a3).kept = s.kept := by
  intro s a1 a2 a3
  unfold reelWrite
  dsimp only
  (repeat' split) <;> simp only [↓reelRefuse_kept, ↓slotGo_kept, ↓gatherFull_kept, ↓setSlot_kept]

theorem putFlush_kept : ∀ s a1, (putFlush s a1).kept = s.kept := by
  intro s a1
  unfold putFlush
  repeat' first
    | simp only [↓sendPut_kept, ↓setSlot_kept]
    | refine (foldl_kept _ (fun _ _ => ?_) _ _).trans ?_
    | split

theorem putDone_kept : ∀ s a1 a2 a3 a4 a5, (putDone s a1 a2 a3 a4 a5).kept = s.kept := by
  intro s a1 a2 a3 a4 a5
  unfold putDone
  repeat' first
    | simp only [↓setSlot_kept, ↓portWriteReply_kept]
    | refine (foldl_kept _ (fun _ _ => ?_) _ _).trans ?_
    | split

theorem putAck_kept : ∀ s a1 a2, (putAck s a1 a2).kept = s.kept := by
  intro s a1 a2
  unfold putAck
  dsimp only
  (repeat' split) <;> simp only [↓copyPutAck_kept, ↓setSlot_kept, ↓putOut_kept, ↓putDone_kept]

theorem writesRefused_kept : ∀ s a1, (writesRefused s a1).kept = s.kept := by
  intro s a1
  unfold writesRefused
  repeat' first
    | simp only [↓copyPutFail_kept, ↓setPort_kept, ↓portWriteReply_kept, ↓setSlot_kept]
    | refine (foldl_kept _ (fun _ _ => ?_) _ _).trans ?_
    | split

theorem upShown_kept : ∀ s a1 a2, (upShown s a1 a2).kept = s.kept := by
  intro s a1 a2
  unfold upShown
  dsimp only
  (repeat' split) <;> simp only [↓upEvent_kept, ↓setPort_kept]

theorem rhelloAck_kept : ∀ s a1 a2, (rhelloAck s a1 a2).kept = s.kept := by
  intro s a1 a2
  unfold rhelloAck
  repeat' first
    | simp only [↓upShown_kept, ↓setPort_kept, ↓writesRefused_kept, ↓putOut_kept, ↓sendReel_kept, ↓refetchBegin_kept, ↓slotHold_kept]
    | refine (foldl_kept _ (fun _ _ => ?_) _ _).trans ?_
    | split

theorem reelLinkDown_kept : ∀ s a1, (reelLinkDown s a1).kept = s.kept := by
  intro s a1
  unfold reelLinkDown
  simp only [↓setPort_kept]

theorem countMalf_kept : ∀ s, (countMalf s).kept = s.kept := by
  intro s
  unfold countMalf
  simp only [kept_mk, kept_fold]

theorem fabSend_kept : ∀ s a1 a2, (fabSend s a1 a2).kept = s.kept := by
  intro s a1 a2
  unfold fabSend
  (repeat' split) <;> simp only [↓sendData_kept]

theorem fabCross_kept : ∀ s a1 a2 a3, (fabCross s a1 a2 a3).kept = s.kept := by
  intro s a1 a2 a3
  unfold fabCross
  simp only [↓setPort_kept, ↓inject_kept]

theorem fabOut_kept : ∀ s a1 a2 a3, (fabOut s a1 a2 a3).kept = s.kept := by
  intro s a1 a2 a3
  unfold fabOut
  (repeat' split) <;> simp only [↓fabSend_kept, ↓fabCross_kept]

theorem dropRetired_kept : ∀ s a1, (dropRetired s a1).kept = s.kept := by
  intro s a1
  unfold dropRetired
  simp only [↓countRetired_kept, kept_mk, kept_fold]

theorem gatewayDone_kept : ∀ s a1 a2, (gatewayDone s a1 a2).kept = s.kept := by
  intro s a1 a2
  unfold gatewayDone
  dsimp only
  (repeat' split) <;> simp only [↓dropRetired_kept, ↓portWriteReply_kept, ↓setPort_kept, kept_mk, kept_fold]

theorem routeWack_kept : ∀ s a1 a2, (routeWack s a1 a2).kept = s.kept := by
  intro s a1 a2
  unfold routeWack
  dsimp only
  (repeat' split) <;> simp only [↓countMalf_kept, ↓gatewayDone_kept, ↓fabCross_kept, ↓noRoute_kept, ↓fabOut_kept, ↓countNoroute_kept]

theorem sendWack_kept : ∀ s a1 a2 a3, (sendWack s a1 a2 a3).kept = s.kept := by
  intro s a1 a2 a3
  unfold sendWack
  simp only [↓routeWack_kept]

theorem frozenEvent_kept : ∀ s a1 a2, (frozenEvent s a1 a2).kept = s.kept := by
  intro s a1 a2
  unfold frozenEvent
  simp only [↓raiseEv_kept]

theorem countDenial_kept : ∀ s a1, (countDenial s a1).1.kept = s.kept := by
  intro s a1
  unfold countDenial
  dsimp only
  (repeat' split) <;> simp only [↓frozenEvent_kept, kept_mk, kept_fold]

theorem countDenial_kept' {s a1 s' x} (h : countDenial s a1 = (s', x)) : s'.kept = s.kept := by
  have := countDenial_kept s a1; rw [h] at this; exact this

theorem denyWrite_kept : ∀ s a1 a2 a3 a4, (denyWrite s a1 a2 a3 a4).kept = s.kept := by
  intro s a1 a2 a3 a4
  unfold denyWrite
  dsimp only
  (repeat' split) <;> simp only [↓raiseEv_kept, ↓sendWack_kept, ↓countDenial_kept]

theorem setFlow_kept : ∀ s a1, (setFlow s a1).kept = s.kept := by
  intro s a1
  unfold setFlow
  simp only [kept_mk, kept_fold]

theorem countDup_kept : ∀ s, (countDup s).kept = s.kept := by
  intro s
  unfold countDup
  simp only [kept_mk, kept_fold]

theorem duplicateWrite_kept : ∀ s a1 a2 a3, (duplicateWrite s a1 a2 a3).kept = s.kept := by
  intro s a1 a2 a3
  unfold duplicateWrite
  dsimp only
  (repeat' split) <;> simp only [↓countDup_kept, ↓setPort_kept, ↓sendWack_kept]

theorem staleWrite_kept : ∀ s a1 a2, (staleWrite s a1 a2).kept = s.kept := by
  intro s a1 a2
  unfold staleWrite
  dsimp only
  (repeat' split) <;> simp only [↓raiseEv_kept, ↓setFlow_kept, kept_mk, kept_fold]

theorem applyWrite_kept : ∀ s a1 a2 a3, (applyWrite s a1 a2 a3).kept = s.kept := by
  intro s a1 a2 a3
  unfold applyWrite
  simp only [↓setPort_kept, ↓inject_kept]

theorem windowWrite_kept : ∀ s a1 a2, (windowWrite s a1 a2).kept = s.kept := by
  intro s a1 a2
  unfold windowWrite
  dsimp only
  (repeat' split) <;> simp only [↓sendWack_kept, ↓denyWrite_kept, ↓staleWrite_kept, ↓countDup_kept, ↓setFlow_kept,
      ↓duplicateWrite_kept, ↓applyWrite_kept]

theorem writeEnded_kept : ∀ s a1 a2 a3, (writeEnded s a1 a2 a3).kept = s.kept := by
  intro s a1 a2 a3
  unfold writeEnded
  repeat' first
    | simp only [↓setFlow_kept, ↓sendWack_kept]
    | refine (foldl_kept _ (fun _ _ => ?_) _ _).trans ?_
    | split

theorem portAck_kept : ∀ s a1 a2 a3, (portAck s a1 a2 a3).kept = s.kept := by
  intro s a1 a2 a3
  unfold portAck
  dsimp only
  (repeat' split) <;> simp only [↓setPort_kept, ↓sendWack_kept, ↓writeEnded_kept]

theorem routeWrite_kept : ∀ s a1 a2, (routeWrite s a1 a2).kept = s.kept := by
  intro s a1 a2
  unfold routeWrite
  dsimp only
  (repeat' split) <;> simp only [↓countMalf_kept, ↓windowWrite_kept, ↓sendWack_kept, ↓noRoute_kept, ↓fabOut_kept, ↓norouteEvent_kept]

theorem originWrite_kept : ∀ s a1 a2 a3, (originWrite s a1 a2 a3).kept = s.kept := by
  intro s a1 a2 a3
  unfold originWrite
  dsimp only
  (repeat' split) <;> simp only [↓portWriteReply_kept, ↓noRoute_kept, ↓countRetired_kept, ↓setScene_kept, ↓setPort_kept, ↓routeWrite_kept]

theorem outTimeout_kept : ∀ s a1 a2, (outTimeout s a1 a2).kept = s.kept := by
  intro s a1 a2
  unfold outTimeout
  repeat' first
    | simp only [↓raiseEv_kept, ↓portWriteReply_kept, ↓setPort_kept]
    | refine (oncePerSec_kept' (by assumption)).trans ?_
    | split

theorem sendFhello_kept : ∀ s a1, (sendFhello s a1).kept = s.kept := by
  intro s a1
  unfold sendFhello
  (repeat' split) <;> simp only [↓fabSend_kept]

theorem fhelloAll_kept : ∀ s, (fhelloAll s).kept = s.kept := by
  intro s
  unfold fhelloAll
  repeat' first
    | simp only [↓sendFhello_kept]
    | refine (foldl_kept _ (fun _ _ => ?_) _ _).trans ?_
    | split

theorem setEngId_kept : ∀ s a1 a2, (setEngId s a1 a2).kept = s.kept := by
  intro s a1 a2
  unfold setEngId
  simp only [↓fhelloAll_kept, ↓raiseEv_kept, kept_mk, kept_fold]

theorem fhelloIn_kept : ∀ s a1 a2, (fhelloIn s a1 a2).kept = s.kept := by
  intro s a1 a2
  unfold fhelloIn
  dsimp only
  (repeat' split) <;> simp only [↓setPort_kept, ↓raiseEv_kept]

theorem discBack_kept : ∀ s a1 a2 a3 a4 a5, (discBack s a1 a2 a3 a4 a5).kept = s.kept := by
  intro s a1 a2 a3 a4 a5
  unfold discBack
  simp only [↓fabSend_kept]

theorem discStop_kept : ∀ s a1 a2, (discStop s a1 a2).kept = s.kept := by
  intro s a1 a2
  unfold discStop
  simp only [↓fabOut_kept]

theorem idAssignHere_kept : ∀ s a1 a2, (idAssignHere s a1 a2).kept = s.kept := by
  intro s a1 a2
  unfold idAssignHere
  (repeat' split) <;> simp only [↓discBack_kept, ↓setEngId_kept]

theorem discWalk_kept : ∀ s a1 a2, (discWalk s a1 a2).kept = s.kept := by
  intro s a1 a2
  unfold discWalk
  dsimp only
  (repeat' split) <;> simp only [↓discBack_kept, ↓idAssignHere_kept, ↓fabOut_kept]

theorem discDone_kept : ∀ s a1, (discDone s a1).kept = s.kept := by
  intro s a1
  unfold discDone
  (repeat' split) <;> simp only [↓hostWrite_kept, ↓finish_kept, kept_mk, kept_fold]

theorem discReturn_kept : ∀ s a1 a2, (discReturn s a1 a2).kept = s.kept := by
  intro s a1 a2
  unfold discReturn
  dsimp only
  (repeat' split) <;> simp only [↓discDone_kept, ↓fabOut_kept]

theorem fabIn_kept : ∀ s a1 a2 a3, (fabIn s a1 a2 a3).kept = s.kept := by
  intro s a1 a2 a3
  unfold fabIn
  repeat' first
    | simp only [↓countMalf_kept, ↓raiseEv_kept, ↓setPort_kept]
    | refine (oncePerSec_kept' (by assumption)).trans ?_
    | split

theorem fabTake_kept {s a b s' x} (h : fabTake s a b = some (s', x)) : s'.kept = s.kept := by
  unfold fabTake at h
  dsimp only at h
  repeat' split at h
  all_goals first
    | contradiction
    | (obtain ⟨rfl, rfl⟩ := Option.some.inj h
       simp only [↓setPort_kept])
    | (have h := Option.some.inj h
       obtain ⟨rfl, rfl⟩ := Prod.mk.inj h
       simp only [↓setPort_kept])

theorem fabLeave_kept : ∀ s a1 a2, (fabLeave s a1 a2).kept = s.kept := by
  intro s a1 a2
  unfold fabLeave
  dsimp only
  (repeat' split) <;> simp only [↓countMalf_kept, ↓dropRetired_kept, ↓gatewayDone_kept, ↓sendWack_kept, ↓noRoute_kept,
      ↓discStop_kept, ↓norouteEvent_kept, ↓countNoroute_kept, ↓fabSend_kept]

theorem fabRow_kept : ∀ s a b d, (∀ s m, (d s m).kept = s.kept) →
    (fabRow s a b d).kept = s.kept := by
  intro s a b d h
  unfold fabRow
  repeat' first
    | simp only [↓pfcCheck_kept, ↓fabLeave_kept, ↓portWriteReply_kept, ↓h]
    | refine (fabTake_kept (by assumption)).trans ?_
    | refine (fabTake_kept (by assumption)).trans ?_
    | split

theorem flowsTrim_kept : ∀ s, (flowsTrim s).kept = s.kept := by
  intro s
  unfold flowsTrim
  simp only [kept_mk, kept_fold]

theorem windowFree_kept : ∀ s a1, (windowFree s a1).kept = s.kept := by
  intro s a1
  unfold windowFree
  simp only [↓flowsTrim_kept, kept_mk, kept_fold]

theorem windowShut_kept : ∀ s a1, (windowShut s a1).kept = s.kept := by
  intro s a1
  unfold windowShut
  dsimp only
  (repeat' split) <;> simp only [kept_mk, kept_fold]

theorem routeAlternate_kept : ∀ s a1, (routeAlternate s a1).kept = s.kept := by
  intro s a1
  unfold routeAlternate
  simp only [↓raiseEv_kept, kept_mk, kept_fold]

theorem routeFallback_kept : ∀ s a1, (routeFallback s a1).kept = s.kept := by
  intro s a1
  unfold routeFallback
  (repeat' split) <;> simp only [↓routeAlternate_kept]

theorem setBoard_kept : ∀ s a1 a2, (setBoard s a1 a2).kept = s.kept := by
  intro s a1 a2
  unfold setBoard
  simp only [kept_mk, kept_fold]

theorem imageAgain_kept : ∀ s a1 a2, (imageAgain s a1 a2).1.kept = s.kept := by
  intro s a1 a2
  unfold imageAgain
  dsimp only
  (repeat' split) <;> simp only [↓setBoard_kept]

theorem imageAgain_kept' {s a1 a2 s' x} (h : imageAgain s a1 a2 = (s', x)) : s'.kept = s.kept := by
  have := imageAgain_kept s a1 a2; rw [h] at this; exact this

theorem placeRead_kept : ∀ s a1 a2, (placeRead s a1 a2).1.kept = s.kept := by
  intro s a1 a2
  unfold placeRead
  dsimp only
  (repeat' split) <;> simp only [↓spError_kept, ↓raiseEv_kept, ↓vaultRead_kept]

theorem placeRead_kept' {s a1 a2 s' x} (h : placeRead s a1 a2 = (s', x)) : s'.kept = s.kept := by
  have := placeRead_kept s a1 a2; rw [h] at this; exact this

theorem placeWrite_kept : ∀ s a1 a2 a3, (placeWrite s a1 a2 a3).1.kept = s.kept := by
  intro s a1 a2 a3
  unfold placeWrite
  dsimp only
  (repeat' split) <;> simp only [↓setCore_kept, ↓setCl_kept, ↓vaultWrite_kept]

theorem placeWrite_kept' {s a1 a2 a3 s' x} (h : placeWrite s a1 a2 a3 = (s', x)) : s'.kept = s.kept := by
  have := placeWrite_kept s a1 a2 a3; rw [h] at this; exact this

theorem copyOut_kept : ∀ s a1 a2 a3 a4, (copyOut s a1 a2 a3 a4).kept = s.kept := by
  intro s a1 a2 a3 a4
  unfold copyOut
  (repeat' split) <;> simp only [↓hostWrite_kept, ↓sendCopyPuts_kept]

theorem copyRanges_kept : ∀ s j l, (copyRanges s j l).1.kept = s.kept := by
  intro s j l
  induction l generalizing s with
  | nil => rfl
  | cons x l ih =>
    unfold copyRanges
    repeat' first
      | simp only [↓copyOut_kept, ↓ih]
      | refine (placeRead_kept' (by assumption)).trans ?_
      | refine (ih _).trans ?_
      | refine (foldl_kept _ (fun _ _ => ?_) _ _).trans ?_
      | refine (foldl_kept1 _ (fun _ _ => ?_) _ _).trans ?_
      | dsimp only
      | split

theorem copyRanges_kept' {s j l s' x} (h : copyRanges s j l = (s', x)) : s'.kept = s.kept := by
  have := copyRanges_kept s j l; rw [h] at this; exact this

theorem copyStep_kept : ∀ s a1, (copyStep s a1).1.kept = s.kept := by
  intro s a1
  unfold copyStep
  (repeat' split) <;> simp only [↓copyRanges_kept]

theorem copyStep_kept' {s a1 s' x} (h : copyStep s a1 = (s', x)) : s'.kept = s.kept := by
  have := copyStep_kept s a1; rw [h] at this; exact this

theorem copyWork_kept : ∀ s a1, (copyWork s a1).1.kept = s.kept := by
  intro s a1
  unfold copyWork
  simp only [↓copyStep_kept, kept_mk, kept_fold]

theorem copyWork_kept' {s a1 s' x} (h : copyWork s a1 = (s', x)) : s'.kept = s.kept := by
  have := copyWork_kept s a1; rw [h] at this; exact this

theorem copyStart_kept : ∀ s a1 a2 a3 a4 a5 a6 a7 a8 a9, (copyStart s a1 a2 a3 a4 a5 a6 a7 a8 a9).kept = s.kept := by
  intro s a1 a2 a3 a4 a5 a6 a7 a8 a9
  unfold copyStart
  simp only [↓copyWork_kept, kept_mk, kept_fold]

theorem copyDrop_kept : ∀ s a1, (copyDrop s a1).kept = s.kept := by
  intro s a1
  unfold copyDrop
  dsimp only
  (repeat' split) <;> simp only [↓setPort_kept, kept_mk, kept_fold]

theorem copiesEnd_kept : ∀ s a1 a2, (copiesEnd s a1 a2).kept = s.kept := by
  intro s a1 a2
  unfold copiesEnd
  repeat' first
    | simp only [↓copyDrop_kept]
    | refine (foldl_kept _ (fun _ _ => ?_) _ _).trans ?_
    | split

theorem copyBack_kept : ∀ s a b l, (copyBack s a b l).1.kept = s.kept := by
  intro s a b l
  induction l generalizing s with
  | nil => rfl
  | cons x l ih =>
    unfold copyBack
    repeat' first
      | simp only [↓ih]
      | refine (placeWrite_kept' (by assumption)).trans ?_
      | refine (ih _).trans ?_
      | refine (foldl_kept _ (fun _ _ => ?_) _ _).trans ?_
      | refine (foldl_kept1 _ (fun _ _ => ?_) _ _).trans ?_
      | dsimp only
      | split

theorem copyBack_kept' {s a b l s' x} (h : copyBack s a b l = (s', x)) : s'.kept = s.kept := by
  have := copyBack_kept s a b l; rw [h] at this; exact this

theorem registerKeeps_kept : ∀ s a1 a2 a3, (registerKeeps s a1 a2 a3).kept = s.kept := by
  intro s a1 a2 a3
  unfold registerKeeps
  repeat' first
    | simp only [↓immRegister_kept]
    | refine (foldl_kept _ (fun _ _ => ?_) _ _).trans ?_
    | split

theorem leaveScene_kept : ∀ s a1, (leaveScene s a1).kept = s.kept := by
  intro s a1
  unfold leaveScene
  simp only [↓setCore_kept]

theorem startQueue_kept : ∀ s a1 a2, (startQueue s a1 a2).kept = s.kept := by
  intro s a1 a2
  unfold startQueue
  dsimp only
  (repeat' split) <;> simp only [↓spError_kept, ↓setCore_kept, ↓coreEv_kept, ↓violate_kept]

theorem startTables_kept : ∀ s a1, (startTables s a1).kept = s.kept := by
  intro s a1
  unfold startTables
  repeat' first
    | simp only [↓startQueue_kept]
    | refine (foldl_kept _ (fun _ _ => ?_) _ _).trans ?_
    | split

theorem startCore_kept : ∀ s a1, (startCore s a1).kept = s.kept := by
  intro s a1
  unfold startCore
  simp only [↓startTables_kept, ↓setCore_kept]

theorem setMode_kept : ∀ s a1 a2, (setMode s a1 a2).kept = s.kept := by
  intro s a1 a2
  unfold setMode
  simp only [↓setSlate_kept]

theorem slateRuns_kept : ∀ s a1 a2, (slateRuns s a1 a2).kept = s.kept := by
  intro s a1 a2
  unfold slateRuns
  (repeat' split) <;> simp only [↓setMode_kept, ↓setSlate_kept]

theorem slateClosed_kept : ∀ s a1 a2, (slateClosed s a1 a2).kept = s.kept := by
  intro s a1 a2
  unfold slateClosed
  dsimp only
  (repeat' split) <;> simp only [↓setMode_kept, ↓setSlate_kept]

theorem releaseReels_kept : ∀ s a1, (releaseReels s a1).kept = s.kept := by
  intro s a1
  unfold releaseReels
  repeat' first
    | simp only [↓reelRelease_kept]
    | refine (foldl_kept _ (fun _ _ => ?_) _ _).trans ?_
    | split

theorem noteClosing_kept : ∀ s a1, (noteClosing s a1).kept = s.kept := by
  intro s a1
  unfold noteClosing
  repeat' first
    | simp only [↓setCl_kept]
    | refine (foldl_kept _ (fun _ _ => ?_) _ _).trans ?_
    | split

theorem dropScene_kept : ∀ s a1 a2, (dropScene s a1 a2).kept = s.kept := by
  intro s a1 a2
  unfold dropScene
  repeat' first
    | simp only [↓setCore_kept, ↓leaveScene_kept, ↓noteClosing_kept, ↓releaseReels_kept, ↓copiesEnd_kept, ↓learnRun_kept,
        ↓shareOut_kept, kept_mk, kept_fold]
    | refine (foldl_kept _ (fun _ _ => ?_) _ _).trans ?_
    | split

theorem setUnfinished_kept : ∀ s a1, (setUnfinished s a1).kept = s.kept := by
  intro s a1
  unfold setUnfinished
  simp only [kept_mk, kept_fold]

theorem finishRun_kept : ∀ s a1 a2, (finishRun s a1 a2).kept = s.kept := by
  intro s a1 a2
  unfold finishRun
  dsimp only
  (repeat' split) <;> simp only [↓complete_kept, kept_mk, kept_fold]

theorem slatesClosed_kept : ∀ s a1 a2, (slatesClosed s a1 a2).kept = s.kept := by
  intro s a1 a2
  unfold slatesClosed
  repeat' first
    | simp only [↓slateClosed_kept]
    | refine (foldl_kept _ (fun _ _ => ?_) _ _).trans ?_
    | split

theorem drainClose_kept : ∀ s a1, (drainClose s a1).kept = s.kept := by
  intro s a1
  unfold drainClose
  dsimp only
  (repeat' split) <;> simp only [↓raiseEv_kept, ↓finishRun_kept, ↓dropScene_kept, ↓slatesClosed_kept]

theorem cutClose_kept : ∀ s a1, (cutClose s a1).kept = s.kept := by
  intro s a1
  unfold cutClose
  (repeat' split) <;> simp only [↓raiseEv_kept, ↓dropScene_kept, ↓finishRun_kept, ↓slatesClosed_kept]

theorem sceneCheck_kept : ∀ s a1 a2, (sceneCheck s a1 a2).kept = s.kept := by
  intro s a1 a2
  unfold sceneCheck
  dsimp only
  (repeat' split) <;> simp only [↓setScene_kept, ↓drainClose_kept]

theorem takeRuns_kept : ∀ s a1, (takeRuns s a1).1.kept = s.kept := by
  intro s a1
  unfold takeRuns
  repeat' first
    | simp only [↓setSlate_kept]
    | refine (foldl_kept _ (fun _ _ => ?_) _ _).trans ?_
    | split

theorem takeRuns_kept' {s a1 s' x} (h : takeRuns s a1 = (s', x)) : s'.kept = s.kept := by
  have := takeRuns_kept s a1; rw [h] at this; exact this

theorem putClaps_kept : ∀ s a1 a2 a3, (putClaps s a1 a2 a3).kept = s.kept := by
  intro s a1 a2 a3
  unfold putClaps
  repeat' first
    | simp only [↓setCl_kept]
    | refine (foldl_kept _ (fun _ _ => ?_) _ _).trans ?_
    | split

theorem admitInstall_kept : ∀ s a1 a2, (admitInstall s a1 a2).1.kept = s.kept := by
  intro s a1 a2
  unfold admitInstall
  repeat' first
    | simp only [↓takeRuns_kept, ↓setCl_kept, ↓setCore_kept, ↓putClaps_kept, ↓reelBind_kept, kept_mk, kept_fold]
    | refine (foldl_kept _ (fun _ _ => ?_) _ _).trans ?_
    | split

theorem admitInstall_kept' {s a1 a2 s' x} (h : admitInstall s a1 a2 = (s', x)) : s'.kept = s.kept := by
  have := admitInstall_kept s a1 a2; rw [h] at this; exact this

theorem admitAccept_kept : ∀ s a1 a2, (admitAccept s a1 a2).kept = s.kept := by
  intro s a1 a2
  unfold admitAccept
  repeat' first
    | simp only [↓setScene_kept, ↓registerKeeps_kept, ↓finish_kept, ↓accept_kept, ↓slateRuns_kept, ↓startFrames_kept,
        ↓holdSlate_kept, ↓haltScene_kept, kept_mk, kept_fold]
    | refine (foldl_kept _ (fun _ _ => ?_) _ _).trans ?_
    | refine (foldl_kept1 _ (fun _ _ => ?_) _ _).trans ?_
    | dsimp only
    | split

theorem admitScene_kept : ∀ s a1 a2, (admitScene s a1 a2).kept = s.kept := by
  intro s a1 a2
  unfold admitScene
  repeat' first
    | simp only [↓admitInstall_kept, ↓admitAccept_kept, ↓copyStart_kept, kept_mk, kept_fold]
    | refine (admitInstall_kept' (by assumption)).trans ?_
    | refine (foldl_kept _ (fun _ _ => ?_) _ _).trans ?_
    | refine (foldl_kept1 _ (fun _ _ => ?_) _ _).trans ?_
    | split

theorem admitUndo_kept : ∀ s a1 a2, (admitUndo s a1 a2).kept = s.kept := by
  intro s a1 a2
  unfold admitUndo
  repeat' first
    | simp only [↓releaseReels_kept, ↓copiesEnd_kept, ↓setCore_kept, ↓noteClosing_kept, ↓putClaps_kept, kept_mk, kept_fold]
    | refine (foldl_kept _ (fun _ _ => ?_) _ _).trans ?_
    | split

theorem admitFail_kept : ∀ s a1 a2 a3, (admitFail s a1 a2 a3).kept = s.kept := by
  intro s a1 a2 a3
  unfold admitFail
  (repeat' split) <;> simp only [↓admitUndo_kept, ↓finish_kept]

theorem sceneStrobe_kept : ∀ s, (sceneStrobe s).kept = s.kept := by
  intro s
  unfold sceneStrobe
  repeat' first
    | simp only [↓emit_kept]
    | refine (foldl_kept _ (fun _ _ => ?_) _ _).trans ?_
    | split

theorem sceneStartCore_kept : ∀ s a1, (sceneStartCore s a1).kept = s.kept := by
  intro s a1
  unfold sceneStartCore
  dsimp only
  (repeat' split) <;> simp only [↓startCore_kept, ↓sceneStrobe_kept, ↓setScene_kept]

theorem consumeCmd_kept : ∀ s a1, (consumeCmd s a1).kept = s.kept := by
  intro s a1
  unfold consumeCmd
  simp only [↓setHost_kept]

theorem ringViolation_kept : ∀ s a1 a2 a3 a4, (ringViolation s a1 a2 a3 a4).kept = s.kept := by
  intro s a1 a2 a3 a4
  unfold ringViolation
  simp only [↓raiseEv_kept, ↓setHost_kept, ↓fireVector_kept]

theorem seqAdvance_kept : ∀ s a1 a2 a3, (seqAdvance s a1 a2 a3).kept = s.kept := by
  intro s a1 a2 a3
  unfold seqAdvance
  (repeat' split) <;> simp only [↓setSlate_kept, ↓setHost_kept]

theorem turnAway_kept : ∀ s a1 a2 a3, (turnAway s a1 a2 a3).kept = s.kept := by
  intro s a1 a2 a3
  unfold turnAway
  simp only [↓postCpl_kept]

theorem duplicate_kept : ∀ s a1 a2, (duplicate s a1 a2).kept = s.kept := by
  intro s a1 a2
  unfold duplicate
  (repeat' split) <;> simp only [↓turnAway_kept, kept_mk, kept_fold]

theorem hostFreeze_kept : ∀ s a1 a2 a3 a4, (hostFreeze s a1 a2 a3 a4).kept = s.kept := by
  intro s a1 a2 a3 a4
  unfold hostFreeze
  dsimp only
  (repeat' split) <;> simp only [↓setHost_kept, ↓raiseEv_kept, ↓fireVector_kept, ↓freezeSlate_kept, ↓turnAway_kept]

theorem judgeCmd_kept : ∀ a b c d s, (∀ r s, (d r s).kept = s.kept) →
    (judgeCmd a b c d s).kept = s.kept := by
  intro a b c d s h
  unfold judgeCmd
  dsimp only
  (repeat' split) <;> simp only [↓turnAway_kept, ↓seqAdvance_kept, ↓finish_kept, ↓duplicate_kept, ↓hostFreeze_kept, ↓h]

theorem mailboxAs_kept : ∀ a b c d s, (∀ r s, (d r s).kept = s.kept) →
    (mailboxAs a b c d s).kept = s.kept := by
  intro a b c d s h
  unfold mailboxAs
  repeat' first
    | simp only [↓consumeCmd_kept, ↓ringViolation_kept, ↓turnAway_kept, ↓h]
    | refine (judgeCmd_kept _ _ _ _ _ (fun _ _ => ?_)).trans ?_
    | split

theorem mailbox_kept : ∀ a b c d s, (∀ r s, (d r s).kept = s.kept) →
    (mailbox a b c d s).kept = s.kept := by
  intro a b c d s h
  unfold mailbox
  repeat' first
    | simp only [↓h]
    | refine (mailboxAs_kept _ _ _ _ _ (fun _ _ => ?_)).trans ?_
    | split

theorem authorityEv_kept : ∀ s a1 a2 a3, (authorityEv s a1 a2 a3).kept = s.kept := by
  intro s a1 a2 a3
  unfold authorityEv
  simp only [↓raiseEv_kept]

theorem loseAuthority_kept : ∀ s a1 a2, (loseAuthority s a1 a2).kept = s.kept := by
  intro s a1 a2
  unfold loseAuthority
  (repeat' split) <;> simp only [↓authorityEv_kept, kept_mk, kept_fold]

theorem endSession_kept : ∀ s a1 a2, (endSession s a1 a2).kept = s.kept := by
  intro s a1 a2
  unfold endSession
  simp only [↓loseAuthority_kept, ↓setHost_kept]

theorem replayClose_kept : ∀ s a1 a2 a3, (replayClose s a1 a2 a3).kept = s.kept := by
  intro s a1 a2 a3
  unfold replayClose
  (repeat' split) <;> simp only [↓dropScene_kept, kept_mk, kept_fold]

theorem replayEvent_kept : ∀ s a1 a2, (replayEvent s a1 a2).kept = s.kept := by
  intro s a1 a2
  unfold replayEvent
  simp only [↓raiseEv_kept]

theorem replayRun_kept : ∀ s a1 a2 a3, (replayRun s a1 a2 a3).1.kept = s.kept := by
  intro s a1 a2 a3
  unfold replayRun
  repeat' first
    | simp only [↓imageAgain_kept, ↓replayClose_kept, ↓cutClose_kept, ↓accept_kept, ↓replayEvent_kept, kept_mk, kept_fold]
    | refine (foldl_kept _ (fun _ _ => ?_) _ _).trans ?_
    | split

theorem replayRun_kept' {s a1 a2 a3 s' x} (h : replayRun s a1 a2 a3 = (s', x)) : s'.kept = s.kept := by
  have := replayRun_kept s a1 a2 a3; rw [h] at this; exact this

theorem replayOrder_kept : ∀ s a1, (replayOrder s a1).1.kept = s.kept := by
  intro s a1
  unfold replayOrder
  (repeat' split) <;> simp only [↓replayRun_kept]

theorem replayOrder_kept' {s a1 s' x} (h : replayOrder s a1 = (s', x)) : s'.kept = s.kept := by
  have := replayOrder_kept s a1; rw [h] at this; exact this

theorem replayRestore_kept : ∀ s a1 a2, (replayRestore s a1 a2).1.kept = s.kept := by
  intro s a1 a2
  unfold replayRestore
  simp only [↓copyBack_kept]

theorem replayRestore_kept' {s a1 a2 s' x} (h : replayRestore s a1 a2 = (s', x)) : s'.kept = s.kept := by
  have := replayRestore_kept s a1 a2; rw [h] at this; exact this

theorem remapOrder_kept : ∀ s a1 a2 a3 a4 a5 a6, (remapOrder s a1 a2 a3 a4 a5 a6).1.kept = s.kept := by
  intro s a1 a2 a3 a4 a5 a6
  unfold remapOrder
  (repeat' split) <;> simp only [↓setBoard_kept, ↓raiseEv_kept]

theorem remapOrder_kept' {s a1 a2 a3 a4 a5 a6 s' x} (h : remapOrder s a1 a2 a3 a4 a5 a6 = (s', x)) : s'.kept = s.kept := by
  have := remapOrder_kept s a1 a2 a3 a4 a5 a6; rw [h] at this; exact this

theorem autoReplay_kept : ∀ s a1, (autoReplay s a1).kept = s.kept := by
  intro s a1
  unfold autoReplay
  repeat' first
    | simp only [↓raiseEv_kept, ↓replayOrder_kept]
    | refine (foldl_kept _ (fun _ _ => ?_) _ _).trans ?_
    | split

theorem fenceCore_kept : ∀ s a1, (fenceCore s a1).kept = s.kept := by
  intro s a1
  unfold fenceCore
  dsimp only
  (repeat' split) <;> simp only [↓bumpFloor_kept, ↓setCore_kept]

theorem markFaultHeld_kept : ∀ s a1, (markFaultHeld s a1).kept = s.kept := by
  intro s a1
  unfold markFaultHeld
  repeat' first
    | simp only [↓setSlate_kept]
    | refine (foldl_kept _ (fun _ _ => ?_) _ _).trans ?_
    | split

theorem autoStandin_kept : ∀ s a1 a2, (autoStandin s a1 a2).1.kept = s.kept := by
  intro s a1 a2
  unfold autoStandin
  (repeat' split) <;> simp only [↓remapOrder_kept]

theorem autoStandin_kept' {s a1 a2 s' x} (h : autoStandin s a1 a2 = (s', x)) : s'.kept = s.kept := by
  have := autoStandin_kept s a1 a2; rw [h] at this; exact this

theorem faultHaltSlate_kept : ∀ s a1 a2, (faultHaltSlate s a1 a2).kept = s.kept := by
  intro s a1 a2
  unfold faultHaltSlate
  repeat' first
    | simp only [↓markFaultHeld_kept, ↓haltSlateScenes_kept, ↓fenceCore_kept, ↓autoStandin_kept, ↓raiseEv_kept, ↓autoReplay_kept]
    | refine (foldl_kept _ (fun _ _ => ?_) _ _).trans ?_
    | split

theorem faultHalt_kept : ∀ s a1, (faultHalt s a1).kept = s.kept := by
  intro s a1
  unfold faultHalt
  repeat' first
    | simp only [↓fenceCore_kept, ↓faultHaltSlate_kept]
    | refine (foldl_kept _ (fun _ _ => ?_) _ _).trans ?_
    | split

theorem loadBegin_kept : ∀ a0 a1 a2 s, (loadBegin a0 a1 a2 s).kept = s.kept := by
  intro a0 a1 a2 s
  unfold loadBegin
  (repeat' split) <;> simp only [↓accept_kept, ↓finish_kept, kept_mk, kept_fold]

theorem vaultImage_kept : ∀ s a1 a2, (vaultImage s a1 a2).1.kept = s.kept := by
  intro s a1 a2
  unfold vaultImage
  (repeat' split) <;> simp only [↓placeWrite_kept]

theorem vaultImage_kept' {s a1 a2 s' x} (h : vaultImage s a1 a2 = (s', x)) : s'.kept = s.kept := by
  have := vaultImage_kept s a1 a2; rw [h] at this; exact this

theorem vaultRegister_kept : ∀ s a1 a2, (vaultRegister s a1 a2).kept = s.kept := by
  intro s a1 a2
  unfold vaultRegister
  (repeat' split) <;> simp only [↓immRegister_kept]

theorem imageSeen_kept : ∀ s a1 a2, (imageSeen s a1 a2).kept = s.kept := by
  intro s a1 a2
  unfold imageSeen
  (repeat' split) <;> simp only [↓hostWrite_kept]

theorem boardForget_kept : ∀ s a1, (boardForget s a1).kept = s.kept := by
  intro s a1
  unfold boardForget
  (repeat' split) <;> simp only [↓setBoard_kept, ↓immFreeWhere_kept]

theorem loadEnd_kept : ∀ s a1 a2, (loadEnd s a1 a2).kept = s.kept := by
  intro s a1 a2
  unfold loadEnd
  repeat' first
    | simp only [↓finish_kept, ↓imageSeen_kept, ↓vaultRegister_kept, ↓boardForget_kept, ↓setBoard_kept, kept_mk, kept_fold]
    | refine (vaultImage_kept' (by assumption)).trans ?_
    | split

theorem runBegin_kept : ∀ a0 a1 a2 s, (runBegin a0 a1 a2 s).kept = s.kept := by
  intro a0 a1 a2 s
  unfold runBegin
  repeat' first
    | simp only [↓finish_kept, ↓imageAgain_kept, ↓cutClose_kept, kept_mk, kept_fold]
    | refine (foldl_kept _ (fun _ _ => ?_) _ _).trans ?_
    | split

theorem releaseCore_kept : ∀ s a1, (releaseCore s a1).kept = s.kept := by
  intro s a1
  unfold releaseCore
  dsimp only
  (repeat' split) <;> simp only [↓startTables_kept, ↓setCore_kept]

theorem resumeRun_kept : ∀ a0 a1 a2 s, (resumeRun a0 a1 a2 s).kept = s.kept := by
  intro a0 a1 a2 s
  unfold resumeRun
  repeat' first
    | simp only [↓finish_kept, ↓accept_kept, ↓releaseCore_kept, ↓setScene_kept, ↓slateRuns_kept, ↓sceneCheck_kept]
    | refine (foldl_kept _ (fun _ _ => ?_) _ _).trans ?_
    | split

theorem haltCmd_kept : ∀ a0 a1 a2 s, (haltCmd a0 a1 a2 s).kept = s.kept := by
  intro a0 a1 a2 s
  unfold haltCmd
  repeat' first
    | simp only [↓finish_kept, ↓haltScene_kept, ↓accept_kept, ↓holdSlate_kept]
    | refine (foldl_kept _ (fun _ _ => ?_) _ _).trans ?_
    | split

theorem takeCmd_kept : ∀ a0 a1 s, (takeCmd a0 a1 s).kept = s.kept := by
  intro a0 a1 s
  unfold takeCmd
  dsimp only
  (repeat' split) <;> simp only [↓accept_kept, ↓copyStart_kept, ↓finish_kept, kept_mk, kept_fold]

theorem takeEnd_kept : ∀ s a1 a2 a3, (takeEnd s a1 a2 a3).kept = s.kept := by
  intro s a1 a2 a3
  unfold takeEnd
  dsimp only
  (repeat' split) <;> simp only [↓finish_kept, ↓copyWork_kept, ↓copyDrop_kept, kept_mk, kept_fold]

theorem releaseCmd_kept : ∀ a0 a1 s, (releaseCmd a0 a1 s).kept = s.kept := by
  intro a0 a1 s
  unfold releaseCmd
  dsimp only
  (repeat' split) <;> simp only [↓finish_kept, ↓immFreeWhere_kept, kept_mk, kept_fold]

theorem replayCmd_kept : ∀ a0 a1 a2 s, (replayCmd a0 a1 a2 s).kept = s.kept := by
  intro a0 a1 a2 s
  unfold replayCmd
  repeat' first
    | simp only [↓finish_kept, ↓setSlate_kept]
    | refine (replayRun_kept' (by assumption)).trans ?_
    | split

theorem restoreEnd_kept : ∀ s a1 a2 a3, (restoreEnd s a1 a2 a3).kept = s.kept := by
  intro s a1 a2 a3
  unfold restoreEnd
  repeat' first
    | simp only [↓finish_kept, kept_mk, kept_fold]
    | refine (replayRestore_kept' (by assumption)).trans ?_
    | split

theorem remapCmd_kept : ∀ a0 a1 s, (remapCmd a0 a1 s).kept = s.kept := by
  intro a0 a1 s
  unfold remapCmd
  repeat' first
    | simp only [↓autoReplay_kept, ↓finish_kept]
    | refine (remapOrder_kept' (by assumption)).trans ?_
    | split

theorem sendNak_kept : ∀ s a1 a2, (sendNak s a1 a2).kept = s.kept := by
  intro s a1 a2
  unfold sendNak
  dsimp only
  (repeat' split) <;> simp only [↓sendCtl_kept, ↓setPort_kept]

theorem vexazDiscard_kept : ∀ s a1 a2, (vexazDiscard s a1 a2).kept = s.kept := by
  intro s a1 a2
  unfold vexazDiscard
  simp only [↓sendNak_kept, ↓setPort_kept]

theorem withVexaz_kept : ∀ s a b d, (∀ s m, (d s m).kept = s.kept) →
    (withVexaz s a b d).kept = s.kept := by
  intro s a b d h
  unfold withVexaz
  dsimp only
  (repeat' split) <;> simp only [↓vexazDiscard_kept, ↓setPort_kept, ↓h]

theorem sendInit_kept : ∀ s a1, (sendInit s a1).kept = s.kept := by
  intro s a1
  unfold sendInit
  simp only [↓sendCtl_kept]

theorem linkUp_kept : ∀ s a1 a2, (linkUp s a1 a2).kept = s.kept := by
  intro s a1 a2
  unfold linkUp
  dsimp only
  (repeat' split) <;> simp only [↓setPort_kept, ↓sendFhello_kept, ↓upEvent_kept, ↓sendReel_kept]

theorem linkTry_kept : ∀ s a1, (linkTry s a1).kept = s.kept := by
  intro s a1
  unfold linkTry
  dsimp only
  (repeat' split) <;> simp only [↓linkUp_kept, ↓setPort_kept, ↓raiseEv_kept]

theorem initAckSent_kept : ∀ s a1 a2, (initAckSent s a1 a2).kept = s.kept := by
  intro s a1 a2
  unfold initAckSent
  (repeat' split) <;> simp only [↓linkTry_kept, ↓setPort_kept]

theorem initIn_kept : ∀ s a1 a2, (initIn s a1 a2).kept = s.kept := by
  intro s a1 a2
  unfold initIn
  simp only [↓initAckSent_kept, ↓sendCtl_kept]

theorem ctlFlush_kept : ∀ s a1, (ctlFlush s a1).kept = s.kept := by
  intro s a1
  unfold ctlFlush
  repeat' first
    | simp only [↓sendCtl_kept, ↓initAckSent_kept, ↓setPort_kept]
    | refine (foldl_kept _ (fun _ _ => ?_) _ _).trans ?_
    | split

theorem initAckIn_kept : ∀ s a1 a2, (initAckIn s a1 a2).kept = s.kept := by
  intro s a1 a2
  unfold initAckIn
  simp only [↓linkTry_kept, ↓setPort_kept]

theorem linkReset_kept : ∀ s a1, (linkReset s a1).kept = s.kept := by
  intro s a1
  unfold linkReset
  dsimp only
  (repeat' split) <;> simp only [↓setPort_kept, ↓reelLinkDown_kept, ↓pfcCheck_kept, ↓routeFallback_kept]

theorem linkDown_kept : ∀ s a1 a2, (linkDown s a1 a2).kept = s.kept := by
  intro s a1 a2
  unfold linkDown
  simp only [↓linkReset_kept, ↓raiseEv_kept]

theorem payloadIn_kept : ∀ s a1 a2 a3, (payloadIn s a1 a2 a3).kept = s.kept := by
  intro s a1 a2 a3
  unfold payloadIn
  repeat' first
    | simp only [↓setPort_kept, ↓fabIn_kept]
    | refine (foldl_kept _ (fun _ _ => ?_) _ _).trans ?_
    | split

theorem dataIn_kept : ∀ s a1 a2, (dataIn s a1 a2).kept = s.kept := by
  intro s a1 a2
  unfold dataIn
  dsimp only
  (repeat' split) <;> simp only [↓ackAdvance_kept, ↓setPort_kept, ↓payloadIn_kept, ↓sendAck_kept, ↓pfcCheck_kept, ↓sendNak_kept]

theorem ackIn_kept : ∀ s a1 a2, (ackIn s a1 a2).kept = s.kept := by
  intro s a1 a2
  unfold ackIn
  (repeat' split) <;> simp only [↓ackAdvance_kept]

theorem resendFrom_kept : ∀ s a1 a2 a3, (resendFrom s a1 a2 a3).kept = s.kept := by
  intro s a1 a2 a3
  unfold resendFrom
  repeat' first
    | simp only [↓linkDown_kept, ↓setPort_kept, ↓sendDataPkt_kept]
    | refine (foldl_kept _ (fun _ _ => ?_) _ _).trans ?_
    | split

theorem nakIn_kept : ∀ s a1 a2, (nakIn s a1 a2).kept = s.kept := by
  intro s a1 a2
  unfold nakIn
  (repeat' split) <;> simp only [↓resendFrom_kept]

theorem retryIn_kept : ∀ s a1 a2, (retryIn s a1 a2).kept = s.kept := by
  intro s a1 a2
  unfold retryIn
  (repeat' split) <;> simp only [↓resendFrom_kept]

theorem withReel_kept : ∀ s a b d, (∀ s m, (d s m).kept = s.kept) →
    (withReel s a b d).kept = s.kept := by
  intro s a b d h
  unfold withReel
  dsimp only
  (repeat' split) <;> simp only [↓pfcCheck_kept, ↓setPort_kept, ↓h]

theorem withInbox_kept : ∀ s a b d, (∀ s p n, (d s p n).kept = s.kept) →
    (withInbox s a b d).kept = s.kept := by
  intro s a b d h
  unfold withInbox
  dsimp only
  (repeat' split) <;> simp only [↓setPort_kept, ↓h]

theorem readRouter_kept : ∀ s a1 a2 a3, (readRouter s a1 a2 a3).2.kept = s.kept := by
  intro s a1 a2 a3
  unfold readRouter
  (repeat' split) <;> simp only [↓setRouter_kept]

theorem readRouter_kept' {s a1 a2 a3 s' x} (h : readRouter s a1 a2 a3 = (x, s')) : s'.kept = s.kept := by
  have := readRouter_kept s a1 a2 a3; rw [h] at this; exact this

theorem readVault_kept : ∀ s a1 a2, (readVault s a1 a2).2.kept = s.kept := by
  intro s a1 a2
  unfold readVault
  dsimp only
  (repeat' split) <;> simp only [↓setVault_kept]

theorem readVault_kept' {s a1 a2 s' x} (h : readVault s a1 a2 = (x, s')) : s'.kept = s.kept := by
  have := readVault_kept s a1 a2; rw [h] at this; exact this

theorem readClusterReg_kept : ∀ s a1 a2, (readClusterReg s a1 a2).2.kept = s.kept := by
  intro s a1 a2
  unfold readClusterReg
  repeat' first
    | simp only [↓readRouter_kept, ↓readVault_kept]
    | split

theorem readClusterReg_kept' {s a1 a2 s' x} (h : readClusterReg s a1 a2 = (x, s')) : s'.kept = s.kept := by
  have := readClusterReg_kept s a1 a2; rw [h] at this; exact this

theorem readPortReg_kept : ∀ s a1 a2, (readPortReg s a1 a2).2.kept = s.kept := by
  intro s a1 a2
  unfold readPortReg
  dsimp only
  (repeat' split) <;> simp only [↓setPort_kept]

theorem readPortReg_kept' {s a1 a2 s' x} (h : readPortReg s a1 a2 = (x, s')) : s'.kept = s.kept := by
  have := readPortReg_kept s a1 a2; rw [h] at this; exact this

theorem readFabricReg_kept : ∀ s a1, (readFabricReg s a1).2.kept = s.kept := by
  intro s a1
  unfold readFabricReg
  repeat' first
    | simp only [kept_mk, kept_fold]
    | refine (foldl_kept _ (fun _ _ => ?_) _ _).trans ?_
    | refine (foldl_kept1 _ (fun _ _ => ?_) _ _).trans ?_
    | dsimp only
    | split

theorem readFabricReg_kept' {s a1 s' x} (h : readFabricReg s a1 = (x, s')) : s'.kept = s.kept := by
  have := readFabricReg_kept s a1; rw [h] at this; exact this

theorem readFrameReg_kept : ∀ s a1 a2, (readFrameReg s a1 a2).2.kept = s.kept := by
  intro s a1 a2
  unfold readFrameReg
  (repeat' split) <;> simp only [↓setFrame_kept]

theorem readFrameReg_kept' {s a1 a2 s' x} (h : readFrameReg s a1 a2 = (x, s')) : s'.kept = s.kept := by
  have := readFrameReg_kept s a1 a2; rw [h] at this; exact this

theorem readClockReg_kept : ∀ s a1, (readClockReg s a1).2.kept = s.kept := by
  intro s a1
  unfold readClockReg
  (repeat' split) <;> simp only [kept_mk, kept_fold]

theorem readClockReg_kept' {s a1 s' x} (h : readClockReg s a1 = (x, s')) : s'.kept = s.kept := by
  have := readClockReg_kept s a1; rw [h] at this; exact this

theorem readPowerReg_kept : ∀ s a1, (readPowerReg s a1).2.kept = s.kept := by
  intro s a1
  unfold readPowerReg
  (repeat' split) <;> simp only []

theorem readPowerReg_kept' {s a1 s' x} (h : readPowerReg s a1 = (x, s')) : s'.kept = s.kept := by
  have := readPowerReg_kept s a1; rw [h] at this; exact this

theorem readBar0_kept : ∀ s a b, (readBar0 s a b).2.kept = s.kept := by
  intro s a b
  unfold readBar0
  simp only [ite_kept2, ↓setHost_kept, ite_self]

theorem readBar0_kept' {s a b s' x} (h : readBar0 s a b = (x, s')) : s'.kept = s.kept := by
  have := readBar0_kept s a b; rw [h] at this; exact this

theorem readReg_kept : ∀ s a1, (readReg s a1).2.kept = s.kept := by
  intro s a1
  unfold readReg
  repeat' first
    | simp only [↓readBar0_kept, ↓setCore_kept, ↓readClusterReg_kept, ↓readFrameReg_kept, ↓readPortReg_kept, ↓readFabricReg_kept,
        ↓readClockReg_kept, ↓readPowerReg_kept, kept_mk, kept_fold]
    | refine (readBar0_kept' (by assumption)).trans ?_
    | refine (readClusterReg_kept' (by assumption)).trans ?_
    | refine (readFrameReg_kept' (by assumption)).trans ?_
    | refine (readPortReg_kept' (by assumption)).trans ?_
    | refine (readFabricReg_kept' (by assumption)).trans ?_
    | refine (readClockReg_kept' (by assumption)).trans ?_
    | refine (readPowerReg_kept' (by assumption)).trans ?_
    | refine (foldl_kept _ (fun _ _ => ?_) _ _).trans ?_
    | refine (foldl_kept1 _ (fun _ _ => ?_) _ _).trans ?_
    | dsimp only
    | split

theorem readReg_kept' {s a1 s' x} (h : readReg s a1 = (x, s')) : s'.kept = s.kept := by
  have := readReg_kept s a1; rw [h] at this; exact this

theorem unmask_kept : ∀ s a1 a2, (unmask s a1 a2).kept = s.kept := by
  intro s a1 a2
  unfold unmask
  dsimp only
  (repeat' split) <;> simp only [↓emit_kept, ↓setHost_kept]

theorem writeBar0_kept : ∀ s a1 a2 a3, (writeBar0 s a1 a2 a3).kept = s.kept := by
  intro s a1 a2 a3
  unfold writeBar0
  repeat' first
    | simp only [↓setHost_kept, ↓unmask_kept, kept_mk, kept_fold]
    | refine (foldl_kept _ (fun _ _ => ?_) _ _).trans ?_
    | refine (foldl_kept1 _ (fun _ _ => ?_) _ _).trans ?_
    | dsimp only
    | split

theorem writeVaultReg_kept : ∀ s a1 a2 a3, (writeVaultReg s a1 a2 a3).kept = s.kept := by
  intro s a1 a2 a3
  unfold writeVaultReg
  (repeat' split) <;> simp only [↓setVault_kept]

theorem writeReg_kept : ∀ s a1 a2, (writeReg s a1 a2).kept = s.kept := by
  intro s a1 a2
  unfold writeReg
  repeat' first
    | simp only [↓writeBar0_kept, ↓setCore_kept, ↓writeVaultReg_kept, kept_mk, kept_fold]
    | refine (foldl_kept _ (fun _ _ => ?_) _ _).trans ?_
    | refine (foldl_kept1 _ (fun _ _ => ?_) _ _).trans ?_
    | dsimp only
    | split

theorem setPage_kept : ∀ s a1 a2 a3, (setPage s a1 a2 a3).kept = s.kept := by
  intro s a1 a2 a3
  unfold setPage
  simp only [↓setHost_kept]

theorem mapBody_kept : ∀ a0 a1 a2 s, (mapBody a0 a1 a2 s).kept = s.kept := by
  intro a0 a1 a2 s
  unfold mapBody
  repeat' first
    | simp only [↓finish_kept, ↓setPage_kept]
    | refine (foldl_kept _ (fun _ _ => ?_) _ _).trans ?_
    | split

theorem unmapSlate_kept : ∀ s a1, (unmapSlate s a1).kept = s.kept := by
  intro s a1
  unfold unmapSlate
  simp only [kept_mk, kept_fold]

theorem aperMiss_kept : ∀ s a1 a2 a3, (aperMiss s a1 a2 a3).kept = s.kept := by
  intro s a1 a2 a3
  unfold aperMiss
  dsimp only
  (repeat' split) <;> simp only [↓raiseEv_kept, ↓setHost_kept]

theorem poisoned_kept : ∀ s a1, (poisoned s a1).kept = s.kept := by
  intro s a1
  unfold poisoned
  simp only [↓emit_kept, kept_mk, kept_fold]

theorem aperRead_kept : ∀ s a1 a2 a3 a4, (aperRead s a1 a2 a3 a4).kept = s.kept := by
  intro s a1 a2 a3 a4
  unfold aperRead
  dsimp only
  (repeat' split) <;> simp only [↓emit_kept, ↓poisoned_kept, ↓spError_kept, ↓raiseEv_kept, ↓vaultEnqueue_kept]

theorem aperWrite_kept : ∀ s a1 a2 a3 a4 a5 a6, (aperWrite s a1 a2 a3 a4 a5 a6).kept = s.kept := by
  intro s a1 a2 a3 a4 a5 a6
  unfold aperWrite
  (repeat' split) <;> simp only [↓setCore_kept, ↓setCl_kept, ↓vaultEnqueue_kept]

theorem coreReset_kept : ∀ s a1, (coreReset s a1).kept = s.kept := by
  intro s a1
  unfold coreReset
  simp only [↓setCore_kept]

theorem vaultSleep_kept : ∀ s a1, (vaultSleep s a1).kept = s.kept := by
  intro s a1
  unfold vaultSleep
  simp only [↓refetchForget_kept, ↓setVault_kept]

theorem vaultWake_kept : ∀ s a1, (vaultWake s a1).kept = s.kept := by
  intro s a1
  unfold vaultWake
  dsimp only
  (repeat' split) <;> simp only [↓setVault_kept]

theorem clusterReset_kept : ∀ s a1, (clusterReset s a1).kept = s.kept := by
  intro s a1
  unfold clusterReset
  repeat' first
    | simp only [↓coreReset_kept, ↓vaultSleep_kept, ↓setCl_kept, kept_mk, kept_fold]
    | refine (foldl_kept _ (fun _ _ => ?_) _ _).trans ?_
    | split

theorem settleSource_kept : ∀ s a1, (settleSource s a1).kept = s.kept := by
  intro s a1
  unfold settleSource
  dsimp only
  (repeat' split) <;> simp only [↓setFrame_kept]

theorem frameReset_kept : ∀ s a1, (frameReset s a1).kept = s.kept := by
  intro s a1
  unfold frameReset
  repeat' first
    | simp only [↓clusterReset_kept, ↓setFrame_kept]
    | refine (foldl_kept _ (fun _ _ => ?_) _ _).trans ?_
    | split

theorem portReset_kept : ∀ s a1, (portReset s a1).kept = s.kept := by
  intro s a1
  unfold portReset
  dsimp only
  (repeat' split) <;> simp only [↓setPort_kept, ↓linkDown_kept, ↓linkReset_kept]

theorem clusterReady_kept : ∀ s a1, (clusterReady s a1).kept = s.kept := by
  intro s a1
  unfold clusterReady
  dsimp only
  (repeat' split) <;> simp only [↓vaultWake_kept, ↓setCl_kept]

theorem waferCores_kept : ∀ s, (waferCores s).kept = s.kept := by
  intro s
  unfold waferCores
  repeat' first
    | simp only [↓vaultSleep_kept, kept_mk, kept_fold]
    | refine (foldl_kept _ (fun _ _ => ?_) _ _).trans ?_
    | split

theorem waferPorts_kept : ∀ s, (waferPorts s).kept = s.kept := by
  intro s
  unfold waferPorts
  simp only [kept_mk, kept_fold]

theorem waferReset_kept : ∀ s, (waferReset s).kept = s.kept := by
  intro s
  unfold waferReset
  repeat' first
    | simp only [↓waferPorts_kept, ↓waferCores_kept, ↓flushLate_kept, ↓raiseEv_kept, ↓routeFallback_kept, kept_mk, kept_fold]
    | refine (foldl_kept _ (fun _ _ => ?_) _ _).trans ?_
    | split

theorem powerFrames_kept : ∀ s, (powerFrames s).kept = s.kept := by
  intro s
  unfold powerFrames
  repeat' first
    | simp only [↓setFrame_kept, kept_mk, kept_fold]
    | refine (foldl_kept _ (fun _ _ => ?_) _ _).trans ?_
    | split

theorem timeRestart_kept : ∀ s, (timeRestart s).kept = s.kept := by
  intro s
  unfold timeRestart
  simp only [kept_mk, kept_fold]

theorem extendMeas_kept : ∀ s a1 a2, (extendMeas s a1 a2).kept = s.kept := by
  intro s a1 a2
  unfold extendMeas
  simp only [kept_mk, kept_fold]

theorem controllerReset_kept : ∀ s a1, (controllerReset s a1).kept = s.kept := by
  intro s a1
  unfold controllerReset
  simp only [↓endSession_kept, ↓extendMeas_kept, kept_mk, kept_fold]

theorem moduleWarm_kept : ∀ s, (moduleWarm s).kept = s.kept := by
  intro s
  unfold moduleWarm
  simp only [↓waferReset_kept, ↓controllerReset_kept, kept_mk, kept_fold]

theorem moduleCold_kept : ∀ s, (moduleCold s).kept = s.kept := by
  intro s
  unfold moduleCold
  simp only [kept_mk, kept_fold]

theorem domainReset_kept : ∀ s a1 a2 a3, (domainReset s a1 a2 a3).kept = s.kept := by
  intro s a1 a2 a3
  unfold domainReset
  (repeat' split) <;> simp only [↓coreReset_kept, ↓clusterReset_kept, ↓frameReset_kept, ↓portReset_kept, ↓powerFrames_kept,
      ↓waferReset_kept, ↓moduleCold_kept, ↓moduleWarm_kept]

theorem resetBody_kept : ∀ a0 a1 s, (resetBody a0 a1 s).kept = s.kept := by
  intro a0 a1 s
  unfold resetBody
  dsimp only
  (repeat' split) <;> simp only [↓finish_kept, ↓domainReset_kept, ↓accept_kept, kept_mk, kept_fold]

theorem domainReady_kept : ∀ s a1 a2, (domainReady s a1 a2).kept = s.kept := by
  intro s a1 a2
  unfold domainReady
  repeat' first
    | simp only [↓clusterReady_kept]
    | refine (foldl_kept _ (fun _ _ => ?_) _ _).trans ?_
    | split

theorem resetEnd_kept : ∀ s a1, (resetEnd s a1).kept = s.kept := by
  intro s a1
  unfold resetEnd
  (repeat' split) <;> simp only [↓domainReady_kept, ↓raiseEv_kept, ↓finish_kept, kept_mk, kept_fold]

theorem dailiesStart_kept : ∀ s a1 a2 a3 a4 a5, (dailiesStart s a1 a2 a3 a4 a5).kept = s.kept := by
  intro s a1 a2 a3 a4 a5
  unfold dailiesStart
  simp only [kept_mk, kept_fold]

theorem dailiesEnd_kept : ∀ s a1, (dailiesEnd s a1).kept = s.kept := by
  intro s a1
  unfold dailiesEnd
  (repeat' split) <;> simp only [↓hostWrite_kept, ↓raiseEv_kept, ↓finish_kept, kept_mk, kept_fold]

theorem dailiesBody_kept : ∀ a0 a1 a2 s, (dailiesBody a0 a1 a2 s).kept = s.kept := by
  intro a0 a1 a2 s
  unfold dailiesBody
  dsimp only
  (repeat' split) <;> simp only [↓finish_kept, ↓dailiesStart_kept, ↓accept_kept]

theorem policyBody_kept : ∀ a0 a1 s, (policyBody a0 a1 s).kept = s.kept := by
  intro a0 a1 s
  unfold policyBody
  (repeat' split) <;> simp only [↓finish_kept, ↓setPolicy_kept]

theorem fenceBody_kept : ∀ a0 a1 s, (fenceBody a0 a1 s).kept = s.kept := by
  intro a0 a1 s
  unfold fenceBody
  dsimp only
  (repeat' split) <;> simp only [↓accept_kept, ↓faultHalt_kept, ↓fenceCore_kept, ↓finish_kept]

theorem unfenceBody_kept : ∀ a0 a1 s, (unfenceBody a0 a1 s).kept = s.kept := by
  intro a0 a1 s
  unfold unfenceBody
  dsimp only
  (repeat' split) <;> simp only [↓finish_kept, ↓bumpFloor_kept, ↓setCore_kept]

theorem progressReport_kept : ∀ s, (progressReport s).kept = s.kept := by
  intro s
  unfold progressReport
  simp only [kept_mk, kept_fold]

theorem hangEvent_kept : ∀ s a1 a2, (hangEvent s a1 a2).kept = s.kept := by
  intro s a1 a2
  unfold hangEvent
  simp only [↓raiseEv_kept]

theorem hangRecover_kept : ∀ s a1, (hangRecover s a1).kept = s.kept := by
  intro s a1
  unfold hangRecover
  repeat' first
    | simp only [↓holdSlate_kept, ↓haltScene_kept, ↓dailiesStart_kept, kept_mk, kept_fold]
    | refine (foldl_kept _ (fun _ _ => ?_) _ _).trans ?_
    | split

theorem hangDeclare_kept : ∀ s a1 a2, (hangDeclare s a1 a2).kept = s.kept := by
  intro s a1 a2
  unfold hangDeclare
  dsimp only
  (repeat' split) <;> simp only [↓setScene_kept, ↓hangEvent_kept, ↓hangRecover_kept]

theorem setHang_kept : ∀ s a1 a2, (setHang s a1 a2).kept = s.kept := by
  intro s a1 a2
  unfold setHang
  simp only [kept_mk, kept_fold]

theorem hangOver_kept : ∀ s a1, (hangOver s a1).kept = s.kept := by
  intro s a1
  unfold hangOver
  (repeat' split) <;> simp only [↓raiseEv_kept, kept_mk, kept_fold]

theorem nextSuspect_kept : ∀ s a l, (nextSuspect s a l).kept = s.kept := by
  intro s a l
  induction l generalizing s with
  | nil => exact hangOver_kept _ _
  | cons n rest ih =>
    unfold nextSuspect
    repeat' first
      | simp only [↓setHang_kept, ↓raiseEv_kept, ↓ih]
      | refine (replayOrder_kept' (by assumption)).trans ?_
      | exact ih _
      | refine (foldl_kept _ (fun _ _ => ?_) _ _).trans ?_
      | refine (foldl_kept1 _ (fun _ _ => ?_) _ _).trans ?_
      | dsimp only
      | split

theorem hangGoOn_kept : ∀ s a1, (hangGoOn s a1).kept = s.kept := by
  intro s a1
  unfold hangGoOn
  (repeat' split) <;> simp only [↓nextSuspect_kept]

theorem hangResets_kept : ∀ s a1 a2, (hangResets s a1 a2).kept = s.kept := by
  intro s a1 a2
  unfold hangResets
  repeat' first
    | simp only [↓coreReset_kept, ↓hangGoOn_kept, ↓setHang_kept, kept_mk, kept_fold]
    | refine (foldl_kept _ (fun _ _ => ?_) _ _).trans ?_
    | split

theorem hangDailies_kept : ∀ s a1, (hangDailies s a1).kept = s.kept := by
  intro s a1
  unfold hangDailies
  (repeat' split) <;> simp only [↓hangResets_kept, ↓hangGoOn_kept]

theorem hangReset_kept : ∀ s a1, (hangReset s a1).kept = s.kept := by
  intro s a1
  unfold hangReset
  repeat' first
    | simp only [↓hangGoOn_kept, kept_mk, kept_fold]
    | refine (foldl_kept _ (fun _ _ => ?_) _ _).trans ?_
    | split

theorem quietReset_kept : ∀ s a1, (quietReset s a1).kept = s.kept := by
  intro s a1
  unfold quietReset
  (repeat' split) <;> simp only [↓hangReset_kept, ↓domainReady_kept, kept_mk, kept_fold]

theorem resetsDone_kept : ∀ s, (resetsDone s).kept = s.kept := by
  intro s
  unfold resetsDone
  (repeat' split) <;> simp only [↓resetEnd_kept, ↓quietReset_kept]

theorem coreEscalate_kept : ∀ s a1, (coreEscalate s a1).kept = s.kept := by
  intro s a1
  unfold coreEscalate
  (repeat' split) <;> simp only [↓clusterReset_kept, kept_mk, kept_fold]

theorem hangGuilty_kept : ∀ s a1 a2 a3, (hangGuilty s a1 a2 a3).kept = s.kept := by
  intro s a1 a2 a3
  unfold hangGuilty
  simp only [↓holdSlate_kept, ↓haltScene_kept, ↓raiseEv_kept, ↓hangResets_kept, ↓setHang_kept]

theorem suspectEnded_kept : ∀ s a1, (suspectEnded s a1).kept = s.kept := by
  intro s a1
  unfold suspectEnded
  (repeat' split) <;> simp only [↓hangGoOn_kept, ↓setHang_kept, ↓hangGuilty_kept]

theorem beatTo_kept : ∀ s a1 a2, (beatTo s a1 a2).kept = s.kept := by
  intro s a1 a2
  unfold beatTo
  (repeat' split) <;> simp only [↓postEvent_kept]

theorem beat_kept : ∀ s, (beat s).kept = s.kept := by
  intro s
  unfold beat
  simp only [↓beatTo_kept, kept_mk, kept_fold]

theorem chargeSlate_kept : ∀ s a1, (chargeSlate s a1).kept = s.kept := by
  intro s a1
  unfold chargeSlate
  (repeat' split) <;> simp only [↓setSlate_kept]

theorem chargeCluster_kept : ∀ s a1, (chargeCluster s a1).kept = s.kept := by
  intro s a1
  unfold chargeCluster
  repeat' first
    | simp only [↓chargeSlate_kept, kept_mk, kept_fold]
    | refine (foldl_kept _ (fun _ _ => ?_) _ _).trans ?_
    | split

theorem chargeFrame_kept : ∀ s a1 a2, (chargeFrame s a1 a2).kept = s.kept := by
  intro s a1 a2
  unfold chargeFrame
  repeat' first
    | simp only [↓setFrame_kept, ↓chargeCluster_kept, kept_mk, kept_fold]
    | refine (foldl_kept _ (fun _ _ => ?_) _ _).trans ?_
    | split

theorem chargeReasons_kept : ∀ s, (chargeReasons s).kept = s.kept := by
  intro s
  unfold chargeReasons
  simp only [kept_mk, kept_fold]

theorem moduleInterval_kept : ∀ s, (moduleInterval s).kept = s.kept := by
  intro s
  unfold moduleInterval
  dsimp only
  (repeat' split) <;> simp only [↓chargeReasons_kept, ↓measure_kept, kept_mk, kept_fold]

theorem correctFrame_kept : ∀ s a1 a2, (correctFrame s a1 a2).kept = s.kept := by
  intro s a1 a2
  unfold correctFrame
  (repeat' split) <;> simp only [↓moduleInterval_kept, ↓chargeFrame_kept, ↓setFrame_kept]

theorem fadeBegin_kept : ∀ s a1 a2 a3 a4, (fadeBegin s a1 a2 a3 a4).kept = s.kept := by
  intro s a1 a2 a3 a4
  unfold fadeBegin
  simp only [↓fenceTo_kept, kept_mk, kept_fold]

theorem stopUnits_kept : ∀ s a1, (stopUnits s a1).kept = s.kept := by
  intro s a1
  unfold stopUnits
  simp only [kept_mk, kept_fold]

theorem discardFrozen_kept : ∀ s a1, (discardFrozen s a1).kept = s.kept := by
  intro s a1
  unfold discardFrozen
  (repeat' split) <;> simp only [↓raiseEv_kept, kept_mk, kept_fold]

theorem fadeCluster_kept : ∀ a0 s a2, (fadeCluster a0 s a2).kept = s.kept := by
  intro a0 s a2
  unfold fadeCluster
  repeat' first
    | simp only [↓vaultSleep_kept, ↓discardFrozen_kept, ↓setCore_kept, ↓setCl_kept, ↓bumpFloor_kept, ↓stopUnits_kept]
    | refine (foldl_kept _ (fun _ _ => ?_) _ _).trans ?_
    | split

theorem fadeEvent_kept : ∀ s a1 a2 a3, (fadeEvent s a1 a2 a3).kept = s.kept := by
  intro s a1 a2 a3
  unfold fadeEvent
  simp only [↓raiseEv_kept]

theorem untrip_kept : ∀ s a1, (untrip s a1).kept = s.kept := by
  intro s a1
  unfold untrip
  repeat' first
    | simp only [↓setRouter_kept, ↓meshDrop_kept, ↓setCore_kept, ↓bumpFloor_kept, ↓setCl_kept]
    | refine (foldl_kept _ (fun _ _ => ?_) _ _).trans ?_
    | split

theorem injectAt_kept : ∀ s a1, (injectAt s a1).kept = s.kept := by
  intro s a1
  unfold injectAt
  repeat' first
    | simp only [↓injectGo_kept]
    | refine (foldl_kept _ (fun _ _ => ?_) _ _).trans ?_
    | split

theorem unfadeBegin_kept : ∀ s a1 a2 a3, (unfadeBegin s a1 a2 a3).kept = s.kept := by
  intro s a1 a2 a3
  unfold unfadeBegin
  repeat' first
    | simp only [↓untrip_kept, ↓fenceTo_kept, ↓injectAt_kept, ↓fadeEvent_kept, ↓stopUnits_kept, ↓finish_kept, kept_mk, kept_fold]
    | refine (foldl_kept _ (fun _ _ => ?_) _ _).trans ?_
    | split

theorem startUnits_kept : ∀ s a1, (startUnits s a1).kept = s.kept := by
  intro s a1
  unfold startUnits
  simp only [kept_mk, kept_fold]

theorem unfadeCluster_kept : ∀ s a1, (unfadeCluster s a1).kept = s.kept := by
  intro s a1
  unfold unfadeCluster
  repeat' first
    | simp only [↓setCl_kept, ↓setCore_kept, ↓vaultWake_kept, ↓startUnits_kept, ↓bumpFloor_kept]
    | refine (foldl_kept _ (fun _ _ => ?_) _ _).trans ?_
    | split

theorem pinOrder_kept : ∀ s a1, (pinOrder s a1).kept = s.kept := by
  intro s a1
  unfold pinOrder
  dsimp only
  (repeat' split) <;> simp only [↓setPin_kept, ↓raiseEv_kept, ↓fadeBegin_kept, ↓unfadeBegin_kept]

theorem pinEdge_kept : ∀ s a1 a2, (pinEdge s a1 a2).kept = s.kept := by
  intro s a1 a2
  unfold pinEdge
  dsimp only
  (repeat' split) <;> simp only [↓setPin_kept, ↓pinOrder_kept]

theorem pinNext_kept : ∀ s a1, (pinNext s a1).kept = s.kept := by
  intro s a1
  unfold pinNext
  dsimp only
  (repeat' split) <;> simp only [↓pinOrder_kept, ↓setPin_kept]

theorem dropFade_kept : ∀ s a1, (dropFade s a1).kept = s.kept := by
  intro s a1
  unfold dropFade
  simp only [kept_mk, kept_fold]

theorem fadeReply_kept : ∀ s a1 a2, (fadeReply s a1 a2).kept = s.kept := by
  intro s a1 a2
  unfold fadeReply
  (repeat' split) <;> simp only [↓finish_kept, ↓pinNext_kept]

theorem fadeEnd_kept : ∀ s, (fadeEnd s).kept = s.kept := by
  intro s
  unfold fadeEnd
  repeat' first
    | simp only [↓fenceStep_kept, ↓settleSource_kept, ↓fadeCluster_kept, ↓dropFade_kept, ↓fadeReply_kept, ↓fadeEvent_kept]
    | refine (foldl_kept _ (fun _ _ => ?_) _ _).trans ?_
    | split

theorem unfadeEnd_kept : ∀ s, (unfadeEnd s).kept = s.kept := by
  intro s
  unfold unfadeEnd
  repeat' first
    | simp only [↓dropFade_kept, ↓fadeReply_kept, ↓fenceTo_kept, ↓fenceStep_kept, ↓settleSource_kept, ↓unfadeCluster_kept, ↓fadeEvent_kept]
    | refine (foldl_kept _ (fun _ _ => ?_) _ _).trans ?_
    | split

theorem thermalFade_kept : ∀ s a1, (thermalFade s a1).kept = s.kept := by
  intro s a1
  unfold thermalFade
  dsimp only
  (repeat' split) <;> simp only [↓fadeBegin_kept]

theorem darkCut_kept : ∀ a0 s a2, (darkCut a0 s a2).kept = s.kept := by
  intro a0 s a2
  unfold darkCut
  simp only [↓raiseEv_kept, ↓detect_kept]

theorem cutPackets_kept : ∀ s a1, (cutPackets s a1).kept = s.kept := by
  intro s a1
  unfold cutPackets
  repeat' first
    | simp only [↓darkCut_kept, kept_mk, kept_fold]
    | refine (foldl_kept _ (fun _ _ => ?_) _ _).trans ?_
    | split

theorem trip_kept : ∀ s a1 a2, (trip s a1 a2).kept = s.kept := by
  intro s a1 a2
  unfold trip
  repeat' first
    | simp only [↓setCore_kept, ↓bumpFloor_kept, ↓setCl_kept, ↓raiseEv_kept, ↓cutPackets_kept, ↓detect_kept]
    | refine (foldl_kept _ (fun _ _ => ?_) _ _).trans ?_
    | split

theorem softSample_kept : ∀ s a1 a2, (softSample s a1 a2).kept = s.kept := by
  intro s a1 a2
  unfold softSample
  dsimp only
  (repeat' split) <;> simp only [↓setCl_kept, ↓raiseEv_kept]

theorem logicSample_kept : ∀ s a1 a2, (logicSample s a1 a2).kept = s.kept := by
  intro s a1 a2
  unfold logicSample
  dsimp only
  (repeat' split) <;> simp only [↓softSample_kept, ↓trip_kept, ↓thermalFade_kept]

theorem budgetBody_kept : ∀ a0 a1 s, (budgetBody a0 a1 s).kept = s.kept := by
  intro a0 a1 s
  unfold budgetBody
  dsimp only
  (repeat' split) <;> simp only [↓finish_kept, kept_mk, kept_fold]

theorem leaseOut_kept : ∀ s, (leaseOut s).kept = s.kept := by
  intro s
  unfold leaseOut
  (repeat' split) <;> simp only [↓raiseEv_kept, kept_mk, kept_fold]

theorem budgetUnmet_kept : ∀ s a1, (budgetUnmet s a1).kept = s.kept := by
  intro s a1
  unfold budgetUnmet
  dsimp only
  (repeat' split) <;> simp only [↓raiseEv_kept, kept_mk, kept_fold]

theorem droopIn_kept : ∀ s a1 a2, (droopIn s a1 a2).kept = s.kept := by
  intro s a1 a2
  unfold droopIn
  dsimp only
  (repeat' split) <;> simp only [↓setFrame_kept, ↓raiseEv_kept]

theorem coolantIn_kept : ∀ s a1, (coolantIn s a1).kept = s.kept := by
  intro s a1
  unfold coolantIn
  dsimp only
  (repeat' split) <;> simp only [↓powerFrames_kept, ↓raiseEv_kept, kept_mk, kept_fold]

theorem inletRange_kept : ∀ s a1, (inletRange s a1).kept = s.kept := by
  intro s a1
  unfold inletRange
  (repeat' split) <;> simp only [↓raiseEv_kept, kept_mk, kept_fold]

theorem powerLost_kept : ∀ s, (powerLost s).kept = s.kept := by
  intro s
  unfold powerLost
  simp only [↓moduleCold_kept, kept_mk, kept_fold]

theorem growEnergy_kept : ∀ s a1 a2 a3, (growEnergy s a1 a2 a3).kept = s.kept := by
  intro s a1 a2 a3
  unfold growEnergy
  (repeat' split) <;> simp only [↓growSlate_kept, kept_mk, kept_fold]

theorem energyBody_kept : ∀ a0 a1 a2 s, (energyBody a0 a1 a2 s).kept = s.kept := by
  intro a0 a1 a2 s
  unfold energyBody
  (repeat' split) <;> simp only [↓finish_kept, ↓growEnergy_kept, ↓hostWrite_kept]

theorem fadeBody_kept : ∀ a0 a1 s, (fadeBody a0 a1 s).kept = s.kept := by
  intro a0 a1 s
  unfold fadeBody
  (repeat' split) <;> simp only [↓finish_kept, ↓fadeBegin_kept, ↓accept_kept]

theorem unfadeBody_kept : ∀ a0 a1 s, (unfadeBody a0 a1 s).kept = s.kept := by
  intro a0 a1 s
  unfold unfadeBody
  (repeat' split) <;> simp only [↓finish_kept, ↓unfadeBegin_kept, ↓accept_kept]

theorem limitBody_kept : ∀ a0 a1 s, (limitBody a0 a1 s).kept = s.kept := by
  intro a0 a1 s
  unfold limitBody
  repeat' first
    | simp only [↓finish_kept, ↓setFrame_kept]
    | refine (foldl_kept _ (fun _ _ => ?_) _ _).trans ?_
    | split

theorem fwLoadBody_kept : ∀ a0 a1 s, (fwLoadBody a0 a1 s).kept = s.kept := by
  intro a0 a1 s
  unfold fwLoadBody
  (repeat' split) <;> simp only [↓finish_kept, ↓accept_kept, kept_mk, kept_fold]

theorem bringupFailed_kept : ∀ s a1 a2 a3 a4, (bringupFailed s a1 a2 a3 a4).kept = s.kept := by
  intro s a1 a2 a3 a4
  unfold bringupFailed
  simp only [↓raiseEv_kept, kept_mk, kept_fold]

theorem bistEvent_kept : ∀ s a1, (bistEvent s a1).kept = s.kept := by
  intro s a1
  unfold bistEvent
  dsimp only
  (repeat' split) <;> simp only [↓raiseEv_kept]

theorem fenceBad_kept : ∀ s, (fenceBad s).kept = s.kept := by
  intro s
  unfold fenceBad
  repeat' first
    | simp only [↓setCore_kept]
    | refine (foldl_kept _ (fun _ _ => ?_) _ _).trans ?_
    | split

theorem startVaults_kept : ∀ s, (startVaults s).kept = s.kept := by
  intro s
  unfold startVaults
  repeat' first
    | simp only [↓setVault_kept]
    | refine (foldl_kept _ (fun _ _ => ?_) _ _).trans ?_
    | split

theorem startMesh_kept : ∀ s, (startMesh s).kept = s.kept := by
  intro s
  unfold startMesh
  repeat' first
    | simp only [↓settleSource_kept, kept_mk, kept_fold]
    | refine (foldl_kept _ (fun _ _ => ?_) _ _).trans ?_
    | split

theorem restoreSlate_kept : ∀ s a1, (restoreSlate s a1).kept = s.kept := by
  intro s a1
  unfold restoreSlate
  dsimp only
  (repeat' split) <;> simp only [↓setSlate_kept, ↓raiseEv_kept, ↓autoReplay_kept]

theorem moduleReady_kept : ∀ s a1, (moduleReady s a1).kept = s.kept := by
  intro s a1
  unfold moduleReady
  repeat' first
    | simp only [↓raiseEv_kept, ↓restoreSlate_kept, kept_mk, kept_fold]
    | refine (foldl_kept _ (fun _ _ => ?_) _ _).trans ?_
    | split

theorem bistEnd_kept : ∀ s a1, (bistEnd s a1).kept = s.kept := by
  intro s a1
  unfold bistEnd
  dsimp only
  (repeat' split) <;> simp only [↓bistEvent_kept, ↓bringupFailed_kept, ↓moduleReady_kept, ↓startMesh_kept, ↓startVaults_kept,
      ↓fenceBad_kept, kept_mk, kept_fold]

theorem fastEnd_kept : ∀ s, (fastEnd s).kept = s.kept := by
  intro s
  unfold fastEnd
  repeat' first
    | simp only [↓moduleReady_kept, ↓startMesh_kept, ↓vaultWake_kept]
    | refine (foldl_kept _ (fun _ _ => ?_) _ _).trans ?_
    | split

theorem startPath_kept : ∀ s a1, (startPath s a1).kept = s.kept := by
  intro s a1
  unfold startPath
  dsimp only
  (repeat' split) <;> simp only [↓powerFrames_kept, ↓extendMeas_kept, ↓bringupFailed_kept, kept_mk, kept_fold]

theorem doeAbort_kept : ∀ s a1, (doeAbort s a1).kept = s.kept := by
  intro s a1
  unfold doeAbort
  dsimp only
  (repeat' split) <;> simp only [↓setHost_kept]

theorem startFirmware_kept : ∀ s, (startFirmware s).kept = s.kept := by
  intro s
  unfold startFirmware
  dsimp only
  (repeat' split) <;> simp only [↓doeAbort_kept, ↓endSession_kept, ↓timeRestart_kept, ↓raiseEv_kept, ↓startPath_kept, kept_mk, kept_fold]

theorem calWaitEnd_kept : ∀ s, (calWaitEnd s).kept = s.kept := by
  intro s
  unfold calWaitEnd
  (repeat' split) <;> simp only [↓powerFrames_kept]

theorem calApply_kept : ∀ s a1, (calApply s a1).kept = s.kept := by
  intro s a1
  unfold calApply
  (repeat' split) <;> simp only [kept_mk, kept_fold]

theorem calBody_kept : ∀ a0 a1 s, (calBody a0 a1 s).kept = s.kept := by
  intro a0 a1 s
  unfold calBody
  repeat' first
    | simp only [↓finish_kept, ↓extendMeas_kept, ↓calApply_kept, ↓calWaitEnd_kept, ↓raiseEv_kept, kept_mk, kept_fold]
    | refine (foldl_kept _ (fun _ _ => ?_) _ _).trans ?_
    | split

theorem floorplanBody_kept : ∀ a0 a1 a2 s, (floorplanBody a0 a1 a2 s).kept = s.kept := by
  intro a0 a1 a2 s
  unfold floorplanBody
  (repeat' split) <;> simp only [↓finish_kept, ↓hostWrite_kept]

theorem debugNonce_kept : ∀ a0 a1 s, (debugNonce a0 a1 s).kept = s.kept := by
  intro a0 a1 s
  unfold debugNonce
  (repeat' split) <;> simp only [↓finish_kept, kept_mk, kept_fold]

theorem debugGrant_kept : ∀ a0 a1 a2 s, (debugGrant a0 a1 a2 s).kept = s.kept := by
  intro a0 a1 a2 s
  unfold debugGrant
  dsimp only
  (repeat' split) <;> simp only [↓finish_kept, ↓extendMeas_kept, ↓raiseEv_kept, kept_mk, kept_fold]

theorem unitEnd_kept : ∀ s a1 a2, (unitEnd s a1 a2).kept = s.kept := by
  intro s a1 a2
  unfold unitEnd
  simp only [kept_mk, kept_fold]

theorem unitRestart_kept : ∀ s a1, (unitRestart s a1).kept = s.kept := by
  intro s a1
  unfold unitRestart
  simp only [kept_mk, kept_fold]

theorem selectSource_kept : ∀ s a1, (selectSource s a1).kept = s.kept := by
  intro s a1
  unfold selectSource
  (repeat' split) <;> simp only [↓raiseEv_kept, ↓finish_kept, kept_mk, kept_fold]

theorem selectReady_kept : ∀ s, (selectReady s).kept = s.kept := by
  intro s
  unfold selectReady
  repeat' first
    | simp only [↓selectSource_kept, kept_mk, kept_fold]
    | refine (foldl_kept _ (fun _ _ => ?_) _ _).trans ?_
    | split

theorem selectBegin_kept : ∀ s a1, (selectBegin s a1).kept = s.kept := by
  intro s a1
  unfold selectBegin
  dsimp only
  (repeat' split) <;> simp only [↓unitRestart_kept, ↓selectReady_kept, kept_mk, kept_fold]

theorem clockSelectBody_kept : ∀ a0 a1 s, (clockSelectBody a0 a1 s).kept = s.kept := by
  intro a0 a1 s
  unfold clockSelectBody
  dsimp only
  (repeat' split) <;> simp only [↓finish_kept, ↓selectBegin_kept, ↓accept_kept]

theorem pinsHold_kept : ∀ s a1, (pinsHold s a1).kept = s.kept := by
  intro s a1
  unfold pinsHold
  simp only [kept_mk, kept_fold]

theorem sourceGone_kept : ∀ s, (sourceGone s).kept = s.kept := by
  intro s
  unfold sourceGone
  simp only [↓unitRestart_kept, kept_mk, kept_fold]

theorem portHold_kept : ∀ s a1, (portHold s a1).kept = s.kept := by
  intro s a1
  unfold portHold
  dsimp only
  (repeat' split) <;> simp only [↓setPort_kept, ↓linkDown_kept]

theorem clockFallback_kept : ∀ s, (clockFallback s).kept = s.kept := by
  intro s
  unfold clockFallback
  (repeat' split) <;> simp only [↓selectBegin_kept]

theorem enterHold_kept : ∀ s a1, (enterHold s a1).kept = s.kept := by
  intro s a1
  unfold enterHold
  repeat' first
    | simp only [↓sourceGone_kept, ↓pinsHold_kept, ↓raiseEv_kept, ↓portHold_kept, ↓clockFallback_kept, kept_mk, kept_fold]
    | refine (foldl_kept _ (fun _ _ => ?_) _ _).trans ?_
    | split

theorem loseSource_kept : ∀ s a1, (loseSource s a1).kept = s.kept := by
  intro s a1
  unfold loseSource
  (repeat' split) <;> simp only [↓sourceGone_kept, ↓enterHold_kept]

theorem sourceQualified_kept : ∀ s a1, (sourceQualified s a1).kept = s.kept := by
  intro s a1
  unfold sourceQualified
  dsimp only
  (repeat' split) <;> simp only [↓selectReady_kept, kept_mk, kept_fold]

theorem leaveHold_kept : ∀ s a1, (leaveHold s a1).kept = s.kept := by
  intro s a1
  unfold leaveHold
  repeat' first
    | simp only [↓pauseOut_kept, ↓pinsHold_kept, ↓raiseEv_kept, kept_mk, kept_fold]
    | refine (foldl_kept _ (fun _ _ => ?_) _ _).trans ?_
    | split

theorem cueViolate_kept : ∀ s a1 a2 a3 a4 a5, (cueViolate s a1 a2 a3 a4 a5).kept = s.kept := by
  intro s a1 a2 a3 a4 a5
  unfold cueViolate
  simp only [↓violate_kept]

theorem istoreError_kept : ∀ s a1 a2 a3, (istoreError s a1 a2 a3).kept = s.kept := by
  intro s a1 a2 a3
  unfold istoreError
  simp only [↓setCore_kept, ↓coreEv_kept, ↓coreFault_kept]

theorem goTo_kept : ∀ s a1 a2 a3, (goTo s a1 a2 a3).kept = s.kept := by
  intro s a1 a2 a3
  unfold goTo
  dsimp only
  (repeat' split) <;> simp only [↓setCore_kept, ↓violate_kept]

theorem goNext_kept : ∀ s a1 a2, (goNext s a1 a2).kept = s.kept := by
  intro s a1 a2
  unfold goNext
  simp only [↓goTo_kept]

theorem cueStep_kept : ∀ a b d s, (∀ s w, (d s w).kept = s.kept) →
    (cueStep a b d s).kept = s.kept := by
  intro a b d s h
  unfold cueStep
  dsimp only
  (repeat' split) <;> simp only [↓istoreError_kept, ↓cueViolate_kept, ↓h]

theorem actG_kept : ∀ a0 a1 s a3, (actG a0 a1 s a3).kept = s.kept := by
  intro a0 a1 s a3
  unfold actG
  simp only [↓goNext_kept, ↓setCore_kept]

theorem actGG_kept : ∀ a0 a1 s a3, (actGG a0 a1 s a3).kept = s.kept := by
  intro a0 a1 s a3
  unfold actGG
  simp only [↓actG_kept]

theorem actGI_kept : ∀ a0 a1 a2 s a4, (actGI a0 a1 a2 s a4).kept = s.kept := by
  intro a0 a1 a2 s a4
  unfold actGI
  simp only [↓actG_kept]

theorem scoreWait_kept : ∀ s a1, (scoreWait s a1).kept = s.kept := by
  intro s a1
  unfold scoreWait
  simp only [↓freshIdx_kept, ↓setCore_kept]

theorem withRange_kept : ∀ s a b c d e f g, (∀ s, (g s).kept = s.kept) →
    (withRange s a b c d e f g).kept = s.kept := by
  intro s a b c d e f g h
  unfold withRange
  dsimp only
  (repeat' split) <;> simp only [↓handleFault_kept, ↓scoreWait_kept, ↓h]

theorem actLd_kept : ∀ a0 s a2, (actLd a0 s a2).kept = s.kept := by
  intro a0 s a2
  unfold actLd
  repeat' first
    | simp only [↓goNext_kept, ↓setCore_kept]
    | refine (memRead_kept' (by assumption)).trans ?_
    | refine (withRange_kept _ _ _ _ _ _ _ _ (fun _ => ?_)).trans ?_
    | split

theorem actSt_kept : ∀ a0 s a2, (actSt a0 s a2).kept = s.kept := by
  intro a0 s a2
  unfold actSt
  repeat' first
    | simp only [↓goNext_kept, ↓memWrite_kept]
    | refine (withRange_kept _ _ _ _ _ _ _ _ (fun _ => ?_)).trans ?_
    | split

theorem sendPacket_kept : ∀ s a1 a2 a3 a4, (sendPacket s a1 a2 a3 a4).kept = s.kept := by
  intro s a1 a2 a3 a4
  unfold sendPacket
  simp only [↓injectFrom_kept, ↓putCore_kept]

theorem actSend_kept : ∀ a0 s a2, (actSend a0 s a2).kept = s.kept := by
  intro a0 s a2
  unfold actSend
  dsimp only
  (repeat' split) <;> simp only [↓goNext_kept, ↓sendPacket_kept, ↓cueViolate_kept]

theorem actSendb_kept : ∀ a0 s a2, (actSendb a0 s a2).kept = s.kept := by
  intro a0 s a2
  unfold actSendb
  repeat' first
    | simp only [↓goNext_kept, ↓sendPacket_kept, ↓cueViolate_kept]
    | refine (memRead_kept' (by assumption)).trans ?_
    | refine (withRange_kept _ _ _ _ _ _ _ _ (fun _ => ?_)).trans ?_
    | split

theorem popError_kept : ∀ s a1 a2 a3 a4, (popError s a1 a2 a3 a4).kept = s.kept := by
  intro s a1 a2 a3 a4
  unfold popError
  simp only [↓coreEv_kept, ↓coreFault_kept, ↓setCore_kept]

theorem withPops_kept : ∀ s a b c d, (∀ s w, (d s w).kept = s.kept) →
    (withPops s a b c d).kept = s.kept := by
  intro s a b c d h
  unfold withPops
  dsimp only
  (repeat' split) <;> simp only [↓popError_kept, ↓popCycles_kept, ↓setCore_kept, ↓h]

theorem actRecv_kept : ∀ a0 s a2, (actRecv a0 s a2).kept = s.kept := by
  intro a0 s a2
  unfold actRecv
  repeat' first
    | simp only [↓goNext_kept, ↓setCore_kept]
    | refine (withPops_kept _ _ _ _ _ (fun _ _ => ?_)).trans ?_
    | split

theorem actRecvb_kept : ∀ a0 s a2, (actRecvb a0 s a2).kept = s.kept := by
  intro a0 s a2
  unfold actRecvb
  repeat' first
    | simp only [↓goNext_kept, ↓memWrite_kept]
    | refine (withRange_kept _ _ _ _ _ _ _ _ (fun _ => ?_)).trans ?_
    | refine (withPops_kept _ _ _ _ _ (fun _ _ => ?_)).trans ?_
    | split

theorem actArrive_kept : ∀ a0 s a2, (actArrive a0 s a2).kept = s.kept := by
  intro a0 s a2
  unfold actArrive
  dsimp only
  (repeat' split) <;> simp only [↓cueViolate_kept, ↓setCore_kept, ↓injectFrom_kept]

theorem actClwait_kept : ∀ a0 s a2, (actClwait a0 s a2).kept = s.kept := by
  intro a0 s a2
  unfold actClwait
  dsimp only
  (repeat' split) <;> simp only [↓cueViolate_kept, ↓cmError_kept, ↓goNext_kept, ↓setCore_kept]

theorem actWait_kept : ∀ a0 s a2, (actWait a0 s a2).kept = s.kept := by
  intro a0 s a2
  unfold actWait
  dsimp only
  (repeat' split) <;> simp only [↓goNext_kept, ↓setCore_kept]

theorem actWaitt_kept : ∀ a0 s a2, (actWaitt a0 s a2).kept = s.kept := by
  intro a0 s a2
  unfold actWaitt
  dsimp only
  (repeat' split) <;> simp only [↓goNext_kept, ↓setCore_kept]

theorem actRdccb_kept : ∀ a0 s a2, (actRdccb a0 s a2).kept = s.kept := by
  intro a0 s a2
  unfold actRdccb
  simp only [↓goNext_kept, ↓setCore_kept]

theorem actQstat_kept : ∀ a0 s a2, (actQstat a0 s a2).kept = s.kept := by
  intro a0 s a2
  unfold actQstat
  (repeat' split) <;> simp only [↓goNext_kept, ↓setCore_kept]

theorem actEvent_kept : ∀ a0 s a2, (actEvent a0 s a2).kept = s.kept := by
  intro a0 s a2
  unfold actEvent
  simp only [↓goNext_kept, ↓coreEv_kept]

theorem actCtr_kept : ∀ a0 a1 s a3, (actCtr a0 a1 s a3).kept = s.kept := by
  intro a0 a1 s a3
  unfold actCtr
  simp only [↓goNext_kept, ↓putCore_kept]

theorem dmaExpire_kept : ∀ s a1 a2, (dmaExpire s a1 a2).kept = s.kept := by
  intro s a1 a2
  unfold dmaExpire
  dsimp only
  (repeat' split) <;> simp only [↓setCore_kept]

theorem sendMarks_kept : ∀ s a1, (sendMarks s a1).kept = s.kept := by
  intro s a1
  unfold sendMarks
  repeat' first
    | simp only [↓injectFrom_kept]
    | refine (foldl_kept _ (fun _ _ => ?_) _ _).trans ?_
    | split

theorem portApply_kept : ∀ s a1 a2, (portApply s a1 a2).kept = s.kept := by
  intro s a1 a2
  unfold portApply
  dsimp only
  (repeat' split) <;> simp only [↓linkReset_kept, ↓pfcCheck_kept, ↓setPort_kept]

theorem portBody_kept : ∀ a0 a1 s, (portBody a0 a1 s).kept = s.kept := by
  intro a0 a1 s
  unfold portBody
  dsimp only
  (repeat' split) <;> simp only [↓finish_kept, ↓portApply_kept]

theorem writeTmo_kept : ∀ s a1, (writeTmo s a1).kept = s.kept := by
  intro s a1
  unfold writeTmo
  (repeat' split) <;> simp only [kept_mk, kept_fold]

theorem fabricFormBody_kept : ∀ a0 a1 s, (fabricFormBody a0 a1 s).kept = s.kept := by
  intro a0 a1 s
  unfold fabricFormBody
  repeat' first
    | simp only [↓finish_kept, ↓writeTmo_kept, ↓setCl_kept]
    | refine (foldl_kept _ (fun _ _ => ?_) _ _).trans ?_
    | split

theorem routeBody_kept : ∀ a0 a1 s, (routeBody a0 a1 s).kept = s.kept := by
  intro a0 a1 s
  unfold routeBody
  dsimp only
  (repeat' split) <;> simp only [↓finish_kept, kept_mk, kept_fold]

theorem walkBody_kept : ∀ a0 a1 s, (walkBody a0 a1 s).kept = s.kept := by
  intro a0 a1 s
  unfold walkBody
  dsimp only
  (repeat' split) <;> simp only [↓finish_kept, ↓accept_kept, ↓fabSend_kept, kept_mk, kept_fold]

theorem localBody_kept : ∀ a0 a1 a2 s, (localBody a0 a1 a2 s).kept = s.kept := by
  intro a0 a1 a2 s
  unfold localBody
  (repeat' split) <;> simp only [↓finish_kept, ↓setEngId_kept, ↓accept_kept]

theorem windowOpenBody_kept : ∀ a0 a1 s, (windowOpenBody a0 a1 s).kept = s.kept := by
  intro a0 a1 s
  unfold windowOpenBody
  (repeat' split) <;> simp only [↓finish_kept, kept_mk, kept_fold]

theorem windowCloseBody_kept : ∀ a0 a1 s, (windowCloseBody a0 a1 s).kept = s.kept := by
  intro a0 a1 s
  unfold windowCloseBody
  dsimp only
  (repeat' split) <;> simp only [↓finish_kept, ↓windowShut_kept, ↓accept_kept, kept_mk, kept_fold]

theorem vxRead_kept : ∀ s a1 a2 a3 a4, (vxRead s a1 a2 a3 a4).1.kept = s.kept := by
  intro s a1 a2 a3 a4
  unfold vxRead
  simp only [↓memRead_kept]

theorem vxRead_kept' {s a1 a2 a3 a4 s' x} (h : vxRead s a1 a2 a3 a4 = (s', x)) : s'.kept = s.kept := by
  have := vxRead_kept s a1 a2 a3 a4; rw [h] at this; exact this

theorem vxReadBytes_kept : ∀ s a1 a2 a3 a4, (vxReadBytes s a1 a2 a3 a4).1.kept = s.kept := by
  intro s a1 a2 a3 a4
  unfold vxReadBytes
  repeat' first
    | simp only []
    | refine (vxRead_kept' (by assumption)).trans ?_
    | split

theorem vxReadBytes_kept' {s a1 a2 a3 a4 s' x} (h : vxReadBytes s a1 a2 a3 a4 = (s', x)) : s'.kept = s.kept := by
  have := vxReadBytes_kept s a1 a2 a3 a4; rw [h] at this; exact this

theorem vxWriteBytes_kept : ∀ s a1 a2 a3 a4, (vxWriteBytes s a1 a2 a3 a4).1.kept = s.kept := by
  intro s a1 a2 a3 a4
  unfold vxWriteBytes
  repeat' first
    | simp only [↓memWrite_kept, ↓memWriteBytes_kept]
    | refine (memRead_kept' (by assumption)).trans ?_
    | split

theorem vxWriteBytes_kept' {s a1 a2 a3 a4 s' x} (h : vxWriteBytes s a1 a2 a3 a4 = (s', x)) : s'.kept = s.kept := by
  have := vxWriteBytes_kept s a1 a2 a3 a4; rw [h] at this; exact this

theorem vxPost_kept : ∀ s a1 a2 a3 a4 a5, (vxPost s a1 a2 a3 a4 a5).kept = s.kept := by
  intro s a1 a2 a3 a4 a5
  unfold vxPost
  simp only [↓setCore_kept]

theorem vxDrain_kept : ∀ s a l, (vxDrain s a l).kept = s.kept := by
  intro s a l
  induction l generalizing s with
  | nil => exact setCore_kept _ _ _
  | cons x l ih =>
    unfold vxDrain
    repeat' first
      | simp only [↓setCore_kept, ↓ih]
      | refine (vxWriteBytes_kept' (by assumption)).trans ?_
      | exact ih _
      | refine (ih _).trans ?_
      | refine (foldl_kept _ (fun _ _ => ?_) _ _).trans ?_
      | refine (foldl_kept1 _ (fun _ _ => ?_) _ _).trans ?_
      | dsimp only
      | split

theorem vxFlush_kept : ∀ s a1, (vxFlush s a1).kept = s.kept := by
  intro s a1
  unfold vxFlush
  dsimp only
  (repeat' split) <;> simp only [↓vxDrain_kept, ↓setCore_kept]

theorem vxInput_kept : ∀ s a1 a2 a3 a4 a5 a6, (vxInput s a1 a2 a3 a4 a5 a6).1.kept = s.kept := by
  intro s a1 a2 a3 a4 a5 a6
  unfold vxInput
  repeat' first
    | simp only []
    | refine (vxRead_kept' (by assumption)).trans ?_
    | refine (vxReadBytes_kept' (by assumption)).trans ?_
    | split

theorem vxInput_kept' {s a1 a2 a3 a4 a5 a6 s' x} (h : vxInput s a1 a2 a3 a4 a5 a6 = (s', x)) : s'.kept = s.kept := by
  have := vxInput_kept s a1 a2 a3 a4 a5 a6; rw [h] at this; exact this

theorem vxTile_kept : ∀ s a1 a2 a3 a4, (vxTile s a1 a2 a3 a4).1.kept = s.kept := by
  intro s a1 a2 a3 a4
  unfold vxTile
  repeat' first
    | simp only []
    | refine (vxRead_kept' (by assumption)).trans ?_
    | split

theorem vxTile_kept' {s a1 a2 a3 a4 s' x} (h : vxTile s a1 a2 a3 a4 = (s', x)) : s'.kept = s.kept := by
  have := vxTile_kept s a1 a2 a3 a4; rw [h] at this; exact this

theorem segNext_kept : ∀ s a b n m, (segNext s a b n m).1.kept = s.kept := by
  intro s a b n m
  induction n generalizing s m with
  | zero => rfl
  | succ n ih =>
    unfold segNext
    repeat' first
      | simp only [↓ih]
      | refine (vxRead_kept' (by assumption)).trans ?_
      | exact ih _
      | refine (foldl_kept _ (fun _ _ => ?_) _ _).trans ?_
      | refine (foldl_kept1 _ (fun _ _ => ?_) _ _).trans ?_
      | dsimp only
      | split

theorem segNext_kept' {s a b n m s' x} (h : segNext s a b n m = (s', x)) : s'.kept = s.kept := by
  have := segNext_kept s a b n m; rw [h] at this; exact this

theorem segStarts_kept : ∀ a b n s c d e, (segStarts a b n s c d e).1.kept = s.kept := by
  intro a b n s c d e
  induction n generalizing s c d e with
  | zero => rfl
  | succ n ih =>
    unfold segStarts
    repeat' first
      | simp only [↓ih]
      | refine (segNext_kept' (by assumption)).trans ?_
      | exact ih _
      | refine (foldl_kept _ (fun _ _ => ?_) _ _).trans ?_
      | refine (foldl_kept1 _ (fun _ _ => ?_) _ _).trans ?_
      | dsimp only
      | split

theorem segStarts_kept' {a b n s c d e s' x} (h : segStarts a b n s c d e = (s', x)) : s'.kept = s.kept := by
  have := segStarts_kept a b n s c d e; rw [h] at this; exact this

theorem vxOutput_kept : ∀ s a1 a2 a3 a4 a5 a6 a7 a8 a9, (vxOutput s a1 a2 a3 a4 a5 a6 a7 a8 a9).1.kept = s.kept := by
  intro s a1 a2 a3 a4 a5 a6 a7 a8 a9
  unfold vxOutput
  dsimp only
  (repeat' split) <;> simp only [↓vxPost_kept]

theorem vxOutput_kept' {s a1 a2 a3 a4 a5 a6 a7 a8 a9 s' x} (h : vxOutput s a1 a2 a3 a4 a5 a6 a7 a8 a9 = (s', x)) : s'.kept = s.kept := by
  have := vxOutput_kept s a1 a2 a3 a4 a5 a6 a7 a8 a9; rw [h] at this; exact this

theorem vxPrev_kept : ∀ a b c n s, (vxPrev a b c n s).1.kept = s.kept := by
  intro a b c n
  induction n with
  | zero => intros; rfl
  | succ n ih =>
    intro s
    have ih' : ∀ {s' x}, vxPrev a b c n s = (s', x) → s'.kept = s.kept := by
      intro s' x h; have := ih s; rw [h] at this; exact this
    unfold vxPrev
    repeat' first
      | simp only []
      | refine (vxRead_kept' (by assumption)).trans ?_
      | refine (ih' (by assumption)).trans ?_
      | exact ih' (by assumption)
      | refine (foldl_kept _ (fun _ _ => ?_) _ _).trans ?_
      | refine (foldl_kept1 _ (fun _ _ => ?_) _ _).trans ?_
      | dsimp only
      | split

theorem vxPrev_kept' {a b c n s s' x} (h : vxPrev a b c n s = (s', x)) : s'.kept = s.kept := by
  have := vxPrev_kept a b c n s; rw [h] at this; exact this

theorem vxEmitGroup_kept : ∀ s a1 a2 a3 a4, (vxEmitGroup s a1 a2 a3 a4).1.kept = s.kept := by
  intro s a1 a2 a3 a4
  unfold vxEmitGroup
  repeat' first
    | simp only [↓vxPost_kept, ↓setCore_kept]
    | refine (foldl_kept1 _ (fun _ _ => ?_) _ _).trans ?_
    | split

theorem vxEmitGroup_kept' {s a1 a2 a3 a4 s' x} (h : vxEmitGroup s a1 a2 a3 a4 = (s', x)) : s'.kept = s.kept := by
  have := vxEmitGroup_kept s a1 a2 a3 a4; rw [h] at this; exact this

theorem vxI0_kept : ∀ s a1 a2 a3, (vxI0 s a1 a2 a3).1.kept = s.kept := by
  intro s a1 a2 a3
  unfold vxI0
  repeat' first
    | simp only [↓vxInput_kept]
    | refine (vxTile_kept' (by assumption)).trans ?_
    | refine (vxInput_kept' (by assumption)).trans ?_
    | split

theorem vxI0_kept' {s a1 a2 a3 s' x} (h : vxI0 s a1 a2 a3 = (s', x)) : s'.kept = s.kept := by
  have := vxI0_kept s a1 a2 a3; rw [h] at this; exact this

theorem vxI1_kept : ∀ s a1 a2 a3, (vxI1 s a1 a2 a3).1.kept = s.kept := by
  intro s a1 a2 a3
  unfold vxI1
  repeat' first
    | simp only []
    | refine (vxInput_kept' (by assumption)).trans ?_
    | split

theorem vxI1_kept' {s a1 a2 a3 s' x} (h : vxI1 s a1 a2 a3 = (s', x)) : s'.kept = s.kept := by
  have := vxI1_kept s a1 a2 a3; rw [h] at this; exact this

theorem vxStarts_kept : ∀ s a1 a2 a3, (vxStarts s a1 a2 a3).1.kept = s.kept := by
  intro s a1 a2 a3
  unfold vxStarts
  (repeat' split) <;> simp only [↓segStarts_kept]

theorem vxStarts_kept' {s a1 a2 a3 s' x} (h : vxStarts s a1 a2 a3 = (s', x)) : s'.kept = s.kept := by
  have := vxStarts_kept s a1 a2 a3; rw [h] at this; exact this

theorem vxFinish_kept : ∀ s a1 a2 a3 a4 a5, (vxFinish s a1 a2 a3 a4 a5).kept = s.kept := by
  intro s a1 a2 a3 a4 a5
  unfold vxFinish
  repeat' first
    | simp only [↓vxOutput_kept, ↓vxEmitGroup_kept, ↓vxFlush_kept, ↓setCore_kept, kept_mk, kept_fold]
    | refine (vxOutput_kept' (by assumption)).trans ?_
    | refine (vxEmitGroup_kept' (by assumption)).trans ?_
    | refine (foldl_kept _ (fun _ _ => ?_) _ _).trans ?_
    | refine (foldl_kept1 _ (fun _ _ => ?_) _ _).trans ?_
    | dsimp only
    | split

theorem vxChunkStep_kept : ∀ s a1 a2, (vxChunkStep s a1 a2).kept = s.kept := by
  intro s a1 a2
  unfold vxChunkStep
  repeat' first
    | simp only [↓vxI0_kept, ↓vxI1_kept, ↓vxStarts_kept, ↓vxPrev_kept, ↓vxFinish_kept, kept_mk, kept_fold]
    | refine (vxI0_kept' (by assumption)).trans ?_
    | refine (vxI1_kept' (by assumption)).trans ?_
    | refine (vxStarts_kept' (by assumption)).trans ?_
    | refine (vxPrev_kept' (by assumption)).trans ?_
    | refine (foldl_kept _ (fun _ _ => ?_) _ _).trans ?_
    | refine (foldl_kept1 _ (fun _ _ => ?_) _ _).trans ?_
    | dsimp only
    | split

theorem loadStart_kept : ∀ s a1 a2, (loadStart s a1 a2).kept = s.kept := by
  intro s a1 a2
  unfold loadStart
  dsimp only
  (repeat' split) <;> simp only [↓handleFault_kept, ↓setCore_kept, ↓tileSend_kept]

theorem loadSecond_kept : ∀ s a1, (loadSecond s a1).kept = s.kept := by
  intro s a1
  unfold loadSecond
  dsimp only
  (repeat' split) <;> simp only [↓setCore_kept, ↓tileSend_kept]

theorem loadParts_kept : ∀ a b c l s e, (loadParts a b c l s e).1.kept = s.kept := by
  intro a b c l
  induction l with
  | nil => intros; rfl
  | cons x l ih =>
    intro s e
    obtain ⟨o, n⟩ := x
    cases n with
    | zero => exact ih _ _
    | succ n =>
      unfold loadParts
      repeat' first
        | simp only [↓ih]
        | refine (memRead_kept' (by assumption)).trans ?_
        | refine (ih _ _).trans ?_
        | refine (foldl_kept _ (fun _ _ => ?_) _ _).trans ?_
        | refine (foldl_kept1 _ (fun _ _ => ?_) _ _).trans ?_
        | dsimp only
        | split

theorem loadParts_kept' {a b c l s e s' x} (h : loadParts a b c l s e = (s', x)) : s'.kept = s.kept := by
  have := loadParts_kept a b c l s e; rw [h] at this; exact this

theorem loadBytes_kept : ∀ s a1 a2 a3 a4, (loadBytes s a1 a2 a3 a4).1.kept = s.kept := by
  intro s a1 a2 a3 a4
  unfold loadBytes
  repeat' first
    | simp only [↓loadParts_kept]
    | refine (memRead_kept' (by assumption)).trans ?_
    | refine (loadParts_kept' (by assumption)).trans ?_
    | split

theorem loadBytes_kept' {s a1 a2 a3 a4 s' x} (h : loadBytes s a1 a2 a3 a4 = (s', x)) : s'.kept = s.kept := by
  have := loadBytes_kept s a1 a2 a3 a4; rw [h] at this; exact this

theorem makeResident_kept : ∀ s a1 a2 a3, (makeResident s a1 a2 a3).kept = s.kept := by
  intro s a1 a2 a3
  unfold makeResident
  simp only [↓setCore_kept]

theorem mxExport_kept : ∀ s a1 a2 a3, (mxExport s a1 a2 a3).kept = s.kept := by
  intro s a1 a2 a3
  unfold mxExport
  dsimp only
  (repeat' split) <;> simp only [↓spError_kept, ↓setCore_kept, ↓mxWriteRow_kept]

theorem mxComplete_kept : ∀ s a1 a2, (mxComplete s a1 a2).kept = s.kept := by
  intro s a1 a2
  unfold mxComplete
  (repeat' split) <;> simp only [↓putCore_kept, ↓coreEv_kept]

theorem vxViolate_kept : ∀ s a1 a2 a3, (vxViolate s a1 a2 a3).kept = s.kept := by
  intro s a1 a2 a3
  unfold vxViolate
  simp only [↓setCore_kept, ↓violate_kept]

theorem vxComplete_kept : ∀ s a1 a2, (vxComplete s a1 a2).kept = s.kept := by
  intro s a1 a2
  unfold vxComplete
  (repeat' split) <;> simp only [↓putCore_kept, ↓coreEv_kept]

theorem descMalformed_kept : ∀ s a1 a2 a3 a4, (descMalformed s a1 a2 a3 a4).kept = s.kept := by
  intro s a1 a2 a3 a4
  unfold descMalformed
  simp only [↓violate_kept]

theorem readRecord_kept : ∀ s a1 a2, (readRecord s a1 a2).1.kept = s.kept := by
  intro s a1 a2
  unfold readRecord
  dsimp only
  (repeat' split) <;> simp only [↓spError_kept]

theorem readRecord_kept' {s a1 a2 s' x} (h : readRecord s a1 a2 = (s', x)) : s'.kept = s.kept := by
  have := readRecord_kept s a1 a2; rw [h] at this; exact this

theorem readRecords_kept : ∀ s a b l, (readRecords s a b l).1.kept = s.kept := by
  intro s a b l
  induction l generalizing s with
  | nil => rfl
  | cons n rest ih =>
    have ih' : ∀ {s s' x}, readRecords s a b rest = (s', x) → s'.kept = s.kept := by
      intro s s' x h; have := ih s; rw [h] at this; exact this
    unfold readRecords
    repeat' first
      | simp only [↓cueViolate_kept]
      | refine (readRecord_kept' (by assumption)).trans ?_
      | refine (ih' (by assumption)).trans ?_
      | refine (foldl_kept _ (fun _ _ => ?_) _ _).trans ?_
      | refine (foldl_kept1 _ (fun _ _ => ?_) _ _).trans ?_
      | dsimp only
      | split

theorem readRecords_kept' {s a b l s' x} (h : readRecords s a b l = (s', x)) : s'.kept = s.kept := by
  have := readRecords_kept s a b l; rw [h] at this; exact this

theorem readDescriptor_kept : ∀ s a1 a2, (readDescriptor s a1 a2).1.kept = s.kept := by
  intro s a1 a2
  unfold readDescriptor
  repeat' first
    | simp only [↓cueViolate_kept]
    | refine (readRecords_kept' (by assumption)).trans ?_
    | split

theorem readDescriptor_kept' {s a1 a2 s' x} (h : readDescriptor s a1 a2 = (s', x)) : s'.kept = s.kept := by
  have := readDescriptor_kept s a1 a2; rw [h] at this; exact this

theorem issueChecked_kept : ∀ s a1 a2 a3 a4 a5, (issueChecked s a1 a2 a3 a4 a5).kept = s.kept := by
  intro s a1 a2 a3 a4 a5
  unfold issueChecked
  dsimp only
  (repeat' split) <;> simp only [↓handleFault_kept, ↓scoreWait_kept, ↓goNext_kept, ↓setCore_kept]

theorem actIssueVx_kept : ∀ a0 s a2, (actIssueVx a0 s a2).kept = s.kept := by
  intro a0 s a2
  unfold actIssueVx
  repeat' first
    | simp only [↓descMalformed_kept, ↓issueChecked_kept]
    | refine (readDescriptor_kept' (by assumption)).trans ?_
    | refine (readRecords_kept' (by assumption)).trans ?_
    | split

theorem actIssueDma_kept : ∀ a0 s a2, (actIssueDma a0 s a2).kept = s.kept := by
  intro a0 s a2
  unfold actIssueDma
  repeat' first
    | simp only [↓descMalformed_kept, ↓issueChecked_kept]
    | refine (readDescriptor_kept' (by assumption)).trans ?_
    | split

theorem issueMxPlain_kept : ∀ s a1 a2 a3, (issueMxPlain s a1 a2 a3).kept = s.kept := by
  intro s a1 a2 a3
  unfold issueMxPlain
  (repeat' split) <;> simp only [↓descMalformed_kept, ↓issueChecked_kept]

theorem issueMxFused_kept : ∀ s a1 a2 a3 a4 a5 a6, (issueMxFused s a1 a2 a3 a4 a5 a6).kept = s.kept := by
  intro s a1 a2 a3 a4 a5 a6
  unfold issueMxFused
  dsimp only
  (repeat' split) <;> simp only [↓descMalformed_kept, ↓issueChecked_kept]

theorem actIssueMx_kept : ∀ a0 s a2, (actIssueMx a0 s a2).kept = s.kept := by
  intro a0 s a2
  unfold actIssueMx
  repeat' first
    | simp only [↓issueMxFused_kept, ↓issueMxPlain_kept]
    | refine (readDescriptor_kept' (by assumption)).trans ?_
    | refine (readRecords_kept' (by assumption)).trans ?_
    | split

theorem retryOp_kept : ∀ a0 s a2, (retryOp a0 s a2).kept = s.kept := by
  intro a0 s a2
  unfold retryOp
  (repeat' split) <;> simp only [↓actLd_kept, ↓actSt_kept, ↓actSendb_kept, ↓actRecvb_kept, ↓actIssueMx_kept, ↓actIssueVx_kept,
      ↓actIssueDma_kept]

theorem retryAtPc_kept : ∀ s a1, (retryAtPc s a1).kept = s.kept := by
  intro s a1
  unfold retryAtPc
  simp only [↓retryOp_kept, ↓setCore_kept]

theorem helloBody_kept : ∀ a0 a1 a2 s, (helloBody a0 a1 a2 s).kept = s.kept := by
  intro a0 a1 a2 s
  unfold helloBody
  dsimp only
  (repeat' split) <;> simp only [↓endSession_kept, ↓setHost_kept, ↓finish_kept, ↓turnAway_kept]

theorem claimBody_kept : ∀ a0 a1 a2 s, (claimBody a0 a1 a2 s).kept = s.kept := by
  intro a0 a1 a2 s
  unfold claimBody
  (repeat' split) <;> simp only [↓finish_kept, ↓authorityEv_kept, kept_mk, kept_fold]

theorem releaseBody_kept : ∀ a0 a1 a2 s, (releaseBody a0 a1 a2 s).kept = s.kept := by
  intro a0 a1 a2 s
  unfold releaseBody
  (repeat' split) <;> simp only [↓finish_kept, ↓loseAuthority_kept]

theorem flushCpl_kept : ∀ s a1, (flushCpl s a1).kept = s.kept := by
  intro s a1
  unfold flushCpl
  repeat' first
    | simp only [↓writeCpl_kept, ↓setHeldCpl_kept]
    | refine (foldl_kept _ (fun _ _ => ?_) _ _).trans ?_
    | split

theorem flushEvt_kept : ∀ s a1, (flushEvt s a1).kept = s.kept := by
  intro s a1
  unfold flushEvt
  repeat' first
    | simp only [↓writeEvt_kept, ↓setHost_kept]
    | refine (foldl_kept _ (fun _ _ => ?_) _ _).trans ?_
    | split

theorem reportLost_kept : ∀ s a1, (reportLost s a1).kept = s.kept := by
  intro s a1
  unfold reportLost
  dsimp only
  (repeat' split) <;> simp only [↓setHost_kept, ↓writeEvt_kept]

theorem arrivalRow_kept : ∀ a b c d e g s, (∀ s f, (g s f).kept = s.kept) →
    (arrivalRow a b c d e g s).kept = s.kept := by
  intro a b c d e g s h
  unfold arrivalRow
  repeat' first
    | simp only [↓grantArb_kept, ↓h]
    | refine (eject_kept _ _ _ _ _ (fun _ _ => ?_)).trans ?_
    | split

theorem countStale_kept : ∀ s a1 a2, (countStale s a1 a2).kept = s.kept := by
  intro s a1 a2
  unfold countStale
  simp only [↓setCore_kept]

theorem ctlBack_kept : ∀ s a1 a2 a3 a4 a5, (ctlBack s a1 a2 a3 a4 a5).kept = s.kept := by
  intro s a1 a2 a3 a4 a5
  unfold ctlBack
  simp only [↓injectFrom_kept]

theorem queueViolation_kept : ∀ s a1 a2 a3 a4, (queueViolation s a1 a2 a3 a4).kept = s.kept := by
  intro s a1 a2 a3 a4
  unfold queueViolation
  simp only [↓raiseEv_kept, ↓ctlBack_kept]

theorem creditedIn_kept : ∀ s a1 a2 a3, (creditedIn s a1 a2 a3).kept = s.kept := by
  intro s a1 a2 a3
  unfold creditedIn
  dsimp only
  (repeat' split) <;> simp only [↓queueViolation_kept, ↓putCore_kept]

theorem rawIn_kept : ∀ s a1 a2, (rawIn s a1 a2).kept = s.kept := by
  intro s a1 a2
  unfold rawIn
  simp only [↓putCore_kept]

theorem combiningIn_kept : ∀ s a1 a2 a3, (combiningIn s a1 a2 a3).kept = s.kept := by
  intro s a1 a2 a3
  unfold combiningIn
  dsimp only
  (repeat' split) <;> simp only [↓queueViolation_kept, ↓setCore_kept, ↓coreEv_kept, ↓putCore_kept]

theorem queueIn_kept : ∀ s a1, (queueIn s a1).kept = s.kept := by
  intro s a1
  unfold queueIn
  dsimp only
  (repeat' split) <;> simp only [↓ctlBack_kept, ↓setCore_kept, ↓countStale_kept, ↓queueViolation_kept, ↓creditedIn_kept,
      ↓rawIn_kept, ↓combiningIn_kept]

theorem endMarkIn_kept : ∀ s a1, (endMarkIn s a1).kept = s.kept := by
  intro s a1
  unfold endMarkIn
  dsimp only
  (repeat' split) <;> simp only [↓sceneCheck_kept, ↓setScene_kept, ↓countStale_kept]

theorem creditIn_kept : ∀ s a1, (creditIn s a1).kept = s.kept := by
  intro s a1
  unfold creditIn
  dsimp only
  (repeat' split) <;> simp only [↓putCore_kept, ↓countStale_kept]

theorem sendRefused_kept : ∀ s a1 a2 a3 a4 a5, (sendRefused s a1 a2 a3 a4 a5).kept = s.kept := by
  intro s a1 a2 a3 a4 a5
  unfold sendRefused
  simp only [↓setCore_kept, ↓coreEv_kept]

theorem refuseIn_kept : ∀ s a1 a2, (refuseIn s a1 a2).kept = s.kept := by
  intro s a1 a2
  unfold refuseIn
  dsimp only
  (repeat' split) <;> simp only [↓sendRefused_kept, ↓countStale_kept]

theorem freezeIn_kept : ∀ s a1, (freezeIn s a1).kept = s.kept := by
  intro s a1
  unfold freezeIn
  dsimp only
  (repeat' split) <;> simp only [↓setCore_kept, ↓freezeSlate_kept, ↓countStale_kept]

theorem arriveEnd_kept : ∀ s a1 a2, (arriveEnd s a1 a2).kept = s.kept := by
  intro s a1 a2
  unfold arriveEnd
  (repeat' split) <;> simp only [↓goNext_kept, ↓setCore_kept]

theorem arriveReturned_kept : ∀ s a1 a2, (arriveReturned s a1 a2).kept = s.kept := by
  intro s a1 a2
  unfold arriveReturned
  dsimp only
  (repeat' split) <;> simp only [↓sendRefused_kept, ↓arriveEnd_kept, ↓countStale_kept]

theorem memAnswer_kept : ∀ s a1 a2 a3 a4 a5, (memAnswer s a1 a2 a3 a4 a5).kept = s.kept := by
  intro s a1 a2 a3 a4 a5
  unfold memAnswer
  repeat' first
    | simp only [↓portAck_kept, ↓setCore_kept, ↓dmaAck_kept, ↓tileData_kept, ↓dmaData_kept]
    | split

theorem darkRetIn_kept : ∀ s a1, (darkRetIn s a1).kept = s.kept := by
  intro s a1
  unfold darkRetIn
  dsimp only
  (repeat' split) <;> simp only [↓arriveReturned_kept, ↓memAnswer_kept, ↓refuseIn_kept]

theorem clapNotify_kept : ∀ s a1 a2, (clapNotify s a1 a2).kept = s.kept := by
  intro s a1 a2
  unfold clapNotify
  repeat' first
    | simp only [↓inject_kept]
    | refine (foldl_kept _ (fun _ _ => ?_) _ _).trans ?_
    | split

theorem clapDone_kept : ∀ s a1 a2, (clapDone s a1 a2).kept = s.kept := by
  intro s a1 a2
  unfold clapDone
  (repeat' split) <;> simp only [↓clapNotify_kept, ↓copyStart_kept, ↓setScene_kept, ↓raiseEv_kept]

theorem resumeCopied_kept : ∀ s a1 a2, (resumeCopied s a1 a2).kept = s.kept := by
  intro s a1 a2
  unfold resumeCopied
  dsimp only
  (repeat' split) <;> simp only [↓copyWork_kept, ↓copyDrop_kept, ↓setScene_kept, ↓raiseEv_kept, ↓clapNotify_kept, kept_mk, kept_fold]

theorem clapArriveIn_kept : ∀ s a1, (clapArriveIn s a1).kept = s.kept := by
  intro s a1
  unfold clapArriveIn
  dsimp only
  (repeat' split) <;> simp only [↓coreEv_kept, ↓detect_kept, ↓inject_kept, ↓setCl_kept, ↓clapDone_kept]

theorem clapReplyIn_kept : ∀ s a1, (clapReplyIn s a1).kept = s.kept := by
  intro s a1
  unfold clapReplyIn
  dsimp only
  (repeat' split) <;> simp only [↓arriveEnd_kept]

theorem clapNotifyIn_kept : ∀ s a1, (clapNotifyIn s a1).kept = s.kept := by
  intro s a1
  unfold clapNotifyIn
  dsimp only
  (repeat' split) <;> simp only [↓goNext_kept]

theorem toPort_kept : ∀ s a1 a2, (toPort s a1 a2).kept = s.kept := by
  intro s a1 a2
  unfold toPort
  simp only [↓setPort_kept]

theorem remoteError_kept : ∀ s a1 a2 a3, (remoteError s a1 a2 a3).kept = s.kept := by
  intro s a1 a2 a3
  unfold remoteError
  simp only [↓cmError_kept]

theorem memRdIn_kept : ∀ s a1, (memRdIn s a1).kept = s.kept := by
  intro s a1
  unfold memRdIn
  dsimp only
  (repeat' split) <;> simp only [↓toPort_kept, ↓readReply_kept, ↓vaultEnqueue_kept, ↓remoteError_kept]

theorem memWrIn_kept : ∀ s a1, (memWrIn s a1).kept = s.kept := by
  intro s a1
  unfold memWrIn
  dsimp only
  (repeat' split) <;> simp only [↓toPort_kept, ↓writeReply_kept, ↓vaultEnqueue_kept, ↓setCl_kept]

theorem memRdDataIn_kept : ∀ s a1, (memRdDataIn s a1).kept = s.kept := by
  intro s a1
  unfold memRdDataIn
  (repeat' split) <;> simp only [↓refetchArrive_kept, ↓memAnswer_kept]

theorem memWrAckIn_kept : ∀ s a1, (memWrAckIn s a1).kept = s.kept := by
  intro s a1
  unfold memWrAckIn
  simp only [↓memAnswer_kept]

theorem ringConsume_kept : ∀ s a1 a2, (ringConsume s a1 a2).kept = s.kept := by
  intro s a1 a2
  unfold ringConsume
  dsimp only
  (repeat' split) <;> simp only [↓raiseEv_kept, ↓setCl_kept]

theorem ringProduce_kept : ∀ s a1 a2 a3 a4, (ringProduce s a1 a2 a3 a4).1.kept = s.kept := by
  intro s a1 a2 a3 a4
  unfold ringProduce
  dsimp only
  (repeat' split) <;> simp only [↓setCl_kept]

theorem ringProduce_kept' {s a1 a2 a3 a4 s' x} (h : ringProduce s a1 a2 a3 a4 = (s', x)) : s'.kept = s.kept := by
  have := ringProduce_kept s a1 a2 a3 a4; rw [h] at this; exact this

theorem seamUniform_kept : ∀ s a1 a2 a3 a4, (seamUniform s a1 a2 a3 a4).kept = s.kept := by
  intro s a1 a2 a3 a4
  unfold seamUniform
  simp only [↓bumpFloor_kept, ↓raiseEv_kept, kept_mk, kept_fold]

theorem sbBody_kept : ∀ a0 a1 a2 s, (sbBody a0 a1 a2 s).kept = s.kept := by
  intro a0 a1 a2 s
  unfold sbBody
  dsimp only
  (repeat' split) <;> simp only [↓finish_kept, ↓setPin_kept, ↓pauseOut_kept]

theorem openBody_kept : ∀ a0 a1 a2 s, (openBody a0 a1 a2 s).kept = s.kept := by
  intro a0 a1 a2 s
  unfold openBody
  dsimp only
  (repeat' split) <;> simp only [↓finish_kept, ↓setSlate_kept, ↓turnAway_kept]

theorem statusBody_kept : ∀ a0 a1 s, (statusBody a0 a1 s).kept = s.kept := by
  intro a0 a1 s
  unfold statusBody
  dsimp only
  (repeat' split) <;> simp only [↓growSlate_kept, ↓raiseEv_kept, ↓turnAway_kept, ↓finish_kept]

theorem thawCores_kept : ∀ s a1, (thawCores s a1).kept = s.kept := by
  intro s a1
  unfold thawCores
  repeat' first
    | simp only [↓setCore_kept]
    | refine (foldl_kept _ (fun _ _ => ?_) _ _).trans ?_
    | split

theorem thawMasters_kept : ∀ s a1, (thawMasters s a1).kept = s.kept := by
  intro s a1
  unfold thawMasters
  simp only [kept_mk, kept_fold]

theorem slateReleaseBody_kept : ∀ a0 a1 s, (slateReleaseBody a0 a1 s).kept = s.kept := by
  intro a0 a1 s
  unfold slateReleaseBody
  dsimp only
  (repeat' split) <;> simp only [↓finish_kept, ↓thawMasters_kept, ↓thawCores_kept, ↓setMode_kept]

theorem dropWorks_kept : ∀ s a1, (dropWorks s a1).kept = s.kept := by
  intro s a1
  unfold dropWorks
  repeat' first
    | simp only [↓copyDrop_kept, kept_mk, kept_fold]
    | refine (foldl_kept _ (fun _ _ => ?_) _ _).trans ?_
    | split

theorem setCut_kept : ∀ s a1 a2, (setCut s a1 a2).kept = s.kept := by
  intro s a1 a2
  unfold setCut
  simp only [↓setSlate_kept]

theorem giveUp_kept : ∀ s a1 a2, (giveUp s a1 a2).kept = s.kept := by
  intro s a1 a2
  unfold giveUp
  (repeat' split) <;> simp only [↓admitUndo_kept, ↓setCut_kept, ↓finish_kept, kept_mk, kept_fold]

theorem cutBegin_kept : ∀ s a1 a2, (cutBegin s a1 a2).kept = s.kept := by
  intro s a1 a2
  unfold cutBegin
  repeat' first
    | simp only [↓setSlate_kept, ↓giveUp_kept, ↓haltSlateScenes_kept, ↓windowShut_kept, ↓unmapSlate_kept]
    | refine (foldl_kept _ (fun _ _ => ?_) _ _).trans ?_
    | split

theorem cutBody_kept : ∀ a0 a1 s, (cutBody a0 a1 s).kept = s.kept := by
  intro a0 a1 s
  unfold cutBody
  dsimp only
  (repeat' split) <;> simp only [↓finish_kept, ↓setCut_kept, ↓accept_kept, ↓flushLate_kept, ↓cutBegin_kept]

theorem drainDone_kept : ∀ s a1, (drainDone s a1).kept = s.kept := by
  intro s a1
  unfold drainDone
  (repeat' split) <;> simp only [↓setCut_kept]

theorem fencePort_kept : ∀ s a1 a2, (fencePort s a1 a2).kept = s.kept := by
  intro s a1 a2
  unfold fencePort
  repeat' first
    | simp only [↓setPort_kept, ↓reelRelease_kept]
    | refine (foldl_kept _ (fun _ _ => ?_) _ _).trans ?_
    | split

theorem deadlineFence_kept : ∀ s a1, (deadlineFence s a1).kept = s.kept := by
  intro s a1
  unfold deadlineFence
  repeat' first
    | simp only [↓dropWorks_kept, ↓coreReset_kept, ↓fencePort_kept, ↓setCut_kept]
    | refine (foldl_kept _ (fun _ _ => ?_) _ _).trans ?_
    | split

theorem markFrozen_kept : ∀ s a1, (markFrozen s a1).kept = s.kept := by
  intro s a1
  unfold markFrozen
  simp only [↓setCut_kept, kept_mk, kept_fold]

theorem scrubClap_kept : ∀ a0 a1 s a3, (scrubClap a0 a1 s a3).kept = s.kept := by
  intro a0 a1 s a3
  unfold scrubClap
  dsimp only
  (repeat' split) <;> simp only [↓raiseEv_kept, ↓setCl_kept]

theorem scrubScene_kept : ∀ a0 s a2, (scrubScene a0 s a2).kept = s.kept := by
  intro a0 s a2
  unfold scrubScene
  repeat' first
    | simp only [↓dropScene_kept, ↓slateClosed_kept]
    | refine (foldl_kept _ (fun _ _ => ?_) _ _).trans ?_
    | split

theorem scrubBegin_kept : ∀ s a1, (scrubBegin s a1).kept = s.kept := by
  intro s a1
  unfold scrubBegin
  simp only [↓setMode_kept, ↓setCut_kept]

theorem scrubCores_kept : ∀ s a1, (scrubCores s a1).kept = s.kept := by
  intro s a1
  unfold scrubCores
  repeat' first
    | simp only [↓scrubScene_kept, ↓scrubClap_kept, kept_mk, kept_fold]
    | refine (foldl_kept _ (fun _ _ => ?_) _ _).trans ?_
    | split

theorem cutRetire_kept : ∀ s a1, (cutRetire s a1).kept = s.kept := by
  intro s a1
  unfold cutRetire
  (repeat' split) <;> simp only [↓markFrozen_kept, ↓dailiesStart_kept, ↓setCut_kept, ↓scrubBegin_kept]

theorem scrubRange_kept : ∀ s a1, (scrubRange s a1).kept = s.kept := by
  intro s a1
  unfold scrubRange
  (repeat' split) <;> simp only [↓setCl_kept, ↓setVault_kept]

theorem discardSlate_kept : ∀ s a1, (discardSlate s a1).kept = s.kept := by
  intro s a1
  unfold discardSlate
  repeat' first
    | simp only [↓boardForget_kept, ↓windowFree_kept, ↓thawMasters_kept, kept_mk, kept_fold]
    | refine (foldl_kept _ (fun _ _ => ?_) _ _).trans ?_
    | split

theorem completeGone_kept : ∀ s a1 a2, (completeGone s a1 a2).1.kept = s.kept := by
  intro s a1 a2
  unfold completeGone
  repeat' first
    | simp only [↓dropWorks_kept, ↓complete_kept, kept_mk, kept_fold]
    | refine (foldl_kept _ (fun _ _ => ?_) _ _).trans ?_
    | split

theorem completeGone_kept' {s a1 a2 s' x} (h : completeGone s a1 a2 = (s', x)) : s'.kept = s.kept := by
  have := completeGone_kept s a1 a2; rw [h] at this; exact this

theorem scrubEnd_kept : ∀ s a1 a2, (scrubEnd s a1 a2).kept = s.kept := by
  intro s a1 a2
  unfold scrubEnd
  repeat' first
    | simp only [↓growSlate_kept, ↓discardSlate_kept, ↓scrubRange_kept, ↓scrubCores_kept, ↓completeGone_kept, ↓raiseEv_kept,
        ↓finish_kept, ↓setSlate_kept]
    | refine (foldl_kept _ (fun _ _ => ?_) _ _).trans ?_
    | split

theorem dailiesDone_kept : ∀ s, (dailiesDone s).kept = s.kept := by
  intro s
  unfold dailiesDone
  dsimp only
  (repeat' split) <;> simp only [↓dailiesEnd_kept, ↓scrubBegin_kept, ↓hangDailies_kept]

theorem spdmSend_kept : ∀ s a1 a2, (spdmSend s a1 a2).kept = s.kept := by
  intro s a1 a2
  unfold spdmSend
  simp only [↓emit_kept]

theorem setSpdm_kept : ∀ s a1 a2, (setSpdm s a1 a2).kept = s.kept := by
  intro s a1 a2
  unfold setSpdm
  simp only [↓setHost_kept]

theorem spdmRequest_kept : ∀ a b c d e f s g, (∀ s, (g s).kept = s.kept) →
    (spdmRequest a b c d e f s g).kept = s.kept := by
  intro a b c d e f s g h
  unfold spdmRequest
  dsimp only
  (repeat' split) <;> simp only [↓spdmSend_kept, ↓h]

theorem getVersion_kept : ∀ a0 a1 s, (getVersion a0 a1 s).kept = s.kept := by
  intro a0 a1 s
  unfold getVersion
  dsimp only
  (repeat' split) <;> simp only [↓spdmSend_kept, ↓setSpdm_kept]

theorem getCapabilities_kept : ∀ a0 a1 s, (getCapabilities a0 a1 s).kept = s.kept := by
  intro a0 a1 s
  unfold getCapabilities
  simp only [↓spdmSend_kept, ↓setSpdm_kept, kept_mk, kept_fold]

theorem negotiate_kept : ∀ a0 a1 s, (negotiate a0 a1 s).kept = s.kept := by
  intro a0 a1 s
  unfold negotiate
  (repeat' split) <;> simp only [↓spdmSend_kept, ↓setSpdm_kept]

theorem getDigests_kept : ∀ a0 a1 s, (getDigests a0 a1 s).kept = s.kept := by
  intro a0 a1 s
  unfold getDigests
  simp only [↓spdmSend_kept, ↓setSpdm_kept]

theorem getCertificate_kept : ∀ a0 a1 s, (getCertificate a0 a1 s).kept = s.kept := by
  intro a0 a1 s
  unfold getCertificate
  dsimp only
  (repeat' split) <;> simp only [↓spdmSend_kept, ↓setSpdm_kept]

theorem drawNonce_kept : ∀ s a1 a2, (drawNonce s a1 a2).2.kept = s.kept := by
  intro s a1 a2
  unfold drawNonce
  simp only [↓setSpdm_kept]

theorem drawNonce_kept' {s a1 a2 s' x} (h : drawNonce s a1 a2 = (x, s')) : s'.kept = s.kept := by
  have := drawNonce_kept s a1 a2; rw [h] at this; exact this

theorem challenge_kept : ∀ a0 a1 s, (challenge a0 a1 s).kept = s.kept := by
  intro a0 a1 s
  unfold challenge
  (repeat' split) <;> simp only [↓spdmSend_kept, ↓drawNonce_kept, ↓setSpdm_kept]

theorem getMeasurements_kept : ∀ a0 a1 s, (getMeasurements a0 a1 s).kept = s.kept := by
  intro a0 a1 s
  unfold getMeasurements
  dsimp only
  (repeat' split) <;> simp only [↓spdmSend_kept, ↓drawNonce_kept, ↓setSpdm_kept]

theorem keyExchange_kept : ∀ a0 a1 s, (keyExchange a0 a1 s).kept = s.kept := by
  intro a0 a1 s
  unfold keyExchange
  (repeat' split) <;> simp only [↓spdmSend_kept, ↓drawNonce_kept, ↓setSpdm_kept, kept_mk, kept_fold]

theorem finishSession_kept : ∀ a0 a1 s, (finishSession a0 a1 s).kept = s.kept := by
  intro a0 a1 s
  unfold finishSession
  dsimp only
  (repeat' split) <;> simp only [↓spdmSend_kept, ↓setSpdm_kept]

theorem heartbeatAck_kept : ∀ a0 s, (heartbeatAck a0 s).kept = s.kept := by
  intro a0 s
  unfold heartbeatAck
  simp only [↓spdmSend_kept]

theorem keyUpdate_kept : ∀ a0 a1 s, (keyUpdate a0 a1 s).kept = s.kept := by
  intro a0 a1 s
  unfold keyUpdate
  dsimp only
  (repeat' split) <;> simp only [↓spdmSend_kept, ↓setSpdm_kept]

theorem endSpdm_kept : ∀ a0 a1 s, (endSpdm a0 a1 s).kept = s.kept := by
  intro a0 a1 s
  unfold endSpdm
  simp only [↓spdmSend_kept, ↓setSpdm_kept]

theorem vendorRequest_kept : ∀ a0 a1 s, (vendorRequest a0 a1 s).kept = s.kept := by
  intro a0 a1 s
  unfold vendorRequest
  dsimp only
  (repeat' split) <;> simp only [↓spdmSend_kept, ↓setSpdm_kept, kept_mk, kept_fold]

end Sys2Proof.Machine
end

