-- ==== Sys2Proof/Laws/FrameRows.lean ====
section
/-! SUPPORT. Every command row but FW_HANDOVER answers a next state with the same waiting commands and factory values. -/

namespace Sys2Proof.Machine

open Sys2Proof

theorem execMapAperture_kept : ∀ a0 a1 s, ∃ t, execMapAperture a0 a1 s = .next t ∧ t.kept = s.kept := by
  intro a0 a1 s
  unfold execMapAperture
  repeat' first
    | refine ⟨_, rfl, ?_⟩
    | simp only [↓mapBody_kept]
    | refine (mailbox_kept _ _ _ _ _ (fun _ _ => ?_)).trans ?_
    | split

theorem execApertureRead_kept : ∀ a0 a1 s, ∃ t, execApertureRead a0 a1 s = .next t ∧ t.kept = s.kept := by
  intro a0 a1 s
  unfold execApertureRead
  repeat' first
    | refine ⟨_, rfl, ?_⟩
    | simp only [↓aperRead_kept, ↓emit_kept, ↓aperMiss_kept]
    | split

theorem execApertureWrite_kept : ∀ a0 a1 a2 a3 s, ∃ t, execApertureWrite a0 a1 a2 a3 s = .next t ∧ t.kept = s.kept := by
  intro a0 a1 a2 a3 s
  unfold execApertureWrite
  repeat' first
    | refine ⟨_, rfl, ?_⟩
    | simp only [↓aperWrite_kept, ↓aperMiss_kept]
    | split

theorem execReset_kept : ∀ a0 a1 s, ∃ t, execReset a0 a1 s = .next t ∧ t.kept = s.kept := by
  intro a0 a1 s
  unfold execReset
  repeat' first
    | refine ⟨_, rfl, ?_⟩
    | simp only [↓resetBody_kept]
    | refine (mailbox_kept _ _ _ _ _ (fun _ _ => ?_)).trans ?_
    | split

theorem execDailiesCollect_kept : ∀ a0 a1 s, ∃ t, execDailiesCollect a0 a1 s = .next t ∧ t.kept = s.kept := by
  intro a0 a1 s
  unfold execDailiesCollect
  repeat' first
    | refine ⟨_, rfl, ?_⟩
    | simp only [↓dailiesBody_kept]
    | refine (mailbox_kept _ _ _ _ _ (fun _ _ => ?_)).trans ?_
    | split

theorem execPolicySet_kept : ∀ a0 a1 s, ∃ t, execPolicySet a0 a1 s = .next t ∧ t.kept = s.kept := by
  intro a0 a1 s
  unfold execPolicySet
  repeat' first
    | refine ⟨_, rfl, ?_⟩
    | simp only [↓policyBody_kept]
    | refine (mailbox_kept _ _ _ _ _ (fun _ _ => ?_)).trans ?_
    | split

theorem execFenceCore_kept : ∀ a0 a1 s, ∃ t, execFenceCore a0 a1 s = .next t ∧ t.kept = s.kept := by
  intro a0 a1 s
  unfold execFenceCore
  repeat' first
    | refine ⟨_, rfl, ?_⟩
    | simp only [↓fenceBody_kept]
    | refine (mailbox_kept _ _ _ _ _ (fun _ _ => ?_)).trans ?_
    | split

theorem execUnfenceCore_kept : ∀ a0 a1 s, ∃ t, execUnfenceCore a0 a1 s = .next t ∧ t.kept = s.kept := by
  intro a0 a1 s
  unfold execUnfenceCore
  repeat' first
    | refine ⟨_, rfl, ?_⟩
    | simp only [↓unfenceBody_kept]
    | refine (mailbox_kept _ _ _ _ _ (fun _ _ => ?_)).trans ?_
    | split

theorem execResetDone_kept : ∀ s, ∃ t, execResetDone s = .next t ∧ t.kept = s.kept := by
  intro s
  exact ⟨_, rfl, by simp only [↓resetsDone_kept]⟩

theorem execFaultHalt_kept : ∀ s, ∃ t, execFaultHalt s = .next t ∧ t.kept = s.kept := by
  intro s
  unfold execFaultHalt
  split <;> exact ⟨_, rfl, by first | rfl | simp only [↓faultHalt_kept, kept_mk, kept_fold]⟩

theorem execHangProgressReport_kept : ∀ s, ∃ t, execHangProgressReport s = .next t ∧ t.kept = s.kept := by
  intro s
  exact ⟨_, rfl, by simp only [↓progressReport_kept]⟩

theorem execHangDeclared_kept : ∀ a0 s, ∃ t, execHangDeclared a0 s = .next t ∧ t.kept = s.kept := by
  intro a0 s
  exact ⟨_, rfl, by simp only [↓hangDeclare_kept]⟩

theorem execHangCoreResetTimeout_kept : ∀ a0 s, ∃ t, execHangCoreResetTimeout a0 s = .next t ∧ t.kept = s.kept := by
  intro a0 s
  exact ⟨_, rfl, by simp only [↓coreEscalate_kept]⟩

theorem execHangSuspectEnded_kept : ∀ a0 s, ∃ t, execHangSuspectEnded a0 s = .next t ∧ t.kept = s.kept := by
  intro a0 s
  exact ⟨_, rfl, by simp only [↓suspectEnded_kept]⟩

theorem execHeartbeat_kept : ∀ s, ∃ t, execHeartbeat s = .next t ∧ t.kept = s.kept := by
  intro s
  unfold execHeartbeat
  split <;> exact ⟨_, rfl, by first | rfl | simp only [↓beat_kept]⟩

theorem execControllerWatchdog_kept : ∀ s, ∃ t, execControllerWatchdog s = .next t ∧ t.kept = s.kept := by
  intro s
  unfold execControllerWatchdog
  split <;> exact ⟨_, rfl, by first | rfl | simp only [↓controllerReset_kept, kept_mk, kept_fold]⟩

theorem execFwLoad_kept : ∀ a0 a1 s, ∃ t, execFwLoad a0 a1 s = .next t ∧ t.kept = s.kept := by
  intro a0 a1 s
  unfold execFwLoad
  repeat' first
    | refine ⟨_, rfl, ?_⟩
    | simp only [↓fwLoadBody_kept]
    | refine (mailbox_kept _ _ _ _ _ (fun _ _ => ?_)).trans ?_
    | split

theorem execCalLoad_kept : ∀ a0 a1 s, ∃ t, execCalLoad a0 a1 s = .next t ∧ t.kept = s.kept := by
  intro a0 a1 s
  unfold execCalLoad
  repeat' first
    | refine ⟨_, rfl, ?_⟩
    | simp only [↓calBody_kept]
    | refine (mailbox_kept _ _ _ _ _ (fun _ _ => ?_)).trans ?_
    | split

theorem execFloorplanRead_kept : ∀ a0 a1 s, ∃ t, execFloorplanRead a0 a1 s = .next t ∧ t.kept = s.kept := by
  intro a0 a1 s
  unfold execFloorplanRead
  repeat' first
    | refine ⟨_, rfl, ?_⟩
    | simp only [↓floorplanBody_kept]
    | refine (mailbox_kept _ _ _ _ _ (fun _ _ => ?_)).trans ?_
    | split

theorem execCalWaitExpiry_kept : ∀ s, ∃ t, execCalWaitExpiry s = .next t ∧ t.kept = s.kept := by
  intro s
  exact ⟨_, rfl, by simp only [↓calWaitEnd_kept]⟩

theorem execBistComplete_kept : ∀ a0 s, ∃ t, execBistComplete a0 s = .next t ∧ t.kept = s.kept := by
  intro a0 s
  unfold execBistComplete
  split <;> exact ⟨_, rfl, by first | rfl | simp only [↓bistEnd_kept]⟩

theorem execFastPathDone_kept : ∀ s, ∃ t, execFastPathDone s = .next t ∧ t.kept = s.kept := by
  intro s
  unfold execFastPathDone
  repeat' first
    | refine ⟨_, rfl, ?_⟩
    | simp only [↓fastEnd_kept]
    | split

theorem execInletEnClose_kept : ∀ s, ∃ t, execInletEnClose s = .next t ∧ t.kept = s.kept := by
  intro s
  exact ⟨_, rfl, by simp only [kept_mk, kept_fold]⟩

theorem execInletEnOpen_kept : ∀ s, ∃ t, execInletEnOpen s = .next t ∧ t.kept = s.kept := by
  intro s
  exact ⟨_, rfl, by simp only [↓powerLost_kept, kept_mk, kept_fold]⟩

theorem execHotSwapRampDone_kept : ∀ s, ∃ t, execHotSwapRampDone s = .next t ∧ t.kept = s.kept := by
  intro s
  unfold execHotSwapRampDone
  split <;> exact ⟨_, rfl, by first | rfl | simp only [kept_mk, kept_fold]⟩

theorem execDebugUnlockNonce_kept : ∀ a0 a1 s, ∃ t, execDebugUnlockNonce a0 a1 s = .next t ∧ t.kept = s.kept := by
  intro a0 a1 s
  unfold execDebugUnlockNonce
  repeat' first
    | refine ⟨_, rfl, ?_⟩
    | simp only [↓debugNonce_kept]
    | refine (mailbox_kept _ _ _ _ _ (fun _ _ => ?_)).trans ?_
    | split

theorem execDebugUnlockGrant_kept : ∀ a0 a1 s, ∃ t, execDebugUnlockGrant a0 a1 s = .next t ∧ t.kept = s.kept := by
  intro a0 a1 s
  unfold execDebugUnlockGrant
  repeat' first
    | refine ⟨_, rfl, ?_⟩
    | simp only [↓debugGrant_kept]
    | refine (mailbox_kept _ _ _ _ _ (fun _ _ => ?_)).trans ?_
    | split

theorem execClockSourceSelect_kept : ∀ a0 a1 s, ∃ t, execClockSourceSelect a0 a1 s = .next t ∧ t.kept = s.kept := by
  intro a0 a1 s
  unfold execClockSourceSelect
  repeat' first
    | refine ⟨_, rfl, ?_⟩
    | simp only [↓clockSelectBody_kept]
    | refine (mailbox_kept _ _ _ _ _ (fun _ _ => ?_)).trans ?_
    | split

theorem execClockSelectTimeout_kept : ∀ s, ∃ t, execClockSelectTimeout s = .next t ∧ t.kept = s.kept := by
  intro s
  unfold execClockSelectTimeout
  repeat' first
    | refine ⟨_, rfl, ?_⟩
    | simp only [↓finish_kept, ↓selectReady_kept, kept_mk, kept_fold]
    | split

theorem execRefLost_kept : ∀ a0 s, ∃ t, execRefLost a0 s = .next t ∧ t.kept = s.kept := by
  intro a0 s
  unfold execRefLost
  split <;> exact ⟨_, rfl, by first | rfl | simp only [↓loseSource_kept]⟩

theorem execReflocFailed_kept : ∀ s, ∃ t, execReflocFailed s = .next t ∧ t.kept = s.kept := by
  intro s
  unfold execReflocFailed
  repeat' first
    | refine ⟨_, rfl, ?_⟩
    | simp only [↓unitRestart_kept, ↓raiseEv_kept, ↓loseSource_kept, kept_mk, kept_fold]
    | split

theorem execOscQualified_kept : ∀ a0 s, ∃ t, execOscQualified a0 s = .next t ∧ t.kept = s.kept := by
  intro a0 s
  unfold execOscQualified
  repeat' first
    | refine ⟨_, rfl, ?_⟩
    | simp only [↓unitEnd_kept, ↓sourceQualified_kept]
    | split

theorem execOscNotStable_kept : ∀ a0 s, ∃ t, execOscNotStable a0 s = .next t ∧ t.kept = s.kept := by
  intro a0 s
  unfold execOscNotStable
  repeat' first
    | refine ⟨_, rfl, ?_⟩
    | simp only [↓unitEnd_kept, ↓raiseEv_kept, kept_mk, kept_fold]
    | split

theorem execRefReturn_kept : ∀ s, ∃ t, execRefReturn s = .next t ∧ t.kept = s.kept := by
  intro s
  unfold execRefReturn
  split <;> exact ⟨_, rfl, by first | rfl | simp only [↓unitRestart_kept, kept_mk, kept_fold]⟩

theorem execMeshLock_kept : ∀ s, ∃ t, execMeshLock s = .next t ∧ t.kept = s.kept := by
  intro s
  unfold execMeshLock
  repeat' first
    | refine ⟨_, rfl, ?_⟩
    | simp only [↓leaveHold_kept, kept_mk, kept_fold]
    | split

theorem execNop_kept : ∀ a0 s, ∃ t, execNop a0 s = .next t ∧ t.kept = s.kept := by
  intro a0 s
  unfold execNop
  repeat' first
    | refine ⟨_, rfl, ?_⟩
    | simp only [↓goNext_kept]
    | refine (cueStep_kept _ _ _ _ (fun _ _ => ?_)).trans ?_
    | split

theorem execAdd_kept : ∀ a0 s, ∃ t, execAdd a0 s = .next t ∧ t.kept = s.kept := by
  intro a0 s
  unfold execAdd
  repeat' first
    | refine ⟨_, rfl, ?_⟩
    | simp only [↓actGG_kept]
    | refine (cueStep_kept _ _ _ _ (fun _ _ => ?_)).trans ?_
    | split

theorem execSub_kept : ∀ a0 s, ∃ t, execSub a0 s = .next t ∧ t.kept = s.kept := by
  intro a0 s
  unfold execSub
  repeat' first
    | refine ⟨_, rfl, ?_⟩
    | simp only [↓actGG_kept]
    | refine (cueStep_kept _ _ _ _ (fun _ _ => ?_)).trans ?_
    | split

theorem execAnd_kept : ∀ a0 s, ∃ t, execAnd a0 s = .next t ∧ t.kept = s.kept := by
  intro a0 s
  unfold execAnd
  repeat' first
    | refine ⟨_, rfl, ?_⟩
    | simp only [↓actGG_kept]
    | refine (cueStep_kept _ _ _ _ (fun _ _ => ?_)).trans ?_
    | split

theorem execOr_kept : ∀ a0 s, ∃ t, execOr a0 s = .next t ∧ t.kept = s.kept := by
  intro a0 s
  unfold execOr
  repeat' first
    | refine ⟨_, rfl, ?_⟩
    | simp only [↓actGG_kept]
    | refine (cueStep_kept _ _ _ _ (fun _ _ => ?_)).trans ?_
    | split

theorem execXor_kept : ∀ a0 s, ∃ t, execXor a0 s = .next t ∧ t.kept = s.kept := by
  intro a0 s
  unfold execXor
  repeat' first
    | refine ⟨_, rfl, ?_⟩
    | simp only [↓actGG_kept]
    | refine (cueStep_kept _ _ _ _ (fun _ _ => ?_)).trans ?_
    | split

theorem execShl_kept : ∀ a0 s, ∃ t, execShl a0 s = .next t ∧ t.kept = s.kept := by
  intro a0 s
  unfold execShl
  repeat' first
    | refine ⟨_, rfl, ?_⟩
    | simp only [↓actGG_kept]
    | refine (cueStep_kept _ _ _ _ (fun _ _ => ?_)).trans ?_
    | split

theorem execShr_kept : ∀ a0 s, ∃ t, execShr a0 s = .next t ∧ t.kept = s.kept := by
  intro a0 s
  unfold execShr
  repeat' first
    | refine ⟨_, rfl, ?_⟩
    | simp only [↓actGG_kept]
    | refine (cueStep_kept _ _ _ _ (fun _ _ => ?_)).trans ?_
    | split

theorem execSra_kept : ∀ a0 s, ∃ t, execSra a0 s = .next t ∧ t.kept = s.kept := by
  intro a0 s
  unfold execSra
  repeat' first
    | refine ⟨_, rfl, ?_⟩
    | simp only [↓actGG_kept]
    | refine (cueStep_kept _ _ _ _ (fun _ _ => ?_)).trans ?_
    | split

theorem execMul_kept : ∀ a0 s, ∃ t, execMul a0 s = .next t ∧ t.kept = s.kept := by
  intro a0 s
  unfold execMul
  repeat' first
    | refine ⟨_, rfl, ?_⟩
    | simp only [↓actGG_kept]
    | refine (cueStep_kept _ _ _ _ (fun _ _ => ?_)).trans ?_
    | split

theorem execSlt_kept : ∀ a0 s, ∃ t, execSlt a0 s = .next t ∧ t.kept = s.kept := by
  intro a0 s
  unfold execSlt
  repeat' first
    | refine ⟨_, rfl, ?_⟩
    | simp only [↓actGG_kept]
    | refine (cueStep_kept _ _ _ _ (fun _ _ => ?_)).trans ?_
    | split

theorem execSltu_kept : ∀ a0 s, ∃ t, execSltu a0 s = .next t ∧ t.kept = s.kept := by
  intro a0 s
  unfold execSltu
  repeat' first
    | refine ⟨_, rfl, ?_⟩
    | simp only [↓actGG_kept]
    | refine (cueStep_kept _ _ _ _ (fun _ _ => ?_)).trans ?_
    | split

theorem execMin_kept : ∀ a0 s, ∃ t, execMin a0 s = .next t ∧ t.kept = s.kept := by
  intro a0 s
  unfold execMin
  repeat' first
    | refine ⟨_, rfl, ?_⟩
    | simp only [↓actGG_kept]
    | refine (cueStep_kept _ _ _ _ (fun _ _ => ?_)).trans ?_
    | split

theorem execMax_kept : ∀ a0 s, ∃ t, execMax a0 s = .next t ∧ t.kept = s.kept := by
  intro a0 s
  unfold execMax
  repeat' first
    | refine ⟨_, rfl, ?_⟩
    | simp only [↓actGG_kept]
    | refine (cueStep_kept _ _ _ _ (fun _ _ => ?_)).trans ?_
    | split

theorem execAddi_kept : ∀ a0 s, ∃ t, execAddi a0 s = .next t ∧ t.kept = s.kept := by
  intro a0 s
  unfold execAddi
  repeat' first
    | refine ⟨_, rfl, ?_⟩
    | simp only [↓actGI_kept]
    | refine (cueStep_kept _ _ _ _ (fun _ _ => ?_)).trans ?_
    | split

theorem execAndi_kept : ∀ a0 s, ∃ t, execAndi a0 s = .next t ∧ t.kept = s.kept := by
  intro a0 s
  unfold execAndi
  repeat' first
    | refine ⟨_, rfl, ?_⟩
    | simp only [↓actGI_kept]
    | refine (cueStep_kept _ _ _ _ (fun _ _ => ?_)).trans ?_
    | split

theorem execOri_kept : ∀ a0 s, ∃ t, execOri a0 s = .next t ∧ t.kept = s.kept := by
  intro a0 s
  unfold execOri
  repeat' first
    | refine ⟨_, rfl, ?_⟩
    | simp only [↓actGI_kept]
    | refine (cueStep_kept _ _ _ _ (fun _ _ => ?_)).trans ?_
    | split

theorem execXori_kept : ∀ a0 s, ∃ t, execXori a0 s = .next t ∧ t.kept = s.kept := by
  intro a0 s
  unfold execXori
  repeat' first
    | refine ⟨_, rfl, ?_⟩
    | simp only [↓actGI_kept]
    | refine (cueStep_kept _ _ _ _ (fun _ _ => ?_)).trans ?_
    | split

theorem execShli_kept : ∀ a0 s, ∃ t, execShli a0 s = .next t ∧ t.kept = s.kept := by
  intro a0 s
  unfold execShli
  repeat' first
    | refine ⟨_, rfl, ?_⟩
    | simp only [↓actGI_kept]
    | refine (cueStep_kept _ _ _ _ (fun _ _ => ?_)).trans ?_
    | split

theorem execShri_kept : ∀ a0 s, ∃ t, execShri a0 s = .next t ∧ t.kept = s.kept := by
  intro a0 s
  unfold execShri
  repeat' first
    | refine ⟨_, rfl, ?_⟩
    | simp only [↓actGI_kept]
    | refine (cueStep_kept _ _ _ _ (fun _ _ => ?_)).trans ?_
    | split

theorem execSrai_kept : ∀ a0 s, ∃ t, execSrai a0 s = .next t ∧ t.kept = s.kept := by
  intro a0 s
  unfold execSrai
  repeat' first
    | refine ⟨_, rfl, ?_⟩
    | simp only [↓actGI_kept]
    | refine (cueStep_kept _ _ _ _ (fun _ _ => ?_)).trans ?_
    | split

theorem execSlti_kept : ∀ a0 s, ∃ t, execSlti a0 s = .next t ∧ t.kept = s.kept := by
  intro a0 s
  unfold execSlti
  repeat' first
    | refine ⟨_, rfl, ?_⟩
    | simp only [↓actGI_kept]
    | refine (cueStep_kept _ _ _ _ (fun _ _ => ?_)).trans ?_
    | split

theorem execLui_kept : ∀ a0 s, ∃ t, execLui a0 s = .next t ∧ t.kept = s.kept := by
  intro a0 s
  unfold execLui
  repeat' first
    | refine ⟨_, rfl, ?_⟩
    | simp only [↓actG_kept]
    | refine (cueStep_kept _ _ _ _ (fun _ _ => ?_)).trans ?_
    | split

theorem execMovs_kept : ∀ a0 s, ∃ t, execMovs a0 s = .next t ∧ t.kept = s.kept := by
  intro a0 s
  unfold execMovs
  repeat' first
    | refine ⟨_, rfl, ?_⟩
    | simp only [↓actG_kept]
    | refine (cueStep_kept _ _ _ _ (fun _ _ => ?_)).trans ?_
    | split

theorem execRdctr_kept : ∀ a0 s, ∃ t, execRdctr a0 s = .next t ∧ t.kept = s.kept := by
  intro a0 s
  unfold execRdctr
  repeat' first
    | refine ⟨_, rfl, ?_⟩
    | simp only [↓actG_kept]
    | refine (cueStep_kept _ _ _ _ (fun _ _ => ?_)).trans ?_
    | split

theorem execRdccb_kept : ∀ a0 s, ∃ t, execRdccb a0 s = .next t ∧ t.kept = s.kept := by
  intro a0 s
  unfold execRdccb
  repeat' first
    | refine ⟨_, rfl, ?_⟩
    | simp only [↓actRdccb_kept]
    | refine (cueStep_kept _ _ _ _ (fun _ _ => ?_)).trans ?_
    | split

theorem execQstat_kept : ∀ a0 s, ∃ t, execQstat a0 s = .next t ∧ t.kept = s.kept := by
  intro a0 s
  unfold execQstat
  repeat' first
    | refine ⟨_, rfl, ?_⟩
    | simp only [↓actQstat_kept]
    | refine (cueStep_kept _ _ _ _ (fun _ _ => ?_)).trans ?_
    | split

theorem execLd_kept : ∀ a0 s, ∃ t, execLd a0 s = .next t ∧ t.kept = s.kept := by
  intro a0 s
  unfold execLd
  repeat' first
    | refine ⟨_, rfl, ?_⟩
    | simp only [↓actLd_kept]
    | refine (cueStep_kept _ _ _ _ (fun _ _ => ?_)).trans ?_
    | split

theorem execSt_kept : ∀ a0 s, ∃ t, execSt a0 s = .next t ∧ t.kept = s.kept := by
  intro a0 s
  unfold execSt
  repeat' first
    | refine ⟨_, rfl, ?_⟩
    | simp only [↓actSt_kept]
    | refine (cueStep_kept _ _ _ _ (fun _ _ => ?_)).trans ?_
    | split

theorem execCset_kept : ∀ a0 s, ∃ t, execCset a0 s = .next t ∧ t.kept = s.kept := by
  intro a0 s
  unfold execCset
  repeat' first
    | refine ⟨_, rfl, ?_⟩
    | simp only [↓actCtr_kept]
    | refine (cueStep_kept _ _ _ _ (fun _ _ => ?_)).trans ?_
    | split

theorem execCseti_kept : ∀ a0 s, ∃ t, execCseti a0 s = .next t ∧ t.kept = s.kept := by
  intro a0 s
  unfold execCseti
  repeat' first
    | refine ⟨_, rfl, ?_⟩
    | simp only [↓actCtr_kept]
    | refine (cueStep_kept _ _ _ _ (fun _ _ => ?_)).trans ?_
    | split

theorem execCadd_kept : ∀ a0 s, ∃ t, execCadd a0 s = .next t ∧ t.kept = s.kept := by
  intro a0 s
  unfold execCadd
  repeat' first
    | refine ⟨_, rfl, ?_⟩
    | simp only [↓actCtr_kept]
    | refine (cueStep_kept _ _ _ _ (fun _ _ => ?_)).trans ?_
    | split

theorem execSend_kept : ∀ a0 s, ∃ t, execSend a0 s = .next t ∧ t.kept = s.kept := by
  intro a0 s
  unfold execSend
  repeat' first
    | refine ⟨_, rfl, ?_⟩
    | simp only [↓actSend_kept]
    | refine (cueStep_kept _ _ _ _ (fun _ _ => ?_)).trans ?_
    | split

theorem execSendb_kept : ∀ a0 s, ∃ t, execSendb a0 s = .next t ∧ t.kept = s.kept := by
  intro a0 s
  unfold execSendb
  repeat' first
    | refine ⟨_, rfl, ?_⟩
    | simp only [↓actSendb_kept]
    | refine (cueStep_kept _ _ _ _ (fun _ _ => ?_)).trans ?_
    | split

theorem execRecv_kept : ∀ a0 s, ∃ t, execRecv a0 s = .next t ∧ t.kept = s.kept := by
  intro a0 s
  unfold execRecv
  repeat' first
    | refine ⟨_, rfl, ?_⟩
    | simp only [↓actRecv_kept]
    | refine (cueStep_kept _ _ _ _ (fun _ _ => ?_)).trans ?_
    | split

theorem execRecvb_kept : ∀ a0 s, ∃ t, execRecvb a0 s = .next t ∧ t.kept = s.kept := by
  intro a0 s
  unfold execRecvb
  repeat' first
    | refine ⟨_, rfl, ?_⟩
    | simp only [↓actRecvb_kept]
    | refine (cueStep_kept _ _ _ _ (fun _ _ => ?_)).trans ?_
    | split

theorem execEvent_kept : ∀ a0 s, ∃ t, execEvent a0 s = .next t ∧ t.kept = s.kept := by
  intro a0 s
  unfold execEvent
  repeat' first
    | refine ⟨_, rfl, ?_⟩
    | simp only [↓actEvent_kept]
    | refine (cueStep_kept _ _ _ _ (fun _ _ => ?_)).trans ?_
    | split

theorem execBr_kept : ∀ a0 s, ∃ t, execBr a0 s = .next t ∧ t.kept = s.kept := by
  intro a0 s
  unfold execBr
  repeat' first
    | refine ⟨_, rfl, ?_⟩
    | simp only [↓goTo_kept, ↓goNext_kept]
    | refine (cueStep_kept _ _ _ _ (fun _ _ => ?_)).trans ?_
    | split

theorem execJmp_kept : ∀ a0 s, ∃ t, execJmp a0 s = .next t ∧ t.kept = s.kept := by
  intro a0 s
  unfold execJmp
  repeat' first
    | refine ⟨_, rfl, ?_⟩
    | simp only [↓goTo_kept]
    | refine (cueStep_kept _ _ _ _ (fun _ _ => ?_)).trans ?_
    | split

theorem execLoop_kept : ∀ a0 s, ∃ t, execLoop a0 s = .next t ∧ t.kept = s.kept := by
  intro a0 s
  unfold execLoop
  repeat' first
    | refine ⟨_, rfl, ?_⟩
    | simp only [↓setCore_kept, ↓goTo_kept, ↓goNext_kept]
    | refine (cueStep_kept _ _ _ _ (fun _ _ => ?_)).trans ?_
    | split

theorem execCwait_kept : ∀ a0 s, ∃ t, execCwait a0 s = .next t ∧ t.kept = s.kept := by
  intro a0 s
  unfold execCwait
  repeat' first
    | refine ⟨_, rfl, ?_⟩
    | simp only [↓actWait_kept]
    | refine (cueStep_kept _ _ _ _ (fun _ _ => ?_)).trans ?_
    | split

theorem execCwaiti_kept : ∀ a0 s, ∃ t, execCwaiti a0 s = .next t ∧ t.kept = s.kept := by
  intro a0 s
  unfold execCwaiti
  repeat' first
    | refine ⟨_, rfl, ?_⟩
    | simp only [↓actWait_kept]
    | refine (cueStep_kept _ _ _ _ (fun _ _ => ?_)).trans ?_
    | split

theorem execCwaitt_kept : ∀ a0 s, ∃ t, execCwaitt a0 s = .next t ∧ t.kept = s.kept := by
  intro a0 s
  unfold execCwaitt
  repeat' first
    | refine ⟨_, rfl, ?_⟩
    | simp only [↓actWaitt_kept]
    | refine (cueStep_kept _ _ _ _ (fun _ _ => ?_)).trans ?_
    | split

theorem execArrive_kept : ∀ a0 s, ∃ t, execArrive a0 s = .next t ∧ t.kept = s.kept := by
  intro a0 s
  unfold execArrive
  repeat' first
    | refine ⟨_, rfl, ?_⟩
    | simp only [↓actArrive_kept]
    | refine (cueStep_kept _ _ _ _ (fun _ _ => ?_)).trans ?_
    | split

theorem execClwait_kept : ∀ a0 s, ∃ t, execClwait a0 s = .next t ∧ t.kept = s.kept := by
  intro a0 s
  unfold execClwait
  repeat' first
    | refine ⟨_, rfl, ?_⟩
    | simp only [↓actClwait_kept]
    | refine (cueStep_kept _ _ _ _ (fun _ _ => ?_)).trans ?_
    | split

theorem execHalt_kept : ∀ a0 s, ∃ t, execHalt a0 s = .next t ∧ t.kept = s.kept := by
  intro a0 s
  unfold execHalt
  repeat' first
    | refine ⟨_, rfl, ?_⟩
    | simp only [↓setCore_kept]
    | refine (cueStep_kept _ _ _ _ (fun _ _ => ?_)).trans ?_
    | split

theorem execFence_kept : ∀ a0 s, ∃ t, execFence a0 s = .next t ∧ t.kept = s.kept := by
  intro a0 s
  unfold execFence
  repeat' first
    | refine ⟨_, rfl, ?_⟩
    | simp only [↓setCore_kept]
    | refine (cueStep_kept _ _ _ _ (fun _ _ => ?_)).trans ?_
    | split

theorem execCwaitSatisfied_kept : ∀ a0 s, ∃ t, execCwaitSatisfied a0 s = .next t ∧ t.kept = s.kept := by
  intro a0 s
  unfold execCwaitSatisfied
  repeat' first
    | refine ⟨_, rfl, ?_⟩
    | simp only [↓goNext_kept, ↓setCore_kept]
    | split

theorem execCwaittDeadline_kept : ∀ a0 s, ∃ t, execCwaittDeadline a0 s = .next t ∧ t.kept = s.kept := by
  intro a0 s
  unfold execCwaittDeadline
  repeat' first
    | refine ⟨_, rfl, ?_⟩
    | simp only [↓goNext_kept, ↓setCore_kept]
    | split

theorem execFenceComplete_kept : ∀ a0 s, ∃ t, execFenceComplete a0 s = .next t ∧ t.kept = s.kept := by
  intro a0 s
  unfold execFenceComplete
  repeat' first
    | refine ⟨_, rfl, ?_⟩
    | simp only [↓cacheFlush_kept, ↓goNext_kept]
    | split

theorem execNoProgress_kept : ∀ a0 s, ∃ t, execNoProgress a0 s = .next t ∧ t.kept = s.kept := by
  intro a0 s
  unfold execNoProgress
  repeat' first
    | refine ⟨_, rfl, ?_⟩
    | simp only [↓coreEv_kept, ↓setCore_kept]
    | split

theorem execCoreHoldOrder_kept : ∀ a0 s, ∃ t, execCoreHoldOrder a0 s = .next t ∧ t.kept = s.kept := by
  intro a0 s
  unfold execCoreHoldOrder
  repeat' first
    | refine ⟨_, rfl, ?_⟩
    | simp only [↓setCore_kept]
    | split

theorem execDmaRow_kept : ∀ a0 s, ∃ t, execDmaRow a0 s = .next t ∧ t.kept = s.kept := by
  intro a0 s
  unfold execDmaRow
  repeat' first
    | refine ⟨_, rfl, ?_⟩
    | simp only [↓dmaRow_kept]
    | split

theorem execDmaDescriptorComplete_kept : ∀ a0 s, ∃ t, execDmaDescriptorComplete a0 s = .next t ∧ t.kept = s.kept := by
  intro a0 s
  unfold execDmaDescriptorComplete
  repeat' first
    | refine ⟨_, rfl, ?_⟩
    | simp only [↓dmaComplete_kept]
    | split

theorem execDmaDeadline_kept : ∀ a0 s, ∃ t, execDmaDeadline a0 s = .next t ∧ t.kept = s.kept := by
  intro a0 s
  unfold execDmaDeadline
  repeat' first
    | refine ⟨_, rfl, ?_⟩
    | simp only [↓dmaExpire_kept, ↓freshIdx_kept]
    | split

theorem execFhello_kept : ∀ a0 s, ∃ t, execFhello a0 s = .next t ∧ t.kept = s.kept := by
  intro a0 s
  unfold execFhello
  repeat' first
    | refine ⟨_, rfl, ?_⟩
    | simp only [↓fhelloIn_kept]
    | refine (fabRow_kept _ _ _ _ (fun _ _ => ?_)).trans ?_
    | split

theorem execFhelloRepeat_kept : ∀ a0 s, ∃ t, execFhelloRepeat a0 s = .next t ∧ t.kept = s.kept := by
  intro a0 s
  exact ⟨_, rfl, by simp only [↓sendFhello_kept]⟩

theorem execDiscReq_kept : ∀ a0 s, ∃ t, execDiscReq a0 s = .next t ∧ t.kept = s.kept := by
  intro a0 s
  unfold execDiscReq
  repeat' first
    | refine ⟨_, rfl, ?_⟩
    | simp only [↓discWalk_kept]
    | refine (fabRow_kept _ _ _ _ (fun _ _ => ?_)).trans ?_
    | split

theorem execDiscRsp_kept : ∀ a0 s, ∃ t, execDiscRsp a0 s = .next t ∧ t.kept = s.kept := by
  intro a0 s
  unfold execDiscRsp
  repeat' first
    | refine ⟨_, rfl, ?_⟩
    | simp only [↓discReturn_kept]
    | refine (fabRow_kept _ _ _ _ (fun _ _ => ?_)).trans ?_
    | split

theorem execIdAssign_kept : ∀ a0 s, ∃ t, execIdAssign a0 s = .next t ∧ t.kept = s.kept := by
  intro a0 s
  unfold execIdAssign
  repeat' first
    | refine ⟨_, rfl, ?_⟩
    | simp only [↓discWalk_kept]
    | refine (fabRow_kept _ _ _ _ (fun _ _ => ?_)).trans ?_
    | split

theorem execIdAssignAck_kept : ∀ a0 s, ∃ t, execIdAssignAck a0 s = .next t ∧ t.kept = s.kept := by
  intro a0 s
  unfold execIdAssignAck
  repeat' first
    | refine ⟨_, rfl, ?_⟩
    | simp only [↓discReturn_kept]
    | refine (fabRow_kept _ _ _ _ (fun _ _ => ?_)).trans ?_
    | split

theorem execOriginWrite_kept : ∀ a0 s, ∃ t, execOriginWrite a0 s = .next t ∧ t.kept = s.kept := by
  intro a0 s
  unfold execOriginWrite
  repeat' first
    | refine ⟨_, rfl, ?_⟩
    | simp only [↓originWrite_kept]
    | refine (withInbox_kept _ _ _ _ (fun _ _ _ => ?_)).trans ?_
    | split

theorem execWwrite_kept : ∀ a0 s, ∃ t, execWwrite a0 s = .next t ∧ t.kept = s.kept := by
  intro a0 s
  unfold execWwrite
  repeat' first
    | refine ⟨_, rfl, ?_⟩
    | simp only [↓routeWrite_kept]
    | refine (fabRow_kept _ _ _ _ (fun _ _ => ?_)).trans ?_
    | split

theorem execWack_kept : ∀ a0 s, ∃ t, execWack a0 s = .next t ∧ t.kept = s.kept := by
  intro a0 s
  unfold execWack
  repeat' first
    | refine ⟨_, rfl, ?_⟩
    | simp only [↓routeWack_kept]
    | refine (fabRow_kept _ _ _ _ (fun _ _ => ?_)).trans ?_
    | split

theorem execFabricTimeout_kept : ∀ a0 a1 s, ∃ t, execFabricTimeout a0 a1 s = .next t ∧ t.kept = s.kept := by
  intro a0 a1 s
  unfold execFabricTimeout
  split <;> exact ⟨_, rfl, by first | rfl | simp only [↓outTimeout_kept]⟩

theorem execWindowCloseDone_kept : ∀ a0 s, ∃ t, execWindowCloseDone a0 s = .next t ∧ t.kept = s.kept := by
  intro a0 s
  unfold execWindowCloseDone
  repeat' first
    | refine ⟨_, rfl, ?_⟩
    | simp only [↓windowFree_kept, ↓finish_kept, kept_mk, kept_fold]
    | refine (foldl_kept _ (fun _ _ => ?_) _ _).trans ?_
    | split

theorem execStoryboardLoad_kept : ∀ a0 a1 s, ∃ t, execStoryboardLoad a0 a1 s = .next t ∧ t.kept = s.kept := by
  intro a0 a1 s
  unfold execStoryboardLoad
  repeat' first
    | refine ⟨_, rfl, ?_⟩
    | simp only [↓loadBegin_kept]
    | refine (mailbox_kept _ _ _ _ _ (fun _ _ => ?_)).trans ?_
    | split

theorem execStoryboardLoadDone_kept : ∀ a0 a1 s, ∃ t, execStoryboardLoadDone a0 a1 s = .next t ∧ t.kept = s.kept := by
  intro a0 a1 s
  exact ⟨_, rfl, by simp only [↓loadEnd_kept]⟩

theorem execSceneRun_kept : ∀ a0 a1 s, ∃ t, execSceneRun a0 a1 s = .next t ∧ t.kept = s.kept := by
  intro a0 a1 s
  unfold execSceneRun
  repeat' first
    | refine ⟨_, rfl, ?_⟩
    | simp only [↓runBegin_kept]
    | refine (mailbox_kept _ _ _ _ _ (fun _ _ => ?_)).trans ?_
    | split

theorem execSceneRunResume_kept : ∀ a0 a1 s, ∃ t, execSceneRunResume a0 a1 s = .next t ∧ t.kept = s.kept := by
  intro a0 a1 s
  unfold execSceneRunResume
  repeat' first
    | refine ⟨_, rfl, ?_⟩
    | simp only [↓resumeRun_kept]
    | refine (mailbox_kept _ _ _ _ _ (fun _ _ => ?_)).trans ?_
    | split

theorem execSceneHalt_kept : ∀ a0 a1 s, ∃ t, execSceneHalt a0 a1 s = .next t ∧ t.kept = s.kept := by
  intro a0 a1 s
  unfold execSceneHalt
  repeat' first
    | refine ⟨_, rfl, ?_⟩
    | simp only [↓haltCmd_kept]
    | refine (mailbox_kept _ _ _ _ _ (fun _ _ => ?_)).trans ?_
    | split

theorem execKeyframeTake_kept : ∀ a0 a1 s, ∃ t, execKeyframeTake a0 a1 s = .next t ∧ t.kept = s.kept := by
  intro a0 a1 s
  unfold execKeyframeTake
  repeat' first
    | refine ⟨_, rfl, ?_⟩
    | simp only [↓takeCmd_kept]
    | refine (mailbox_kept _ _ _ _ _ (fun _ _ => ?_)).trans ?_
    | split

theorem execKeyframeTakeDone_kept : ∀ a0 a1 s, ∃ t, execKeyframeTakeDone a0 a1 s = .next t ∧ t.kept = s.kept := by
  intro a0 a1 s
  exact ⟨_, rfl, by simp only [↓takeEnd_kept]⟩

theorem execKeyframeRelease_kept : ∀ a0 a1 s, ∃ t, execKeyframeRelease a0 a1 s = .next t ∧ t.kept = s.kept := by
  intro a0 a1 s
  unfold execKeyframeRelease
  repeat' first
    | refine ⟨_, rfl, ?_⟩
    | simp only [↓releaseCmd_kept]
    | refine (mailbox_kept _ _ _ _ _ (fun _ _ => ?_)).trans ?_
    | split

theorem execReplay_kept : ∀ a0 a1 s, ∃ t, execReplay a0 a1 s = .next t ∧ t.kept = s.kept := by
  intro a0 a1 s
  unfold execReplay
  repeat' first
    | refine ⟨_, rfl, ?_⟩
    | simp only [↓replayCmd_kept]
    | refine (mailbox_kept _ _ _ _ _ (fun _ _ => ?_)).trans ?_
    | split

theorem execKeyframeRestoreDone_kept : ∀ a0 a1 s, ∃ t, execKeyframeRestoreDone a0 a1 s = .next t ∧ t.kept = s.kept := by
  intro a0 a1 s
  exact ⟨_, rfl, by simp only [↓restoreEnd_kept]⟩

theorem execRemap_kept : ∀ a0 a1 s, ∃ t, execRemap a0 a1 s = .next t ∧ t.kept = s.kept := by
  intro a0 a1 s
  unfold execRemap
  repeat' first
    | refine ⟨_, rfl, ?_⟩
    | simp only [↓remapCmd_kept]
    | refine (mailbox_kept _ _ _ _ _ (fun _ _ => ?_)).trans ?_
    | split

theorem execSceneAdmission_kept : ∀ a0 s, ∃ t, execSceneAdmission a0 s = .next t ∧ t.kept = s.kept := by
  intro a0 s
  exact ⟨_, rfl, by simp only [↓admitScene_kept]⟩

theorem execAdmissionCopyDone_kept : ∀ a0 s, ∃ t, execAdmissionCopyDone a0 s = .next t ∧ t.kept = s.kept := by
  intro a0 s
  unfold execAdmissionCopyDone
  repeat' first
    | refine ⟨_, rfl, ?_⟩
    | simp only [↓copyWork_kept, ↓admitAccept_kept, ↓copyDrop_kept, kept_mk, kept_fold]
    | refine (copyWork_kept' (by assumption)).trans ?_
    | refine (foldl_kept _ (fun _ _ => ?_) _ _).trans ?_
    | refine (foldl_kept1 _ (fun _ _ => ?_) _ _).trans ?_
    | split

theorem execAdmissionCopyFailed_kept : ∀ a0 a1 s, ∃ t, execAdmissionCopyFailed a0 a1 s = .next t ∧ t.kept = s.kept := by
  intro a0 a1 s
  unfold execAdmissionCopyFailed
  split <;> exact ⟨_, rfl, by first | rfl | simp only [↓admitFail_kept]⟩

theorem execCoreSceneStart_kept : ∀ a0 s, ∃ t, execCoreSceneStart a0 s = .next t ∧ t.kept = s.kept := by
  intro a0 s
  exact ⟨_, rfl, by simp only [↓sceneStartCore_kept]⟩

theorem execHaltComplete_kept : ∀ a0 s, ∃ t, execHaltComplete a0 s = .next t ∧ t.kept = s.kept := by
  intro a0 s
  unfold execHaltComplete
  repeat' first
    | refine ⟨_, rfl, ?_⟩
    | simp only [↓cacheFlush_kept, ↓sendMarks_kept, ↓setCore_kept, ↓noteProgress_kept, ↓sceneCheck_kept]
    | split

theorem execPortConfig_kept : ∀ a0 a1 s, ∃ t, execPortConfig a0 a1 s = .next t ∧ t.kept = s.kept := by
  intro a0 a1 s
  unfold execPortConfig
  repeat' first
    | refine ⟨_, rfl, ?_⟩
    | simp only [↓portBody_kept]
    | refine (mailbox_kept _ _ _ _ _ (fun _ _ => ?_)).trans ?_
    | split

theorem execPortConfigFabricForm_kept : ∀ a0 a1 s, ∃ t, execPortConfigFabricForm a0 a1 s = .next t ∧ t.kept = s.kept := by
  intro a0 a1 s
  unfold execPortConfigFabricForm
  repeat' first
    | refine ⟨_, rfl, ?_⟩
    | simp only [↓fabricFormBody_kept]
    | refine (mailbox_kept _ _ _ _ _ (fun _ _ => ?_)).trans ?_
    | split

theorem execRouteTableWrite_kept : ∀ a0 a1 s, ∃ t, execRouteTableWrite a0 a1 s = .next t ∧ t.kept = s.kept := by
  intro a0 a1 s
  unfold execRouteTableWrite
  repeat' first
    | refine ⟨_, rfl, ?_⟩
    | simp only [↓routeBody_kept]
    | refine (mailbox_kept _ _ _ _ _ (fun _ _ => ?_)).trans ?_
    | split

theorem execProbe_kept : ∀ a0 a1 s, ∃ t, execProbe a0 a1 s = .next t ∧ t.kept = s.kept := by
  intro a0 a1 s
  unfold execProbe
  repeat' first
    | refine ⟨_, rfl, ?_⟩
    | simp only [↓walkBody_kept]
    | refine (mailbox_kept _ _ _ _ _ (fun _ _ => ?_)).trans ?_
    | split

theorem execAssign_kept : ∀ a0 a1 s, ∃ t, execAssign a0 a1 s = .next t ∧ t.kept = s.kept := by
  intro a0 a1 s
  unfold execAssign
  repeat' first
    | refine ⟨_, rfl, ?_⟩
    | simp only [↓walkBody_kept]
    | refine (mailbox_kept _ _ _ _ _ (fun _ _ => ?_)).trans ?_
    | split

theorem execSetLocal_kept : ∀ a0 a1 s, ∃ t, execSetLocal a0 a1 s = .next t ∧ t.kept = s.kept := by
  intro a0 a1 s
  unfold execSetLocal
  repeat' first
    | refine ⟨_, rfl, ?_⟩
    | simp only [↓localBody_kept]
    | refine (mailbox_kept _ _ _ _ _ (fun _ _ => ?_)).trans ?_
    | split

theorem execClearLocal_kept : ∀ a0 a1 s, ∃ t, execClearLocal a0 a1 s = .next t ∧ t.kept = s.kept := by
  intro a0 a1 s
  unfold execClearLocal
  repeat' first
    | refine ⟨_, rfl, ?_⟩
    | simp only [↓localBody_kept]
    | refine (mailbox_kept _ _ _ _ _ (fun _ _ => ?_)).trans ?_
    | split

theorem execDiscoveryTimeout_kept : ∀ a0 s, ∃ t, execDiscoveryTimeout a0 s = .next t ∧ t.kept = s.kept := by
  intro a0 s
  unfold execDiscoveryTimeout
  repeat' first
    | refine ⟨_, rfl, ?_⟩
    | simp only [↓finish_kept, kept_mk, kept_fold]
    | split

theorem execWindowOpen_kept : ∀ a0 a1 s, ∃ t, execWindowOpen a0 a1 s = .next t ∧ t.kept = s.kept := by
  intro a0 a1 s
  unfold execWindowOpen
  repeat' first
    | refine ⟨_, rfl, ?_⟩
    | simp only [↓windowOpenBody_kept]
    | refine (mailbox_kept _ _ _ _ _ (fun _ _ => ?_)).trans ?_
    | split

theorem execWindowClose_kept : ∀ a0 a1 s, ∃ t, execWindowClose a0 a1 s = .next t ∧ t.kept = s.kept := by
  intro a0 a1 s
  unfold execWindowClose
  repeat' first
    | refine ⟨_, rfl, ?_⟩
    | simp only [↓windowCloseBody_kept]
    | refine (mailbox_kept _ _ _ _ _ (fun _ _ => ?_)).trans ?_
    | split

theorem execWeightTileLoadStart_kept : ∀ a0 s, ∃ t, execWeightTileLoadStart a0 s = .next t ∧ t.kept = s.kept := by
  intro a0 s
  unfold execWeightTileLoadStart
  split <;> exact ⟨_, rfl, by first | rfl | simp only [↓loadStart_kept, ↓loadSecond_kept]⟩

theorem execWeightTileResident_kept : ∀ a0 s, ∃ t, execWeightTileResident a0 s = .next t ∧ t.kept = s.kept := by
  intro a0 s
  unfold execWeightTileResident
  repeat' first
    | refine ⟨_, rfl, ?_⟩
    | simp only [↓makeResident_kept]
    | refine (loadBytes_kept' (by assumption)).trans ?_
    | split

theorem execMxTileViolation_kept : ∀ a0 s, ∃ t, execMxTileViolation a0 s = .next t ∧ t.kept = s.kept := by
  intro a0 s
  unfold execMxTileViolation
  repeat' first
    | refine ⟨_, rfl, ?_⟩
    | simp only [↓mxViolate_kept]
    | split

theorem execMxPass_kept : ∀ a0 s, ∃ t, execMxPass a0 s = .next t ∧ t.kept = s.kept := by
  intro a0 s
  unfold execMxPass
  repeat' first
    | refine ⟨_, rfl, ?_⟩
    | simp only [↓mxWork_kept]
    | refine (mxFeed_kept' (by assumption)).trans ?_
    | split

theorem execGatherRowDispatch_kept : ∀ a0 s, ∃ t, execGatherRowDispatch a0 s = .next t ∧ t.kept = s.kept := by
  intro a0 s
  unfold execGatherRowDispatch
  repeat' first
    | refine ⟨_, rfl, ?_⟩
    | simp only [↓mxWork_kept, ↓setCore_kept]
    | refine (mxFeed_kept' (by assumption)).trans ?_
    | split

theorem execMxRetake_kept : ∀ a0 a1 a2 s, ∃ t, execMxRetake a0 a1 a2 s = .next t ∧ t.kept = s.kept := by
  intro a0 a1 a2 s
  unfold execMxRetake
  repeat' first
    | refine ⟨_, rfl, ?_⟩
    | simp only [↓mxRetake_kept]
    | refine (mxFeed_kept' (by assumption)).trans ?_
    | split

theorem execGatherRetake_kept : ∀ a0 a1 a2 s, ∃ t, execGatherRetake a0 a1 a2 s = .next t ∧ t.kept = s.kept := by
  intro a0 a1 a2 s
  unfold execGatherRetake
  repeat' first
    | refine ⟨_, rfl, ?_⟩
    | simp only [↓mxRetake_kept, ↓setCore_kept]
    | refine (mxFeed_kept' (by assumption)).trans ?_
    | split

theorem execMxRowExport_kept : ∀ a0 s, ∃ t, execMxRowExport a0 s = .next t ∧ t.kept = s.kept := by
  intro a0 s
  unfold execMxRowExport
  split <;> exact ⟨_, rfl, by first | rfl | simp only [↓mxExport_kept]⟩

theorem execMxDescriptorComplete_kept : ∀ a0 s, ∃ t, execMxDescriptorComplete a0 s = .next t ∧ t.kept = s.kept := by
  intro a0 s
  unfold execMxDescriptorComplete
  repeat' first
    | refine ⟨_, rfl, ?_⟩
    | simp only [↓mxComplete_kept]
    | split

theorem execFusedVxdStart_kept : ∀ a0 s, ∃ t, execFusedVxdStart a0 s = .next t ∧ t.kept = s.kept := by
  intro a0 s
  unfold execFusedVxdStart
  repeat' first
    | refine ⟨_, rfl, ?_⟩
    | simp only [↓setCore_kept]
    | split

theorem execVxChunk_kept : ∀ a0 s, ∃ t, execVxChunk a0 s = .next t ∧ t.kept = s.kept := by
  intro a0 s
  unfold execVxChunk
  repeat' first
    | refine ⟨_, rfl, ?_⟩
    | simp only [↓vxChunkStep_kept, ↓vxFlush_kept]
    | refine (vxTile_kept' (by assumption)).trans ?_
    | split

theorem execVxTileViolation_kept : ∀ a0 s, ∃ t, execVxTileViolation a0 s = .next t ∧ t.kept = s.kept := by
  intro a0 s
  unfold execVxTileViolation
  repeat' first
    | refine ⟨_, rfl, ?_⟩
    | simp only [↓vxViolate_kept]
    | refine (vxTile_kept' (by assumption)).trans ?_
    | split

theorem execVxDescriptorComplete_kept : ∀ a0 s, ∃ t, execVxDescriptorComplete a0 s = .next t ∧ t.kept = s.kept := by
  intro a0 s
  unfold execVxDescriptorComplete
  repeat' first
    | refine ⟨_, rfl, ?_⟩
    | simp only [↓vxComplete_kept]
    | split

theorem execIssueMx_kept : ∀ a0 s, ∃ t, execIssueMx a0 s = .next t ∧ t.kept = s.kept := by
  intro a0 s
  unfold execIssueMx
  repeat' first
    | refine ⟨_, rfl, ?_⟩
    | simp only [↓actIssueMx_kept]
    | refine (cueStep_kept _ _ _ _ (fun _ _ => ?_)).trans ?_
    | split

theorem execIssueVx_kept : ∀ a0 s, ∃ t, execIssueVx a0 s = .next t ∧ t.kept = s.kept := by
  intro a0 s
  unfold execIssueVx
  repeat' first
    | refine ⟨_, rfl, ?_⟩
    | simp only [↓actIssueVx_kept]
    | refine (cueStep_kept _ _ _ _ (fun _ _ => ?_)).trans ?_
    | split

theorem execIssueDma_kept : ∀ a0 s, ∃ t, execIssueDma a0 s = .next t ∧ t.kept = s.kept := by
  intro a0 s
  unfold execIssueDma
  repeat' first
    | refine ⟨_, rfl, ?_⟩
    | simp only [↓actIssueDma_kept]
    | refine (cueStep_kept _ _ _ _ (fun _ _ => ?_)).trans ?_
    | split

theorem execIssueSlotFree_kept : ∀ a0 s, ∃ t, execIssueSlotFree a0 s = .next t ∧ t.kept = s.kept := by
  intro a0 s
  unfold execIssueSlotFree
  repeat' first
    | refine ⟨_, rfl, ?_⟩
    | simp only [↓retryAtPc_kept]
    | split

theorem execScoreboardWaitEnd_kept : ∀ a0 s, ∃ t, execScoreboardWaitEnd a0 s = .next t ∧ t.kept = s.kept := by
  intro a0 s
  unfold execScoreboardWaitEnd
  repeat' first
    | refine ⟨_, rfl, ?_⟩
    | simp only [↓retryAtPc_kept]
    | split

theorem execEthFrameReceive_kept : ∀ a0 a1 a2 s, ∃ t, execEthFrameReceive a0 a1 a2 s = .next t ∧ t.kept = s.kept := by
  intro a0 a1 a2 s
  unfold execEthFrameReceive
  repeat' first
    | refine ⟨_, rfl, ?_⟩
    | simp only [↓setPort_kept]
    | split

theorem execPfcFrame_kept : ∀ a0 a1 a2 s, ∃ t, execPfcFrame a0 a1 a2 s = .next t ∧ t.kept = s.kept := by
  intro a0 a1 a2 s
  unfold execPfcFrame
  repeat' first
    | refine ⟨_, rfl, ?_⟩
    | simp only [↓setPort_kept, ↓pumpAll_kept, ↓ctlFlush_kept]
    | refine (foldl_kept _ (fun _ _ => ?_) _ _).trans ?_
    | split

theorem execPfcQuantaExpiry_kept : ∀ a0 a1 s, ∃ t, execPfcQuantaExpiry a0 a1 s = .next t ∧ t.kept = s.kept := by
  intro a0 a1 s
  unfold execPfcQuantaExpiry
  repeat' first
    | refine ⟨_, rfl, ?_⟩
    | simp only [↓pumpAll_kept, ↓ctlFlush_kept, ↓setPort_kept]
    | split

theorem execPfcRepeat_kept : ∀ a0 s, ∃ t, execPfcRepeat a0 s = .next t ∧ t.kept = s.kept := by
  intro a0 s
  unfold execPfcRepeat
  split <;> exact ⟨_, rfl, by first | rfl | simp only [↓sendPfc_kept, kept_mk, kept_fold]⟩

theorem execPcsLock_kept : ∀ a0 s, ∃ t, execPcsLock a0 s = .next t ∧ t.kept = s.kept := by
  intro a0 s
  unfold execPcsLock
  repeat' first
    | refine ⟨_, rfl, ?_⟩
    | simp only [↓linkTry_kept, ↓sendInit_kept, ↓setPort_kept]
    | split

theorem execInitRepeat_kept : ∀ a0 s, ∃ t, execInitRepeat a0 s = .next t ∧ t.kept = s.kept := by
  intro a0 s
  unfold execInitRepeat
  repeat' first
    | refine ⟨_, rfl, ?_⟩
    | simp only [↓sendInit_kept]
    | split

theorem execInit_kept : ∀ a0 s, ∃ t, execInit a0 s = .next t ∧ t.kept = s.kept := by
  intro a0 s
  unfold execInit
  repeat' first
    | refine ⟨_, rfl, ?_⟩
    | simp only [↓initIn_kept]
    | refine (withVexaz_kept _ _ _ _ (fun _ _ => ?_)).trans ?_
    | split

theorem execInitAck_kept : ∀ a0 s, ∃ t, execInitAck a0 s = .next t ∧ t.kept = s.kept := by
  intro a0 s
  unfold execInitAck
  repeat' first
    | refine ⟨_, rfl, ?_⟩
    | simp only [↓initAckIn_kept]
    | refine (withVexaz_kept _ _ _ _ (fun _ _ => ?_)).trans ?_
    | split

theorem execVexazData_kept : ∀ a0 s, ∃ t, execVexazData a0 s = .next t ∧ t.kept = s.kept := by
  intro a0 s
  unfold execVexazData
  repeat' first
    | refine ⟨_, rfl, ?_⟩
    | simp only [↓dataIn_kept]
    | refine (withVexaz_kept _ _ _ _ (fun _ _ => ?_)).trans ?_
    | split

theorem execAck_kept : ∀ a0 s, ∃ t, execAck a0 s = .next t ∧ t.kept = s.kept := by
  intro a0 s
  unfold execAck
  repeat' first
    | refine ⟨_, rfl, ?_⟩
    | simp only [↓ackIn_kept]
    | refine (withVexaz_kept _ _ _ _ (fun _ _ => ?_)).trans ?_
    | split

theorem execNak_kept : ∀ a0 s, ∃ t, execNak a0 s = .next t ∧ t.kept = s.kept := by
  intro a0 s
  unfold execNak
  repeat' first
    | refine ⟨_, rfl, ?_⟩
    | simp only [↓nakIn_kept]
    | refine (withVexaz_kept _ _ _ _ (fun _ _ => ?_)).trans ?_
    | split

theorem execIdle_kept : ∀ a0 s, ∃ t, execIdle a0 s = .next t ∧ t.kept = s.kept := by
  intro a0 s
  unfold execIdle
  repeat' first
    | refine ⟨_, rfl, ?_⟩
    | simp only [↓ackIn_kept]
    | refine (withVexaz_kept _ _ _ _ (fun _ _ => ?_)).trans ?_
    | split

theorem execAckDue_kept : ∀ a0 s, ∃ t, execAckDue a0 s = .next t ∧ t.kept = s.kept := by
  intro a0 s
  unfold execAckDue
  repeat' first
    | refine ⟨_, rfl, ?_⟩
    | simp only [↓sendAck_kept]
    | refine (foldl_kept _ (fun _ _ => ?_) _ _).trans ?_
    | split

theorem execIdleDue_kept : ∀ a0 s, ∃ t, execIdleDue a0 s = .next t ∧ t.kept = s.kept := by
  intro a0 s
  unfold execIdleDue
  repeat' first
    | refine ⟨_, rfl, ?_⟩
    | simp only [↓sendAck_kept]
    | split

theorem execRetryTimeout_kept : ∀ a0 a1 s, ∃ t, execRetryTimeout a0 a1 s = .next t ∧ t.kept = s.kept := by
  intro a0 a1 s
  exact ⟨_, rfl, by simp only [↓retryIn_kept]⟩

theorem execLinkDown_kept : ∀ a0 s, ∃ t, execLinkDown a0 s = .next t ∧ t.kept = s.kept := by
  intro a0 s
  unfold execLinkDown
  repeat' first
    | refine ⟨_, rfl, ?_⟩
    | simp only [↓setPort_kept, ↓linkDown_kept, ↓linkReset_kept]
    | split

theorem execStreamPauseIn_kept : ∀ a0 s, ∃ t, execStreamPauseIn a0 s = .next t ∧ t.kept = s.kept := by
  intro a0 s
  unfold execStreamPauseIn
  split <;> exact ⟨_, rfl, by first | rfl | simp only [↓setPin_kept, kept_mk, kept_fold]⟩

theorem execStreamPauseInRelease_kept : ∀ a0 s, ∃ t, execStreamPauseInRelease a0 s = .next t ∧ t.kept = s.kept := by
  intro a0 s
  unfold execStreamPauseInRelease
  repeat' first
    | refine ⟨_, rfl, ?_⟩
    | simp only [↓setPin_kept, ↓pumpAll_kept]
    | refine (foldl_kept _ (fun _ _ => ?_) _ _).trans ?_
    | split

theorem execHello_kept : ∀ a0 a1 s, ∃ t, execHello a0 a1 s = .next t ∧ t.kept = s.kept := by
  intro a0 a1 s
  unfold execHello
  repeat' first
    | refine ⟨_, rfl, ?_⟩
    | simp only [↓helloBody_kept]
    | refine (mailbox_kept _ _ _ _ _ (fun _ _ => ?_)).trans ?_
    | split

theorem execClaimAuthority_kept : ∀ a0 a1 s, ∃ t, execClaimAuthority a0 a1 s = .next t ∧ t.kept = s.kept := by
  intro a0 a1 s
  unfold execClaimAuthority
  repeat' first
    | refine ⟨_, rfl, ?_⟩
    | simp only [↓claimBody_kept]
    | refine (mailbox_kept _ _ _ _ _ (fun _ _ => ?_)).trans ?_
    | split

theorem execReleaseAuthority_kept : ∀ a0 a1 s, ∃ t, execReleaseAuthority a0 a1 s = .next t ∧ t.kept = s.kept := by
  intro a0 a1 s
  unfold execReleaseAuthority
  repeat' first
    | refine ⟨_, rfl, ?_⟩
    | simp only [↓releaseBody_kept]
    | refine (mailbox_kept _ _ _ _ _ (fun _ _ => ?_)).trans ?_
    | split

theorem execCmdDoorbell_kept : ∀ a0 a1 s, ∃ t, execCmdDoorbell a0 a1 s = .next t ∧ t.kept = s.kept := by
  intro a0 a1 s
  unfold execCmdDoorbell
  repeat' first
    | refine ⟨_, rfl, ?_⟩
    | simp only [↓setHost_kept, ↓ringViolation_kept]
    | split

theorem execCplTail_kept : ∀ a0 a1 s, ∃ t, execCplTail a0 a1 s = .next t ∧ t.kept = s.kept := by
  intro a0 a1 s
  unfold execCplTail
  repeat' first
    | refine ⟨_, rfl, ?_⟩
    | simp only [↓setHost_kept, ↓ringViolation_kept, ↓flushCpl_kept]
    | split

theorem execEvtTail_kept : ∀ a0 a1 s, ∃ t, execEvtTail a0 a1 s = .next t ∧ t.kept = s.kept := by
  intro a0 a1 s
  unfold execEvtTail
  repeat' first
    | refine ⟨_, rfl, ?_⟩
    | simp only [↓setHost_kept, ↓ringViolation_kept]
    | split

theorem execRingEnable_kept : ∀ a0 a1 s, ∃ t, execRingEnable a0 a1 s = .next t ∧ t.kept = s.kept := by
  intro a0 a1 s
  unfold execRingEnable
  repeat' first
    | refine ⟨_, rfl, ?_⟩
    | simp only [↓flushCpl_kept, ↓setHost_kept]
    | split

theorem execRingDisable_kept : ∀ a0 a1 s, ∃ t, execRingDisable a0 a1 s = .next t ∧ t.kept = s.kept := by
  intro a0 a1 s
  unfold execRingDisable
  repeat' first
    | refine ⟨_, rfl, ?_⟩
    | simp only [↓flushCpl_kept, ↓setHost_kept]
    | split

theorem execRegisterWrite_kept : ∀ a0 a1 s, ∃ t, execRegisterWrite a0 a1 s = .next t ∧ t.kept = s.kept := by
  intro a0 a1 s
  exact ⟨_, rfl, by simp only [↓writeReg_kept]⟩

theorem execRcRegisterRead_kept : ∀ a0 s, ∃ t, execRcRegisterRead a0 s = .next t ∧ t.kept = s.kept := by
  intro a0 s
  exact ⟨_, rfl, by simp only [↓readReg_kept, ↓emit_kept]⟩

theorem execIrqModTimeout_kept : ∀ a0 a1 s, ∃ t, execIrqModTimeout a0 a1 s = .next t ∧ t.kept = s.kept := by
  intro a0 a1 s
  unfold execIrqModTimeout
  repeat' first
    | refine ⟨_, rfl, ?_⟩
    | simp only [↓fireVector_kept, ↓setHost_kept]
    | split

theorem execHoldingBufferFlush_kept : ∀ a0 s, ∃ t, execHoldingBufferFlush a0 s = .next t ∧ t.kept = s.kept := by
  intro a0 s
  exact ⟨_, rfl, by simp only [↓reportLost_kept, ↓flushEvt_kept]⟩

theorem execHostLinkLoss_kept : ∀ a0 a1 s, ∃ t, execHostLinkLoss a0 a1 s = .next t ∧ t.kept = s.kept := by
  intro a0 a1 s
  unfold execHostLinkLoss
  repeat' first
    | refine ⟨_, rfl, ?_⟩
    | simp only [↓refetchHostDown_kept, ↓endSession_kept, ↓setHost_kept, ↓postEvent_kept]
    | split

theorem execHostLinkUp_kept : ∀ a0 a1 a2 s, ∃ t, execHostLinkUp a0 a1 a2 s = .next t ∧ t.kept = s.kept := by
  intro a0 a1 a2 s
  unfold execHostLinkUp
  split <;> exact ⟨_, rfl, by first | rfl | simp only [↓setHost_kept, ↓raiseEv_kept, ↓flushCpl_kept]⟩

theorem execRouterForward_kept : ∀ a0 a1 a2 a3 s, ∃ t, execRouterForward a0 a1 a2 a3 s = .next t ∧ t.kept = s.kept := by
  intro a0 a1 a2 a3 s
  unfold execRouterForward
  repeat' first
    | refine ⟨_, rfl, ?_⟩
    | simp only [↓fenceStep_kept, ↓forward_kept]
    | split

theorem execQueue_kept : ∀ a0 a1 a2 a3 s, ∃ t, execQueue a0 a1 a2 a3 s = .next t ∧ t.kept = s.kept := by
  intro a0 a1 a2 a3 s
  unfold execQueue
  repeat' first
    | refine ⟨_, rfl, ?_⟩
    | simp only [↓queueIn_kept]
    | refine (arrivalRow_kept _ _ _ _ _ _ _ (fun _ _ => ?_)).trans ?_
    | split

theorem execEndMark_kept : ∀ a0 a1 a2 a3 s, ∃ t, execEndMark a0 a1 a2 a3 s = .next t ∧ t.kept = s.kept := by
  intro a0 a1 a2 a3 s
  unfold execEndMark
  repeat' first
    | refine ⟨_, rfl, ?_⟩
    | simp only [↓endMarkIn_kept]
    | refine (arrivalRow_kept _ _ _ _ _ _ _ (fun _ _ => ?_)).trans ?_
    | split

theorem execCredit_kept : ∀ a0 a1 a2 a3 s, ∃ t, execCredit a0 a1 a2 a3 s = .next t ∧ t.kept = s.kept := by
  intro a0 a1 a2 a3 s
  unfold execCredit
  repeat' first
    | refine ⟨_, rfl, ?_⟩
    | simp only [↓creditIn_kept]
    | refine (arrivalRow_kept _ _ _ _ _ _ _ (fun _ _ => ?_)).trans ?_
    | split

theorem execRefuse_kept : ∀ a0 a1 a2 a3 s, ∃ t, execRefuse a0 a1 a2 a3 s = .next t ∧ t.kept = s.kept := by
  intro a0 a1 a2 a3 s
  unfold execRefuse
  repeat' first
    | refine ⟨_, rfl, ?_⟩
    | simp only [↓refuseIn_kept]
    | refine (arrivalRow_kept _ _ _ _ _ _ _ (fun _ _ => ?_)).trans ?_
    | split

theorem execDarkRet_kept : ∀ a0 a1 a2 a3 s, ∃ t, execDarkRet a0 a1 a2 a3 s = .next t ∧ t.kept = s.kept := by
  intro a0 a1 a2 a3 s
  unfold execDarkRet
  repeat' first
    | refine ⟨_, rfl, ?_⟩
    | simp only [↓darkRetIn_kept]
    | refine (arrivalRow_kept _ _ _ _ _ _ _ (fun _ _ => ?_)).trans ?_
    | split

theorem execFreeze_kept : ∀ a0 a1 a2 a3 s, ∃ t, execFreeze a0 a1 a2 a3 s = .next t ∧ t.kept = s.kept := by
  intro a0 a1 a2 a3 s
  unfold execFreeze
  repeat' first
    | refine ⟨_, rfl, ?_⟩
    | simp only [↓freezeIn_kept]
    | refine (arrivalRow_kept _ _ _ _ _ _ _ (fun _ _ => ?_)).trans ?_
    | split

theorem execClapArrive_kept : ∀ a0 a1 a2 a3 s, ∃ t, execClapArrive a0 a1 a2 a3 s = .next t ∧ t.kept = s.kept := by
  intro a0 a1 a2 a3 s
  unfold execClapArrive
  repeat' first
    | refine ⟨_, rfl, ?_⟩
    | simp only [↓clapArriveIn_kept]
    | refine (arrivalRow_kept _ _ _ _ _ _ _ (fun _ _ => ?_)).trans ?_
    | split

theorem execResumePointCopyDone_kept : ∀ a0 s, ∃ t, execResumePointCopyDone a0 s = .next t ∧ t.kept = s.kept := by
  intro a0 s
  exact ⟨_, rfl, by simp only [↓resumeCopied_kept]⟩

theorem execClapReply_kept : ∀ a0 a1 a2 a3 s, ∃ t, execClapReply a0 a1 a2 a3 s = .next t ∧ t.kept = s.kept := by
  intro a0 a1 a2 a3 s
  unfold execClapReply
  repeat' first
    | refine ⟨_, rfl, ?_⟩
    | simp only [↓clapReplyIn_kept]
    | refine (arrivalRow_kept _ _ _ _ _ _ _ (fun _ _ => ?_)).trans ?_
    | split

theorem execClapNotify_kept : ∀ a0 a1 a2 a3 s, ∃ t, execClapNotify a0 a1 a2 a3 s = .next t ∧ t.kept = s.kept := by
  intro a0 a1 a2 a3 s
  unfold execClapNotify
  repeat' first
    | refine ⟨_, rfl, ?_⟩
    | simp only [↓clapNotifyIn_kept]
    | refine (arrivalRow_kept _ _ _ _ _ _ _ (fun _ _ => ?_)).trans ?_
    | split

theorem execMemRd_kept : ∀ a0 a1 a2 a3 s, ∃ t, execMemRd a0 a1 a2 a3 s = .next t ∧ t.kept = s.kept := by
  intro a0 a1 a2 a3 s
  unfold execMemRd
  repeat' first
    | refine ⟨_, rfl, ?_⟩
    | simp only [↓memRdIn_kept]
    | refine (arrivalRow_kept _ _ _ _ _ _ _ (fun _ _ => ?_)).trans ?_
    | split

theorem execMemRdData_kept : ∀ a0 a1 a2 a3 s, ∃ t, execMemRdData a0 a1 a2 a3 s = .next t ∧ t.kept = s.kept := by
  intro a0 a1 a2 a3 s
  unfold execMemRdData
  repeat' first
    | refine ⟨_, rfl, ?_⟩
    | simp only [↓memRdDataIn_kept]
    | refine (arrivalRow_kept _ _ _ _ _ _ _ (fun _ _ => ?_)).trans ?_
    | split

theorem execMemWr_kept : ∀ a0 a1 a2 a3 s, ∃ t, execMemWr a0 a1 a2 a3 s = .next t ∧ t.kept = s.kept := by
  intro a0 a1 a2 a3 s
  unfold execMemWr
  repeat' first
    | refine ⟨_, rfl, ?_⟩
    | simp only [↓memWrIn_kept]
    | refine (arrivalRow_kept _ _ _ _ _ _ _ (fun _ _ => ?_)).trans ?_
    | split

theorem execMemWrAck_kept : ∀ a0 a1 a2 a3 s, ∃ t, execMemWrAck a0 a1 a2 a3 s = .next t ∧ t.kept = s.kept := by
  intro a0 a1 a2 a3 s
  unfold execMemWrAck
  repeat' first
    | refine ⟨_, rfl, ?_⟩
    | simp only [↓memWrAckIn_kept]
    | refine (arrivalRow_kept _ _ _ _ _ _ _ (fun _ _ => ?_)).trans ?_
    | split

theorem execRingRecordConsume_kept : ∀ a0 a1 s, ∃ t, execRingRecordConsume a0 a1 s = .next t ∧ t.kept = s.kept := by
  intro a0 a1 s
  exact ⟨_, rfl, by simp only [↓ringConsume_kept]⟩

theorem execSpliceLockLoss_kept : ∀ a0 a1 a2 a3 s, ∃ t, execSpliceLockLoss a0 a1 a2 a3 s = .next t ∧ t.kept = s.kept := by
  intro a0 a1 a2 a3 s
  unfold execSpliceLockLoss
  split <;> exact ⟨_, rfl, by first | rfl | simp only [↓seamUniform_kept]⟩

theorem execPowerBudgetSet_kept : ∀ a0 a1 s, ∃ t, execPowerBudgetSet a0 a1 s = .next t ∧ t.kept = s.kept := by
  intro a0 a1 s
  unfold execPowerBudgetSet
  repeat' first
    | refine ⟨_, rfl, ?_⟩
    | simp only [↓budgetBody_kept]
    | refine (mailbox_kept _ _ _ _ _ (fun _ _ => ?_)).trans ?_
    | split

theorem execFade_kept : ∀ a0 a1 s, ∃ t, execFade a0 a1 s = .next t ∧ t.kept = s.kept := by
  intro a0 a1 s
  unfold execFade
  repeat' first
    | refine ⟨_, rfl, ?_⟩
    | simp only [↓fadeBody_kept]
    | refine (mailbox_kept _ _ _ _ _ (fun _ _ => ?_)).trans ?_
    | split

theorem execFadeComplete_kept : ∀ s, ∃ t, execFadeComplete s = .next t ∧ t.kept = s.kept := by
  intro s
  exact ⟨_, rfl, by simp only [↓fadeEnd_kept]⟩

theorem execUnfade_kept : ∀ a0 a1 s, ∃ t, execUnfade a0 a1 s = .next t ∧ t.kept = s.kept := by
  intro a0 a1 s
  unfold execUnfade
  repeat' first
    | refine ⟨_, rfl, ?_⟩
    | simp only [↓unfadeBody_kept]
    | refine (mailbox_kept _ _ _ _ _ (fun _ _ => ?_)).trans ?_
    | split

theorem execUnfadeComplete_kept : ∀ s, ∃ t, execUnfadeComplete s = .next t ∧ t.kept = s.kept := by
  intro s
  exact ⟨_, rfl, by simp only [↓unfadeEnd_kept]⟩

theorem execStopLimitSet_kept : ∀ a0 a1 s, ∃ t, execStopLimitSet a0 a1 s = .next t ∧ t.kept = s.kept := by
  intro a0 a1 s
  unfold execStopLimitSet
  repeat' first
    | refine ⟨_, rfl, ?_⟩
    | simp only [↓limitBody_kept]
    | refine (mailbox_kept _ _ _ _ _ (fun _ _ => ?_)).trans ?_
    | split

theorem execEnergyRead_kept : ∀ a0 a1 s, ∃ t, execEnergyRead a0 a1 s = .next t ∧ t.kept = s.kept := by
  intro a0 a1 s
  unfold execEnergyRead
  repeat' first
    | refine ⟨_, rfl, ?_⟩
    | simp only [↓energyBody_kept]
    | refine (mailbox_kept _ _ _ _ _ (fun _ _ => ?_)).trans ?_
    | split

theorem execFrameCorrection_kept : ∀ a0 a1 s, ∃ t, execFrameCorrection a0 a1 s = .next t ∧ t.kept = s.kept := by
  intro a0 a1 s
  unfold execFrameCorrection
  split <;> exact ⟨_, rfl, by first | rfl | simp only [↓correctFrame_kept]⟩

theorem execLeaseExpired_kept : ∀ s, ∃ t, execLeaseExpired s = .next t ∧ t.kept = s.kept := by
  intro s
  exact ⟨_, rfl, by simp only [↓leaseOut_kept]⟩

theorem execBudgetUnmet_kept : ∀ a0 s, ∃ t, execBudgetUnmet a0 s = .next t ∧ t.kept = s.kept := by
  intro a0 s
  exact ⟨_, rfl, by simp only [↓budgetUnmet_kept]⟩

theorem execDroopDetect_kept : ∀ a0 a1 s, ∃ t, execDroopDetect a0 a1 s = .next t ∧ t.kept = s.kept := by
  intro a0 a1 s
  unfold execDroopDetect
  split <;> exact ⟨_, rfl, by first | rfl | simp only [↓droopIn_kept]⟩

theorem execDroopEnd_kept : ∀ a0 s, ∃ t, execDroopEnd a0 s = .next t ∧ t.kept = s.kept := by
  intro a0 s
  unfold execDroopEnd
  split <;> exact ⟨_, rfl, by first | rfl | simp only [↓setFrame_kept, kept_mk, kept_fold]⟩

theorem execLogicSensorSample_kept : ∀ a0 a1 s, ∃ t, execLogicSensorSample a0 a1 s = .next t ∧ t.kept = s.kept := by
  intro a0 a1 s
  unfold execLogicSensorSample
  split <;> exact ⟨_, rfl, by first | rfl | simp only [↓logicSample_kept]⟩

theorem execCoolantSample_kept : ∀ a0 s, ∃ t, execCoolantSample a0 s = .next t ∧ t.kept = s.kept := by
  intro a0 s
  exact ⟨_, rfl, by simp only [↓coolantIn_kept]⟩

theorem execInletRange_kept : ∀ a0 s, ∃ t, execInletRange a0 s = .next t ∧ t.kept = s.kept := by
  intro a0 s
  exact ⟨_, rfl, by simp only [↓inletRange_kept]⟩

theorem execInletDisconnect_kept : ∀ a0 s, ∃ t, execInletDisconnect a0 s = .next t ∧ t.kept = s.kept := by
  intro a0 s
  unfold execInletDisconnect
  split <;> exact ⟨_, rfl, by first | rfl | simp only [↓powerLost_kept, kept_mk, kept_fold]⟩

theorem execRhelloAck_kept : ∀ a0 s, ∃ t, execRhelloAck a0 s = .next t ∧ t.kept = s.kept := by
  intro a0 s
  unfold execRhelloAck
  repeat' first
    | refine ⟨_, rfl, ?_⟩
    | simp only [↓rhelloAck_kept]
    | refine (withReel_kept _ _ _ _ (fun _ _ => ?_)).trans ?_
    | split

theorem execOpenAck_kept : ∀ a0 s, ∃ t, execOpenAck a0 s = .next t ∧ t.kept = s.kept := by
  intro a0 s
  unfold execOpenAck
  repeat' first
    | refine ⟨_, rfl, ?_⟩
    | simp only [↓openAck_kept]
    | refine (withReel_kept _ _ _ _ (fun _ _ => ?_)).trans ?_
    | split

theorem execReelData_kept : ∀ a0 s, ∃ t, execReelData a0 s = .next t ∧ t.kept = s.kept := by
  intro a0 s
  unfold execReelData
  repeat' first
    | refine ⟨_, rfl, ?_⟩
    | simp only [↓reelData_kept]
    | refine (withReel_kept _ _ _ _ (fun _ _ => ?_)).trans ?_
    | split

theorem execError_kept : ∀ a0 s, ∃ t, execError a0 s = .next t ∧ t.kept = s.kept := by
  intro a0 s
  unfold execError
  repeat' first
    | refine ⟨_, rfl, ?_⟩
    | simp only [↓reelStoreError_kept]
    | refine (withReel_kept _ _ _ _ (fun _ _ => ?_)).trans ?_
    | split

theorem execPutAck_kept : ∀ a0 s, ∃ t, execPutAck a0 s = .next t ∧ t.kept = s.kept := by
  intro a0 s
  unfold execPutAck
  repeat' first
    | refine ⟨_, rfl, ?_⟩
    | simp only [↓putAck_kept]
    | refine (withReel_kept _ _ _ _ (fun _ _ => ?_)).trans ?_
    | split

theorem execReelRead_kept : ∀ a0 s, ∃ t, execReelRead a0 s = .next t ∧ t.kept = s.kept := by
  intro a0 s
  unfold execReelRead
  repeat' first
    | refine ⟨_, rfl, ?_⟩
    | simp only [↓reelRead_kept]
    | refine (withInbox_kept _ _ _ _ (fun _ _ _ => ?_)).trans ?_
    | split

theorem execReelWrite_kept : ∀ a0 s, ∃ t, execReelWrite a0 s = .next t ∧ t.kept = s.kept := by
  intro a0 s
  unfold execReelWrite
  repeat' first
    | refine ⟨_, rfl, ?_⟩
    | simp only [↓reelWrite_kept]
    | refine (withInbox_kept _ _ _ _ (fun _ _ _ => ?_)).trans ?_
    | split

theorem execPutFlush_kept : ∀ a0 s, ∃ t, execPutFlush a0 s = .next t ∧ t.kept = s.kept := by
  intro a0 s
  exact ⟨_, rfl, by simp only [↓putFlush_kept]⟩

theorem execSbAssign_kept : ∀ a0 a1 s, ∃ t, execSbAssign a0 a1 s = .next t ∧ t.kept = s.kept := by
  intro a0 a1 s
  unfold execSbAssign
  repeat' first
    | refine ⟨_, rfl, ?_⟩
    | simp only [↓sbBody_kept]
    | refine (mailbox_kept _ _ _ _ _ (fun _ _ => ?_)).trans ?_
    | split

theorem execTimePulseOut_kept : ∀ a0 s, ∃ t, execTimePulseOut a0 s = .next t ∧ t.kept = s.kept := by
  intro a0 s
  unfold execTimePulseOut
  split <;> exact ⟨_, rfl, by first | rfl | simp only [↓emit_kept, kept_mk, kept_fold]⟩

theorem execTimePulseIn_kept : ∀ a0 s, ∃ t, execTimePulseIn a0 s = .next t ∧ t.kept = s.kept := by
  intro a0 s
  unfold execTimePulseIn
  split <;> exact ⟨_, rfl, by first | rfl | simp only [kept_mk, kept_fold]⟩

theorem execFadeReqInAssert_kept : ∀ a0 s, ∃ t, execFadeReqInAssert a0 s = .next t ∧ t.kept = s.kept := by
  intro a0 s
  unfold execFadeReqInAssert
  split <;> exact ⟨_, rfl, by first | rfl | simp only [↓pinEdge_kept]⟩

theorem execFadeReqInRelease_kept : ∀ a0 s, ∃ t, execFadeReqInRelease a0 s = .next t ∧ t.kept = s.kept := by
  intro a0 s
  unfold execFadeReqInRelease
  split <;> exact ⟨_, rfl, by first | rfl | simp only [↓pinEdge_kept]⟩

theorem execMonFaultWrite_kept : ∀ a0 s, ∃ t, execMonFaultWrite a0 s = .next t ∧ t.kept = s.kept := by
  intro a0 s
  unfold execMonFaultWrite
  split <;> exact ⟨_, rfl, by first | rfl | simp only [kept_mk, kept_fold]⟩

theorem execSetdasa_kept : ∀ a0 s, ∃ t, execSetdasa a0 s = .next t ∧ t.kept = s.kept := by
  intro a0 s
  unfold execSetdasa
  split <;> exact ⟨_, rfl, by first | rfl | simp only [kept_mk, kept_fold]⟩

theorem execRstdaa_kept : ∀ s, ∃ t, execRstdaa s = .next t ∧ t.kept = s.kept := by
  intro s
  unfold execRstdaa
  split <;> exact ⟨_, rfl, by first | rfl | simp only [kept_mk, kept_fold]⟩

theorem execJtagInstruction_kept : ∀ a0 s, ∃ t, execJtagInstruction a0 s = .next t ∧ t.kept = s.kept := by
  intro a0 s
  unfold execJtagInstruction
  repeat' first
    | refine ⟨_, rfl, ?_⟩
    | simp only [↓emit_kept, kept_mk, kept_fold]
    | split

theorem execSlateOpen_kept : ∀ a0 a1 s, ∃ t, execSlateOpen a0 a1 s = .next t ∧ t.kept = s.kept := by
  intro a0 a1 s
  unfold execSlateOpen
  repeat' first
    | refine ⟨_, rfl, ?_⟩
    | simp only [↓openBody_kept]
    | refine (mailbox_kept _ _ _ _ _ (fun _ _ => ?_)).trans ?_
    | split

theorem execSlateCut_kept : ∀ a0 a1 s, ∃ t, execSlateCut a0 a1 s = .next t ∧ t.kept = s.kept := by
  intro a0 a1 s
  unfold execSlateCut
  repeat' first
    | refine ⟨_, rfl, ?_⟩
    | simp only [↓cutBody_kept]
    | refine (mailbox_kept _ _ _ _ _ (fun _ _ => ?_)).trans ?_
    | split

theorem execSlateStatus_kept : ∀ a0 a1 s, ∃ t, execSlateStatus a0 a1 s = .next t ∧ t.kept = s.kept := by
  intro a0 a1 s
  unfold execSlateStatus
  repeat' first
    | refine ⟨_, rfl, ?_⟩
    | simp only [↓statusBody_kept]
    | refine (mailbox_kept _ _ _ _ _ (fun _ _ => ?_)).trans ?_
    | split

theorem execSlateRelease_kept : ∀ a0 a1 s, ∃ t, execSlateRelease a0 a1 s = .next t ∧ t.kept = s.kept := by
  intro a0 a1 s
  unfold execSlateRelease
  repeat' first
    | refine ⟨_, rfl, ?_⟩
    | simp only [↓slateReleaseBody_kept]
    | refine (mailbox_kept _ _ _ _ _ (fun _ _ => ?_)).trans ?_
    | split

theorem execCutDrainDone_kept : ∀ a0 s, ∃ t, execCutDrainDone a0 s = .next t ∧ t.kept = s.kept := by
  intro a0 s
  exact ⟨_, rfl, by simp only [↓drainDone_kept]⟩

theorem execCutDeadline_kept : ∀ a0 s, ∃ t, execCutDeadline a0 s = .next t ∧ t.kept = s.kept := by
  intro a0 s
  exact ⟨_, rfl, by simp only [↓deadlineFence_kept]⟩

theorem execCutRetire_kept : ∀ a0 s, ∃ t, execCutRetire a0 s = .next t ∧ t.kept = s.kept := by
  intro a0 s
  exact ⟨_, rfl, by simp only [↓cutRetire_kept]⟩

theorem execScrubDone_kept : ∀ a0 a1 s, ∃ t, execScrubDone a0 a1 s = .next t ∧ t.kept = s.kept := by
  intro a0 a1 s
  exact ⟨_, rfl, by simp only [↓scrubEnd_kept]⟩

theorem execDailiesWritten_kept : ∀ s, ∃ t, execDailiesWritten s = .next t ∧ t.kept = s.kept := by
  intro s
  exact ⟨_, rfl, by simp only [↓dailiesDone_kept]⟩

theorem execGetVersion_kept : ∀ a0 a1 s, ∃ t, execGetVersion a0 a1 s = .next t ∧ t.kept = s.kept := by
  intro a0 a1 s
  exact ⟨_, rfl, by simp only [↓getVersion_kept]⟩

theorem execGetCapabilities_kept : ∀ a0 a1 s, ∃ t, execGetCapabilities a0 a1 s = .next t ∧ t.kept = s.kept := by
  intro a0 a1 s
  unfold execGetCapabilities
  repeat' first
    | refine ⟨_, rfl, ?_⟩
    | simp only [↓getCapabilities_kept]
    | refine (spdmRequest_kept _ _ _ _ _ _ _ _ (fun _ => ?_)).trans ?_
    | split

theorem execNegotiateAlgorithms_kept : ∀ a0 a1 s, ∃ t, execNegotiateAlgorithms a0 a1 s = .next t ∧ t.kept = s.kept := by
  intro a0 a1 s
  unfold execNegotiateAlgorithms
  repeat' first
    | refine ⟨_, rfl, ?_⟩
    | simp only [↓negotiate_kept]
    | refine (spdmRequest_kept _ _ _ _ _ _ _ _ (fun _ => ?_)).trans ?_
    | split

theorem execGetDigests_kept : ∀ a0 a1 s, ∃ t, execGetDigests a0 a1 s = .next t ∧ t.kept = s.kept := by
  intro a0 a1 s
  unfold execGetDigests
  repeat' first
    | refine ⟨_, rfl, ?_⟩
    | simp only [↓getDigests_kept]
    | refine (spdmRequest_kept _ _ _ _ _ _ _ _ (fun _ => ?_)).trans ?_
    | split

theorem execGetCertificate_kept : ∀ a0 a1 s, ∃ t, execGetCertificate a0 a1 s = .next t ∧ t.kept = s.kept := by
  intro a0 a1 s
  unfold execGetCertificate
  repeat' first
    | refine ⟨_, rfl, ?_⟩
    | simp only [↓getCertificate_kept]
    | refine (spdmRequest_kept _ _ _ _ _ _ _ _ (fun _ => ?_)).trans ?_
    | split

theorem execChallenge_kept : ∀ a0 a1 s, ∃ t, execChallenge a0 a1 s = .next t ∧ t.kept = s.kept := by
  intro a0 a1 s
  unfold execChallenge
  repeat' first
    | refine ⟨_, rfl, ?_⟩
    | simp only [↓challenge_kept]
    | refine (spdmRequest_kept _ _ _ _ _ _ _ _ (fun _ => ?_)).trans ?_
    | split

theorem execGetMeasurements_kept : ∀ a0 a1 s, ∃ t, execGetMeasurements a0 a1 s = .next t ∧ t.kept = s.kept := by
  intro a0 a1 s
  unfold execGetMeasurements
  repeat' first
    | refine ⟨_, rfl, ?_⟩
    | simp only [↓getMeasurements_kept]
    | refine (spdmRequest_kept _ _ _ _ _ _ _ _ (fun _ => ?_)).trans ?_
    | split

theorem execKeyExchange_kept : ∀ a0 a1 s, ∃ t, execKeyExchange a0 a1 s = .next t ∧ t.kept = s.kept := by
  intro a0 a1 s
  unfold execKeyExchange
  repeat' first
    | refine ⟨_, rfl, ?_⟩
    | simp only [↓keyExchange_kept]
    | refine (spdmRequest_kept _ _ _ _ _ _ _ _ (fun _ => ?_)).trans ?_
    | split

theorem execFinish_kept : ∀ a0 a1 s, ∃ t, execFinish a0 a1 s = .next t ∧ t.kept = s.kept := by
  intro a0 a1 s
  unfold execFinish
  repeat' first
    | refine ⟨_, rfl, ?_⟩
    | simp only [↓finishSession_kept]
    | refine (spdmRequest_kept _ _ _ _ _ _ _ _ (fun _ => ?_)).trans ?_
    | split

theorem execSpdmHeartbeat_kept : ∀ a0 a1 s, ∃ t, execSpdmHeartbeat a0 a1 s = .next t ∧ t.kept = s.kept := by
  intro a0 a1 s
  unfold execSpdmHeartbeat
  repeat' first
    | refine ⟨_, rfl, ?_⟩
    | simp only [↓heartbeatAck_kept]
    | refine (spdmRequest_kept _ _ _ _ _ _ _ _ (fun _ => ?_)).trans ?_
    | split

theorem execKeyUpdate_kept : ∀ a0 a1 s, ∃ t, execKeyUpdate a0 a1 s = .next t ∧ t.kept = s.kept := by
  intro a0 a1 s
  unfold execKeyUpdate
  repeat' first
    | refine ⟨_, rfl, ?_⟩
    | simp only [↓keyUpdate_kept]
    | refine (spdmRequest_kept _ _ _ _ _ _ _ _ (fun _ => ?_)).trans ?_
    | split

theorem execEndSession_kept : ∀ a0 a1 s, ∃ t, execEndSession a0 a1 s = .next t ∧ t.kept = s.kept := by
  intro a0 a1 s
  unfold execEndSession
  repeat' first
    | refine ⟨_, rfl, ?_⟩
    | simp only [↓endSpdm_kept]
    | refine (spdmRequest_kept _ _ _ _ _ _ _ _ (fun _ => ?_)).trans ?_
    | split

theorem execVendorDefinedRequest_kept : ∀ a0 a1 s, ∃ t, execVendorDefinedRequest a0 a1 s = .next t ∧ t.kept = s.kept := by
  intro a0 a1 s
  unfold execVendorDefinedRequest
  repeat' first
    | refine ⟨_, rfl, ?_⟩
    | simp only [↓vendorRequest_kept]
    | refine (spdmRequest_kept _ _ _ _ _ _ _ _ (fun _ => ?_)).trans ?_
    | split

theorem execVaultPortRequest_kept : ∀ a0 s, ∃ t, execVaultPortRequest a0 s = .next t ∧ t.kept = s.kept := by
  intro a0 s
  exact ⟨_, rfl, by simp only [↓vaultServe_kept]⟩

theorem execVaultRefetchDone_kept : ∀ a0 a1 s, ∃ t, execVaultRefetchDone a0 a1 s = .next t ∧ t.kept = s.kept := by
  intro a0 a1 s
  unfold execVaultRefetchDone
  repeat' first
    | refine ⟨_, rfl, ?_⟩
    | simp only [↓vaultRepair_kept, ↓vaultRefetchFail_kept]
    | split

theorem execVaultRefetchTimeout_kept : ∀ a0 s, ∃ t, execVaultRefetchTimeout a0 s = .next t ∧ t.kept = s.kept := by
  intro a0 s
  unfold execVaultRefetchTimeout
  repeat' first
    | refine ⟨_, rfl, ?_⟩
    | simp only [↓refetchForget_kept, ↓vaultRefetchFail_kept]
    | split

theorem execVaultPatrol.step1_kept : ∀ s a1 a2, (execVaultPatrol.step1 s a1 a2).kept = s.kept := by
  intro s a1 a2
  unfold execVaultPatrol.step1
  simp only [↓setVault_kept]

theorem execVaultPatrol_kept : ∀ a0 s, ∃ t, execVaultPatrol a0 s = .next t ∧ t.kept = s.kept := by
  intro a0 s
  unfold execVaultPatrol
  repeat' first
    | refine ⟨_, rfl, ?_⟩
    | simp only [↓execVaultPatrol.step1_kept]
    | refine (vaultRead_kept' (by assumption)).trans ?_
    | split

theorem execVaultTempSample_kept : ∀ a0 a1 s, ∃ t, execVaultTempSample a0 a1 s = .next t ∧ t.kept = s.kept := by
  intro a0 a1 s
  unfold execVaultTempSample
  split <;> exact ⟨_, rfl, by first | rfl | simp only [↓vaultTemp_kept]⟩

end Sys2Proof.Machine
end

