-- ==== Sys2Proof/Laws/Host.lean ====
section
/-! SUPPORT. What the mailbox does with a record, once for every command row. -/

namespace Sys2Proof.Machine

open Sys2Proof

/-- A record that carries a row's opcode is judged by the row's own specification. -/
theorem mailbox_own {s : State} {m : CmdSpec} {p : HostPort} {r : CmdRec} (body : CmdRef → State → State)
    (h : r.opcode.toNat = m.opcode) : mailbox m p r body s = mailboxAs m p r body s := by
  simp [mailbox, specFor, h]

/-- A record that carries another row's opcode is none of this row's. -/
theorem mailbox_other {s : State} {m : CmdSpec} {p : HostPort} {r : CmdRec} (body : CmdRef → State → State)
    (h : r.opcode.toNat ≠ m.opcode) (ho : opcodes.contains r.opcode.toNat = true) : mailbox m p r body s = s := by
  simp only [mailbox, specFor, h, ho, if_true, if_false]

/-- A record of an unlisted opcode is judged by it. -/
theorem mailbox_unlisted {s : State} {m : CmdSpec} {p : HostPort} {r : CmdRec} (body : CmdRef → State → State)
    (h : r.opcode.toNat ≠ m.opcode) (ho : opcodes.contains r.opcode.toNat = false) :
    mailbox m p r body s = mailboxAs { m with opcode := r.opcode.toNat } p r body s := by
  simp only [mailbox, specFor, h, ho, if_false, Bool.false_eq_true]

/-- A record that passes orders 1 to 8 runs the command's own work. -/
theorem mailbox_taken {s t : State} {m : CmdSpec} {p : HostPort} {r : CmdRec} (body : CmdRef → State → State)
    (h : CmdTaken s m p r t) : mailbox m p r body s = body (refOf m.opcode p r) t := by
  obtain ⟨⟨h0, h1, h2, h3, h4, h5⟩, h⟩ := h
  rw [mailbox_own body h0]
  unfold mailboxAs judgeCmd
  simp only [h1, h2, h3, h4, h5, if_true, if_false, Bool.false_eq_true]
  simp only [Unsequenced, slateFree] at h
  rcases h with ⟨hu, rfl, hl⟩ | ⟨hu, hf, hs, rfl, hl⟩
  · rcases hu with hu | ⟨ho, hn⟩ | ⟨ho, hf⟩
    · simp [hu]
    · rw [if_pos (.inr (by simp [ho]; grind))]
    · simp [ho] at *
      simp [hf, hl]
  · have hn : ¬ (m.opcode = 1 ∨ (m.opcode == 0x0201 && !(((getSlate (consumeCmd s p) r.slate.toNat).mode == .opened
        || (getSlate (consumeCmd s p) r.slate.toNat).mode == .running) && (getSlate (consumeCmd s p) r.slate.toNat).owner == p)) = true) := by
      rintro (h | h)
      · exact hu (.inl h)
      · refine hu (.inr (.inl ?_))
        simp only [Bool.and_eq_true, beq_iff_eq, Bool.not_eq_true', Bool.and_eq_false_iff] at h
        exact ⟨h.1, fun a => by rcases a with ⟨a | a, b⟩ <;> simp [a, b] at h⟩
    rw [if_neg hn]
    simp [hf, hs, hl]

/-- A row of the mailbox runs the mailbox with its own specification. -/
theorem exec_mailRow {s : State} {i : Instr} {p : HostPort} {r : CmdRec} {m : CmdSpec} (h : mailRow s i = some (p, r, m)) :
    ∃ body, exec i s = .next (mailbox m p r body s) := by
  unfold mailRow at h
  split at h
  all_goals first
    | (obtain ⟨rfl, rfl, rfl⟩ := Option.some.inj h; exact ⟨_, rfl⟩)
    | (split at h
       all_goals first
         | contradiction
         | (rename_i hc
            obtain ⟨rfl, rfl, rfl⟩ := Option.some.inj h
            simp only [exec, execSceneRun, execSceneRunResume, execPortConfig, execPortConfigFabricForm, execProbe, execAssign,
              execSetLocal, execClearLocal, execDebugUnlockNonce, execDebugUnlockGrant, hc, if_true, if_false, Bool.false_eq_true]
            exact ⟨_, rfl⟩))
    | contradiction

/-! ### Each row's own work -/

theorem exec_hello_taken {s t : State} {p : HostPort} {r : CmdRec} {ref : CmdRef} (h : RowTaken s (.hello p r) t ref) :
    exec (.hello p r) s = .next (helloBody p r ref t) := by
  obtain ⟨p', r', m, hm, ht, rfl⟩ := h
  obtain ⟨rfl, rfl, rfl⟩ := Option.some.inj hm
  exact congrArg _ (mailbox_taken _ ht)

theorem exec_claimAuthority_taken {s t : State} {p : HostPort} {r : CmdRec} {ref : CmdRef} (h : RowTaken s (.claimAuthority p r) t ref) :
    exec (.claimAuthority p r) s = .next (claimBody p r ref t) := by
  obtain ⟨p', r', m, hm, ht, rfl⟩ := h
  obtain ⟨rfl, rfl, rfl⟩ := Option.some.inj hm
  exact congrArg _ (mailbox_taken _ ht)

theorem exec_releaseAuthority_taken {s t : State} {p : HostPort} {r : CmdRec} {ref : CmdRef} (h : RowTaken s (.releaseAuthority p r) t ref) :
    exec (.releaseAuthority p r) s = .next (releaseBody p r ref t) := by
  obtain ⟨p', r', m, hm, ht, rfl⟩ := h
  obtain ⟨rfl, rfl, rfl⟩ := Option.some.inj hm
  exact congrArg _ (mailbox_taken _ ht)

theorem exec_fwLoad_taken {s t : State} {p : HostPort} {r : CmdRec} {ref : CmdRef} (h : RowTaken s (.fwLoad p r) t ref) :
    exec (.fwLoad p r) s = .next (fwLoadBody r ref t) := by
  obtain ⟨p', r', m, hm, ht, rfl⟩ := h
  obtain ⟨rfl, rfl, rfl⟩ := Option.some.inj hm
  exact congrArg _ (mailbox_taken _ ht)

theorem exec_calLoad_taken {s t : State} {p : HostPort} {r : CmdRec} {ref : CmdRef} (h : RowTaken s (.calLoad p r) t ref) :
    exec (.calLoad p r) s = .next (calBody r ref t) := by
  obtain ⟨p', r', m, hm, ht, rfl⟩ := h
  obtain ⟨rfl, rfl, rfl⟩ := Option.some.inj hm
  exact congrArg _ (mailbox_taken _ ht)

theorem exec_floorplanRead_taken {s t : State} {p : HostPort} {r : CmdRec} {ref : CmdRef} (h : RowTaken s (.floorplanRead p r) t ref) :
    exec (.floorplanRead p r) s = .next (floorplanBody p r ref t) := by
  obtain ⟨p', r', m, hm, ht, rfl⟩ := h
  obtain ⟨rfl, rfl, rfl⟩ := Option.some.inj hm
  exact congrArg _ (mailbox_taken _ ht)

theorem exec_slateOpen_taken {s t : State} {p : HostPort} {r : CmdRec} {ref : CmdRef} (h : RowTaken s (.slateOpen p r) t ref) :
    exec (.slateOpen p r) s = .next (openBody p r ref t) := by
  obtain ⟨p', r', m, hm, ht, rfl⟩ := h
  obtain ⟨rfl, rfl, rfl⟩ := Option.some.inj hm
  exact congrArg _ (mailbox_taken _ ht)

theorem exec_slateCut_taken {s t : State} {p : HostPort} {r : CmdRec} {ref : CmdRef} (h : RowTaken s (.slateCut p r) t ref) :
    exec (.slateCut p r) s = .next (cutBody r ref t) := by
  obtain ⟨p', r', m, hm, ht, rfl⟩ := h
  obtain ⟨rfl, rfl, rfl⟩ := Option.some.inj hm
  exact congrArg _ (mailbox_taken _ ht)

theorem exec_slateStatus_taken {s t : State} {p : HostPort} {r : CmdRec} {ref : CmdRef} (h : RowTaken s (.slateStatus p r) t ref) :
    exec (.slateStatus p r) s = .next (statusBody r ref t) := by
  obtain ⟨p', r', m, hm, ht, rfl⟩ := h
  obtain ⟨rfl, rfl, rfl⟩ := Option.some.inj hm
  exact congrArg _ (mailbox_taken _ ht)

theorem exec_slateRelease_taken {s t : State} {p : HostPort} {r : CmdRec} {ref : CmdRef} (h : RowTaken s (.slateRelease p r) t ref) :
    exec (.slateRelease p r) s = .next (slateReleaseBody r ref t) := by
  obtain ⟨p', r', m, hm, ht, rfl⟩ := h
  obtain ⟨rfl, rfl, rfl⟩ := Option.some.inj hm
  exact congrArg _ (mailbox_taken _ ht)

theorem exec_storyboardLoad_taken {s t : State} {p : HostPort} {r : CmdRec} {ref : CmdRef} (h : RowTaken s (.storyboardLoad p r) t ref) :
    exec (.storyboardLoad p r) s = .next (loadBegin r.slate.toNat r ref t) := by
  obtain ⟨p', r', m, hm, ht, rfl⟩ := h
  obtain ⟨rfl, rfl, rfl⟩ := Option.some.inj hm
  exact congrArg _ (mailbox_taken _ ht)

theorem exec_sceneRun_taken {s t : State} {p : HostPort} {r : CmdRec} {ref : CmdRef} (h : RowTaken s (.sceneRun p r) t ref) :
    exec (.sceneRun p r) s = .next (runBegin p r ref t) := by
  obtain ⟨p', r', m, hm, ht, rfl⟩ := h
  simp only [mailRow] at hm
  split at hm
  all_goals first
    | contradiction
    | (rename_i hc
       obtain ⟨rfl, rfl, rfl⟩ := Option.some.inj hm
       simp only [exec, execSceneRun, hc, if_true, if_false, Bool.false_eq_true]
       exact congrArg _ (mailbox_taken _ ht))

theorem exec_sceneRunResume_taken {s t : State} {p : HostPort} {r : CmdRec} {ref : CmdRef} (h : RowTaken s (.sceneRunResume p r) t ref) :
    exec (.sceneRunResume p r) s = .next (resumeRun p r ref t) := by
  obtain ⟨p', r', m, hm, ht, rfl⟩ := h
  simp only [mailRow] at hm
  split at hm
  all_goals first
    | contradiction
    | (rename_i hc
       obtain ⟨rfl, rfl, rfl⟩ := Option.some.inj hm
       simp only [exec, execSceneRunResume, hc, if_true, if_false, Bool.false_eq_true]
       exact congrArg _ (mailbox_taken _ ht))

theorem exec_sceneHalt_taken {s t : State} {p : HostPort} {r : CmdRec} {ref : CmdRef} (h : RowTaken s (.sceneHalt p r) t ref) :
    exec (.sceneHalt p r) s = .next (haltCmd p r ref t) := by
  obtain ⟨p', r', m, hm, ht, rfl⟩ := h
  obtain ⟨rfl, rfl, rfl⟩ := Option.some.inj hm
  exact congrArg _ (mailbox_taken _ ht)

theorem exec_keyframeTake_taken {s t : State} {p : HostPort} {r : CmdRec} {ref : CmdRef} (h : RowTaken s (.keyframeTake p r) t ref) :
    exec (.keyframeTake p r) s = .next (takeCmd r ref t) := by
  obtain ⟨p', r', m, hm, ht, rfl⟩ := h
  obtain ⟨rfl, rfl, rfl⟩ := Option.some.inj hm
  exact congrArg _ (mailbox_taken _ ht)

theorem exec_replay_taken {s t : State} {p : HostPort} {r : CmdRec} {ref : CmdRef} (h : RowTaken s (.replay p r) t ref) :
    exec (.replay p r) s = .next (replayCmd p r ref t) := by
  obtain ⟨p', r', m, hm, ht, rfl⟩ := h
  obtain ⟨rfl, rfl, rfl⟩ := Option.some.inj hm
  exact congrArg _ (mailbox_taken _ ht)

theorem exec_remap_taken {s t : State} {p : HostPort} {r : CmdRec} {ref : CmdRef} (h : RowTaken s (.remap p r) t ref) :
    exec (.remap p r) s = .next (remapCmd r ref t) := by
  obtain ⟨p', r', m, hm, ht, rfl⟩ := h
  obtain ⟨rfl, rfl, rfl⟩ := Option.some.inj hm
  exact congrArg _ (mailbox_taken _ ht)

theorem exec_keyframeRelease_taken {s t : State} {p : HostPort} {r : CmdRec} {ref : CmdRef} (h : RowTaken s (.keyframeRelease p r) t ref) :
    exec (.keyframeRelease p r) s = .next (releaseCmd r ref t) := by
  obtain ⟨p', r', m, hm, ht, rfl⟩ := h
  obtain ⟨rfl, rfl, rfl⟩ := Option.some.inj hm
  exact congrArg _ (mailbox_taken _ ht)

theorem exec_portConfig_taken {s t : State} {p : HostPort} {r : CmdRec} {ref : CmdRef} (h : RowTaken s (.portConfig p r) t ref) :
    exec (.portConfig p r) s = .next (portBody r ref t) := by
  obtain ⟨p', r', m, hm, ht, rfl⟩ := h
  simp only [mailRow] at hm
  split at hm
  all_goals first
    | contradiction
    | (rename_i hc
       obtain ⟨rfl, rfl, rfl⟩ := Option.some.inj hm
       simp only [exec, execPortConfig, hc, if_true, if_false, Bool.false_eq_true]
       exact congrArg _ (mailbox_taken _ ht))

theorem exec_portConfigFabricForm_taken {s t : State} {p : HostPort} {r : CmdRec} {ref : CmdRef} (h : RowTaken s (.portConfigFabricForm p r) t ref) :
    exec (.portConfigFabricForm p r) s = .next (fabricFormBody r ref t) := by
  obtain ⟨p', r', m, hm, ht, rfl⟩ := h
  simp only [mailRow] at hm
  split at hm
  all_goals first
    | contradiction
    | (rename_i hc
       obtain ⟨rfl, rfl, rfl⟩ := Option.some.inj hm
       simp only [exec, execPortConfigFabricForm, hc, if_true, if_false, Bool.false_eq_true]
       exact congrArg _ (mailbox_taken _ ht))

theorem exec_routeTableWrite_taken {s t : State} {p : HostPort} {r : CmdRec} {ref : CmdRef} (h : RowTaken s (.routeTableWrite p r) t ref) :
    exec (.routeTableWrite p r) s = .next (routeBody r ref t) := by
  obtain ⟨p', r', m, hm, ht, rfl⟩ := h
  obtain ⟨rfl, rfl, rfl⟩ := Option.some.inj hm
  exact congrArg _ (mailbox_taken _ ht)

theorem exec_probe_taken {s t : State} {p : HostPort} {r : CmdRec} {ref : CmdRef} (h : RowTaken s (.probe p r) t ref) :
    exec (.probe p r) s = .next (walkBody r ref t) := by
  obtain ⟨p', r', m, hm, ht, rfl⟩ := h
  simp only [mailRow] at hm
  split at hm
  all_goals first
    | contradiction
    | (rename_i hc
       obtain ⟨rfl, rfl, rfl⟩ := Option.some.inj hm
       simp only [exec, execProbe, hc, if_true, if_false, Bool.false_eq_true]
       exact congrArg _ (mailbox_taken _ ht))

theorem exec_assign_taken {s t : State} {p : HostPort} {r : CmdRec} {ref : CmdRef} (h : RowTaken s (.assign p r) t ref) :
    exec (.assign p r) s = .next (walkBody r ref t) := by
  obtain ⟨p', r', m, hm, ht, rfl⟩ := h
  simp only [mailRow] at hm
  split at hm
  all_goals first
    | contradiction
    | (rename_i hc
       obtain ⟨rfl, rfl, rfl⟩ := Option.some.inj hm
       simp only [exec, execAssign, hc, if_true, if_false, Bool.false_eq_true]
       exact congrArg _ (mailbox_taken _ ht))

theorem exec_setLocal_taken {s t : State} {p : HostPort} {r : CmdRec} {ref : CmdRef} (h : RowTaken s (.setLocal p r) t ref) :
    exec (.setLocal p r) s = .next (localBody r (if pb r 46 2 = 0x7FFF then 0x8000 else pb r 46 2) ref t) := by
  obtain ⟨p', r', m, hm, ht, rfl⟩ := h
  simp only [mailRow] at hm
  split at hm
  all_goals first
    | contradiction
    | (rename_i hc
       obtain ⟨rfl, rfl, rfl⟩ := Option.some.inj hm
       simp only [exec, execSetLocal, hc, if_true, if_false, Bool.false_eq_true]
       exact congrArg _ (mailbox_taken _ ht))

theorem exec_clearLocal_taken {s t : State} {p : HostPort} {r : CmdRec} {ref : CmdRef} (h : RowTaken s (.clearLocal p r) t ref) :
    exec (.clearLocal p r) s = .next (localBody r 0x7FFF ref t) := by
  obtain ⟨p', r', m, hm, ht, rfl⟩ := h
  simp only [mailRow] at hm
  split at hm
  all_goals first
    | contradiction
    | (rename_i hc
       obtain ⟨rfl, rfl, rfl⟩ := Option.some.inj hm
       simp only [exec, execClearLocal, hc, if_true, if_false, Bool.false_eq_true]
       exact congrArg _ (mailbox_taken _ ht))

theorem exec_windowOpen_taken {s t : State} {p : HostPort} {r : CmdRec} {ref : CmdRef} (h : RowTaken s (.windowOpen p r) t ref) :
    exec (.windowOpen p r) s = .next (windowOpenBody r ref t) := by
  obtain ⟨p', r', m, hm, ht, rfl⟩ := h
  obtain ⟨rfl, rfl, rfl⟩ := Option.some.inj hm
  exact congrArg _ (mailbox_taken _ ht)

theorem exec_windowClose_taken {s t : State} {p : HostPort} {r : CmdRec} {ref : CmdRef} (h : RowTaken s (.windowClose p r) t ref) :
    exec (.windowClose p r) s = .next (windowCloseBody r ref t) := by
  obtain ⟨p', r', m, hm, ht, rfl⟩ := h
  obtain ⟨rfl, rfl, rfl⟩ := Option.some.inj hm
  exact congrArg _ (mailbox_taken _ ht)

theorem exec_mapAperture_taken {s t : State} {p : HostPort} {r : CmdRec} {ref : CmdRef} (h : RowTaken s (.mapAperture p r) t ref) :
    exec (.mapAperture p r) s = .next (mapBody p r ref t) := by
  obtain ⟨p', r', m, hm, ht, rfl⟩ := h
  obtain ⟨rfl, rfl, rfl⟩ := Option.some.inj hm
  exact congrArg _ (mailbox_taken _ ht)

theorem exec_powerBudgetSet_taken {s t : State} {p : HostPort} {r : CmdRec} {ref : CmdRef} (h : RowTaken s (.powerBudgetSet p r) t ref) :
    exec (.powerBudgetSet p r) s = .next (budgetBody r ref t) := by
  obtain ⟨p', r', m, hm, ht, rfl⟩ := h
  obtain ⟨rfl, rfl, rfl⟩ := Option.some.inj hm
  exact congrArg _ (mailbox_taken _ ht)

theorem exec_fade_taken {s t : State} {p : HostPort} {r : CmdRec} {ref : CmdRef} (h : RowTaken s (.fade p r) t ref) :
    exec (.fade p r) s = .next (fadeBody r ref t) := by
  obtain ⟨p', r', m, hm, ht, rfl⟩ := h
  obtain ⟨rfl, rfl, rfl⟩ := Option.some.inj hm
  exact congrArg _ (mailbox_taken _ ht)

theorem exec_unfade_taken {s t : State} {p : HostPort} {r : CmdRec} {ref : CmdRef} (h : RowTaken s (.unfade p r) t ref) :
    exec (.unfade p r) s = .next (unfadeBody r ref t) := by
  obtain ⟨p', r', m, hm, ht, rfl⟩ := h
  obtain ⟨rfl, rfl, rfl⟩ := Option.some.inj hm
  exact congrArg _ (mailbox_taken _ ht)

theorem exec_stopLimitSet_taken {s t : State} {p : HostPort} {r : CmdRec} {ref : CmdRef} (h : RowTaken s (.stopLimitSet p r) t ref) :
    exec (.stopLimitSet p r) s = .next (limitBody r ref t) := by
  obtain ⟨p', r', m, hm, ht, rfl⟩ := h
  obtain ⟨rfl, rfl, rfl⟩ := Option.some.inj hm
  exact congrArg _ (mailbox_taken _ ht)

theorem exec_energyRead_taken {s t : State} {p : HostPort} {r : CmdRec} {ref : CmdRef} (h : RowTaken s (.energyRead p r) t ref) :
    exec (.energyRead p r) s = .next (energyBody p r ref t) := by
  obtain ⟨p', r', m, hm, ht, rfl⟩ := h
  obtain ⟨rfl, rfl, rfl⟩ := Option.some.inj hm
  exact congrArg _ (mailbox_taken _ ht)

theorem exec_policySet_taken {s t : State} {p : HostPort} {r : CmdRec} {ref : CmdRef} (h : RowTaken s (.policySet p r) t ref) :
    exec (.policySet p r) s = .next (policyBody r ref t) := by
  obtain ⟨p', r', m, hm, ht, rfl⟩ := h
  obtain ⟨rfl, rfl, rfl⟩ := Option.some.inj hm
  exact congrArg _ (mailbox_taken _ ht)

theorem exec_fenceCore_taken {s t : State} {p : HostPort} {r : CmdRec} {ref : CmdRef} (h : RowTaken s (.fenceCore p r) t ref) :
    exec (.fenceCore p r) s = .next (fenceBody r ref t) := by
  obtain ⟨p', r', m, hm, ht, rfl⟩ := h
  obtain ⟨rfl, rfl, rfl⟩ := Option.some.inj hm
  exact congrArg _ (mailbox_taken _ ht)

theorem exec_unfenceCore_taken {s t : State} {p : HostPort} {r : CmdRec} {ref : CmdRef} (h : RowTaken s (.unfenceCore p r) t ref) :
    exec (.unfenceCore p r) s = .next (unfenceBody r ref t) := by
  obtain ⟨p', r', m, hm, ht, rfl⟩ := h
  obtain ⟨rfl, rfl, rfl⟩ := Option.some.inj hm
  exact congrArg _ (mailbox_taken _ ht)

theorem exec_dailiesCollect_taken {s t : State} {p : HostPort} {r : CmdRec} {ref : CmdRef} (h : RowTaken s (.dailiesCollect p r) t ref) :
    exec (.dailiesCollect p r) s = .next (dailiesBody p r ref t) := by
  obtain ⟨p', r', m, hm, ht, rfl⟩ := h
  obtain ⟨rfl, rfl, rfl⟩ := Option.some.inj hm
  exact congrArg _ (mailbox_taken _ ht)

theorem exec_reset_taken {s t : State} {p : HostPort} {r : CmdRec} {ref : CmdRef} (h : RowTaken s (.reset p r) t ref) :
    exec (.reset p r) s = .next (resetBody r ref t) := by
  obtain ⟨p', r', m, hm, ht, rfl⟩ := h
  obtain ⟨rfl, rfl, rfl⟩ := Option.some.inj hm
  exact congrArg _ (mailbox_taken _ ht)

theorem exec_sbAssign_taken {s t : State} {p : HostPort} {r : CmdRec} {ref : CmdRef} (h : RowTaken s (.sbAssign p r) t ref) :
    exec (.sbAssign p r) s = .next (sbBody p r ref t) := by
  obtain ⟨p', r', m, hm, ht, rfl⟩ := h
  obtain ⟨rfl, rfl, rfl⟩ := Option.some.inj hm
  exact congrArg _ (mailbox_taken _ ht)

theorem exec_clockSourceSelect_taken {s t : State} {p : HostPort} {r : CmdRec} {ref : CmdRef} (h : RowTaken s (.clockSourceSelect p r) t ref) :
    exec (.clockSourceSelect p r) s = .next (clockSelectBody r ref t) := by
  obtain ⟨p', r', m, hm, ht, rfl⟩ := h
  obtain ⟨rfl, rfl, rfl⟩ := Option.some.inj hm
  exact congrArg _ (mailbox_taken _ ht)

theorem exec_debugUnlockNonce_taken {s t : State} {p : HostPort} {r : CmdRec} {ref : CmdRef} (h : RowTaken s (.debugUnlockNonce p r) t ref) :
    exec (.debugUnlockNonce p r) s = .next (debugNonce r ref t) := by
  obtain ⟨p', r', m, hm, ht, rfl⟩ := h
  simp only [mailRow] at hm
  split at hm
  all_goals first
    | contradiction
    | (rename_i hc
       obtain ⟨rfl, rfl, rfl⟩ := Option.some.inj hm
       simp only [exec, execDebugUnlockNonce, hc, if_true, if_false, Bool.false_eq_true]
       exact congrArg _ (mailbox_taken _ ht))

theorem exec_debugUnlockGrant_taken {s t : State} {p : HostPort} {r : CmdRec} {ref : CmdRef} (h : RowTaken s (.debugUnlockGrant p r) t ref) :
    exec (.debugUnlockGrant p r) s = .next (debugGrant p r ref t) := by
  obtain ⟨p', r', m, hm, ht, rfl⟩ := h
  simp only [mailRow] at hm
  split at hm
  all_goals first
    | contradiction
    | (rename_i hc
       obtain ⟨rfl, rfl, rfl⟩ := Option.some.inj hm
       simp only [exec, execDebugUnlockGrant, hc, if_true, if_false, Bool.false_eq_true]
       exact congrArg _ (mailbox_taken _ ht))

end Sys2Proof.Machine
end

