-- ==== Sys2Proof/Laws/Mesh.lean ====
section
/-! SUPPORT. How a packet leaves the mesh at its destination, and what the words of a packet become in a queue. -/

namespace Sys2Proof.Machine

open Sys2Proof

theorem crc24Steps_lt (n c : Nat) : crc24Steps (n + 1) c < 2 ^ 24 := by
  induction n generalizing c with
  | zero =>
    simp only [crc24Steps]
    split <;> exact Nat.mod_lt _ (by decide)
  | succ n ih =>
    rw [crc24Steps]
    exact ih _

/-- The CRC of a packet has 24 bits. -/
theorem crc24_lt (bs : List Byte) : crc24 bs < 2 ^ 24 := by
  unfold crc24
  suffices h : ∀ (l : List Byte) (c : Nat), c < 2 ^ 24 →
      l.foldl (fun c b => crc24Steps 8 (c ^^^ (b.toNat * 2 ^ 16))) c < 2 ^ 24 from h bs _ (by decide)
  intro l
  induction l with
  | nil => intro c hc; exact hc
  | cons b l ih => intro c _; exact ih _ (crc24Steps_lt 7 _)

/-! ### What WDONE leaves alone (R298) -/

/-- WDONE is bit 7 of the header, as a number. -/
theorem setWdone_toNat (h : BitVec 128) : (setWdone h).toNat = h.toNat ||| 2 ^ 7 := by
  simp [setWdone, BitVec.toNat_or]

/-- Fields below or above bit 7 read as before. -/
theorem hf_setWdone (h : BitVec 128) {lo n : Nat} (hb : lo + n ≤ 7 ∨ 8 ≤ lo) : hf (setWdone h) lo n = hf h lo n := by
  unfold hf bits
  rw [setWdone_toNat]
  apply Nat.eq_of_testBit_eq
  intro i
  rw [Nat.testBit_mod_two_pow, Nat.testBit_mod_two_pow, Nat.testBit_div_two_pow, Nat.testBit_div_two_pow, Nat.testBit_or,
    Nat.testBit_two_pow]
  by_cases hi : i < n
  · have : ¬ (7 = i + lo) := by omega
    simp [hi, this]
  · simp [hi]

@[simp] theorem pType_setWdone (h : BitVec 128) : pType (setWdone h) = pType h := hf_setWdone h (.inl (by decide))
@[simp] theorem pVc_setWdone (h : BitVec 128) : pVc (setWdone h) = pVc h := hf_setWdone h (.inl (by decide))
@[simp] theorem pDst_setWdone (h : BitVec 128) : pDst (setWdone h) = pDst h := hf_setWdone h (.inr (by decide))
@[simp] theorem pSrc_setWdone (h : BitVec 128) : pSrc (setWdone h) = pSrc h := hf_setWdone h (.inr (by decide))
@[simp] theorem pSlate_setWdone (h : BitVec 128) : pSlate (setWdone h) = pSlate h := hf_setWdone h (.inr (by decide))
@[simp] theorem pEpoch_setWdone (h : BitVec 128) : pEpoch (setWdone h) = pEpoch h := hf_setWdone h (.inr (by decide))
@[simp] theorem pCount_setWdone (h : BitVec 128) : pCount (setWdone h) = pCount h := hf_setWdone h (.inr (by decide))
@[simp] theorem pRsv_setWdone (h : BitVec 128) : pRsv (setWdone h) = pRsv h := hf_setWdone h (.inr (by decide))
@[simp] theorem pArg_setWdone (h : BitVec 128) : pArg (setWdone h) = pArg h := hf_setWdone h (.inr (by decide))
@[simp] theorem pArg2_setWdone (h : BitVec 128) : pArg2 (setWdone h) = pArg2 h := hf_setWdone h (.inr (by decide))

@[simp] theorem pEnd_setWdone (h : BitVec 128) : pEnd (setWdone h) = pEnd h := by
  simp [pEnd, setWdone]

@[simp] theorem packetMalformed_setWdone (h : BitVec 128) : packetMalformed (setWdone h) = packetMalformed h := by
  simp [packetMalformed]

/-! ### Arrivals -/

/-- An undamaged, well-formed packet is handed to its unit. -/
theorem arrivalRow_ok {s : State} {k : ClusterId} {pl : Plane} {typ : Nat} {f : Flight}
    (unit : State → Flight → State) (h : TakesPacket s k pl typ f) :
    arrivalRow (clKey k) pl.val typ 0 0 unit s = unit (ejected s f) (handed f) := by
  obtain ⟨hf, ht, hm⟩ := h
  have hc : ∀ b, (BitVec.ofNat 32 (crc24 b) ^^^ (0 : Word)).toNat / 2 ^ 24 = 0 := by
    intro b
    have := crc24_lt b
    rw [show (BitVec.ofNat 32 (crc24 b) ^^^ (0 : Word)) = BitVec.ofNat 32 (crc24 b) from BitVec.xor_zero, BitVec.toNat_ofNat]
    omega
  have hx : setWdone f.pkt.hdr ^^^ (0 : BitVec 128) = setWdone f.pkt.hdr := BitVec.xor_zero
  unfold arrivalRow
  rw [hf]
  simp only [ht, if_true, eject]
  rw [hx, packetMalformed_setWdone, hm, hc]
  simp [ejected, handed]

/-- Send buffers that go on leave the cores alone. -/
theorem fillLocal_cores (cl plane vc n : Nat) (s : State) : (fillLocal cl plane vc n s).cores = s.cores := by
  induction n generalizing s with
  | zero => rfl
  | succ n ih =>
    unfold fillLocal
    repeat' split
    all_goals first
      | rfl
      | exact ih _

theorem injectAll_cores (s : State) : (injectAll s).cores = s.cores := by
  unfold injectAll
  generalize s.mesh.filter _ = l
  induction l generalizing s with
  | nil => rfl
  | cons f l ih => exact (ih _).trans (fillLocal_cores _ _ _ _ _)

theorem fenceStep_cores (s : State) : (fenceStep s).cores = s.cores := by
  unfold fenceStep
  repeat' split
  all_goals first
    | rfl
    | exact injectAll_cores _

/-- A packet leaving the mesh leaves the cores alone. -/
theorem leaveMesh_cores (s : State) (f : Flight) (g : RouterRegs → RouterRegs) : (leaveMesh s f g).cores = s.cores :=
  (fenceStep_cores _).trans (fillLocal_cores _ _ _ _ _)

@[simp] theorem getCore_ejected (s : State) (f : Flight) (k : Nat) : getCore (ejected s f) k = getCore s k := by
  unfold getCore ejected
  rw [leaveMesh_cores]
  rfl

/-- What stands at the front of a buffer is in that buffer. -/
theorem headOf_at {s : State} {cl pl vc : Nat} {d : PortDir} {f : Flight} (h : headOf s cl pl d vc = some f) :
    f.cl = cl ∧ f.plane = pl := by
  unfold headOf at h
  have := List.find?_some h
  simp only [Bool.and_eq_true, beq_iff_eq] at this
  simp [this]

/-- A packet granted at a router is at that router. -/
theorem granted_at {s : State} {r : Flight → Bool} {cl pl : Nat} {o : PortDir} {f : Flight} (h : granted s r cl pl o = some f) :
    f.cl = cl ∧ f.plane = pl := by
  unfold granted at h
  obtain ⟨v, _, hv⟩ := List.exists_of_findSome?_eq_some h
  have hm : ∀ (n : Nat) (l : List Flight) (b : Option Flight),
      (∀ g, b = some g → g.cl = cl ∧ g.plane = pl) → (∀ g ∈ l, g.cl = cl ∧ g.plane = pl) →
      l.foldl (fun b f => match b with
        | some g => if (portDirNo f.inp + 5 - n) % 5 < (portDirNo g.inp + 5 - n) % 5 then some f else b
        | none => some f) b = some f → f.cl = cl ∧ f.plane = pl := by
    intro n l
    induction l with
    | nil => intro b hb _ e; exact hb _ e
    | cons x l ih =>
      intro b hb hl e
      refine ih _ ?_ (fun g hg => hl g (List.mem_cons_of_mem _ hg)) e
      intro g hg
      cases b with
      | none =>
        obtain rfl := Option.some.inj hg
        exact hl _ (List.mem_cons_self ..)
      | some b =>
        dsimp only at hg
        split at hg
        · obtain rfl := Option.some.inj hg
          exact hl _ (List.mem_cons_self ..)
        · exact hb _ hg
  refine hm _ _ none (by simp) ?_ hv
  intro g hg
  unfold readyHeads at hg
  rw [List.mem_filterMap] at hg
  obtain ⟨d, _, hd⟩ := hg
  split at hd
  · rename_i h0
    split at hd
    · obtain rfl := Option.some.inj hd
      exact headOf_at h0
    · contradiction
  · contradiction

/-- The packet that a cluster takes is at that cluster. -/
theorem takesPacket_cl {s : State} {k : ClusterId} {pl : Plane} {typ : Nat} {f : Flight}
    (h : TakesPacket s k pl typ f) : f.cl = clKey k ∧ f.plane = pl.val := by
  have := h.1
  unfold arrived at this
  split at this
  · contradiction
  · exact granted_at this

/-- Words for a credited queue with room become its newest entries. -/
theorem creditedWord_fold (xs : List (Word × Bool)) (q : RxQueue) (n e : Nat) (hq : q.state = .active)
    (hl : q.entries.length + xs.length ≤ 128) :
    xs.foldl (fun a x => creditedWord a x.1 x.2) (q, n, e, false) =
      ({ q with entries := q.entries ++ xs.map fun x => ⟨x.1, x.2, false, q.epoch, 0⟩ }, n + xs.length,
        e + (xs.filter (·.2)).length, false) := by
  induction xs generalizing q n e with
  | nil => simp
  | cons x xs ih =>
    simp only [List.length_cons] at hl
    have h1 : ¬ (128 ≤ q.entries.length) := by omega
    have hstep : creditedWord (q, n, e, false) x.1 x.2 =
        ({ q with entries := q.entries ++ [⟨x.1, x.2, false, q.epoch, 0⟩] }, n + 1, e + (if x.2 then 1 else 0), false) := by
      simp [creditedWord, hq, h1]
    rw [List.foldl_cons, hstep, ih _ _ _ (by exact hq) (by simp; omega)]
    cases hx : x.2 <;> simp [hx] <;> omega

end Sys2Proof.Machine
end

