-- ==== Sys2Proof/Laws/Vault.lean ====
section
/-! SUPPORT. Laws of a vault's line CRCs (R323): which lines a renewal makes right, and that it leaves every other line alone. -/

namespace Sys2Proof.Machine

open Sys2Proof

/-- Tabulating keys into a sparse table: each key listed reads as its value, and every other key as before. -/
theorem smapGet_foldl_smapSet {α : Type} [DecidableEq α] (d : α) (f : Nat → α) (ls : List Nat) {m : SMap α} (h : smapOk d m = true)
    (l : Nat) : smapGet d (ls.foldl (fun m k => smapSet d m k (f k)) m) l = if l ∈ ls then f l else smapGet d m l := by
  induction ls generalizing m with
  | nil => simp
  | cons k ls ih =>
    have hs : smapSorted m = true := by simp_all [smapOk]
    rw [List.foldl_cons, ih (smapOk_smapSet k (f k) h)]
    by_cases hl : l ∈ ls
    · simp [hl]
    · by_cases hk : l = k
      · subst hk; simp [hl, smapGet_smapSet_self d l (f l) hs]
      · simp [hl, hk, smapGet_smapSet_other d m (f k) hk]

@[simp] theorem crcRenew_mem (v : Vault) (ls : List Nat) : (crcRenew v ls).mem = v.mem := rfl

@[simp] theorem crcRenew_imm (v : Vault) (ls : List Nat) : (crcRenew v ls).imm = v.imm := rfl

/-- The CRC held beside a line after a renewal. -/
theorem crcHeld_crcRenew {v : Vault} (ls : List Nat) (h : smapOk zeroLineCrc v.crc = true) (l : Nat) :
    crcHeld (crcRenew v ls) l = if l ∈ ls then lineCrc v.mem l else crcHeld v l :=
  smapGet_foldl_smapSet zeroLineCrc (lineCrc v.mem) ls h l

/-- A renewed line matches its CRC, and every other line matches as before. -/
theorem lineBad_crcRenew {v : Vault} (ls : List Nat) (h : smapOk zeroLineCrc v.crc = true) (l : Nat) :
    lineBad (crcRenew v ls) l = if l ∈ ls then false else lineBad v l := by
  unfold lineBad
  rw [crcHeld_crcRenew ls h, crcRenew_mem]
  split <;> simp

/-- Every line that a store touches matches its CRC afterwards (R323, R327). -/
theorem lineBad_vaultStore {v : Vault} (w : Nat) (ws : List Word) (h : smapOk zeroLineCrc v.crc = true) {l : Nat}
    (hl : l ∈ linesOf w ws.length) : lineBad (vaultStore v w ws) l = false := by
  exact (lineBad_crcRenew (v := { v with mem := ramPutWords v.mem w ws }) _ h l).trans (if_pos hl)

/-- A renewal keeps the canonical form of the CRC table. -/
theorem smapOk_crcRenew {v : Vault} (ls : List Nat) (h : smapOk zeroLineCrc v.crc = true) :
    smapOk zeroLineCrc (crcRenew v ls).crc = true := by
  unfold crcRenew
  show smapOk zeroLineCrc (ls.foldl _ v.crc) = true
  generalize v.crc = m at h
  induction ls generalizing m with
  | nil => exact h
  | cons k ls ih => exact ih _ (smapOk_smapSet k _ h)

end Sys2Proof.Machine
end

