-- ==== Sys2Proof/Tests/Slice0.lean ====
section
/-! SUPPORT. Tests: ill-formed commands, single steps with results worked out from the spec, and states that meet the
hypotheses of the statements. -/

namespace Sys2Proof.Tests

open Sys2Proof Sys2Proof.Machine

set_option maxRecDepth 20000

/-! ### States for tests -/

/-- Core (0, 0) and its cluster. -/
def c0 : CoreId := ⟨0, 0⟩

def k0 : ClusterId := ⟨0, 0⟩

/-- A list of 400 words with some of them set: a call sheet. -/
def sheetOf (l : List (Nat × Nat)) : List Word :=
  (List.range 400).map fun i => BitVec.ofNat 32 (smapGet 0 l i)

/-- A RUNNING core with a word at its PC, a call sheet of 16 program words for slate 5 with some words set, and what `f` adds. -/
def coreWith (w : Nat) (l : List (Nat × Nat)) (f : Core → Core) : Core :=
  f { Core.reset with
    mode := .running
    istore := ramPutWord .zero 0 (BitVec.ofNat 32 w)
    sheet := some (sheetOf ([(1, 16 * 2 ^ 12), (2, 5)] ++ l)) }

/-- The module with core (0, 0) as given. -/
def cue (w : Nat) (l : List (Nat × Nat)) (f : Core → Core) : State := { State.reset with cores := [(0, coreWith w l f)] }

/-- An opcode with its other bits. -/
def op (opc rest : Nat) : Nat := opc * 2 ^ 26 + rest

/-- A scene of slate 5, storyboard 3, scene 2, in cluster (0, 0), with core (0, 0) in slot 0. -/
def scene0 : Scene :=
  { sbn := 3, idx := 2, part := 0, phase := .running, stage := 3, number := 0x3002, epoch := 1, slots := [5], runs := [0]
    cores := [(0, 0, 0)], region := [0], nedge := 1, marks := 0, kf := .inPlace, latest := none, area := 0, copying := none
    replay := none, cut := false, cmd := ⟨.A, 0x0302, 5, 0⟩, replays := 0, residual := 0, progress := false, lastProgress := 0
    hung := false, winCount := [], winMark := [], restoring := false, frameMark := [] }

/-- The same with the scene admitted and the core in it. -/
def cueIn (w : Nat) (l : List (Nat × Nat)) (f : Core → Core) : State :=
  { cue w l fun c => f { c with scene := some (3, 2) } with scenes := [scene0] }

/-- Four words of a handle: LOCAL with every permission, or a space with a target, for slate 5. -/
def handle (h w0 base len target : Nat) : List (Nat × Nat) :=
  [(136 + 4 * h, w0 + 5 * 2 ^ 8), (137 + 4 * h, base), (138 + 4 * h, len), (139 + 4 * h, target)]

/-! ### Witnesses: the cue core -/

theorem witness_ScalarResults_twoRegisters :
    ∀ o ∈ [0x01, 0x02, 0x03, 0x04, 0x05, 0x06, 0x07, 0x08, 0x09, 0x0A, 0x0B, 0x0C, 0x0D],
      CueAt (cue (op o 0x3FFC000) [] id) c0 o (op o 0x3FFC000) ∧ NextInside (cue (op o 0x3FFC000) [] id) c0 := by
  unfold CueAt NextInside; decide

theorem witness_ScalarResults_others :
    (∀ o ∈ [0x10, 0x11, 0x12, 0x13, 0x18], CueAt (cue (op o 0x3FFFFFF) [] id) c0 o (op o 0x3FFFFFF)
      ∧ NextInside (cue (op o 0x3FFFFFF) [] id) c0)
    ∧ (∀ o ∈ [0x14, 0x15, 0x16], CueAt (cue (op o 0x3FC001F) [] id) c0 o (op o 0x3FC001F)
      ∧ NextInside (cue (op o 0x3FC001F) [] id) c0)
    ∧ (∀ q ∈ [(0x00, 0), (0x17, 0x3C3FFFF), (0x19, 0x3DC0000), (0x1B, 0x3FC0000)],
      CueAt (cue (op q.1 q.2) [] id) c0 q.1 (op q.1 q.2) ∧ NextInside (cue (op q.1 q.2) [] id) c0) := by
  unfold CueAt NextInside; decide

theorem witness_RegisterReadResults :
    ∀ q ∈ [(0x1A, 0x3C00FFC), (0x34, 0x3C3C000), (0x34, 0x3C3C001)],
      CueAt (cue (op q.1 q.2) [] id) c0 q.1 (op q.1 q.2) ∧ NextInside (cue (op q.1 q.2) [] id) c0 := by
  unfold CueAt NextInside; decide

theorem witness_CounterWriteResults :
    ∀ q ∈ [(0x24, 0x3FC0000), (0x25, 0x3C3FFFF), (0x26, 0x3C1FFFF), (0x26, 0x3C20000), (0x26, 0)],
      CueAt (cue (op q.1 q.2) [] id) c0 q.1 (op q.1 q.2) ∧ NextInside (cue (op q.1 q.2) [] id) c0 := by
  unfold CueAt NextInside; decide

/-- A core whose g1 is 1 and whose last program address is next. -/
def g1One (w : Nat) : State := cue w [] fun c => { c with g := c.g.set 1 1 }

theorem witness_BranchResults :
    (CueAt (cue (op 0x38 15) [] id) c0 0x38 (op 0x38 15) ∧ BranchHolds (coreOf (cue (op 0x38 15) [] id) c0) (op 0x38 15))
    ∧ (CueAt (cue (op 0x38 0x100F) [] id) c0 0x38 (op 0x38 0x100F)
      ∧ ¬ BranchHolds (coreOf (cue (op 0x38 0x100F) [] id) c0) (op 0x38 0x100F))
    ∧ CueAt (cue (op 0x39 15) [] id) c0 0x39 (op 0x39 15) ∧ 15 < sheetPlen (coreOf (cue (op 0x39 15) [] id) c0)
    ∧ CueAt (cue (op 0x3A 0x000F) [] id) c0 0x3A (op 0x3A 0x000F)
    ∧ gReg (coreOf (cue (op 0x3A 0x000F) [] id) c0) 0 - 1 ≠ 0
    ∧ CueAt (g1One (op 0x3A 0x40000F)) c0 0x3A (op 0x3A 0x40000F)
    ∧ gReg (coreOf (g1One (op 0x3A 0x40000F)) c0) 1 - 1 = 0 := by
  refine ⟨⟨by unfold CueAt; decide, ?_⟩, ⟨by unfold CueAt; decide, ?_⟩, by unfold CueAt; decide⟩
  · show (_ : Word) = _; decide
  · show ¬ (_ : Word) ≠ _; decide

/-- A core whose counter 0 has the threshold 1, with a wait. -/
def short (w : Nat) (wt : CueWait) : State := cue w [] fun c => { c with cthr := c.cthr.set 0 1, wait := wt }

theorem witness_WaitResults :
    (∀ q ∈ [(0x27, 1), (0x28, 0), (0x29, 1)], CueAt (cue (op q.1 q.2) [] id) c0 q.1 (op q.1 q.2)
      ∧ WaitReached (coreOf (cue (op q.1 q.2) [] id) c0) (op q.1 q.2))
    ∧ (∀ q ∈ [(0x27, 1), (0x28, 1), (0x29, 1), (0x29, 0x40001)],
      CueAt (short (op q.1 q.2) .none) c0 q.1 (op q.1 q.2)
      ∧ ¬ WaitReached (coreOf (short (op q.1 q.2) .none) c0) (op q.1 q.2))
    ∧ gReg (coreOf (short (op 0x29 1) .none) c0) 0 = 0
    ∧ (let s := cue (op 0x29 0x40001) [] fun c => { c with cthr := c.cthr.set 0 1, g := c.g.set 1 9 };
      CueAt s c0 0x29 (op 0x29 0x40001) ∧ gReg (coreOf s c0) 1 ≠ 0 ∧ ¬ WaitReached (coreOf s c0) (op 0x29 0x40001))
    ∧ (let s := cue (op 0x27 1) [] fun c => { c with wait := .counters };
      (coreOf s c0).wait = .counters ∧ (coreOf s c0).mode = .running ∧ NextInside s c0
        ∧ WaitReached (coreOf s c0) (cueWord (coreOf s c0)))
    ∧ (let s := cue (op 0x29 1) [] fun c => { c with wait := .timed };
      (coreOf s c0).wait = .timed ∧ WaitReached (coreOf s c0) (cueWord (coreOf s c0)))
    ∧ (coreOf (short (op 0x29 1) .timed) c0).wait = .timed
    ∧ ¬ WaitReached (coreOf (short (op 0x29 1) .timed) c0) (cueWord (coreOf (short (op 0x29 1) .timed) c0)) := by
  unfold CueAt WaitReached MaskReached NextInside; decide

/-- LD and ST through handle 0: LOCAL, CLUSTER, cached CLUSTER. -/
def ldst (o w0 len : Nat) : State := cueIn (op o 0) (handle 0 w0 0 len 0) id

theorem witness_LoadStoreResults :
    (∀ w0 ∈ [0x19, 0x1A, 0x5A], ∀ q ∈ [(0x20, false), (0x21, true)],
      let s := ldst q.1 w0 1;
      let co := coreOf s c0;
      CueAt s c0 q.1 (op q.1 0) ∧ handleCheck s 0 co 0 .ldst (if q.2 then .w else .r) (spanOf 0 1) = none
        ∧ sbConflict co [rngOf co 0 (spanOf 0 1) q.2] = false ∧ badWord co.sp 0 1 = none ∧ NextInside s c0)
    ∧ ((hEntry (coreOf (ldst 0x20 0x19 1) c0) 0).space = 1 ∧ (hEntry (coreOf (ldst 0x20 0x1A 1) c0) 0).space = 2
      ∧ (hEntry (coreOf (ldst 0x20 0x1A 1) c0) 0).cached = false ∧ (hEntry (coreOf (ldst 0x20 0x5A 1) c0) 0).cached = true)
    ∧ (cacheRead (ldst 0x20 0x5A 1) 0 2 0 0 1 stopCue).2 = .ok [0]
    ∧ (coreOf (cacheRead (ldst 0x20 0x5A 1) 0 2 0 0 1 stopCue).1 c0).mode = .running
    ∧ NextInside (cacheRead (ldst 0x20 0x5A 1) 0 2 0 0 1 stopCue).1 c0
    ∧ NextInside (cacheWrite (ldst 0x21 0x5A 1) 0 2 0 0 [0]) c0 := by
  unfold CueAt NextInside; decide

/-- Edge 0 present, to queue 0 of core (1, 0), credited when `cr` is 2; edge words 104 and 105. -/
def sending (o cr : Nat) (ctr : Word) : State :=
  cueIn (op o 0) ([(104, 1), (105, 1 + cr)] ++ handle 0 0x19 0 1 0) fun c =>
    { c with cbind := c.cbind.set 0 3, c := c.c.set 0 ctr }

theorem witness_SendResults :
    (∀ q ∈ [(0x30, 0, (0 : Word)), (0x30, 2, 1)], CueAt (sending q.1 q.2.1 q.2.2) c0 0x30 (op 0x30 0)
      ∧ creditOk (coreOf (sending q.1 q.2.1 q.2.2) c0) 0 1 = true ∧ NextInside (sending q.1 q.2.1 q.2.2) c0)
    ∧ (CueAt (sending 0x31 0 0) c0 0x31 (op 0x31 0) ∧ creditOk (coreOf (sending 0x31 0 0) c0) 0 1 = true
      ∧ handleCheck (sending 0x31 0 0) 0 (coreOf (sending 0x31 0 0) c0) 0 .queue .r (spanOf 0 1) = none
      ∧ edgeRate (coreOf (sending 0x31 0 0) c0) 0 = 1
      ∧ (memRead (sending 0x31 0 0) 0 (hEntry (coreOf (sending 0x31 0 0) c0) 0) 0 1 false stopCue).2 = .ok [0])
    ∧ (∀ o ∈ [0x30, 0x31], CueAt (sending o 2 0) c0 o (op o 0) ∧ creditOk (coreOf (sending o 2 0) c0) 0 1 = false) := by
  unfold CueAt NextInside; decide

/-- Queue 0 present and ACTIVE with one word, or none. -/
def receiving (o : Nat) (es : List QEntry) : State :=
  cueIn (op o 0) ([(72, 1)] ++ handle 0 0x19 0 1 0) fun c =>
    { c with queues := c.queues.set 0 { RxQueue.reset with state := .active, slate := 5, entries := es } }

theorem witness_ReceiveResults :
    ∀ es ∈ [[], [⟨7, false, false, 0, 0⟩]], ∀ o ∈ [0x32, 0x33],
      let s := receiving o es;
      CueAt s c0 o (op o 0) ∧ popBad (coreOf s c0) 0 1 = none ∧ queueRate (coreOf s c0) 0 = 1
        ∧ handleCheck s 0 (coreOf s c0) 0 .queue .w (spanOf 0 1) = none
        ∧ sbConflict (coreOf s c0) [rngOf (coreOf s c0) 0 (spanOf 0 1) true] = false ∧ (hEntry (coreOf s c0) 0).space = 1
        ∧ NextInside s c0 ∧ (getQ (coreOf s c0) 0).window = none ∧ (getQ (coreOf s c0) 0).pending = none
        ∧ (getQ (coreOf s c0) 0).entries = es ∧ ∀ e ∈ es, e.gap = false ∧ e.badLanes = 0 := by
  unfold CueAt NextInside; decide

/-- Clapper 0 of cluster (0, 0) for slate 5 with `n` participants in phase `ph`. -/
def clapping (o n ph : Nat) : State :=
  { cueIn (op o 0) [] id with clusters := [(0, { Cluster.reset with
      mem := ramPutWords .zero cmWords [BitVec.ofNat 32 n, BitVec.ofNat 32 (ph + 5 * 2 ^ 16)] })] }

theorem witness_ClapperInstructionResults :
    (CueAt (clapping 0x36 2 0) c0 0x36 (op 0x36 0) ∧ clapBad (clapping 0x36 2 0) (coreOf (clapping 0x36 2 0) c0) 0 = false)
    ∧ (∀ ph ∈ [0, 1], CueAt (clapping 0x37 2 ph) c0 0x37 (op 0x37 0)
      ∧ clapBad (clapping 0x37 2 ph) (coreOf (clapping 0x37 2 ph) c0) 0 = false ∧ clapError (clapping 0x37 2 ph) 0 = none
      ∧ bits (clapW1 (clapping 0x37 2 ph) 0) 0 16 = ph)
    ∧ (∀ o ∈ [0x36, 0x37], CueAt (clapping o 0 0) c0 o (op o 0)
      ∧ clapBad (clapping o 0 0) (coreOf (clapping o 0 0) c0) 0 = true) := by
  unfold CueAt; decide

theorem witness_FenceHaltEventAndHold :
    (∀ o ∈ [0x3D, 0x3B, 0x3C], CueAt (cue (op o 0) [] id) c0 o (op o 0) ∧ NextInside (cue (op o 0) [] id) c0)
    ∧ (∀ wt ∈ [CueWait.fence, .halt], let s := cue (op 0x3D 0) [] fun c => { c with wait := wt };
      (coreOf s c0).wait = wt ∧ localDone s 0 = true ∧ writeBacksDone (cacheFlush s 0) 0 = true
        ∧ NextInside (cacheFlush s 0) c0)
    ∧ (let s := cue 0 [(3, 10)] id;
      (coreOf s c0).mode = .running ∧ sheetWdExp (coreOf s c0) = 10 ∧ (coreOf s c0).wdCycles < 2 ^ 10)
    ∧ (coreOf (cue 0 [] fun c => { c with order := true }) c0).order = true := by
  unfold CueAt NextInside; decide

theorem witness_CueFetchTraps :
    (let s := cue 0 [] fun c => { c with istore := { c.istore with bad := [3] } };
      ramLanes (coreOf s c0).istore 0 = 8 ∧ (coreOf s c0).mode = .running ∧ (coreOf s c0).wait = .none)
    ∧ (∀ w ∈ [op 0x3F 0, op 0x01 1, op 0x1A 2, op 0x38 0x8000, op 0x3C 0x300],
      cueIllegal (coreOf (cue w [] id) c0) (cueWord (coreOf (cue w [] id) c0)) = true
        ∧ ramLanes (coreOf (cue w [] id) c0).istore 0 = 0) := by
  decide

theorem witness_RangeViolationsFreeze :
    (let s := setCore State.reset 0 { coreWith 0 [] id with sheet := some (sheetOf [(1, 2 ^ 12)]) };
      CueAt s c0 0x00 0 ∧ ¬ NextInside s c0)
    ∧ (CueAt (cue (op 0x39 16) [] id) c0 0x39 (op 0x39 16) ∧ sheetPlen (coreOf (cue (op 0x39 16) [] id) c0) = 16)
    ∧ CueAt (cue (op 0x38 16) [] id) c0 0x38 (op 0x38 16) := by
  unfold CueAt NextInside; decide

theorem witness_ComparisonByValue :
    ((-127 : Int) ≤ 5 ∧ (-127 : Int) ≤ -127)
    ∧ lanePred 2 (.fin 3 5) (.fin 97 0) = true ∧ lanePred 0 (.fin 3 5) (.fin 96 0) = true
    ∧ laneMinMax false (.fin 3 5) (.fin 96 0) = .fin 3 5 := by
  decide

/-! ### Witnesses: issue and the engines -/

/-- A scratchpad with records at word addresses. -/
def spWith (l : List (Nat × List Nat)) : Ram :=
  l.foldl (fun m q => ramPutWords m q.1 (q.2.map (BitVec.ofNat 32))) .zero

/-- Zeroes up to 16 words. -/
def padRec (l : List Nat) : List Nat := l ++ List.replicate (16 - l.length) 0

/-- A descriptor at word 16, its chain at 32 and its strides at 48, all zero, and a fused one at 64. -/
def issuing (o : Nat) (ws fw : List Nat) (f : Core → Core) : State :=
  cueIn (op o 16) (handle 0 0x39 0 262144 0) fun c => f { c with sp := spWith [(16, padRec ws), (64, padRec fw)] }

def words16 (l : List Nat) : List Word := (padRec l).map (BitVec.ofNat 32)

/-- A DMA fill of one word, an integer vector copy of 4 elements, a matrix product of one element, and the same fused. -/
def dmaD : List Nat := [0x13, 0, 0, 512, 1 + 2 ^ 16, 0, 0, 7, 600]
def vxD : List Nat := [2 + 256, 4 + 2 ^ 16, 1 + 2 ^ 16, 0, 0, 0x505, 512, 0, 600, 0, 32 + 48 * 2 ^ 16]
def mxD : List Nat := [1 + 2 ^ 17, 1 + 2 ^ 16, 1, 0, 512, 0, 2800, 1024]
def mxF : List Nat := [1 + 3 * 2 ^ 11 + 2 ^ 17 + 2 ^ 19, 1 + 2 ^ 16, 1, 0, 512, 0, 2800, 1024, 0, 0, 0, 0, 0, 0, 64]
def vxF : List Nat := [2, 128 + 2 ^ 16, 1 + 2 ^ 16, 0, 0, 0x404, 0, 0, 600, 0, 32 + 48 * 2 ^ 16]

theorem witness_IssueResults :
    (∀ q ∈ [(0x2E, dmaD), (0x2D, vxD), (0x2C, mxD)], let s := issuing q.1 q.2 [] id;
      CueAt s c0 q.1 (op q.1 16) ∧ RecordAt (coreOf s c0) 16 (words16 q.2) ∧ descAddr (coreOf s c0) (op q.1 16) = 16
        ∧ NextInside s c0)
    ∧ (let s := issuing 0x2E dmaD [] id;
      dmaMalformed (coreOf s c0) (words16 dmaD) = none ∧ OperandsFree s c0 (dmaOperands (words16 dmaD)))
    ∧ (let s := issuing 0x2D vxD [] id;
      RecordAt (coreOf s c0) 32 (words16 []) ∧ RecordAt (coreOf s c0) 48 (words16 [])
        ∧ vxMalformed (coreOf s c0) (words16 vxD) (words16 []) (words16 []) false = none
        ∧ OperandsFree s c0 (vxOperands (coreOf s c0) (words16 vxD) (words16 []) false))
    ∧ (let s := issuing 0x2C mxD [] id;
      mxMalformed (words16 mxD) 0 = none ∧ OperandsFree s c0 (mxOperands (newMx 0 16 (words16 mxD)))) := by
  unfold CueAt RecordAt OperandsFree NextInside; decide

theorem witness_IssueResults_fused : let s := issuing 0x2C mxF vxF id;
    CueAt s c0 0x2C (op 0x2C 16) ∧ RecordAt (coreOf s c0) 16 (words16 mxF) ∧ RecordAt (coreOf s c0) 64 (words16 vxF)
      ∧ df (words16 mxF) 0 18 2 = 2 ∧ df (words16 mxF) 14 0 16 = 64
      ∧ mxMalformed (words16 mxF) ((words16 vxF).getD 0 0) = none
      ∧ vxMalformed (coreOf s c0) (words16 vxF) (words16 []) (words16 []) true = none
      ∧ fusedMalformed (words16 vxF) (mxM (newMx 0 16 (words16 mxF)) * mxNt (newMx 0 16 (words16 mxF))) = none
      ∧ operandsBad s 0 (coreOf s c0) (mxOperands (newMx 0 16 (words16 mxF))) = none
      ∧ operandsBad s 0 (coreOf s c0) (vxOperands (coreOf s c0) (words16 vxF) (words16 []) true) = none
      ∧ OperandsFree s c0 (mxOperands (newMx 0 16 (words16 mxF)) ++ vxOperands (coreOf s c0) (words16 vxF) (words16 []) true) := by
  unfold CueAt RecordAt OperandsFree; decide

/-- A DMA run of the fill. -/
def dmaRun (row : Nat) : DmaRun := ⟨0, 16, words16 dmaD, row, 0, [], [], 0, false, false, false⟩

theorem witness_IssueRefusalsAndWaits :
    (∀ o ∈ [0x2C, 0x2D, 0x2E], CueAt (cue (op o 1) [] id) c0 o (op o 1) ∧ descAddr (coreOf (cue (op o 1) [] id) c0) (op o 1) = 1)
    ∧ (let s := issuing 0x2E [4] [] id;
      CueAt s c0 0x2E (op 0x2E 16) ∧ RecordAt (coreOf s c0) 16 (words16 [4]) ∧ dmaMalformed (coreOf s c0) (words16 [4]) = some 0)
    ∧ (let s := issuing 0x2E dmaD [] fun c => { c with sbEntries := [⟨0, 1, 0, 512, 512, true⟩] };
      CueAt s c0 0x2E (op 0x2E 16) ∧ RecordAt (coreOf s c0) 16 (words16 dmaD)
        ∧ operandsBad s 0 (coreOf s c0) (dmaOperands (words16 dmaD)) = none
        ∧ sbConflict (coreOf s c0) (operandRngs (coreOf s c0) (dmaOperands (words16 dmaD))) = true)
    ∧ (let s := issuing 0x2E dmaD [] fun c => { c with dma := [dmaRun 0, dmaRun 0] };
      CueAt s c0 0x2E (op 0x2E 16) ∧ RecordAt (coreOf s c0) 16 (words16 dmaD) ∧ OperandsFree s c0 (dmaOperands (words16 dmaD))
        ∧ (coreOf s c0).dma.length = 2)
    ∧ (∀ q ∈ [(0x2C, CueWait.slot), (0x2D, .slot), (0x2E, .slot), (0x20, .score), (0x21, .score), (0x2E, .score)],
      let s := cue (op q.1 0) [] fun c => { c with wait := q.2 };
      (coreOf s c0).mode = .running ∧ (coreOf s c0).wait = q.2
        ∧ CueAt (setCore s 0 { coreOf s c0 with wait := .none }) c0 q.1 (op q.1 0)) := by
  unfold CueAt RecordAt OperandsFree; decide

/-- The module with core (0, 0), its handles and what `f` adds. -/
def engine (f : Core → Core) : State := cueIn 0 (handle 0 0x39 0 262144 0 ++ handle 1 0x1D 0 262144 2 ++ handle 2 0x3A 0 262144 0) f

/-- A matrix run of one element, or with its weights behind handle 1 in REEL space. -/
def mxRun : MxRun := newMx 0 16 (words16 mxD)
def mxReel : MxRun := newMx 0 16 (words16 [1 + 2 ^ 17, 1 + 2 ^ 16, 1, 2 ^ 12, 512, 0, 2800, 1024])

/-- A tile of that run in slot 0. -/
def tile0 (bs : List Byte) (res : Bool) (v : Option Nat) : Tile := ⟨0, 0, 0, 0, 0, [0], bs, res, v, [], 0, 0⟩

theorem witness_WeightTileSteps_first :
    let s := engine fun c => { c with mx := [mxRun] };
    (coreOf s c0).mode = .running ∧ (coreOf s c0).mxStop = 0 ∧ (coreOf s c0).tiles = [] ∧ (coreOf s c0).mx = [mxRun]
      ∧ mxRun.ldN < mxNt mxRun ∧ mxKstep mxRun = 0 ∧ df mxRun.words 3 12 6 = 0 ∧ (hEntry (coreOf s c0) 0).space ≠ 5 := by
  decide

theorem witness_WeightTileSteps_resident :
    (∀ d ∈ [mxRun, mxReel], let t := tile0 [] false none;
      let s := engine fun c => { c with mx := [d], tiles := [t] };
      loadingTiles (coreOf s c0) = [t] ∧ t.violation = none ∧ t.half = d.ldH
        ∧ ((coreOf s c0).mx.find? fun e => e.op == t.op) = some d ∧ t.reads = [] ∧ t.total ≤ t.next)
    ∧ mxTileWaits (coreOf (engine fun c => { c with mx := [mxRun], tiles := [tile0 [] true (some 1)] }) c0) mxRun = false := by
  decide

theorem witness_WeightTileSteps :
    (mxLoader (coreOf (engine fun c => { c with mx := [mxRun] }) c0) = some mxRun
      ∧ freeSlots (coreOf (engine fun c => { c with mx := [mxRun] }) c0) 0 1 = some [[0]]
      ∧ ldHalves (engine fun c => { c with mx := [mxRun] }) 0 mxRun = 1
      ∧ (hEntry (coreOf (engine id) c0) 0).space = 1)
    ∧ (mxLoader (coreOf (engine fun c => { c with mx := [mxReel] }) c0) = some mxReel
      ∧ ldHalves (engine fun c => { c with mx := [mxReel] }) 0 mxReel = 1 ∧ (hEntry (coreOf (engine id) c0) 1).space = 5
      ∧ df mxReel.words 3 12 6 = 1 ∧ reelOrderBad (coreOf (engine id) c0) 1 1024 = false
      ∧ (newTiles mxReel [[0]] (ldTotal mxReel)).length = 1)
    ∧ (let s := engine fun c => { c with mx := [mxRun], tiles := [tile0 [] false none] };
      loadingTiles (coreOf s c0) = [tile0 [] false none]
        ∧ (loadBytes s 0 mxRun (hEntry (coreOf s c0) 0) 1024).2.isSome = true)
    ∧ (let s := engine fun c => { c with mx := [mxReel], tiles := [tile0 [] false none] };
      loadingTiles (coreOf s c0) = [tile0 [] false none] ∧ (tile0 [] false none).reads = [])
    ∧ mxDue (coreOf (engine fun c => { c with mx := [mxRun], tiles := [tile0 [] true (some 1)] }) c0)
      = some (mxRun, tile0 [] true (some 1)) := by
  decide

/-- An engine with a pass due, or with a gather row due. -/
def passing (form : Byte) : State := engine fun c => { c with mx := [mxRun], tiles := [tile0 [form] true none] }

theorem witness_MatrixRowSteps :
    (∀ q ∈ [((0 : Byte), false), (2, true)], mxEnters (coreOf (passing q.1) c0) q.2 = some (mxRun, tile0 [q.1] true none)
      ∧ mxParity (coreOf (passing q.1) c0) mxRun (tile0 [q.1] true none) = none
      ∧ (mxReadRow (passing q.1) 0 mxRun 0 0 (tileSpan [q.1])).2.isSome = true
      ∧ mxChecked (coreOf (passing q.1) c0) mxRun = true ∧ (coreOf (passing q.1) c0).mode = .running) := by
  decide

/-- A matrix run that is done or has a row due, to memory or to a fused descriptor. -/
def mxDone (ws : List Nat) (due : List (Nat × Nat × Nat)) : MxRun := { newMx 0 16 (words16 ws) with admitted := true, due := due }

/-- A product with A48 output, to a handle. -/
def mxA (h : Nat) : List Nat := [1 + 3 * 2 ^ 11 + 2 ^ 17, 1 + 2 ^ 16, 1, h * 2 ^ 18, 512, 0, 2800, 1024]

theorem witness_MatrixOutputSteps_A48 :
    ∀ q ∈ [(0, (1 : Nat)), (2, 2)],
      let d := mxDone (mxA q.1) [(0, 0, 0)];
      let s := engine fun c => { c with mx := [d] };
      mxFirstDue (coreOf s c0) = some (d, (0, 0, 0)) ∧ mxTgt d ≠ 2 ∧ mxOf d = 3
        ∧ laneBad (coreOf s c0).accBad (mxAccRow d + 0) = false ∧ (hEntry (coreOf s c0) (df d.words 3 18 6)).space = q.2 := by
  decide

/-- A vector run, fused or not, begun or not. -/
def vxRun (ws : List Nat) (fu : Option Nat) (b : Bool) : VxRun :=
  { newVx 1 16 (words16 ws) (words16 []) (words16 []) fu with begun := b }

theorem witness_MatrixOutputSteps :
    (let s := engine fun c => { c with mx := [mxDone mxD [(0, 0, 0)]] };
      mxFirstDue (coreOf s c0) = some (mxDone mxD [(0, 0, 0)], (0, 0, 0)) ∧ mxTgt (mxDone mxD []) ≠ 2
        ∧ laneBad (coreOf s c0).accBad 0 = false)
    ∧ (let s := engine fun c => { c with mx := [mxDone mxF [(0, 0, 0)]], vx := [vxRun vxF (some 1) true] };
      mxFirstDue (coreOf s c0) = some (mxDone mxF [(0, 0, 0)], (0, 0, 0)) ∧ mxTgt (mxDone mxF []) = 2
        ∧ fusedTaking (coreOf s c0) = true ∧ (coreOf s c0).fusedRows = [])
    ∧ (let s := engine fun c => { c with mx := [mxDone mxD []] };
      (coreOf s c0).mx = [mxDone mxD []] ∧ (mxDone mxD []).first = none)
    ∧ vxFusedReady (coreOf (engine fun c => { c with vx := [vxRun vxF (some 1) false] }) c0) = some (vxRun vxF (some 1) false) := by
  decide

/-- An EXPAND of one tile of format 0. -/
def vxE : List Nat := [2 + 2 * 2 ^ 4, 1 + 2 ^ 16, 1 + 2 ^ 16, 0, 0, 0x400, 512, 0, 100000, 0, 32 + 48 * 2 ^ 16]

/-- A core with the vector run `d`, and bytes at its tile. -/
def vectoring (d : VxRun) (hd : List Nat) : State :=
  engine fun c => { c with vx := [d], sp := spWith [(512, hd)] }

theorem witness_VectorSteps :
    (vxReady (coreOf (vectoring (vxRun vxD none false) []) c0) = some (vxRun vxD none false) ∧ vxMode (words16 vxD) = 0)
    ∧ (vxReady (coreOf (vectoring (vxRun vxE none false) []) c0) = some (vxRun vxE none false) ∧ vxMode (words16 vxE) = 2
      ∧ ((vxTile (vectoring (vxRun vxE none false) []) 0 (vxRun vxE none false) 0 0).2.map
          fun bs => (vxTileReason (vxRun vxE none false) bs 0).isSome) = some true)
    ∧ (let d := { vxRun vxD none true with allRead := true };
      (coreOf (engine fun c => { c with vx := [d] }) c0).vx = [d] ∧ d.declFail = none
        ∧ (coreOf (engine fun c => { c with vx := [d] }) c0).vxOut = []) := by
  decide

theorem witness_VectorSteps_chunk :
    let d := vxRun vxD none false;
    let s := vectoring d [];
    vxMode d.words = 0 ∧ vxI1En d.words = false ∧ vxSegm d.words = 0 ∧ (vxI0 s 0 d (vxLive d (vxFusedM d))).2.isSome = true := by
  decide

/-- The same with the handle that ends after the header of a DENSE tile of format 0, LEN 17424, whose bytes sum to 0. -/
def headed : State :=
  cueIn 0 (handle 0 0x39 0 516 0) fun c => { c with vx := [vxRun vxE none false], sp := spWith [(512, [0x10, 0, 0x4410, 0x9C000000])] }

theorem witness_VectorSteps_tile :
    vxReady (coreOf headed c0) = some (vxRun vxE none false)
    ∧ ((vxTile headed 0 (vxRun vxE none false) 0 0).2.map
        fun bs => (vxTileReason (vxRun vxE none false) bs 0).isNone) = some true
    ∧ (coreOf (engine fun c => { c with vxOut := [⟨0, 0, 0, []⟩] }) c0).vxOut ≠ [] := by
  decide

theorem witness_DmaSteps :
    (let s := engine fun c => { c with dma := [dmaRun 0] };
      (coreOf s c0).dma = [dmaRun 0] ∧ (dmaRun 0).row < bits ((dmaRun 0).words.getD 4 0).toNat 16 16
        ∧ (coreOf s c0).mode = .running ∧ (dmaRun 0).off = 0 ∧ bits ((dmaRun 0).words.getD 4 0).toNat 0 16 = 1
        ∧ (hEntry (coreOf s c0) (dmDst (dmaRun 0).words)).space = 1 ∧ dmFill (dmaRun 0).words = true)
    ∧ (let d : DmaRun := { dmaRun 0 with words := words16 [3, 0, 0, 512, 1 + 2 ^ 16] };
      dmFill d.words = false ∧ (hEntry (coreOf (engine id) c0) (dmSrc d.words)).space = 1
        ∧ badWord (coreOf (engine fun c => { c with dma := [d] }) c0).sp 0 1 = none)
    ∧ (∀ r ∈ [0, 1], let d : DmaRun := { dmaRun r with words := words16 [0x13, 0, 0, 512, 1 + 2 ^ 16, 0, 0, 7, 600, 16] };
      let s := engine fun c => { c with dma := [d] };
      dmaTimed (coreOf s c0) = [d] ∧ (coreOf s c0).dma.head? = some d ∧ (dmaCanComplete s (coreOf s c0) d = true ↔ r = 1))
    ∧ (let d : DmaRun := { dmaRun 0 with words := words16 [0x13, 0, 0, 512, 1 + 2 ^ 16, 0, 0, 7, 600, 16] };
      let s := engine fun c => { c with dma := [d, { d with op := 1 }] };
      dmaTimed (coreOf s c0) = [d, { d with op := 1 }] ∧ dmaCanComplete s (coreOf s c0) d = false)
    ∧ (let s := engine fun c => { c with dma := [dmaRun 1] };
      dmaCanComplete s (coreOf s c0) (dmaRun 1) = true ∧ dmaStatusOf (dmaRun 1) = 0 ∧ dmFill (dmaRun 1).words = true) := by
  decide

/-! ### Witnesses: the mesh -/

/-- A packet of a type at cluster `cl`, on its way from core (8, 0) to the core of a key, of slate 5 and epoch `ep`. -/
def flight (cl typ dst ep arg arg2 note : Nat) (pay : List Word) : Flight :=
  ⟨cl, 0, .e, ⟨mkHdr typ ⟨0, 0, dst, 4096, 5, ep⟩ (pay.length % 256) false arg arg2, pay, note⟩, none⟩

theorem witness_RouterForwardResults :
    (∀ q ∈ [(0, 4096, PortDir.e, 1), (1, 0, .w, 0), (0, 8, .n, 64), (64, 0, .s, 0)],
      let f := flight q.1 0 q.2.1 0 0 0 0 [7];
      let s := { State.reset with mesh := [f] };
      isDark s q.1 = false ∧ headOf s q.1 0 .e 0 = some f ∧ granted s (linkReady s q.2.2.1) f.cl f.plane q.2.2.1 = some f
        ∧ routeEntry s f.plane f.cl (clOf (pDst f.pkt.hdr)) (pWdone f.pkt.hdr) = some q.2.2.1
        ∧ beyond f.cl q.2.2.1 = some q.2.2.2 ∧ isDark s q.2.2.2 = false)
    ∧ (let f := flight 0 0 4096 0 0 0 0 [7];
      let g := { f with inp := .n, pkt := { f.pkt with payload := [8] } };
      let s := { State.reset with mesh := [f, g] };
      headOf s 0 0 .e 0 = some f ∧ headOf s 0 0 .n 0 = some g ∧ routeEntry s 0 0 1 false = some .e
        ∧ (granted s (linkReady s .e) 0 0 .e ≠ some f ∨ granted s (linkReady s .e) 0 0 .e ≠ some g))
    ∧ (let f : Flight := ⟨1, 0, .e, ⟨mkHdr 0 ⟨0, 0, 0, 4096, 5, 0⟩ 1 false 0 0 ||| 0x80, [7], 0⟩, none⟩;
      let s := { State.reset with mesh := [f] };
      headOf s 1 0 .e 0 = some f ∧ routeEntry s 0 1 0 true = none ∧ pWdone f.pkt.hdr = true)
    ∧ (let f := flight 0 0 4096 0 0 0 0 [7];
      let s := { State.reset with mesh := [f], clusters := [(1, { Cluster.reset with dark := .tripped })] };
      headOf s 0 0 .e 0 = some f ∧ routeEntry s 0 0 1 false = some .e ∧ isDark s 1 = true)
    ∧ (let f := flight 0 0 0 0 0 0 0 [7];
      let s := { State.reset with mesh := [f] };
      headOf s 0 0 .e 0 = some f ∧ routeEntry s 0 0 0 false = some .loc)
    ∧ (let f := flight 0 0 4096 0 0 0 0 [7];
      let s := { State.reset with mesh := [f] };
      granted s (fun _ => true) 0 0 .e = some f ∧ readyHeads s (fun _ => true) 0 0 .e 0 ≠ [])
    ∧ (let f : Flight := { flight 0 9 4096 0 0 0 0 [] with pkt := ⟨mkHdr 9 ⟨2, 0, 4096, 4096, 5, 0⟩ 0 false 0 0, [], 0⟩ };
      let s := { State.reset with mesh := [f] };
      (granted s (fun _ => true) 0 0 .e).isSome = true ∧ readyHeads s (fun _ => true) 0 0 .e 0 = []
        ∧ readyHeads s (fun _ => true) 0 0 .e 2 ≠ [] ∧ ∀ v < 4, (arbOf s 0 0 .e).age.getD v 0 < 32)
    ∧ State.reset.routeFence = none
    ∧ (let f := { flight 0 0 4096 0 0 0 0 [7] with pkt := ⟨mkHdr 0 ⟨0, 0, 4096, 0, 5, 0⟩ 1 false 0 0, [7], 0⟩ };
      let s := { State.reset with mesh := [f], routeFence := some [1] };
      fenceWaits s = true ∧ fenceWaits { s with mesh := [] } = false) := by
  decide

theorem witness_PacketChecks :
    (∀ typ ∈ [1, 2, 3, 4, 5, 6, 7, 8, 9, 0xA, 0xB, 0xC],
      let f := flight 0 typ 0 0 0xFFFFFFFF 0xFFFFFF 0 [];
      let s := { State.reset with mesh := [f] };
      arrived s 0 0 = some f)
    ∧ (∀ typ ∈ [1, 2, 3, 4, 5, 6, 7, 8, 9, 0xA], packetMalformed (flight 0 typ 0 0 0xFFFFFFFF 0xFFFFFF 0 []).pkt.hdr = true)
    ∧ (let f := flight 0 0xC 0 0 0 0 0 [];
      crc24 (packetBytes (f.pkt.hdr ^^^ 1) f.pkt.payload) ≠
        (BitVec.ofNat 32 (crc24 (packetBytes f.pkt.hdr f.pkt.payload)) ^^^ 0).toNat % 2 ^ 24) := by
  decide

/-- Core (0, 0) with queue 0 in a state, bound or not, as its scene runs, and a packet arriving. -/
def queueing (st : QState) (b : Option (Nat × Nat × Nat)) (es : List QEntry) (f : Flight) : State :=
  { cueIn 0 [(72, 1)] (fun c => { c with
      started := true
      queues := c.queues.set 0 { RxQueue.reset with state := st, slate := 5, bound := b, entries := es } }) with mesh := [f] }

theorem witness_QueueArrivals :
    (∀ q ∈ [((none : Option (Nat × Nat × Nat)), ([] : List QEntry)), (some (4096, 0, 0), []),
        (none, List.replicate 127 ⟨0, false, false, 0, 0⟩)],
      let f := flight 0 0 0 0 0 0 0 [7];
      let s := queueing .active q.1 q.2 f;
      TakesPacket s k0 0 0 f ∧ QueueServes s f ∧ (getQ (target s f) 0).state = .active
        ∧ (getQ (target s f) 0).mode = 0 ∧ (getQ (target s f) 0).bound.getD (4096, 0, 0) = (4096, 0, 0)
        ∧ (getQ (target s f) 0).entries.length + 1 ≤ 128)
    ∧ (∀ st ∈ [QState.disabled, .retired], TakesPacket (queueing st none [] (flight 0 0 0 0 0 0 0 [7])) k0 0 0
      (flight 0 0 0 0 0 0 0 [7]))
    ∧ (∀ st ∈ [QState.active, .overflowed], let f := flight 0 0 0 3 0 0 0 [7];
      TakesPacket (queueing st none [] f) k0 0 0 f
        ∧ (getQ (target (queueing st none [] f) f) 0).epoch.toNat ≠ pEpoch f.pkt.hdr)
    ∧ (let f := flight 0 1 0 0 0 0 0 [];
      let s := queueing .active none [] f;
      TakesPacket s k0 0 1 f ∧ (sceneOf s (target s f)).isSome = true) := by
  unfold TakesPacket QueueServes; decide

/-- Core (0, 0) in a mode, waiting, at clapper 0, and a packet arriving. -/
def messaged (m : CoreMode) (w : Nat) (wt : CueWait) (f : Flight) : State :=
  { cueIn w [] (fun c => { c with mode := m, wait := wt }) with mesh := [f] }

/-- The header of a QUEUE packet that core (0, 0) sent on edge 0, or of its CLAP_ARRIVE, as words. -/
def carried (typ : Nat) : List Word := hdrWords (mkHdr typ ⟨0, 0, 4096, 0, 5, 0⟩ 1 false 0 0)

theorem witness_CoreMessages :
    (∀ m ∈ [CoreMode.running, .held, .frozen], ∀ q ∈ [(2, 3 * 2 ^ 4, ([] : List Word)), (3, 0x0403, carried 0), (4, 0x0704, carried 0),
        (4, 0x0704, carried 6), (5, 0, [])],
      let f := flight 0 q.1 0 0 q.2.1 0 0 q.2.2;
      let s := messaged m 0 .none f;
      TakesPacket s k0 0 q.1 f ∧ runningEpoch (target s f) (pEpoch f.pkt.hdr) = true)
    ∧ pType (hdrOfWords (carried 0)) = 0 ∧ pType (hdrOfWords (carried 6)) = 6
    ∧ (let f := flight 0 4 0 0 0x0704 0 0 (carried 6);
      let s := messaged .running 0 .arrive f;
      TakesPacket s k0 0 4 f ∧ (target s f).wait = .arrive ∧ (target s f).clap = pArg (hdrOfWords f.pkt.payload))
    ∧ (∀ q ∈ [2, 3, 5], let f := flight 0 q 0 9 0 0 0 (carried 0);
      let s := messaged .running 0 .none f;
      TakesPacket s k0 0 q f ∧ runningEpoch (target s f) (pEpoch f.pkt.hdr) = false) := by
  unfold TakesPacket; decide

/-- The storyboard of scene 2: no words of its own. -/
def board3 : Storyboard := ⟨5, [], none, 0, []⟩

/-- Clapper 0 with `cnt` of two participants counted, and a packet arriving. -/
def clapped (cnt : Nat) (w : Nat) (wt : CueWait) (f : Flight) : State :=
  { cueIn w [] (fun c => { c with wait := wt }) with
    mesh := [f]
    clusters := [(0, { Cluster.reset with mem := ramPutWords .zero cmWords [BitVec.ofNat 32 (2 + cnt * 2 ^ 16), 5 * 2 ^ 16] })] }

theorem witness_ClapperSteps :
    (∀ n ∈ [0, 1], let f := flight 0 6 0 0 0 0 0 [];
      let s := clapped n 0 .none f;
      TakesPacket s k0 0 6 f ∧ badWord (getCl s 0).mem (clapWord 0) 2 = none
        ∧ (bits (clapW0 (ejected s f) 0) 16 16 + 1 = bits (clapW0 (ejected s f) 0) 0 16 ↔ n = 1))
    ∧ (let f := flight 0 7 0 0 0 1 0 [];
      let s := clapped 0 0 .arrive f;
      TakesPacket s k0 0 7 f ∧ (target s f).wait = .arrive ∧ (target s f).clap = 0 ∧ (target s f).mode = .running
        ∧ (target s f).pc.toNat + 1 < sheetPlen (target s f))
    ∧ (let f := flight 0 8 0 0 0 1 0 [];
      let s := clapped 0 (op 0x37 0) .clapper f;
      TakesPacket s k0 0 8 f ∧ (target s f).wait = .clapper
        ∧ bits (pArg2 f.pkt.hdr) 0 16 ≠ (gReg (target s f) (bits (cueWord (target s f)) 14 4)).toNat)
    ∧ (let s := { State.reset with
        scenes := [{ scene0 with copying := some (0, 1) }], storyboards := [(3, some board3)] };
      (s.scenes.find? fun x => x.sbn == 3 && x.idx == 2 && x.copying.isSome) = some { scene0 with copying := some (0, 1) }
        ∧ (getBoard s 3) = some board3)
    ∧ (∀ st ∈ [0, 0x0903], let j : CopyJob := ⟨.resume, 3, 2, .A, .inPlace, [], st⟩;
      let s := { State.reset with
        scenes := [{ scene0 with copying := some (0, 1) }], storyboards := [(3, some board3)]
        works := { State.reset.works with copies := [j] } };
      copyJob s .resume 3 (scKey scene0) = some j
        ∧ (copyDone (copyWork s j).1 (copyWork s j).2 = true ↔ st = 0)) := by
  unfold TakesPacket; decide

theorem witness_MemoryPackets :
    (∀ q ∈ [(9, 0, ([] : List Word)), (9, 2 ^ 28, []), (0xB, 0, [7]), (0xB, 2 ^ 28, [7]), (0xC, 0, [])],
      let f := flight 0 q.1 0 0 q.2.1 (if q.1 = 9 then 1 else 0) 0 q.2.2;
      TakesPacket (messaged .running 0 .none f) k0 0 q.1 f)
    ∧ badWord (getCl (messaged .running 0 .none (flight 0 9 0 0 0 1 0 [])) 0).mem 0 1 = none
    ∧ (let f := flight 0 0xA 0 0 0 (2 ^ 8) 0 [7];
      let s := messaged .running 0 .none f;
      TakesPacket s k0 0 0xA f ∧ (tileByTag (target s f) 1).isSome = false
        ∧ (target s f).deadTags = [] ∧ pEpoch f.pkt.hdr = (target s f).epoch.toNat ∧ f.pkt.note = 0)
    ∧ (∀ q ∈ [(0xA, [7]), (0xC, [])], let f := flight 0 q.1 0 0 0 (2 ^ 8) 0 q.2;
      let s := setCore (messaged .running 0 .none f) 0 { Core.reset with deadTags := [1] };
      TakesPacket s k0 0 q.1 f ∧ (target s f).deadTags.contains 1 = true ∧ f.pkt.note = 0)
    ∧ (let f := flight 0 0xA 0 0 0 (2 ^ 8) 0 [7];
      let s := setCore (messaged .running 0 .none f) 0
        { Core.reset with tiles := [⟨0, 0, 0, 0, 0, [0], [], false, none, [(1, 0, 1)], 1, 1⟩] };
      TakesPacket s k0 0 0xA f ∧ (tileByTag (target s f) 1).isSome = true)
    ∧ (let f := flight 0 0xC 0 0 0 (2 ^ 8) 0 [];
      let p : DmaPiece := ⟨0, 0, 1, 1, true⟩;
      let d := { dmaRun 1 with pieces := [p] };
      let s := setCore (messaged .running 0 .none f) 0 { Core.reset with dma := [d] };
      TakesPacket s k0 0 0xC f ∧ dmaByTag (target s f) 1 = some (d, p) ∧ (target s f).deadTags = []
        ∧ pEpoch f.pkt.hdr = (target s f).epoch.toNat ∧ bits (pArg f.pkt.hdr) 0 16 = 0) := by
  unfold TakesPacket; decide

/-- A ring of 128 bytes at address 0 of cluster (0, 0), with one record of type `ty` and length `len` at TAIL `t`. -/
def ringAt (ty len t : Nat) : State :=
  { State.reset with clusters := [(0, { Cluster.reset with
      mem := ramPutWords .zero 0 ([7, 0, 0, 0, BitVec.ofNat 32 (t + 64), 0, 0, 0, BitVec.ofNat 32 t]
        ++ List.replicate 7 0 ++ List.replicate (t / 4) 0 ++ [BitVec.ofNat 32 (ty + len * 2 ^ 16)]) })] }

theorem witness_RingAndSpliceSteps :
    (∀ q ∈ [(1, 56, 0, false), (1, 120, 0, false), (2, 56, 64, false), (1, 57, 64, true), (2, 55, 0, true), (0, 0, 0, true)],
      let s := ringAt q.1 q.2.1 q.2.2.1;
      let m := (getCl s 0).mem;
      7 ≤ bits (ramWord m 0).toNat 0 5 ∧ bits (ramWord m 0).toNat 0 5 ≤ 24 ∧ ramWord m 4 ≠ ramWord m 8
        ∧ ((ramWord m 8).toNat % 128) % 64 = 0 ∧ (∀ x ∈ [0, 4, 8, 16 + q.2.2.1 / 4], ramLanes m x = 0)
        ∧ (getCl s 0).ringStops.contains 0 = false
        ∧ ringRecBad (bits (ramWord m (16 + q.2.2.1 / 4)).toNat 0 16) (bits (ramWord m (16 + q.2.2.1 / 4)).toNat 16 16) 128
          ((ramWord m 8).toNat % 128) = q.2.2.2)
    ∧ (let c := { getCl (ringAt 1 56 64) 0 with ringStops := [0] };
      (∀ x ∈ [0, 4, 8, 32], ramLanes c.mem x = 0) ∧ c.ringStops.contains 0 = true ∧ ramWord c.mem 8 ≠ 0)
    ∧ (∀ sm ∈ [0, 96], ({ State.reset with splice := [sm] } : State).splice.contains sm = true) := by
  decide

/-! ### Witnesses: vaults, links and reels -/

/-- The vault of cluster (0, 0), ACTIVE, with what `f` adds. -/
def vaulted (f : Vault → Vault) : State :=
  { State.reset with clusters := [(0, { Cluster.reset with vault := f { Vault.reset with mode := .active } })] }

/-- A read and a write of the router. -/
def vaultRd (w n : Nat) : VaultReq := ⟨.router (flight 0 9 0 0 w n 0 []).pkt 0, w, n, none⟩
def vaultWr (w n : Nat) : VaultReq := ⟨.dma 0 1, w, n, some (List.replicate n 7)⟩

theorem witness_VaultAccesses :
    (∀ r ∈ [vaultRd 15 2, vaultWr 0 1, vaultWr 16 16], let s := vaulted fun v => { v with queue := [r] };
      vaultPick (getCl s 0).vault (getCl s 0).vault.queue [] = some r ∧ (vaultRun s 0 r).2 ≠ .wait
        ∧ (getCl s 0).vault.mode = .active ∧ (getCl s 0).vault.locked = none)
    ∧ (vaultRd 15 2).data = none ∧ (vaultWr 16 16).data.isSome = true
    ∧ vaultPick { Vault.reset with mode := .active } [] [] = none ∧ Vault.reset.mode ≠ .active ∧ Vault.reset.mode ≠ .hardHold
    ∧ (∀ q ∈ [(0, 1), (15, 2), (134217727, 1)], ∀ l ∈ linesOf q.1 q.2, lineBad { Vault.reset with mode := .active } l = false) := by
  decide

/-- A vault with line 1 under repair from a range of a kind, for a request or for none. -/
def repairing (kind : BitVec 2) (q : Option VaultReq) : State :=
  vaulted fun v => { v with locked := some ⟨1, 0, ⟨kind, false, 0, 5, 0, 64, 4096, 0⟩, 3, q, 0⟩ }

/-- The same once 64 bytes of zeros have repaired the line. -/
def mended0 (q : Option VaultReq) : State :=
  let s := repairing 1 q
  let v := (getCl s 0).vault
  raiseEv (setVault s 0 (crcRenew { v with
      mem := ramPutBytes v.mem (64 * 1) (List.replicate 64 0), locked := none, refetchDone := satAdd 0xFFFF v.refetchDone 1 } [1]))
    0x2021 1 ⟨none, ownerOf s 3 0 (16 * 1), none⟩
    [(28, 2, targetOfCl 0), (30, 4, 1), (34, 1, 3), (35, 1, 0), (36, 4, (now s - 0) / 1000)]

theorem witness_VaultRepairAndRefresh :
    (∀ q ∈ [none, some (vaultRd 16 1)], ∃ r, (getCl (repairing 1 q) 0).vault.locked = some r ∧ r.req = q ∧ r.origin.kind = 1)
    ∧ (vaultRun (mended0 (some (vaultRd 16 1))) 0 (vaultRd 16 1)).2 ≠ .wait
    ∧ (List.replicate 64 (0 : Byte)).length = 64
    ∧ (∀ l ∈ [0, 8388607], let s := vaulted fun v => { v with patrolLine := l };
      let v := (getCl s 0).vault;
      v.mode = .active ∧ v.queue = [] ∧ scrubbing s 0 = false ∧ v.patrolEn = true ∧ noVaults s = false ∧ v.locked = none
        ∧ lineBad v v.patrolLine = false) := by
  refine ⟨?_, by decide⟩
  intro q h
  exact ⟨_, rfl, rfl, rfl⟩

/-- A Vexaz packet with its check. -/
def vexaz (typ cls seq ackCl : Nat) (pay : List Byte) : List Byte :=
  let b := vexazHdr 2 typ cls pay.length seq 0 ackCl ++ pay
  b ++ leBytes 4 (crc32c b)

/-- Port 0 as given. -/
def ported (p : Port) : State := { State.reset with ports := [(0, p)] }

def portUp : Port := { Port.reset with enable := true, pcs := true, link := .up, vlver := 2 }

theorem vexazHead_of {s : State} {e : EdgePort} {typ : Nat} {m : List Byte} {rest : List (Nat × List Byte)}
    (h : (getPort s e.val).rxq = (0, m) :: rest ∧ vexazBad m = false ∧ vxType m = typ) : VexazHead s e typ m rest :=
  ⟨⟨0, h.1⟩, h.2⟩

theorem witness_LinkReception :
    (frameForPort (ported portUp) 0 (List.replicate 6 0xFF ++ List.replicate 6 0 ++ [0x81, 0, 0, 0, 0x88, 0xB5]) = true)
    ∧ (∀ m ∈ [[], vexaz 0 0 0 0 [], vexaz 7 0 0 0 [], vexaz 3 3 0 0 [], (vexaz 1 3 0 0 []).set 4 1], vexazBad m = true) := by
  decide

theorem witness_LinkReception_heads :
    ∀ q ∈ [(1, List.replicate 24 (0 : Byte)), (2, List.replicate 24 0), (3, [1, 2, 3]), (4, []), (5, []), (6, [])],
      VexazHead (ported { portUp with rxq := [(0, vexaz q.1 0 0 0 q.2)] }) 0 q.1 (vexaz q.1 0 0 0 q.2) [] := by
  intro q h
  apply vexazHead_of
  revert q
  decide

theorem witness_LinkReception_order :
    vxSeq (vexaz 3 2 0 0 []) = (rxOf portUp 2).expected ∧ vxSeq (vexaz 3 2 1 0 []) ≠ (rxOf portUp 2).expected
      ∧ vxAckCl (vexaz 4 0 0 2 []) = 2 ∧ vxAckCl (vexaz 3 0 0 3 []) = 3
      ∧ portUp.link = .up ∧ portUp.paused.getD 3 false = false
      ∧ ({ portUp with paused := List.replicate 4 true } : Port).paused.getD 3 false = true ∧ portUp.ctlHeld = [] := by
  decide

theorem witness_LinkTimers :
    (let p := { portUp with pcs := false, link := .disabled };
      (getPort (ported p) 0).enable = true ∧ (getPort (ported p) 0).pcs = false ∧ (ported p).clock.hold = false)
    ∧ (let p := { portUp with link := .training }; (getPort (ported p) 0).pcs = true ∧ p.link ≠ .up)
    ∧ (∀ c < 3, (txOf { portUp with tx := List.replicate 3 ⟨1, [(0, [1])], [], 16⟩ } c).unacked = [(0, [1])]
      ∧ (txOf { portUp with tx := List.replicate 3 ⟨1, [(0, [1])], [], 16⟩ } c).resends = 16)
    ∧ (∀ c < 3, maySend portUp c = true) ∧ pausedIn (ported portUp) 0 = false ∧ portUp.pcs = true ∧ portUp.enable = true
    ∧ ({ portUp with pfcTx := true } : Port).pfcTx = true
    ∧ (∀ i < 4, ({ portUp with paused := List.replicate 4 true } : Port).paused.getD i false = true)
    ∧ (getPin { State.reset with pins := [(7, { Pin.reset with func := 2, block := 14 })] } 7).func = 2 := by
  decide

/-- A bound slot of reel 1 of slate 5, with 4 blocks. -/
def slot1 : ReelSlot :=
  { reel := 1, slate := 5, sbn := 3, idx := 2, blocks := 4, okBlocks := 0, maxblk := 64, acked := true, reserved := true, held := false
    cursor := 0, requested := [0, 1], data := [], dropping := [], failed := none, credit := 0, reads := [], gather := [], puts := []
    writes := [], used := [], tainted := [] }

/-- Port 0 up with slot 1 and a message of class 0, or a mesh packet. -/
def reeling (x : Option ReelSlot) (m : List Byte) (ver : BitVec 2) (ps : List (Packet × Nat)) : State :=
  { ported { portUp with slots := [(1, x)], msgs := [(0, m)], reelUp := true, reelver := ver, inbox := ps } with
    slates := [(5, { Slate.reset with mode := .running, owner := .A, nextCseq := 7 })] }

/-- RHELLO_ACK with a version. -/
def helloAck (v : Nat) : List Byte := reelMsg 2 0 0 v []

/-- OPEN_ACK with blocks and MAXBLK, and PUT_ACK with a status. -/
def openAck (blocks maxblk : Nat) : List Byte := reelMsg 4 1 blocks maxblk []
def putAck (st : Nat) : List Byte := reelMsg (12 + st * 2 ^ 16) 1 0 0 []

/-- A PUT outstanding. -/
def put1 (b : Bool) : Put := ⟨0, [1, 2, 3, 4], b⟩

theorem witness_ReelMessages :
    (∀ v ∈ [0, 1, 2, 3, 4], ReelHead (reeling (some slot1) (helloAck v) 0 []) 0 2 (helloAck v) [] ∧ getLe (helloAck v) 12 1 = v)
    ∧ (∀ q ∈ [(4, 1), (4, 1048576), (3, 64), (4, 0), (4, 1048577)],
      let x := { slot1 with acked := false, reserved := false };
      let s := reeling (some x) (openAck q.1 q.2) 2 [];
      ReelHead s 0 4 (openAck q.1 q.2) [] ∧ slotForReel (msgsLeft s 0 []) 0 (getLe (openAck q.1 q.2) 4 3) = some x
        ∧ getLe (openAck q.1 q.2) 8 4 = q.1 ∧ getLe (openAck q.1 q.2) 12 4 = q.2)
    ∧ (let m := reelMsg (9 + 2 ^ 16) 1 0 0 [];
      ReelHead (reeling (some slot1) m 2 []) 0 9 m [] ∧ slot1.requested.contains (getLe m 8 4) = true) := by
  unfold ReelHead; decide

theorem witness_ReelMessages_puts :
    (∀ st ∈ [0, 1, 5], ∀ b ∈ [false, true],
      let x := { slot1 with puts := [put1 b] };
      let s := reeling (some x) (putAck st) 2 [];
      ReelHead s 0 12 (putAck st) [] ∧ slotForReel (msgsLeft s 0 []) 0 (getLe (putAck st) 4 3) = some x
        ∧ getLe (putAck st) 2 2 = st
        ∧ x.puts.find? (fun q => q.start == getLe (putAck st) 8 4 * 2 ^ 32 + getLe (putAck st) 12 4) = some (put1 b)) := by
  unfold ReelHead; decide

theorem witness_ReelMessages_copies :
    (∀ st ∈ [0, 1, 5], ∀ b ∈ [false, true],
      let s := setPort (reeling none (putAck st) 2 []) 0 { getPort (reeling none (putAck st) 2 []) 0 with copyPuts := [(1, put1 b)] };
      ReelHead s 0 12 (putAck st) [] ∧ slotForReel (msgsLeft s 0 []) 0 (getLe (putAck st) 4 3) = none
        ∧ getLe (putAck st) 2 2 = st ∧ getLe (putAck st) 4 3 = 1
        ∧ (getPort (msgsLeft s 0 []) 0).copyPuts.find? (fun q => q.1 == 1 && q.2.start ==
            getLe (putAck st) 8 4 * 2 ^ 32 + getLe (putAck st) 12 4) = some (1, put1 b)) := by
  unfold ReelHead; decide

/-- Reads and writes of words of slot 1 or 2. -/
def reelRd (i off : Nat) : Packet := (flight 0 9 0 0 (2 ^ 27 + i * 2 ^ 20 + off) 1 (2 ^ 16) []).pkt
def reelWr (i off : Nat) : Packet := (flight 0 0xB 0 0 (2 ^ 27 + i * 2 ^ 20 + off) 1 (2 ^ 16) [7]).pkt

/-- DATA of block `b` at byte `off`, not last, or last with its length and CRC, which are `bad` or not. -/
def dataMid (b off : Nat) (bs : List Byte) : List Byte := reelMsg 6 1 b off bs
def dataEnd (b off : Nat) (bs : List Byte) (bad : Nat) : List Byte :=
  reelMsg (6 + 2 ^ 8) 1 b off (bs ++ leBytes 4 (off + bs.length) ++ leBytes 4 (crc32c bs + bad))

theorem witness_ReelBlocks_accesses :
    (∀ q ∈ [(1, 0), (1, 2 ^ 20 - 1), (2, 0)],
      PortTakes (reeling (some slot1) [] 2 [(reelRd q.1 q.2, 0)]) 0 (fun p => pType p.hdr == 9) (reelRd q.1 q.2) 0
      ∧ PortTakes (reeling (some slot1) [] 2 [(reelWr q.1 q.2, 0)]) 0
        (fun p => pType p.hdr == 0xB && decide (pArg p.hdr < 2 ^ 28)) (reelWr q.1 q.2) 0
      ∧ pArg (reelRd q.1 q.2).hdr % 2 ^ 27 / 2 ^ 20 = q.1 ∧ pArg (reelWr q.1 q.2).hdr % 2 ^ 27 / 2 ^ 20 = q.1)
    ∧ slotOf (portTaken (reeling (some slot1) [] 2 [(reelRd 1 0, 0)]) 0 (reelRd 1 0) 0) 0 1 = some slot1
    ∧ slotOf (portTaken (reeling (some slot1) [] 2 [(reelRd 2 0, 0)]) 0 (reelRd 2 0) 0) 0 2 = none
    ∧ (getPort (portTaken (reeling (some slot1) [] 1 [(reelWr 1 0, 0)]) 0 (reelWr 1 0) 0) 0).reelver = 1 := by
  unfold PortTakes; decide

theorem witness_ReelBlocks_segments :
    (let m := dataMid 0 0 [1, 2, 3, 4];
      ReelHead (reeling (some slot1) m 2 []) 0 6 m [] ∧ getLe m 1 1 % 2 = 0 ∧ getLe m 12 4 = 0 ∧ (m.drop 16).length = 4
        ∧ slot1.requested.head? = some (getLe m 8 4))
    ∧ (∀ bad ∈ [0, 1], let m := dataEnd 0 0 (List.replicate 64 9) bad;
      ReelHead (reeling (some slot1) m 2 []) 0 6 m [] ∧ getLe m 1 1 % 2 = 1 ∧ getLe m 12 4 = 0 ∧ (m.drop 16).length = 72
        ∧ getLe (m.drop 16) 64 4 = 64 ∧ (getLe (m.drop 16) 68 4 = crc32c ((m.drop 16).take 64) ↔ bad = 0)
        ∧ slotForReel (msgsLeft (reeling (some slot1) m 2 []) 0 []) 0 (getLe m 4 3) = some slot1
        ∧ retired (msgsLeft (reeling (some slot1) m 2 []) 0 []) 5 = false ∧ 0 + 1 < slot1.blocks ∧ slot1.maxblk = 64)
    ∧ (∀ f ∈ [none, some 0], slot1.held = false ∧ slot1.dropping = [] ∧ ({ slot1 with failed := f } : ReelSlot).failed = f)
    ∧ (let m := dataMid 0 0 [1, 2, 3, 4];
      let s := { reeling (some slot1) m 2 [] with slates := [] };
      ReelHead s 0 6 m [] ∧ slotForReel (msgsLeft s 0 []) 0 (getLe m 4 3) = some slot1 ∧ retired (msgsLeft s 0 []) slot1.slate = true
        ∧ slot1.requested.head? = some (getLe m 8 4))
    ∧ (let m := dataMid 1 0 [1, 2, 3, 4];
      ReelHead (reeling (some slot1) m 2 []) 0 6 m [] ∧ slot1.requested.head? ≠ some (getLe m 8 4)
        ∧ refetchMatches (getPort (msgsLeft (reeling (some slot1) m 2 []) 0 []) 0) (getLe m 4 3) 1 = false) := by
  unfold ReelHead; decide

/-! ### Witnesses: the fabric -/

/-- A fabric packet of a type with DST, SRC, HOPS, GW and further fields. -/
def fab (typ len dst src hops gw : Nat) (fs : List (Nat × Nat × Nat)) (pay : List Byte) : List Byte :=
  record 32 ([(0, 1, typ), (1, 1, 2), (2, 2, len), (4, 2, dst), (6, 2, src), (8, 1, hops), (30, 1, gw)] ++ fs) ++ pay

/-- A FABRIC port whose link has agreed fabric version `v`, holding a packet. -/
def fabPort (v : Nat) (ms : List (Nat × List Byte)) : Port :=
  { portUp with role := true, peer0 := BitVec.ofNat 32 (9 + 2 ^ 15 + v * 2 ^ 24), msgs := ms }

/-- Ports 0 and 1 up, engine ID 5, and engine 9 behind port 1. -/
def fabbed (v : Nat) (ms : List (Nat × List Byte)) : State :=
  { State.reset with
    ports := [(0, fabPort 2 ms), (1, fabPort v [])]
    fabric := { Fabric.reset with engId := 5, dest := [(9, 0x8FFFFF81), (10, 0x8FFFFF82)] } }

theorem witness_FabricRouting_transit :
    (∀ q ∈ [(9, 1, 2, 0), (9, 1, 1, 4095), (9, 1, 1, 4096), (9, 0, 2, 0), (10, 1, 2, 0), (11, 1, 2, 0)],
      let m := fab 0x10 4 q.1 7 q.2.1 0 [(14, 2, q.2.2.2)] [1, 2, 3, 4];
      let s := fabbed q.2.2.1 [(1, m)];
      FabricHead s 0 0x10 (1, m) ∧ engId s ≠ 0x7FFF ∧ fbDst m ≠ engId s ∧ fbHops m = q.2.1 ∧ (fabUp s 1 = true ∧ fabUp s 2 = false)
        ∧ (fabFits s 1 (putLe m 8 1 0) = true ↔ q.2.2 ≠ (1, 4096)))
    ∧ (let s := fabbed 2 [];
      choiceOf (destWord s 9) (bits (destWord s 9).toNat 28 2) = 1 ∧ (destWord s 9).getLsbD 31 = true
        ∧ choiceOf (destWord s 10) (bits (destWord s 10).toNat 28 2) = 2 ∧ (destWord s 11).getLsbD 31 = false)
    ∧ (∀ q ∈ [(9, 1, 2, 0), (9, 1, 1, 4096), (9, 0, 2, 0), (11, 1, 2, 0)],
      let m := fab 0x11 0 5 q.1 q.2.1 0 [(14, 2, q.2.2.2)] [];
      let s := fabbed q.2.2.1 [(2, m)];
      FabricHead s 0 0x11 (2, m) ∧ fbSrc m ≠ engId s ∧ fbHops m = q.2.1
        ∧ (fabFits s 1 (putLe m 8 1 0) = true ↔ q.2.2 ≠ (1, 4096))) := by
  unfold FabricHead; decide

theorem witness_FabricRouting_unassigned :
    ∀ typ ∈ [0x10, 0x11], let m := fab typ 0 9 7 1 0 [] [];
      let s := { fabbed 2 [(1, m)] with fabric := Fabric.reset };
      FabricHead s 0 typ (1, m) ∧ engId s = 0x7FFF := by
  unfold FabricHead; decide

/-- A fabric packet handed to port 0 over the mesh by port 1. -/
def handedOver (typ src : Nat) : Packet :=
  let m := fab typ 4 9 src 1 0 [(10, 2, 5)] [1, 2, 3, 4]
  ⟨mkHdr 0xB ⟨0, 0, 0, 0, 5, 0⟩ 9 false 0x18000000 0, fbWords m, 2 ^ 16 + 1⟩

/-- Port 0 holding such a packet, its module engine 5. -/
def handing (typ src : Nat) : State :=
  { fabbed 2 [] with
    ports := [(0, { fabPort 2 [] with inbox := [(handedOver typ src, 0)] })]
    slates := [(5, { Slate.reset with mode := .running, owner := .A })] }

theorem witness_FabricRouting_handed :
    ∀ q ∈ [(0x10, 7), (0x10, 5), (0x11, 7)], ∃ b w, FabricHanded (handing q.1 q.2) 0 q.1 b (handedOver q.1 q.2, 0) w
      ∧ (let v := portWriteReply w 0 ⟨handedOver q.1 q.2, 0, 0, 0⟩ 0;
        fbType b = q.1 ∧ engId v ≠ 0x7FFF ∧ retiredPkt v b = false ∧ (fbSrc b = engId v ↔ q.2 = 5) ∧ fabUp v 0 = true
          ∧ fabFits v 0 b = true) := by
  intro q h
  simp only [List.mem_cons, List.not_mem_nil, or_false] at h
  rcases h with rfl | rfl | rfl <;> exact ⟨_, _, ⟨rfl, by decide⟩, by decide⟩

/-- An origin write of core (0, 0) to engine 9, window 1. -/
def originPkt : Packet := ⟨mkHdr 0xB ⟨0, 0, 0, 0, 5, 1⟩ 3 false (2 ^ 28) (1 + 2 ^ 8), [BitVec.ofNat 32 (9 + 2 ^ 16), 0, 7], 0⟩

/-- Port 0 holding that write, its core in the scene with `o` writes sent, and an engine ID. -/
def originating (id : BitVec 15) (o : Nat) : State :=
  { fabbed 2 [] with
    ports := [(0, { fabPort 2 [] with inbox := [(originPkt, 0)] })]
    cores := [(0, coreWith 0 [] fun c => { c with scene := some (3, 2) })]
    scenes := [{ scene0 with winCount := [(0, o)] }]
    fabric := { Fabric.reset with engId := id } }

theorem witness_FabricRouting_home :
    (∀ gw ∈ [0, 1], let m := fab 0x11 0 9 5 1 gw [(16, 4, 77), (29, 1, 1)] [];
      FabricHead (fabbed 2 [(2, m)]) 0 0x11 (2, m) ∧ fbSrc m = 5 ∧ fbGw m = gw)
    ∧ (∀ q ∈ [([(⟨77, 9, 1, originPkt, 0⟩ : OutWrite)], SlateMode.running), ([], .running), ([], .free)],
      let m := fab 0x11 0 9 5 1 0 [(10, 2, 5), (16, 4, 77), (29, 1, 1)] [];
      let s := { fabbed 2 [] with
        ports := [(0, { fabPort 2 [(2, m)] with outWrites := q.1 })], slates := [(5, { Slate.reset with mode := q.2 })] };
      let u := msgsLeft s 0 ((getPort s 0).msgs.erase (2, m));
      FabricHead s 0 0x11 (2, m) ∧ engId u ≠ 0x7FFF ∧ fbSrc m = engId u ∧ fbGw m = 0
        ∧ ((getPort u 0).outWrites.find? fun o =>
          o.seq == fbSeq m && bits (pArg2 o.pkt.hdr) 8 8 == fbTag m && pSrc o.pkt.hdr == fbXy m) = q.1.head?
        ∧ (retiredPkt u m = true ↔ q.2 = .free)) := by
  unfold FabricHead; decide

theorem witness_FabricRouting_packet :
    (∀ o ∈ [0, 4095, 4096], PortTakes (originating 5 o) 0
      (fun p => pType p.hdr == 0xB && decide (2 ^ 28 ≤ pArg p.hdr) && decide (p.note < 2 ^ 16)) originPkt 0)
    ∧ PortTakes (originating 0x7FFF 0) 0
      (fun p => pType p.hdr == 0xB && decide (2 ^ 28 ≤ pArg p.hdr) && decide (p.note < 2 ^ 16)) originPkt 0 := by
  unfold PortTakes; decide

theorem witness_FabricRouting_scene :
    (portTag (getPort (originating 5 0) 0)).isSome = true ∧ pSrc originPkt.hdr = 0
    ∧ (∀ o ∈ [0, 4095, 4096], (sceneOf (originating 5 o) (getCore (originating 5 o) 0)).map (·.winCount) = some [(0, o)])
    ∧ sceneOf { originating 5 0 with scenes := [] } (getCore (originating 5 0) 0) = none := by
  decide

theorem witness_FabricRouting_timeout :
    let p := { fabPort 2 [] with outWrites := [⟨77, 9, 1, originPkt, 0⟩] };
    (getPort (ported p) 0).outWrites.find? (fun o => o.seq == 77) = some ⟨77, 9, 1, originPkt, 0⟩ := by
  decide

/-- Window 1 of slate 5 in a state, with engine 9 as its one peer. -/
def withWindow (st : WinState) (fz : List FlowKey) (ms : List (Nat × List Byte)) : State :=
  { fabbed 2 ms with fabric := { (fabbed 2 []).fabric with windows := [(1, ⟨st, 2, 0, 0, 4, 5, [(9, 0xFFF)]⟩)], frozen := fz } }

theorem witness_FabricWindows :
    (∀ st ∈ [WinState.free, .opened, .closing], ∀ q ∈ [(9, 3, ([] : List FlowKey)), (9, 4, []), (8, 0, []), (9, 0, [(9, 5, 5)])],
      let m := fab 0x10 4 5 q.1 1 0 [(10, 2, 5), (14, 2, 1), (20, 4, q.2.1)] [1, 2, 3, 4];
      let s := withWindow st q.2.2 [(1, m)];
      FabricHead s 0 0x10 (1, m) ∧ fbDst m = engId s ∧ (winOf s (fbWin m)).state = st
        ∧ ((winOf s (fbWin m)).peers.any (peerFits m) = true ↔ q.1 = 9)
        ∧ (fbOff m + fbLen m / 4 ≤ (winOf s (fbWin m)).len ↔ q.2.1 < 4)
        ∧ (s.fabric.frozen.contains (flowOf m 5) = true ↔ q.2.2 ≠ []))
    ∧ (let r : FlowRec := ⟨(9, 5, 5), 3, 2, [0], none⟩;
      let s := { withWindow .opened [] [] with fabric := { Fabric.reset with flows := [r] } };
      s.fabric.flows.find? (fun r => r.flow == (9, 5, 5)) = some r
        ∧ 2 ^ 15 ≤ (32771 + 65536 - r.inc) % 65536 ∧ (2 * 2 ^ 20) / 2 ^ 20 = r.run)
    ∧ ((winOf (withWindow .closing [] []) 1).state = .closing ∧ windowQuiet (withWindow .closing [] []) 1 = true) := by
  unfold FabricHead; decide

/-- A discovery packet at path index `i` of a path of length 2 that goes by port 1, with hops left. -/
def disc (typ hops i : Nat) (pl : Nat) : List Byte :=
  fab typ pl 0 7 hops 0 [] ([BitVec.ofNat 8 2, BitVec.ofNat 8 i] ++ List.replicate 8 1 ++ List.replicate (pl - 10) 1)

theorem witness_FabricDiscovery :
    (let m := fab 1 24 0 0 0 0 [] (List.replicate 24 1); FabricHead (fabbed 2 [(2, m)]) 0 1 (2, m))
    ∧ fabUp (fabbed 2 []) 0 = true
    ∧ (∀ q ∈ [(2, 18, 0, 0), (2, 18, 1, 1), (2, 18, 1, 2), (2, 18, 1, 8), (4, 20, 0, 0), (4, 20, 1, 1)],
      let m := disc q.1 q.2.2.1 q.2.2.2 q.2.1;
      let w := if getLe m 33 1 < 8 then putLe m (42 + getLe m 33 1) 1 0 else m;
      FabricHead (fabbed 2 [(2, m)]) 0 q.1 (2, m) ∧ fbHops w = q.2.2.1 ∧ fbType w = q.1
        ∧ ((getLe m 33 1 < getLe w 32 1 ∧ getLe m 33 1 < 8 ∧ getLe w (34 + getLe m 33 1) 1 < 120
          ∧ fabUp (fabbed 2 []) (getLe w (34 + getLe m 33 1) 1) = true) ↔ q.2.2.2 < 2))
    ∧ (∀ q ∈ [(3, 155, 0), (3, 155, 1), (5, 20, 0), (5, 20, 1)],
      let m := disc q.1 1 q.2.2 q.2.1;
      FabricHead (fabbed 2 [(2, m)]) 0 q.1 (2, m) ∧ getLe m 33 1 = q.2.2 ∧ getLe m (42 + q.2.2) 1 = 1
        ∧ fabUp (fabbed 2 []) 1 = true)
    ∧ (let m := disc 4 0 0 20;
      let s := { fabbed 2 [(2, m)] with fabric := Fabric.reset };
      FabricHead s 0 4 (2, m) ∧ fbHops (putLe m 42 1 0) = 0 ∧ fbType (putLe m 42 1 0) = 4 ∧ engId s = 0x7FFF)
    ∧ engId (fabbed 2 []) ≠ 0x7FFF
    ∧ (let s := { fabbed 2 [] with works := { State.reset.works with discovery := some (⟨.A, 0x0402, 4096, 7⟩, 4096, 0) } };
      s.works.discovery = some (⟨.A, 0x0402, 4096, 7⟩, 4096, 0)) := by
  unfold FabricHead; decide

/-! ### Witnesses: memory, rings and registers -/

theorem witness_StoredBytesReadBack : Ram.zero.wf = true ∧ (ramPutWords .zero 3 [7, 8]).wf = true := by decide

/-- A port with a session, one record on its command ring and an empty completion and event ring. -/
def hostA : HPort :=
  { HPort.reset with
    linkUp := true
    rate := 8
    width := 4
    session := some (3, 1)
    nextCseq := 7
    cmd := { Ring.reset with en := true, head := 64 }
    cpl := { Ring.reset with en := true, log2 := 8 }
    evt := { Ring.reset with en := true, log2 := 8 } }

/-- The module with that port A, firmware running and ready, A with module authority, and what `f` adds. -/
def boxed (f : State → State) : State :=
  f { State.reset with
    portA := hostA
    authority := some .A
    boot := { State.reset.boot with fw := .running, ready := true, waferUp := true, ifHi := (3, 1) } }

theorem witness_RingRecords :
    (let h := getHost (boxed id) .A;
      heldCpl (boxed id) .A = [] ∧ ringOpen h h.cpl = true ∧ h.cpl.shadow = 0 ∧ h.holding = [] ∧ h.dropped = 0
        ∧ ringOpen h h.evt = true ∧ h.evt.shadow = 0 ∧ h.mem.wf = true)
    ∧ (let h := { hostA with evt := { hostA.evt with head := 256 } };
      ringOpen h h.evt = false ∧ h.holding.length < 256)
    ∧ (List.replicate 256 (List.replicate 64 (0 : Byte))).length = 256 ∧ getLe (List.replicate 64 (0 : Byte)) 0 2 ≠ 0xB000
    ∧ ringOpen { hostA with cpl := { hostA.cpl with head := 256 } } { hostA.cpl with head := 256 } = false := by
  decide

theorem witness_HostRings :
    (let h := getHost (boxed id) .A;
      (∀ n ∈ [0, 64, 128], (BitVec.ofNat 32 n - h.cmd.tail).toNat ≤ 2 ^ h.cmd.log2 ∧ (BitVec.ofNat 32 n - h.cmd.tail).toNat % 64 = 0)
      ∧ (∀ n ∈ [192, 1], 2 ^ h.cmd.log2 < (BitVec.ofNat 32 n - h.cmd.tail).toNat ∨ (BitVec.ofNat 32 n - h.cmd.tail).toNat % 64 ≠ 0)
      ∧ h.cmd.en = true ∧ h.cmd.stop = false ∧ h.cpl.en = true ∧ h.cpl.stop = false ∧ h.evt.en = true ∧ h.evt.stop = false
      ∧ (h.cpl.head - 0).toNat < 2 ^ 31 ∧ 2 ^ 31 ≤ (h.cpl.head - 64).toNat ∧ bits h.irqMod.toNat 16 16 = 0 ∧ h.width ≠ 0)
    ∧ (∀ n ∈ [7, 18], let v : Word := BitVec.ofNat 32 (7 + n * 2 ^ 8);
      let h := { hostA with cmd := Ring.reset };
      bits v.toNat 8 5 = n ∧ h.cmd.en = false ∧ v.getLsbD 0 = true ∧ v.getLsbD 1 = h.cpl.en ∧ v.getLsbD 2 = h.evt.en ∧ h.cpl.en = true
        ∧ h.evt.en = true)
    ∧ ((6 : Word).getLsbD 0 = false ∧ (6 : Word).getLsbD 1 = true ∧ (6 : Word).getLsbD 2 = true)
    ∧ (let h := { hostA with irqMod := 0xFFFF0001, cpl := { hostA.cpl with unsignalled := 1 }, evt := { hostA.evt with unsignalled := 1 } };
      bits h.irqMod.toNat 16 16 ≠ 0 ∧ h.cpl.unsignalled ≠ 0 ∧ h.evt.unsignalled ≠ 0)
    ∧ (∀ r ∈ [LinkRate.g32, .g64, .g128], 8 ≤ rateNo r) ∧ State.reset.powered = true := by
  decide

/-- Port A with one event held. -/
def holding1 : State := boxed fun s => { s with portA := { hostA with holding := [List.replicate 64 0] } }

theorem witness_HostRings_held :
    (getHost holding1 .A).holding = [List.replicate 64 0] ∧ ringOpen (getHost holding1 .A) (getHost holding1 .A).evt = true := by
  decide

theorem witness_HostRings_written :
    (getHost (writeEvt (setHost holding1 .A { getHost holding1 .A with holding := [] }) .A (List.replicate 64 0)) .A).dropped = 0 := by
  rfl

theorem witness_RegisterAccesses : noVaults State.reset = false ∧ (0x80000000 : DWord).getLsbD 31 = true := by decide

/-- Page 0 of port A mapped for slate 5. -/
def apered (space tgt : Nat) (bad : List Nat) : State :=
  boxed fun s => { s with
    portA := { hostA with pages := [(0, some ⟨5, space, tgt, 0, 16⟩)] }
    cores := [(0, { Core.reset with localOwner := some 5, sp := { Ram.zero with bad := bad } })] }

theorem witness_ApertureAccesses :
    (∀ sp ∈ [1, 2, 3], aperServed (apered sp 0 []) .A 60 = true ∧ aperWord (apered sp 0 []) .A 60 = some (sp, 0, 15))
    ∧ (∀ off ∈ [64, 4194304, 2 ^ 34 - 4], aperServed (apered 1 0 []) .A off = true ∧ aperWord (apered 1 0 []) .A off = none)
    ∧ ramLanes (getCore (apered 1 0 []) 0).sp 15 = 0 ∧ ramLanes (getCore (apered 1 0 [60]) 0).sp 15 ≠ 0
    ∧ ramLanes (getCl (apered 2 0 []) 0).mem 15 = 0 := by
  decide

/-! ### Witnesses: the mailbox -/

/-- A record of opcode `o` for slate `n` or for the module, with CSEQ 7, named bytes (record byte, bytes, value) and a buffer. -/
def rec0 (o : Nat) (n : BitVec 12) (md : Bool) (fs : List (Nat × Nat × Nat)) (buf : Option (List Byte)) : CmdRec :=
  { hdrType := 1, len := 56, seq := 0, opcode := BitVec.ofNat 16 o, slate := n, modul := md, scopeRsv := 0, cseq := 7, ifMinor := 1, ifMajor := 3, rsv := 0
    dataAddr := if buf.isSome then 4096 else 0
    dataLen := BitVec.ofNat 32 (buf.getD []).length
    param := BitVec.ofNat 224 (leNat (record 28 (fs.map fun f => (f.1 - 36, f.2.1, f.2.2))))
    buffer := buf }

def recM (o : Nat) (fs : List (Nat × Nat × Nat)) : CmdRec := rec0 o 0 true fs none
def recS (o : Nat) (fs : List (Nat × Nat × Nat)) : CmdRec := rec0 o 5 false fs none

/-- The record passes orders 1 to 8 in its sequence space. -/
def Ready (s : State) (m : CmdSpec) (p : HostPort) (r : CmdRec) : Prop :=
  CmdConsumed s m p r ∧ ¬ Unsequenced (consumeCmd s p) m p r ∧ slateFree (consumeCmd s p) m r = false
    ∧ seqJudge (seqSpace (consumeCmd s p) p m r).1 r.cseq = 0 ∧ laterStatus (seqAdvance (consumeCmd s p) p m r) p m r = 0

/-- The record passes and is judged against no sequence space. -/
def ReadyFree (s : State) (m : CmdSpec) (p : HostPort) (r : CmdRec) : Prop :=
  CmdConsumed s m p r ∧ Unsequenced (consumeCmd s p) m p r ∧ (m.opcode = 0x0203 → laterStatus (consumeCmd s p) p m r = 0)

theorem taken {s : State} {i : Instr} {p : HostPort} {r : CmdRec} (m : CmdSpec) {C : State → Prop}
    (h : mailRow s i = some (p, r, m)) (hr : Ready s m p r) (hc : C (seqAdvance (consumeCmd s p) p m r)) :
    ∃ t ref, RowTaken s i t ref ∧ C t :=
  ⟨_, _, ⟨p, r, m, h, ⟨hr.1, .inr ⟨hr.2.1, hr.2.2.1, hr.2.2.2.1, rfl, hr.2.2.2.2⟩⟩, rfl⟩, hc⟩

theorem takenFree {s : State} {i : Instr} {p : HostPort} {r : CmdRec} (m : CmdSpec) {C : State → Prop}
    (h : mailRow s i = some (p, r, m)) (hr : ReadyFree s m p r) (hc : C (consumeCmd s p)) :
    ∃ t ref, RowTaken s i t ref ∧ C t :=
  ⟨_, _, ⟨p, r, m, h, ⟨hr.1, .inl ⟨hr.2.1, rfl, hr.2.2⟩⟩, rfl⟩, hc⟩

/-- The module with slate 5 in a mode, owned by port A. -/
def slated (md : SlateMode) (f : State → State) : State :=
  boxed fun s => f { s with slates := [(5, { Slate.reset with mode := md, owner := .A, nextCseq := 7 })] }

/-- MAP_APERTURE, the specification most mailbox tests use, and records that each order turns away. -/
def mapSpec : CmdSpec := slateSpec 0x0405 0

theorem witness_MailboxOrders_opcodes :
    (∀ o ∈ [0x0404, 0x0999], mailRow (boxed id) (.mapAperture .A (recS o [])) = some (.A, recS o [], mapSpec)
      ∧ (recS o []).opcode.toNat ≠ mapSpec.opcode ∧ (opcodes.contains (recS o []).opcode.toNat = true ↔ o = 0x0404)
      ∧ cmdReady (boxed id) .A o (recS o []) = true)
    ∧ (let r := recS 0x0999 [];
      r.hdrType = 1 ∧ r.len = 56 ∧ r.seq = (getHost (boxed id) .A).cmd.seq ∧ r.scopeRsv = 0 ∧ r.rsv = 0
        ∧ (getHost (consumeCmd (boxed id) .A) .A).session = some (r.ifMajor.toNat, r.ifMinor.toNat)) := by
  refine ⟨?_, by decide⟩
  intro o h
  simp only [List.mem_cons, List.not_mem_nil, or_false] at h
  rcases h with rfl | rfl <;> exact ⟨rfl, by decide⟩

theorem witness_MailboxOrders :
    (let r := recS 0x0405 [];
      CmdConsumed (slated .running id) mapSpec .A r ∧ ¬ Unsequenced (consumeCmd (slated .running id) .A) mapSpec .A r
        ∧ slateFree (consumeCmd (slated .running id) .A) mapSpec r = false
        ∧ (seqSpace (consumeCmd (slated .running id) .A) .A mapSpec r).1 = 7)
    ∧ slateFree (boxed id) mapSpec (recS 0x0405 []) = true ∧ CmdConsumed (boxed id) mapSpec .A (recS 0x0405 [])
    ∧ cmdReady State.reset .A 0x0405 (recS 0x0405 []) = false
    ∧ cmdReady (boxed id) .A 0x0405 { recS 0x0405 [] with seq := 1 } = true
    ∧ (getHost (boxed id) .A).session ≠ some ((2 : Nat), (1 : Nat))
    ∧ opcodeBad (boxed fun s => { s with boot := { s.boot with fw := .rom } }) .A mapSpec = true
    ∧ bufferBad mapSpec (recM 0x0405 []) = true
    ∧ (∀ q ∈ [((6 : Word), 1), (-249, 1), (8, 2), (7 + 2 ^ 31, 2), (8 + 2 ^ 31, 3), (-250, 3), (7, 0)], seqJudge 7 q.1 = q.2)
    ∧ laterStatus (slated .cutting id) .A mapSpec (recS 0x0405 []) ≠ 0 := by
  unfold CmdConsumed Unsequenced; decide

/-- HELLO of a range. -/
def helloRec (lo hi : Nat × Nat) : CmdRec := recM 1 [(36, 1, lo.2), (37, 1, lo.1), (38, 1, hi.2), (39, 1, hi.1)]

theorem witness_SessionCommands_hello :
    (∃ t ref, RowTaken (boxed id) (.hello .A (helloRec (2, 0) (3, 1))) t ref
      ∧ chooseVersion (endSession t .A 4) (2, 0) (3, 1) = some (3, 1) ∧ rsvOk (helloRec (2, 0) (3, 1)) [(36, 0, 32)] = true)
    ∧ (∃ t ref, RowTaken (boxed id) (.hello .A (helloRec (4, 0) (4, 1))) t ref
      ∧ chooseVersion (endSession t .A 4) (4, 0) (4, 1) = none) :=
  ⟨takenFree (sessionSpec 1) rfl (by unfold ReadyFree CmdConsumed Unsequenced; decide) (by decide),
    takenFree (sessionSpec 1) rfl (by unfold ReadyFree CmdConsumed Unsequenced; decide) (by decide)⟩

theorem witness_SessionCommands_authority :
    (∀ a ∈ [none, some HostPort.A, some .B], ∃ t ref,
      RowTaken (boxed fun s => { s with authority := a }) (.claimAuthority .A (recM 2 [])) t ref ∧ t.authority = a)
    ∧ (∀ a ∈ [none, some HostPort.A, some .B], ∃ t ref,
      RowTaken (boxed fun s => { s with authority := a }) (.releaseAuthority .A (recM 3 [])) t ref ∧ t.authority = a)
    ∧ (∀ o ∈ [2, 3], rsvOk (recM o []) [] = true) := by
  refine ⟨?_, ?_, by decide⟩ <;> intro a ha <;> simp only [List.mem_cons, List.not_mem_nil, or_false] at ha
  · rcases ha with rfl | rfl | rfl <;>
      exact taken (sessionSpec 2) rfl (by unfold Ready CmdConsumed Unsequenced; decide) (by decide)
  · rcases ha with rfl | rfl | rfl <;>
      exact taken (sessionSpec 3) rfl (by unfold Ready CmdConsumed Unsequenced; decide) (by decide)

/-! ### Witnesses: slates and scenes -/

/-- SLATE_OPEN of one range in cluster (0, 0)'s memory, its last words. -/
def openRec : CmdRec :=
  rec0 0x0201 5 false [(42, 2, 1)] (some (record 16 [(0, 1, 2), (4, 4, 1046000), (8, 4, 528)]))

/-- SLATE_OPEN with RESUME and an incarnation. -/
def resumeRec (inc : Nat) : CmdRec := recS 0x0201 [(36, 1, 1), (38, 2, inc), (40, 2, 9)]

theorem witness_SlateCommands_open :
    (∃ t ref, RowTaken (boxed id) (.slateOpen .A openRec) t ref ∧ openBad t openRec = false ∧ (getSlate t 5).mode = .free
      ∧ openBusy t (openRanges openRec) = false)
    ∧ (∃ t ref, RowTaken (boxed fun s => { s with slates := [(6, { Slate.reset with mode := .opened, ranges := [⟨2, 0, 1046527, 1⟩] })] })
        (.slateOpen .A openRec) t ref ∧ openBad t openRec = false ∧ (getSlate t 5).mode = .free
        ∧ openBusy t (openRanges openRec) = true)
    ∧ (∃ t ref, RowTaken (boxed fun s => { s with slates := [(5, { Slate.reset with inc := 3, incKnown := true })] })
        (.slateOpen .A (resumeRec 3)) t ref ∧ openBad t (resumeRec 3) = false ∧ (getSlate t 5).incKnown = true) :=
  ⟨takenFree (ownerSpec 0x0201 16) rfl (by unfold ReadyFree CmdConsumed Unsequenced; decide) (by decide),
    takenFree (ownerSpec 0x0201 16) rfl (by unfold ReadyFree CmdConsumed Unsequenced; decide) (by decide),
    takenFree (ownerSpec 0x0201 0) rfl (by unfold ReadyFree CmdConsumed Unsequenced; decide) (by decide)⟩

theorem witness_SlateCommands_others :
    (∃ t ref, RowTaken (slated .running id) (.slateStatus .A (recS 0x0203 [])) t ref
      ∧ smapGet (0, 0) t.recordBad 5 = (0, 0) ∧ (getSlate t 5).mode ≠ .free)
    ∧ (∃ t ref, RowTaken (boxed id) (.slateStatus .A (recS 0x0203 [])) t ref ∧ (getSlate t 5).mode = .free)
    ∧ (∃ t ref, RowTaken (slated .frozen id) (.slateRelease .A (recS 0x0204 [])) t ref
      ∧ (getSlate (thawMasters (thawCores t 5) 5) 5).mode = .frozen)
    ∧ (∃ t ref, RowTaken (slated .running id) (.slateRelease .A (recS 0x0204 [])) t ref
      ∧ (getSlate (thawMasters (thawCores t 5) 5) 5).mode ≠ .frozen)
    ∧ (∃ t ref, RowTaken (slated .running id) (.slateCut .A (recS 0x0202 [(36, 4, 1000000), (40, 1, 1), (44, 8, 4096)])) t ref
      ∧ (getSlate t 5).mode ≠ .cutting)
    ∧ (∃ t ref, RowTaken (slated .cutting id) (.slateCut .A (recS 0x0202 [])) t ref ∧ (getSlate t 5).mode = .cutting) :=
  ⟨taken (ownerSpec 0x0203 0) rfl (by unfold Ready CmdConsumed Unsequenced; decide) (by decide),
    takenFree (ownerSpec 0x0203 0) rfl (by unfold ReadyFree CmdConsumed Unsequenced; decide) (by decide),
    taken (ownerSpec 0x0204 0) rfl (by unfold Ready CmdConsumed Unsequenced; decide) (by decide),
    taken (ownerSpec 0x0204 0) rfl (by unfold Ready CmdConsumed Unsequenced; decide) (by decide),
    taken (ownerSpec 0x0202 0) rfl (by unfold Ready CmdConsumed Unsequenced; decide) (by decide),
    taken (ownerSpec 0x0202 0) rfl (by unfold Ready CmdConsumed Unsequenced; decide) (by decide)⟩

/-- Slate 5 CUTTING at a step, with or without dailies. -/
def cut0 (st : Nat) (d : Option Nat) : Cut :=
  { cmd := ⟨.A, 0x0202, 5, 7⟩, also := [], dl := 1000, dailies := d, step := st, owed := [], fenced := 0, discarded := 0 }
def cutting (st : Nat) (d : Option Nat) (f : State → State) : State :=
  f { slated .cutting id with slates := [(5, { Slate.reset with mode := .cutting, cut := some (cut0 st d) })] }

/-- A collection being written for the cut of slate 5. -/
def cutDailies : DailiesWork := ⟨none, some 5, none, .A, 4096, [1], 0⟩

theorem witness_CutSteps :
    (cutAt (cutting 2 none id) 5 2 = some (cut0 2 none) ∧ unsettled (cutting 2 none id) 5 = 0 ∧ incoming (cutting 2 none id) 5 = false)
    ∧ (let s := cutting 2 none fun s => { s with works := { s.works with windowClose := [(⟨.A, 0x0404, 5, 6⟩, 1)] } };
      cutAt s 5 2 = some (cut0 2 none) ∧ unsettled s 5 ≠ 0)
    ∧ (∀ d ∈ [none, some 4096], cutAt (cutting 3 d id) 5 3 = some (cut0 3 d) ∧ incoming (cutting 3 d id) 5 = false
      ∧ (cutting 3 d id).mesh = [])
    ∧ (let s := cutting 5 none id;
      cutAt s 5 5 = some (cut0 5 none) ∧ (getSlate s 5).ranges.any (vaultWaits s) = false
        ∧ (getSlate (discardSlate ((getSlate s 5).ranges.foldl scrubRange s) 5) 5).cut.isSome = true)
    ∧ (let s := cutting 4 (some 4096) fun s => { s with works := { s.works with dailies := [cutDailies] } };
      s.works.dailies = [cutDailies] ∧ (cutAt (dailiesEnd s cutDailies) 5 4).isSome = true) := by
  decide

/-- A storyboard of one scene in cluster (0, 0): one call sheet, of one NOP. -/
def imageWith (crc : Nat) : List Word :=
  (List.range 429).map fun i => BitVec.ofNat 32 (smapGet 0
    [(0, 0x15B0A), (1, 429), (2, 1), (3, 8), (4, 24), (7, crc), (8, 0x3002), (9, 26), (10, 1), (25, 28), (28, 0x1CA11), (29, 0x1000),
      (30, 0x3002000)] i)

def image0 : List Word := imageWith (crc32c ((imageWith 0).flatMap fun w => leBytes 4 w.toNat))

def board0 : Storyboard := ⟨5, imageWith 0, none, 0, []⟩

theorem witness_image : imageBad image0 = none := by
  decide +kernel

/-- A load for slate 5 into host memory, not replacing. -/
def load0 : LoadWork := ⟨⟨.A, 0x0301, 5, 7⟩, 5, none, 65536, none⟩

theorem witness_SceneCommands_load :
    (∃ t ref, RowTaken (slated .opened id) (.storyboardLoad .A (recS 0x0301 [(48, 8, 65536)])) t ref
      ∧ loadStatus t 5 (recS 0x0301 [(48, 8, 65536)]) = 0)
    ∧ (let s := slated .opened fun s => { s with works := { s.works with load := [load0] } };
      s.works.load.find? (fun w => w.slate == 5) = some load0 ∧ loadBad s load0 none = some 0
        ∧ loadBad s load0 (some [0x15B0A]) = some 1 ∧ load0.sbn = none) :=
  ⟨taken (slateSpec 0x0301 0) rfl (by unfold Ready CmdConsumed Unsequenced; decide) (by decide), by decide⟩

/-- A load for slate 5 into the vault of cluster (0, 0), in a mode and with what its lines' CRCs hold. -/
def load3 : LoadWork := ⟨⟨.A, 0x0301, 5, 7⟩, 5, some (0, 0), 65536, none⟩

def loading (m : VaultMode) (crc : SMap Word) : State := slated .opened fun s => { s with
  clusters := [(0, { Cluster.reset with vault := { Vault.reset with mode := m, crc := crc } })]
  slates := [(5, { Slate.reset with mode := .opened, nextCseq := 7, ranges := [⟨3, 0, 0, 1024⟩] })]
  works := { s.works with load := [load3] } }

/-- Under its checks, the write of the image is made, fails at a last line whose CRC does not match, or waits for the vault. -/
theorem witness_SceneCommands_vault :
    (∀ q ∈ [(VaultMode.active, ([] : SMap Word)), (.active, [(26, 5)]), (.selfRefresh, [])],
      loadBad (loading q.1 q.2) load3 (some image0) = none)
    ∧ (vaultImage (loading .active []) load3 image0).2 = .ok []
    ∧ (vaultImage (loading .active [(26, 5)]) load3 image0).2 = .err
    ∧ (vaultImage (loading .selfRefresh []) load3 image0).2 = .wait := by
  decide +kernel

theorem witness_SceneCommands_image :
    loadFits (slated .opened id) load0 429 = true ∧ imLength image0 = 429 ∧ image0.length = 429 ∧ image0.take 429 = image0 := by
  decide +kernel

/-- Slate 5, storyboard 3 loaded, and what `f` adds. -/
def boarded (md : SlateMode) (f : State → State) : State :=
  slated md fun s => f { s with storyboards := [(3, some board0)] }

/-- SCENE_RUN of scene 0 of storyboard 3 with slate 5, and the scene it asks for. -/
def runRec (fs : List (Nat × Nat × Nat)) : CmdRec := rec0 0x0302 5 false ((36, 1, 3) :: fs) (some [5, 0])

def asked0 : Scene := newScene board0.words 3 0 [5] .inPlace ⟨.A, 0, 0, 0⟩

/-- The scene admitted, in a phase, with what `f` adds; its core holds its call sheet. -/
def admitted0 (ph : ScenePhase) : Scene :=
  { asked0 with phase := ph, stage := 3, cores := [(0, 0, 28)], region := [0], runs := [0], cmd := ⟨.A, 0x0302, 5, 6⟩ }

def withScene (md : SlateMode) (x : Scene) (c : Core → Core) (f : State → State) : State :=
  boarded md fun s => f { s with
    scenes := [x]
    cores := [(0, c { Core.reset with sheet := some (sheetOf [(1, 16 * 2 ^ 12), (2, 5)]), scene := some (3, 0), localOwner := some 5 })] }

theorem witness_SceneCommands_run :
    (∃ t ref, RowTaken (boarded .opened id) (.sceneRun .A (runRec [])) t ref ∧ t.clock.hold = false
      ∧ runOrder1 t (runRec []) = some (board0, asked0) ∧ slateStatus t .A (boundSlates asked0) = 0
      ∧ admitStatus t (candidate t board0 { asked0 with cmd := ref }) (runCut board0 (runRec []) 0) true = 0
      ∧ noVaults t = false)
    ∧ (∃ t ref, RowTaken (withScene .opened (admitted0 .running) id id) (.sceneRun .A (runRec [])) t ref ∧ t.clock.hold = false
      ∧ runOrder1 t (runRec []) = some (board0, asked0) ∧ slateStatus t .A (boundSlates asked0) = 0
      ∧ admitStatus t (candidate t board0 { asked0 with cmd := ref }) (runCut board0 (runRec []) 0) true ≠ 0) := by
  constructor
  · exact ⟨_, _, ⟨_, _, slateSpec 0x0302 2, rfl, ⟨by unfold CmdConsumed; decide +kernel, .inr ⟨by unfold Unsequenced; decide +kernel,
      by decide +kernel, by decide +kernel, rfl, by decide +kernel⟩⟩, rfl⟩, by decide +kernel⟩
  · exact ⟨_, _, ⟨_, _, slateSpec 0x0302 2, rfl, ⟨by unfold CmdConsumed; decide +kernel, .inr ⟨by unfold Unsequenced; decide +kernel,
      by decide +kernel, by decide +kernel, rfl, by decide +kernel⟩⟩, rfl⟩, by decide +kernel⟩

/-- On a variant without vaults, host memory no longer holds the image of the storyboard. -/
theorem witness_SceneCommands_again :
    ∃ t ref, RowTaken (boarded .opened fun s => { s with otp := { s.otp with device := 0x0562 } }) (.sceneRun .A (runRec [])) t ref
      ∧ t.clock.hold = false ∧ (imageAgain t .A (pb (runRec []) 36 1)).2 = false :=
  ⟨_, _, ⟨_, _, slateSpec 0x0302 2, rfl, ⟨by unfold CmdConsumed; decide +kernel, .inr ⟨by unfold Unsequenced; decide +kernel,
    by decide +kernel, by decide +kernel, rfl, by decide +kernel⟩⟩, rfl⟩, by decide +kernel⟩

/-- Records that name scene 0 of storyboard 3. -/
def sceneRec (o : Nat) (fs : List (Nat × Nat × Nat)) : CmdRec := recS o ((36, 1, 3) :: fs)

theorem witness_SceneCommands_resume :
    ∃ t ref, RowTaken (withScene .held (admitted0 .halted) id id) (.sceneRunResume .A (runRec [(37, 1, 4)])) t ref
      ∧ t.clock.hold = false ∧ runOrder1 t (runRec [(37, 1, 4)]) = some (board0, asked0)
      ∧ slateStatus t .A (boundSlates asked0) = 0
      ∧ t.scenes.find? (fun y => y.sbn == 3 && y.idx == 0 && slotsMatch y asked0 && y.phase == .halted) = some (admitted0 .halted)
      ∧ resumeStatus t asked0 (some (admitted0 .halted)) = 0 :=
  taken (slateSpec 0x0302 2) rfl (by unfold Ready CmdConsumed Unsequenced; decide +kernel) (by decide +kernel)

theorem witness_SceneCommands_halt :
    (∀ ph ∈ [ScenePhase.running, .ended], ∃ t ref,
      RowTaken (withScene .running (admitted0 ph) id id) (.sceneHalt .A (sceneRec 0x0303 [])) t ref
      ∧ phaseScene t (sceneRec 0x0303 []) [.running, .ended] = some (admitted0 ph)
      ∧ (boundSlates (admitted0 ph)).any (fun n => (getSlate t n).owner != .A) = false)
    ∧ (∃ t ref, RowTaken (withScene .running { admitted0 .running with slots := [5, 6] } id fun s =>
          { s with slates := s.slates ++ [(6, { Slate.reset with mode := .running, owner := .B })] }) (.sceneHalt .A (sceneRec 0x0303 [])) t ref
        ∧ (phaseScene t (sceneRec 0x0303 []) [.running, .ended]).isSome = true
        ∧ (boundSlates { admitted0 .running with slots := [5, 6] }).any (fun n => (getSlate t n).owner != .A) = true) := by
  constructor
  · intro ph h
    simp only [List.mem_cons, List.not_mem_nil, or_false] at h
    rcases h with rfl | rfl <;>
      exact taken (slateSpec 0x0303 0) rfl (by unfold Ready CmdConsumed Unsequenced; decide) (by decide)
  · exact taken (slateSpec 0x0303 0) rfl (by unfold Ready CmdConsumed Unsequenced; decide) (by decide)

/-- A keyframe of the scene being taken. -/
def take0 : TakeWork := ⟨⟨.A, 0x0304, 5, 7⟩, 3, 0, .host 4096⟩

/-- The scene closed for slate 5 with a keyframe in host memory. -/
def closed0 : ClosedRun := ⟨3, 0, 5, .A, [.host 4096]⟩

theorem witness_SceneCommands_keyframes :
    (∃ t ref, RowTaken (withScene .running (admitted0 .halted) id id) (.keyframeTake .A (sceneRec 0x0304 [(40, 8, 4096)])) t ref
      ∧ phaseScene t (sceneRec 0x0304 [(40, 8, 4096)]) [.running, .halted, .ended] = some (admitted0 .halted)
      ∧ kfParam (sceneRec 0x0304 [(40, 8, 4096)]) 1 = some (.host 4096) ∧ getBoard t 3 = some board0)
    ∧ kfParam (sceneRec 0x0304 [(40, 8, 119 * 2 ^ 24 + 1), (48, 1, 1)]) 2 = some (.reel 1 119)
    ∧ (let s := withScene .running (admitted0 .running) id fun s => { s with works := { s.works with takes := [take0] } };
      s.works.takes.find? (fun k => k.sbn == 3 && k.idx == 0) = some take0 ∧ getBoard s 3 = some board0
        ∧ copyJob s .take 3 0 = none)
    ∧ (∃ t ref, RowTaken (boarded .running fun s => { s with closedScenes := [closed0] }) (.keyframeRelease .A (sceneRec 0x0307 [])) t ref
      ∧ getBoard t 3 = some board0 ∧ rsvOk (sceneRec 0x0307 []) [(36, 0, 8), (38, 0, 16)] = true ∧ 0 < imScenes board0.words
      ∧ t.scenes ++ t.queuedRuns = [] ∧ unfinishedFor t 3 0 5 = none
      ∧ t.closedScenes.find? (fun q => q.sbn == 3 && q.idx == 0 && q.slate == 5) = some closed0) :=
  ⟨taken (slateSpec3 0x0304) rfl (by unfold Ready CmdConsumed Unsequenced; decide) (by decide), by decide, by decide,
    taken (slateSpec3 0x0307) rfl (by unfold Ready CmdConsumed Unsequenced; decide) (by decide)⟩

/-- The copy of the take: nothing left, one range of core (0, 0) left with the port's link up or down, or failed. -/
def take0Copy (left : List (Nat × Place)) (st : Nat) : CopyJob := ⟨.take, 3, 0, .A, .host 4096, left, st⟩

def taking (j : CopyJob) (up : Bool) : State :=
  withScene .running (admitted0 .running) id fun s => { s with
    portA := { hostA with linkUp := up }, works := { s.works with takes := [take0], copies := [j] } }

theorem witness_SceneCommands_copies :
    (∀ q ∈ [([], 0, true), ([(0, 1, 0, 0, 4)], 0, true), ([(0, 1, 0, 0, 4)], 0, false), ([], 0x0903, true)],
      let j := take0Copy q.1 q.2.1;
      let s := taking j q.2.2;
      s.works.takes.find? (fun k => k.sbn == 3 && k.idx == 0) = some take0 ∧ copyJob s .take 3 0 = some j
        ∧ (copyDone (copyWork s j).1 (copyWork s j).2 = true ↔ q.2.1 = 0 ∧ q.2.2 = true)
        ∧ badWord (getCore s 0).sp 0 4 = none ∧ (getHost s j.port).linkUp = q.2.2)
    ∧ (let j := take0Copy [(0, 1, 0, 0, 4)] 0;
      let s := setCore (taking j true) 0 { Core.reset with sp := { Ram.zero with bad := [0] } };
      (copyWork s j).2.status ≠ 0 ∧ copyDone (copyWork s j).1 (copyWork s j).2 = false) := by
  decide

/-- The scene queued, and recorded as unfinished. -/
def queued0 : Scene := { asked0 with cmd := ⟨.A, 0x0302, 5, 6⟩ }

def unfin0 : Unfinished :=
  { cmd := ⟨.A, 0x0302, 5, 6⟩, slate := 5, sbn := 3, idx := 0, run := 0, replays := 0, number := 0x3002, kf := .inPlace, latest := none
    area := 0, slots := [5], residual := 0, winMark := [] }

theorem witness_AdmissionAndReplay_admission :
    (let s := boarded .running fun s => { s with queuedRuns := [queued0] };
      s.queuedRuns.find? (fun y => y.sbn == 3 && y.idx == 0 && !y.restoring) = some queued0 ∧ getBoard s 3 = some board0
        ∧ s.scenes.any (fun y => regionsMeet y.region (candidate s board0 queued0).scene.region || sameScene y queued0) = false
        ∧ nextEpoch s (candidate s board0 queued0).scene.region = some 0)
    ∧ (let s := boarded .running fun s => { s with queuedRuns := [queued0], scenes := [scene0] };
      s.scenes.any (fun y => regionsMeet y.region (candidate s board0 queued0).scene.region || sameScene y queued0) = true)
    ∧ (let x := { admitted0 .admitting with stage := 1 };
      copyingScene (withScene .running x id id) 3 0 = some (x, board0) ∧ x.replay = none
        ∧ ∀ up ∈ [true, false], (let j : CopyJob := ⟨.admission, 3, scKey x, .A, .host 4096, [(0, 1, 0, 0, 4)], 0⟩;
          let s := withScene .running x id fun s => { s with
            portA := { hostA with linkUp := up }, works := { s.works with copies := [j] } };
          copyingScene s 3 0 = some (x, board0) ∧ copyJob s .admission 3 (scKey x) = some j
            ∧ copyDone (copyWork s j).1 (copyWork s j).2 = up))
    ∧ (∀ q ∈ [(3, false), (2, true), (2, false)],
      let x := { admitted0 .admitting with stage := q.1 };
      let s := withScene .running x id fun s => { s with clock := { s.clock with hold := q.2 } };
      (sceneOf s (getCore s 0)).map (·.stage) = some q.1 ∧ (getCore s 0).mode = .idle ∧ (getCore s 0).started = false
        ∧ (getCore s 0).sheet.isSome = true ∧ x.phase = .admitting ∧ s.clock.hold = q.2) := by
  decide +kernel

theorem witness_AdmissionAndReplay_replay :
    (∃ t ref, RowTaken (boarded .running fun s => { s with unfinished := [unfin0] }) (.replay .A (sceneRec 0x0305 [(37, 1, 1)])) t ref
      ∧ t.clock.hold = false ∧ getBoard t 3 = some board0 ∧ runRecord t 3 0 5 = some (recordOfUnfinished unfin0)
      ∧ rsvOk (sceneRec 0x0305 [(37, 1, 1)]) [(36, 0, 8), (37, 0, 2), (38, 0, 16), (40, 0, 12), (48, 0, 64)] = true
      ∧ (let a : ReplayAsk := { port := .A, slate := 5, sbn := 3, idx := 0, boundary := true, cause := 0, cmd := some ref };
        let v := replayClose (setSlate t 5 { getSlate t 5 with faultHeld := false }) 3 0 5;
        slateStatus v .A [5] = 0
          ∧ admitStatus v (candidate v board0 (replayScene board0 a (recordOfUnfinished unfin0))) (scCut board0.words 0) false = 0))
    ∧ (∃ t ref, RowTaken (boarded .running fun s => { s with unfinished := [unfin0], scenes := [scene0] })
        (.replay .A (sceneRec 0x0305 [])) t ref
      ∧ runRecord t 3 0 5 = some (recordOfUnfinished unfin0)
      ∧ (let a : ReplayAsk := { port := .A, slate := 5, sbn := 3, idx := 0, boundary := false, cause := 0, cmd := some ref };
        let v := replayClose (setSlate t 5 { getSlate t 5 with faultHeld := false }) 3 0 5;
        slateStatus v .A [5] = 0
          ∧ admitStatus v (candidate v board0 (replayScene board0 a (recordOfUnfinished unfin0))) (scCut board0.words 0) false ≠ 0)) := by
  constructor
  · exact ⟨_, _, ⟨_, _, slateSpec 0x0305 0, rfl, ⟨by unfold CmdConsumed; decide, .inr ⟨by unfold Unsequenced; decide,
      by decide, by decide, rfl, by decide⟩⟩, rfl⟩, by decide +kernel⟩
  · exact ⟨_, _, ⟨_, _, slateSpec 0x0305 0, rfl, ⟨by unfold CmdConsumed; decide, .inr ⟨by unfold Unsequenced; decide,
      by decide, by decide, rfl, by decide⟩⟩, rfl⟩, by decide +kernel⟩

/-- The storyboard with one keep range: words 0 to 3 of the vault of cluster (0, 0), for slot 0. -/
def keepWords : List (Nat × Nat) := [(13, 2 ^ 16), (15, 430), (430, 3), (431, 0), (432, 4), (433, 0)]

def boardV : Storyboard :=
  { board0 with
    words := ((imageWith 0 ++ List.replicate 5 0).zipIdx).map fun (q : Word × Nat) =>
      BitVec.ofNat 32 (smapGet q.1.toNat keepWords q.2) }

/-- The scene waiting for its restore from host memory, its vault in a mode and with what its lines' CRCs hold. -/
def restore0 : Scene := { queued0 with restoring := true, replay := some (5, some ⟨.A, 0x0305, 5, 7⟩), kf := .host 4096 }

def restoringV (m : VaultMode) (crc : SMap Word) : State := boarded .running fun s => { s with
  clusters := [(0, { Cluster.reset with vault := { Vault.reset with mode := m, crc := crc } })]
  storyboards := [(3, some boardV)]
  queuedRuns := [restore0] }

theorem witness_AdmissionAndReplay_vault :
    (∀ q ∈ [(VaultMode.active, ([] : SMap Word)), (.active, [(0, 5)]), (.selfRefresh, [])],
      (restoringV q.1 q.2).queuedRuns.find? (fun x => x.sbn == 3 && x.idx == 0 && x.restoring) = some restore0
        ∧ getBoard (restoringV q.1 q.2) 3 = some boardV)
    ∧ (replayRestore (restoringV .active []) boardV restore0).2 = .ok []
    ∧ (replayRestore (restoringV .active [(0, 5)]) boardV restore0).2 = .err
    ∧ (replayRestore (restoringV .selfRefresh []) boardV restore0).2 = .wait := by
  decide +kernel

theorem witness_AdmissionAndReplay_restore :
    (let x := { queued0 with restoring := true, replay := some (5, some ⟨.A, 0x0305, 5, 7⟩) };
      let s := boarded .running fun s => { s with queuedRuns := [x] };
      s.queuedRuns.find? (fun x => x.sbn == 3 && x.idx == 0 && x.restoring) = some x ∧ getBoard s 3 = some board0)
    ∧ (∃ t ref, RowTaken (boarded .running fun s => { s with unfinished := [unfin0], cores := [(0, { Core.reset with mode := .fenced })] })
        (.remap .A (sceneRec 0x0306 [(44, 3, 1)])) t ref
      ∧ getBoard t 3 = some board0 ∧ runRecord t 3 0 5 = some (recordOfUnfinished unfin0)
      ∧ remapCheck t board0 (recordOfUnfinished unfin0) 0 5 0 1 = (0, 1)
      ∧ remapCheck t board0 (recordOfUnfinished unfin0) 0 5 1 1 = (0x0103, 0)) :=
  ⟨by decide +kernel, taken (slateSpec3 0x0306) rfl (by unfold Ready CmdConsumed Unsequenced; decide) (by decide +kernel)⟩

/-! ### Witnesses: ports, routes and power by command -/

/-- PORT_CONFIG of port 119: enabled, FABRIC, 8 lanes. -/
def portRec : CmdRec := recM 0x0400 [(36, 1, 119), (37, 1, 3)]

/-- A route word: valid, its choice 0 is port 0. -/
def routeRec (first n : Nat) : CmdRec :=
  rec0 0x0401 0 true [(36, 2, first), (38, 2, n)] (some ((List.range n).flatMap fun _ => leBytes 4 0x8FFFFF80))

/-- A walk by port 0 to PROBE or ASSIGN. -/
def walkRec (op path : Nat) : CmdRec := recM 0x0402 [(36, 1, op), (37, 1, 8), (38, 1, path), (46, 2, 20479 * (op % 2)), (48, 8, 4096)]

theorem witness_FabricCommands_ports :
    (∃ t ref, RowTaken (boxed id) (.portConfig .A portRec) t ref ∧ portConfigBad t portRec = false ∧ portClaimed t 119 = false)
    ∧ (∃ t ref, RowTaken (boxed fun s => { s with fabric := { s.fabric with dest := [(9, 0x8FFFFFF7)] } }) (.portConfig .A portRec) t ref
      ∧ portConfigBad t portRec = false ∧ portClaimed t 119 = true
      ∧ portChanges (getPort t 119) (configured (getPort t 119) portRec) = true)
    ∧ (∀ w ∈ [0, 1], ∃ t ref, RowTaken (boxed id)
        (.portConfigFabricForm .A (recM 0x0400 [(36, 1, 0xFF), (40, 2, 1000 * w), (42, 1, 119 * w), (43, 1, w)])) t ref
      ∧ fabricFormBad t (recM 0x0400 [(36, 1, 0xFF), (40, 2, 1000 * w), (42, 1, 119 * w), (43, 1, w)]) = false) := by
  refine ⟨taken (moduleSpec 0x0400 0) rfl (by unfold Ready CmdConsumed Unsequenced; decide) (by decide),
    taken (moduleSpec 0x0400 0) rfl (by unfold Ready CmdConsumed Unsequenced; decide) (by decide), ?_⟩
  intro w h
  simp only [List.mem_cons, List.not_mem_nil, or_false] at h
  rcases h with rfl | rfl <;>
    exact taken (moduleSpec 0x0400 0) rfl (by unfold Ready CmdConsumed Unsequenced; decide) (by decide)

theorem witness_FabricCommands_routes :
    (∃ t ref, RowTaken (boxed fun s => { s with ports := [(0, fabPort 2 [])] }) (.routeTableWrite .A (routeRec 20479 1)) t ref
      ∧ (List.range 1).all (fun i => routeOk t (routeWord (routeRec 20479 1) i)) = true)
    ∧ (∃ t ref, RowTaken (boxed id) (.routeTableWrite .A (routeRec 20479 2)) t ref
      ∧ rsvOk (routeRec 20479 2) [(36, 0, 16), (38, 0, 16)] = true ∧ 20480 < pb (routeRec 20479 2) 36 2 + pb (routeRec 20479 2) 38 2) :=
  ⟨taken (moduleSpec 0x0401 4) rfl (by unfold Ready CmdConsumed Unsequenced; decide) (by decide),
    taken (moduleSpec 0x0401 8) rfl (by unfold Ready CmdConsumed Unsequenced; decide) (by decide)⟩

/-- The module with port 0 up, and a walk under way or not. -/
def walking (d : Option (CmdRef × DWord × Nat)) : State :=
  boxed fun s => { s with ports := [(0, fabPort 2 [])], works := { s.works with discovery := d } }

theorem witness_FabricCommands_walks :
    (∃ t ref, RowTaken (walking none) (.probe .A (walkRec 0 0)) t ref
      ∧ walkBad (walkRec 0 0) = false ∧ t.works.discovery = none ∧ fabUp (accept t ref []) 0 = true)
    ∧ (∃ t ref, RowTaken (walking none) (.assign .A (walkRec 1 0)) t ref
      ∧ walkBad (walkRec 1 0) = false ∧ t.works.discovery = none ∧ fabUp (accept t ref []) 0 = true)
    ∧ (∃ t ref, RowTaken (walking none) (.assign .A (walkRec 1 120)) t ref
      ∧ walkBad (walkRec 1 120) = false ∧ t.works.discovery = none)
    ∧ (∃ t ref, RowTaken (walking (some (⟨.A, 0x0402, 4096, 6⟩, 4096, 0))) (.probe .A (walkRec 0 0)) t ref
      ∧ walkBad (walkRec 0 0) = false ∧ t.works.discovery.isSome = true) :=
  ⟨⟨_, _, ⟨_, _, moduleSpec 0x0402 0, rfl, ⟨by unfold CmdConsumed; decide, .inr ⟨by unfold Unsequenced; decide,
      by decide, by decide, rfl, by decide⟩⟩, rfl⟩, by decide +kernel⟩,
    ⟨_, _, ⟨_, _, moduleSpec 0x0402 0, rfl, ⟨by unfold CmdConsumed; decide, .inr ⟨by unfold Unsequenced; decide,
      by decide, by decide, rfl, by decide⟩⟩, rfl⟩, by decide +kernel⟩,
    taken (moduleSpec 0x0402 0) rfl (by unfold Ready CmdConsumed Unsequenced; decide) (by decide),
    taken (moduleSpec 0x0402 0) rfl (by unfold Ready CmdConsumed Unsequenced; decide) (by decide)⟩

/-- SET_LOCAL and CLEAR_LOCAL, and WINDOW_OPEN of four words of slate 5 for one peer. -/
def localRec (op id0 : Nat) : CmdRec := recM 0x0402 [(36, 1, op), (46, 2, id0)]

def winRec : CmdRec := rec0 0x0403 5 false [(36, 1, 2), (44, 4, 4), (48, 1, 1)] (some [9, 0, 0xFF, 0xF])

/-- Slate 5 with the memory of cluster (0, 0), an engine ID, and what `f` adds. -/
def owning (f : State → State) : State :=
  boxed fun s => f { s with
    slates := [(5, { Slate.reset with mode := .running, nextCseq := 7, ranges := [⟨2, 0, 0, 1024⟩] })]
    fabric := { s.fabric with engId := 5 } }

/-- The module with window 0 open. -/
def openWindow : State := owning fun s => { s with fabric := { s.fabric with windows := [(0, ⟨.opened, 2, 0, 0, 4, 5, []⟩)] } }

theorem witness_EngineIdOrders :
    (∃ t ref, RowTaken (boxed id) (.setLocal .A (localRec 2 20479)) t ref ∧ rsvOk (localRec 2 20479) discFields = true
      ∧ pb (localRec 2 20479) 46 2 ≤ 20479 ∧ t.fabric.windows = [] ∧ t.ports = [])
    ∧ (∃ t ref, RowTaken openWindow (.setLocal .A (localRec 2 0)) t ref ∧ t.fabric.windows.any (fun w => w.2.state = .opened) = true)
    ∧ (∃ t ref, RowTaken (boxed id) (.clearLocal .A (localRec 3 0)) t ref ∧ rsvOk (localRec 3 0) discFields = true
      ∧ t.fabric.windows = [] ∧ t.ports = [])
    ∧ (∃ t ref, RowTaken openWindow (.clearLocal .A (localRec 3 0)) t ref
      ∧ t.fabric.windows.any (fun w => w.2.state = .opened) = true) :=
  ⟨taken (moduleSpec 0x0402 0) rfl (by unfold Ready CmdConsumed Unsequenced; decide) (by decide),
    taken (moduleSpec 0x0402 0) rfl (by unfold Ready CmdConsumed Unsequenced; decide) (by decide),
    taken (moduleSpec 0x0402 0) rfl (by unfold Ready CmdConsumed Unsequenced; decide) (by decide),
    taken (moduleSpec 0x0402 0) rfl (by unfold Ready CmdConsumed Unsequenced; decide) (by decide)⟩

/-- MAP_APERTURE of page 4095 to the slate's memory. -/
def mapRec (count : Nat) : CmdRec := recS 0x0405 [(36, 2, 4095), (38, 2, count), (40, 1, 2), (52, 4, 1024)]

theorem witness_FabricCommands_windows :
    (∃ t ref, RowTaken (owning id) (.windowOpen .A winRec) t ref ∧ windowBad t winRec = false ∧ engId t ≠ 0x7FFF
      ∧ (nextWindow t).isSome = true)
    ∧ (∃ t ref, RowTaken (owning fun s => { s with fabric := { s.fabric with windows := [(1, ⟨.opened, 2, 0, 0, 4, 5, []⟩)] } })
        (.windowClose .A (recS 0x0404 [(36, 2, 1)])) t ref ∧ (winOf t 1).state = .opened ∧ (winOf t 1).slate = 5)
    ∧ (∃ t ref, RowTaken (owning id) (.mapAperture .A (mapRec 1)) t ref ∧ mapStatus t .A (mapRec 1) = 0)
    ∧ (∃ t ref, RowTaken (owning id) (.mapAperture .A (mapRec 2)) t ref ∧ mapStatus t .A (mapRec 2) ≠ 0) :=
  ⟨taken (slateSpec 0x0403 4) rfl (by unfold Ready CmdConsumed Unsequenced; decide) (by decide +kernel),
    taken (slateSpec 0x0404 0) rfl (by unfold Ready CmdConsumed Unsequenced; decide) (by decide),
    taken (slateSpec 0x0405 0) rfl (by unfold Ready CmdConsumed Unsequenced; decide) (by decide),
    taken (slateSpec 0x0405 0) rfl (by unfold Ready CmdConsumed Unsequenced; decide) (by decide)⟩

/-- POWER_BUDGET_SET and FADE or UNFADE of the whole grid. -/
def budgetRec (b ms : Nat) : CmdRec := recM 0x0500 [(36, 4, b), (40, 4, ms)]

def gridRect : Nat := 63 * 2 ^ 12 + 55 * 2 ^ 18

def fadeRec (o retain rect : Nat) : CmdRec := recM o [(36, 1, 1), (37, 1, retain), (40, 4, rect)]

theorem gridRect_mem (cl : Nat) (h : cl < 3584) : cl ∈ rectCls gridRect := by
  have e : rectCls gridRect = (List.range 56).flatMap fun y => (List.range 64).map fun x => (0 + y) * 64 + (0 + x) := rfl
  rw [e, List.mem_flatMap]
  refine ⟨cl / 64, by rw [List.mem_range]; omega, ?_⟩
  rw [List.mem_map]
  exact ⟨cl % 64, by rw [List.mem_range]; omega, by omega⟩

theorem coupleSpread_nil (lives : Nat → Bool) (n : Nat) : coupleSpread lives n [] [] = [] := by cases n <;> rfl

/-- Of a module whose cores, ports, pins and scenes are as reset leaves them, the whole grid may fade with RETAIN. -/
theorem fadeStatus_grid (t : State) (h1 : t.cores = []) (h2 : t.scenes = []) (h3 : t.ports = []) (h4 : t.pins = [])
    (h5 : t.clock.hold = false) (h6 : t.otp.device = 0x0560) : fadeStatus t ⟨[gridRect], true⟩ = 0 := by
  have hf : ∀ cl, fusedCl t cl = false := by intro cl; simp [fusedCl, h6]
  have hoff : ∀ cl, cl < 3584 → (askCls ⟨[gridRect], true⟩).contains cl = true := by
    intro cl h
    simp only [askCls, List.flatMap_cons, List.flatMap_nil, List.append_nil, List.contains_iff_mem, List.mem_eraseDups]
    exact gridRect_mem cl h
  have hrect : fadeRectOk t gridRect = true := by
    have hw : rectWordOk gridRect = true ∧ gridRect / 2 ^ 24 = 0 := by decide
    unfold fadeRectOk
    rw [hw.1, hw.2]
    simp [hf]
  have hcoupled : coupled t (askCls ⟨[gridRect], true⟩) = true := by
    have hn : (List.range 3584).filter (fun cl => nodeLives t cl && !(askCls ⟨[gridRect], true⟩).contains cl) = [] := by
      rw [List.filter_eq_nil_iff]
      intro cl h
      rw [hoff cl (List.mem_range.mp h)]
      simp
    unfold coupled
    dsimp only
    rw [hn, List.filter_nil, coupleSpread_nil]
    rfl
  have hq : ∀ k, coreQuiet t k = true := by intro k; simp [coreQuiet, getCore, h1, smapGet, Core.reset]
  simp [fadeStatus, h5, hrect, hcoupled, hq, liveScenes, h2, routesBreak, homeClaimed, h3, timerClaimed, h4]

theorem witness_PowerCommands_fade :
    (∃ t ref, RowTaken (boxed id) (.fade .A (fadeRec 0x0501 1 gridRect)) t ref ∧ askBad (fadeRec 0x0501 1 gridRect) false = false
      ∧ askOf (fadeRec 0x0501 1 gridRect) = ⟨[gridRect], true⟩ ∧ t.clock.hold = false ∧ fadeStatus t ⟨[gridRect], true⟩ = 0)
    ∧ (∃ t ref, RowTaken (boxed id) (.fade .A (fadeRec 0x0501 0 (2 ^ 24))) t ref ∧ askBad (fadeRec 0x0501 0 (2 ^ 24)) false = false
      ∧ t.clock.hold = false ∧ fadeStatus t (askOf (fadeRec 0x0501 0 (2 ^ 24))) ≠ 0) :=
  ⟨taken (moduleSpec 0x0501 0) rfl (by unfold Ready CmdConsumed Unsequenced; decide)
      ⟨by decide, rfl, rfl, fadeStatus_grid _ rfl rfl rfl rfl rfl rfl⟩,
    taken (moduleSpec 0x0501 0) rfl (by unfold Ready CmdConsumed Unsequenced; decide) (by decide)⟩

/-- A fade or unfade of cluster (63, 55) in progress. -/
def fading0 (off : Bool) : FadeWork := ⟨none, none, 0, off, 1, [3583], true, 0⟩

theorem witness_PowerCommands_others :
    (∃ t ref, RowTaken (boxed id) (.powerBudgetSet .A (budgetRec 84000 600000)) t ref
      ∧ rsvOk (budgetRec 84000 600000) [(36, 0, 32), (40, 0, 32)] = true)
    ∧ (∃ t ref, RowTaken (boxed id) (.powerBudgetSet .A (budgetRec 29999 0)) t ref
      ∧ rsvOk (budgetRec 29999 0) [(36, 0, 32), (40, 0, 32)] = true)
    ∧ (∃ t ref, RowTaken (boxed id) (.unfade .A (fadeRec 0x0502 0 0)) t ref ∧ askBad (fadeRec 0x0502 0 0) true = false
      ∧ unfadeStatus t (askOf (fadeRec 0x0502 0 0)) = 0)
    ∧ (∃ t ref, RowTaken (boxed id) (.unfade .A (fadeRec 0x0502 0 (2 ^ 24))) t ref ∧ askBad (fadeRec 0x0502 0 (2 ^ 24)) true = false
      ∧ unfadeStatus t (askOf (fadeRec 0x0502 0 (2 ^ 24))) ≠ 0)
    ∧ (∀ o ∈ [true, false], let s := { boxed id with works := { (boxed id).works with fades := [fading0 o] } };
      s.works.fades.find? (fun w => w.off == o) = some (fading0 o) ∧ fadeFlits s (fading0 o) = false
        ∧ unfadeFailed s (fading0 o) = false)
    ∧ (let s := { boxed id with mesh := [flight 3583 0 0 0 0 0 0 []] }; fadeFlits s (fading0 true) = true)
    ∧ (let s := { boxed id with clock := { (boxed id).clock with units := [(4 * 3583 + 1, some true)] } };
      unfadeFailed s (fading0 false) = true)
    ∧ (∀ f ∈ [0xFF, 55], ∃ t ref, RowTaken (boxed id) (.stopLimitSet .A (recM 0x0503 [(36, 1, f), (37, 1, 15)])) t ref
      ∧ (f = 0xFF ∨ frameOk t f = true))
    ∧ (∃ t ref, RowTaken (boxed id) (.energyRead .A (recM 0x0504 [(44, 4, 1), (48, 8, 4096)])) t ref
      ∧ energyBad t (recM 0x0504 [(44, 4, 1), (48, 8, 4096)]) = false)
    ∧ (∃ t ref, RowTaken (slated .running id) (.energyRead .A (recS 0x0504 [(36, 1, 4), (40, 4, 5), (44, 4, 1), (48, 8, 4096)])) t ref
      ∧ energyBad t (recS 0x0504 [(36, 1, 4), (40, 4, 5), (44, 4, 1), (48, 8, 4096)]) = false ∧ usesUnits t 5 = false) := by
  refine ⟨taken (moduleSpec 0x0500 0) rfl (by unfold Ready CmdConsumed Unsequenced; decide) (by decide),
    taken (moduleSpec 0x0500 0) rfl (by unfold Ready CmdConsumed Unsequenced; decide) (by decide),
    taken (moduleSpec 0x0502 0) rfl (by unfold Ready CmdConsumed Unsequenced; decide) (by decide),
    taken (moduleSpec 0x0502 0) rfl (by unfold Ready CmdConsumed Unsequenced; decide) (by decide), by decide, by decide, by decide,
    ?_,
    taken ⟨0x0504, (2, 0), false, false, 0⟩ rfl (by unfold Ready CmdConsumed Unsequenced; decide) (by decide),
    taken ⟨0x0504, (2, 0), true, false, 0⟩ rfl (by unfold Ready CmdConsumed Unsequenced; decide) (by decide)⟩
  intro w h
  simp only [List.mem_cons, List.not_mem_nil, or_false] at h
  rcases h with rfl | rfl <;>
    exact taken (moduleSpec 0x0503 0) rfl (by unfold Ready CmdConsumed Unsequenced; decide) (by decide)

/-- Frame 0 with what `f` changes. -/
def framed (f : Frame → Frame) : State := { boxed id with frames := [(0, f Frame.reset)] }

/-- Every frame at stop 15. -/
def slowest : State := { boxed id with frames := (List.range 56).map fun i => (i, { Frame.reset with stop := 15 }) }

/-- A fade and an unfade under way, a fence, the entries' clusters, and a packet from cluster (0, 0) in flight or not. -/
def fencing (fn : Option (List Nat)) (dark : List Nat) (busy : Bool) : State :=
  { boxed id with
    mesh := if busy then [{ flight 0 0 4096 0 0 0 0 [7] with pkt := ⟨mkHdr 0 ⟨0, 0, 4096, 0, 5, 0⟩ 1 false 0 0, [7], 0⟩ }] else []
    routeFence := fn, routeDark := dark, works := { (boxed id).works with fades := [fading0 true, fading0 false] } }

theorem witness_PowerCommands_fence :
    (∀ b ∈ [false, true], let s := fencing (some [1]) [] b;
      ((fenceStep s).routeFence.isSome = b) ∧ (fenceStep s).works.fades.find? (·.off) = some (fading0 true))
    ∧ (fencing none [] false).routeFence = none
    ∧ (∀ b ∈ [false, true], let s := fencing none [1] b;
      s.works.fades.find? (fun w => !w.off) = some (fading0 false) ∧ unfadeFailed s (fading0 false) = false
        ∧ (fenceTo (fenceStep s) (darkSet s [] [3583])).routeFence.isSome = b) := by
  decide

theorem ceiling_le (s : State) : (ceiling s).1 ≤ 72200 ∨ s.power.pQ ≠ 76000 := by
  by_cases h : s.power.pQ = 76000
  · left
    simp only [ceiling]
    split
    · omega
    · split
      · simp only; omega
      · simp only; omega
  · exact .inr h

theorem witness_PowerEvents :
    frameOk State.reset 56 = false ∧ frameOk State.reset (frKey ⟨7, 6⟩) = true
    ∧ allSlowest slowest = true
    ∧ (∀ f ∈ [none, some 0], let s := framed fun g => { g with droopEvent := f };
      (getFrame s 0).stretched = false ∧ ((750 : Word16).toNat : Int) ≤ stopMilliVolts s 0 0 - 30 ∧ now s < 0 + 1000000000)
    ∧ (getFrame (framed fun g => { g with stretched := true }) 0).stretched = true
    ∧ fusedCl State.reset 3583 = false
    ∧ ({ State.reset.power with lease := some 5 } : Power).lease = some 5 ∧ State.reset.boot.fw ≠ .loading
    ∧ (720 : BitVec 16).toNat = 720 ∧ (32 : Byte).toInt = 32 := by
  decide +kernel

theorem witness_PowerEvents_unmet : ∃ mw : Word, (ceiling slowest).1 * 1000 < mw.toNat := by
  refine ⟨0xFFFFFFFF, ?_⟩
  have h := (ceiling_le slowest).resolve_right (fun h => h rfl)
  have e : (0xFFFFFFFF : Word).toNat = 4294967295 := rfl
  omega

/-! ### Witnesses: faults, recovery, clocks and sideband -/

/-- POLICY_SET of AUTO_REPLAY with an argument, FENCE_CORE of a core, DAILIES_COLLECT of slate 5 into a buffer, RESET. -/
def policyRec (code n : Nat) : CmdRec := recM 0x0600 [(36, 1, code), (37, 1, 1), (40, 1, n)]

def coreRec (o k : Nat) : CmdRec := recM o [(40, 4, k)]

def dailiesRec (n : Nat) : CmdRec := recS 0x0603 [(48, 8, 4096), (56, 4, n)]

def resetRec (code mode tgt : Nat) : CmdRec := recM 0x0604 [(36, 1, code), (37, 1, mode), (40, 4, tgt)]

/-- A module whose core (0, 0) is as `f` makes it. -/
def cored (f : Core → Core) (g : State → State) : State := boxed fun s => g { s with cores := [(0, f Core.reset)] }

theorem witness_RecoveryCommands_policy :
    (∃ t ref, RowTaken (boxed id) (.policySet .A (policyRec 1 15)) t ref ∧ policyBad t (policyRec 1 15) = false)
    ∧ (∃ t ref, RowTaken (boxed id) (.policySet .A (policyRec 1 16)) t ref ∧ policyBad t (policyRec 1 16) = true)
    ∧ (∃ t ref, RowTaken (boxed id) (.policySet .A (policyRec 8 1)) t ref ∧ policyBad t (policyRec 8 1) = true) :=
  ⟨taken (moduleSpec 0x0600 0) rfl (by unfold Ready CmdConsumed Unsequenced; decide) (by decide),
    taken (moduleSpec 0x0600 0) rfl (by unfold Ready CmdConsumed Unsequenced; decide) (by decide),
    taken (moduleSpec 0x0600 0) rfl (by unfold Ready CmdConsumed Unsequenced; decide) (by decide)⟩

theorem witness_RecoveryCommands_fence :
    (∃ t ref, RowTaken (boxed id) (.fenceCore .A (coreRec 0x0601 262079)) t ref ∧ fenceTarget t (coreRec 0x0601 262079) = true
      ∧ inScene (accept t ref []) 262079 = false)
    ∧ (∃ t ref, RowTaken (withScene .running (admitted0 .running) id id) (.fenceCore .A (coreRec 0x0601 0)) t ref
      ∧ fenceTarget t (coreRec 0x0601 0) = true ∧ inScene (accept t ref []) 0 = true)
    ∧ (∃ t ref, RowTaken (boxed id) (.fenceCore .A (coreRec 0x0601 448)) t ref ∧ fenceTarget t (coreRec 0x0601 448) = false)
    ∧ (∃ t ref, RowTaken (cored (fun c => { c with mode := .fenced, fencedInService := true }) id) (.unfenceCore .A (coreRec 0x0602 0)) t ref
      ∧ fenceTarget t (coreRec 0x0602 0) = true ∧ (getCore t 0).mode = .fenced ∧ (getCore t 0).fencedInService = true
      ∧ goodCore t 0 = true)
    ∧ (∃ t ref, RowTaken (boxed id) (.unfenceCore .A (coreRec 0x0602 0)) t ref ∧ (getCore t 0).mode ≠ .fenced) :=
  ⟨⟨_, _, ⟨_, _, moduleSpec 0x0601 0, rfl, ⟨by unfold CmdConsumed; decide, .inr ⟨by unfold Unsequenced; decide,
      by decide, by decide, rfl, by decide⟩⟩, rfl⟩, by decide +kernel⟩,
    ⟨_, _, ⟨_, _, moduleSpec 0x0601 0, rfl, ⟨by unfold CmdConsumed; decide, .inr ⟨by unfold Unsequenced; decide,
      by decide, by decide, rfl, by decide⟩⟩, rfl⟩, by decide +kernel⟩,
    taken (moduleSpec 0x0601 0) rfl (by unfold Ready CmdConsumed Unsequenced; decide) (by decide),
    taken (moduleSpec 0x0602 0) rfl (by unfold Ready CmdConsumed Unsequenced; decide) (by decide),
    taken (moduleSpec 0x0602 0) rfl (by unfold Ready CmdConsumed Unsequenced; decide) (by decide)⟩

theorem slateAsk_none (t : State) (n : Nat) (h : slateCores t n = []) (h2 : scenesClaps t (scenesOf t n) = []) :
    imageSize (slateAsk t .A 1 n 0) = 64 := by
  simp [slateAsk, imageSize, h, h2]

theorem witness_RecoveryCommands_dailies :
    (∃ t ref, RowTaken (slated .running id) (.dailiesCollect .A (dailiesRec 64)) t ref
      ∧ imageSize (slateAsk t .A 1 5 0) ≤ pb (dailiesRec 64) 56 4)
    ∧ (∃ t ref, RowTaken (slated .running id) (.dailiesCollect .A (dailiesRec 63)) t ref
      ∧ pb (dailiesRec 63) 56 4 < imageSize (slateAsk t .A 1 5 0))
    ∧ rsvOk (dailiesRec 64) [(36, 0, 8), (40, 0, 24), (48, 0, 64), (56, 0, 32)] = true ∧ pb (dailiesRec 64) 48 8 ≠ 0 :=
  ⟨taken ⟨0x0603, (2, 0), true, false, 0⟩ rfl (by unfold Ready CmdConsumed Unsequenced; decide)
      (by rw [slateAsk_none _ _ rfl rfl]; decide),
    taken ⟨0x0603, (2, 0), true, false, 0⟩ rfl (by unfold Ready CmdConsumed Unsequenced; decide)
      (by rw [slateAsk_none _ _ rfl rfl]; decide), by decide⟩

theorem witness_RecoveryCommands_reset :
    (∃ t ref, RowTaken (boxed id) (.reset .A (resetRec 1 0 3583)) t ref ∧ targetOk t 1 3583 = true
      ∧ ∀ c ∈ domainCores 1 3583, (getCore t c).mode ≠ .running)
    ∧ (∃ t ref, RowTaken (cored (fun c => { c with mode := .running }) id) (.reset .A (resetRec 1 0 0)) t ref ∧ targetOk t 1 0 = true
      ∧ ∃ c ∈ domainCores 1 0, (getCore t c).mode = .running)
    ∧ (∃ t ref, RowTaken (boxed id) (.reset .A (resetRec 5 0 0)) t ref ∧ targetOk t 5 0 = true)
    ∧ (∃ t ref, RowTaken (boxed id) (.reset .A (resetRec 5 1 0)) t ref ∧ targetOk t 5 0 = true)
    ∧ rsvOk (resetRec 5 1 0) [(36, 0, 8), (37, 0, 8), (40, 0, 32)] = true :=
  ⟨taken ⟨0x0604, (2, 0), false, true, 0⟩ rfl (by unfold Ready CmdConsumed Unsequenced; decide) (by decide),
    taken ⟨0x0604, (2, 0), false, true, 0⟩ rfl (by unfold Ready CmdConsumed Unsequenced; decide) (by decide),
    taken ⟨0x0604, (2, 0), false, true, 0⟩ rfl (by unfold Ready CmdConsumed Unsequenced; decide) (by decide),
    taken ⟨0x0604, (2, 0), false, true, 0⟩ rfl (by unfold Ready CmdConsumed Unsequenced; decide) (by decide), by decide⟩

/-- A collection by command or of no one, a reset, a detection, a recovery. -/
def dailies0 (c : Option CmdRef) : DailiesWork := ⟨c, none, none, .A, 4096, [1], 0⟩

def reset0 (c : Option CmdRef) (d : Nat) : ResetWork := ⟨c, d, 0, 0, 0⟩

def detect0 (ns : List Nat) : Detection := ⟨0x2010, 1, some 0, ns, none⟩

def hang0 (cur : Option Nat) (rs : List Nat) : HangWork := ⟨3, 0, [], cur, [], 1, rs⟩

/-- AUTO_REPLAY armed or not, and HANG with an area for port A. -/
def recovering (armed : Bool) (f : State → State) : State :=
  withScene .running (admitted0 .running) id fun s => f { s with
    policies := [(1, ⟨armed, List.replicate 24 0⟩),
      (7, ⟨true, leBytes 4 2000 ++ leBytes 4 131392 ++ leBytes 8 4096 ++ leBytes 8 0⟩)] }

theorem witness_RecoveryEvents :
    (∀ c ∈ [none, some (⟨.A, 0x0603, 5, 7⟩ : CmdRef)],
      ({ State.reset with works := { State.reset.works with dailies := [dailies0 c] } } : State).works.dailies = [dailies0 c])
    ∧ (∀ d ∈ [0, 3], (reset0 (some ⟨.A, 0x0604, 4096, 7⟩) d).domain < 4) ∧ (boxed id).boot.ready = true
    ∧ (let s := slated .running fun s => { s with detections := [detect0 [5]] };
      s.detections = [detect0 [5]] ∧ [5].filter (fun n => (getSlate s n).mode != .free) ≠ [])
    ∧ (let s := boxed fun s => { s with detections := [detect0 []] }; s.detections = [detect0 []] ∧ (detect0 []).cls = 1)
    ∧ (let s := boxed fun s => { s with works := { s.works with resets := [reset0 none 0] }, hangs := [hang0 none [0]] };
      s.works.resets.find? (fun w => w.cmd.isNone && w.domain == 0 && w.target == 0) = some (reset0 none 0)
        ∧ s.hangs.any (fun h => h.resetting.contains 0) = true)
    ∧ State.reset.boot.fw = .rom ∧ (boxed id).boot.fw ≠ .rom := by
  decide

/-- The scene declared hung, and the module then. -/
def hung0 : Scene := { admitted0 .running with hung := true }

def recovered : State := setScene (recovering true id) hung0

theorem hangAsk_size (s : State) (h : scenesClaps s [hung0] = []) : imageSize (hangAsk s .A hung0) = 131392 := by
  have e : (List.eraseDups [0] : List Nat) = [0] := rfl
  have r : hung0.region = [0] := rfl
  have c : (coresOf 0).length = 64 := rfl
  simp [hangAsk, imageSize, h, r, e, sitesOf, c]

theorem witness_RecoveryEvents_hang :
    (∀ a ∈ [true, false], let s := recovering a id;
      s.scenes.find? (fun x => x.sbn == 3 && x.idx == 0 && (x.phase == .running || x.phase == .ended) && !x.hung && !x.progress)
        = some (admitted0 .running)
      ∧ (getPolicy s 7).armed = true
      ∧ suspectOf (setScene s hung0) hung0 = none)
    ∧ hangRecovers (setScene (recovering false id) hung0) hung0 = false := by
  decide +kernel

theorem witness_RecoveryEvents_recovers :
    hangRecovers recovered hung0 = true := by
  have h := hangAsk_size recovered (by decide +kernel)
  have o : (getSlate recovered 5).owner = .A := rfl
  have b : boundSlates hung0 = [5] := rfl
  have g : (hangArgs recovered).2.1 = 131392 := rfl
  have a : hangArea recovered .A = 4096 := rfl
  have p : (getPolicy recovered 1).armed = true := rfl
  unfold hangRecovers
  rw [b, p]
  simp [o, h, g, a]

theorem witness_RecoveryEvents_suspect :
    (let s := boxed fun s => { s with hangs := [hang0 (some 5) []] };
      s.hangs.find? (fun h => h.current == some 5) = some (hang0 (some 5) []) ∧ suspectScene s (hang0 (some 5) []) 5 = none)
    ∧ (∀ hg ∈ [true, false], let x := { admitted0 .running with part := 6, hung := hg };
      let s := boxed fun s => { s with hangs := [hang0 (some 5) []], scenes := [x] };
      s.hangs.find? (fun h => h.current == some 5) = some (hang0 (some 5) []) ∧ suspectScene s (hang0 (some 5) []) 5 = some x) := by
  decide

/-- CLOCK_SOURCE_SELECT of REFREC from a port, or of REFLOC. -/
def clockRec (src e : Nat) : CmdRec := recM 0x0701 [(36, 1, src), (37, 1, e)]

def clocked (f : Clock → Clock) : State := boxed fun s => { s with clock := f s.clock }

theorem witness_ClockSteps :
    (∃ t ref, RowTaken (boxed id) (.clockSourceSelect .A (clockRec 0 0)) t ref ∧ rsvOk (clockRec 0 0) [(36, 0, 8), (37, 0, 8)] = true)
    ∧ (∃ t ref, RowTaken (boxed fun s => { s with ports := [(119, portUp)] }) (.clockSourceSelect .A (clockRec 1 119)) t ref
      ∧ removedPort t 119 = false ∧ (getPort t 119).link = .up)
    ∧ (∃ t ref, RowTaken (boxed id) (.clockSourceSelect .A (clockRec 1 120)) t ref
      ∧ rsvOk (clockRec 1 120) [(36, 0, 8), (37, 0, 8)] = true)
    ∧ (∃ t ref, RowTaken (boxed id) (.clockSourceSelect .A (clockRec 1 0)) t ref ∧ t.clock.hold = false ∧ (getPort t 0).link ≠ .up)
    ∧ (let s := boxed fun s => { s with works := { s.works with clock := [⟨true, 0, some ⟨.A, 0x0701, 4096, 7⟩⟩] } };
      s.works.clock = [⟨true, 0, some ⟨.A, 0x0701, 4096, 7⟩⟩])
    ∧ (∀ u ∈ [ClockUnit.node ⟨63, 55⟩, .island ⟨0, 0⟩, .frame ⟨7, 6⟩, .inject ⟨0, 1⟩, .refrec, .refloc], unitCounts (boxed id) u = true)
    ∧ unitCounts (boxed id) (.inject ⟨1, 1⟩) = false
    ∧ (∀ h ∈ [false, true], let s := clocked fun c => { c with hold := h };
      s.powered = true ∧ refCauseOk s .edges = true ∧ s.clock.hold = h ∧ s.clock.engaged = none ∧ s.works.clock = []
        ∧ s.clock.qualifying = false)
    ∧ refCauseOk (clocked fun c => { c with refrec := true }) .cdr = true
    ∧ (let s := clocked fun c => { c with hold := true, engaged := some .command }; s.clock.hold = true ∧ s.clock.engaged = some .command)
    ∧ (let s := clocked fun c => { c with units := [(2 ^ 20 + 1, some false)] };
      s.clock.hold = false ∧ unitOk s (sourceUnit s.clock.refrec) = true)
    ∧ (clocked fun c => { c with refrec := true }).clock.refrec = true :=
  ⟨taken ⟨0x0701, (3, 1), false, true, 0⟩ rfl (by unfold Ready CmdConsumed Unsequenced; decide) (by decide),
    taken ⟨0x0701, (3, 1), false, true, 0⟩ rfl (by unfold Ready CmdConsumed Unsequenced; decide) (by decide),
    taken ⟨0x0701, (3, 1), false, true, 0⟩ rfl (by unfold Ready CmdConsumed Unsequenced; decide) (by decide),
    taken ⟨0x0701, (3, 1), false, true, 0⟩ rfl (by unfold Ready CmdConsumed Unsequenced; decide) (by decide), by decide⟩

/-- SB_ASSIGN of a pin and a function. -/
def sbRec (pin f : Nat) (fs : List (Nat × Nat × Nat)) : CmdRec := recM 0x0700 ([(36, 1, pin), (37, 1, f)] ++ fs)

def pinned (n f : Nat) (lv : Bool) : State := boxed fun s => { s with pins := [(n, { Pin.reset with func := f, level := lv })] }

theorem witness_SidebandSteps_assign :
    (∃ t ref, RowTaken (boxed id) (.sbAssign .A (sbRec 8 1 [])) t ref ∧ sbBad t (sbRec 8 1 []) = true)
    ∧ (∃ t ref, RowTaken (pinned 7 4 false) (.sbAssign .A (sbRec 7 4 [])) t ref ∧ sbBad t (sbRec 7 4 []) = false
      ∧ sbClaimed t (sbRec 7 4 []) = true)
    ∧ (∃ t ref, RowTaken (pinned 7 4 false) (.sbAssign .A (sbRec 7 0 [])) t ref ∧ sbBad t (sbRec 7 0 []) = false)
    ∧ (∃ t ref, RowTaken (boxed id) (.sbAssign .A (sbRec 7 3 [(40, 4, 1000)])) t ref ∧ sbBad t (sbRec 7 3 [(40, 4, 1000)]) = false
      ∧ sbClaimed t (sbRec 7 3 [(40, 4, 1000)]) = false) :=
  ⟨taken ⟨0x0700, (3, 1), false, true, 0⟩ rfl (by unfold Ready CmdConsumed Unsequenced; decide) (by decide),
    taken ⟨0x0700, (3, 1), false, true, 0⟩ rfl (by unfold Ready CmdConsumed Unsequenced; decide) (by decide),
    taken ⟨0x0700, (3, 1), false, true, 0⟩ rfl (by unfold Ready CmdConsumed Unsequenced; decide) (by decide),
    taken ⟨0x0700, (3, 1), false, true, 0⟩ rfl (by unfold Ready CmdConsumed Unsequenced; decide) (by decide)⟩

/-- Of the JTAG codes only BYPASS is known, 0xFF; what the others select is left to the configuration. -/
theorem witness_SidebandSteps :
    (∀ f ∈ [3, 4, 5], ∀ lv ∈ [false, true], (getPin (pinned 7 f lv) 7).func = f ∧ (getPin (pinned 7 f lv) 7).level = lv
      ∧ pinBusy (pinned 7 f lv) 7 = false)
    ∧ (let s := { pinned 7 5 false with works := { State.reset.works with fades := [{ fading0 true with pin := some 7 }] } };
      pinBusy s 7 = true)
    ∧ jtagKind 0xFF = 0 ∧ State.reset.powered = true := by
  refine ⟨by decide, by decide, rfl, rfl⟩

/-! ### Witnesses: start-up and security -/

/-- The boot ROM serving port A, an image asked for. -/
def romBox (ld : Option (CmdRef × Bool × Nat × Nat)) : State :=
  boxed fun s => { s with boot := { State.reset.boot with ifHi := (3, 1), load := ld } }

def fwRef : CmdRef := ⟨.A, 0x0100, 4096, 7⟩

/-- Firmware loading at a step. -/
def starting (st : Nat) : State := boxed fun s => { s with boot := { s.boot with fw := .loading, step := st, ready := false } }

/-- An image of one byte, signed with zeros. -/
def fwImage : List Byte := record 257 [(0, 4, 0x31574651), (4, 4, 1), (14, 2, 0xF)]

theorem witness_BootSteps_load :
    (∃ t ref, RowTaken (romBox none) (.fwLoad .A (recM 0x0100 [(36, 1, 1), (40, 4, 60000)])) t ref
      ∧ t.boot.fw = .rom ∧ t.boot.load = none ∧ rsvOk (recM 0x0100 [(36, 1, 1), (40, 4, 60000)]) [(36, 0, 1), (40, 0, 32)] = true)
    ∧ (∃ t ref, RowTaken (boxed id) (.fwLoad .A (recM 0x0100 [])) t ref ∧ t.boot.fw ≠ .rom)
    ∧ (let s := romBox (some (fwRef, false, 257, 0));
      s.boot.load = some (fwRef, false, 257, 0) ∧ s.boot.fw = .rom ∧ imageReason s [] 257 ≠ 0) :=
  ⟨taken ⟨0x0100, (2, 0), false, false, 0⟩ rfl (by unfold Ready CmdConsumed Unsequenced; decide) (by decide),
    taken ⟨0x0100, (2, 0), false, false, 0⟩ rfl (by unfold Ready CmdConsumed Unsequenced; decide) (by decide), rfl, rfl, by decide⟩

/-- An image passes when its signature verifies, which only the configuration knows. -/
theorem witness_BootSteps_image
    (h : Config.ed25519Verify Config.fwKey (imageDigest fwImage) ((fwImage.drop 96).take 64) = true) :
    imageReason (romBox none) fwImage 257 = 0 := by
  have e1 : headerWrong fwImage 257 = false := by decide +kernel
  have e2 : bits (getLe fwImage 14 2) (deviceBit (romBox none).otp.device) 1 = 1 := by decide +kernel
  have e3 : getLe fwImage 13 1 = 0 := by decide +kernel
  have e5 : getLe fwImage 12 1 = 0 := by decide +kernel
  simp only [imageReason, e1, e2, e3, e5]
  simp [romBox, boxed, State.reset, Otp.factory]
  exact h

/-- 225 bad cores: nine in each of 25 clusters. -/
def badCores (n : Nat) : List CoreId :=
  (List.range n).flatMap fun i => (List.range 9).map fun j => ⟨⟨(8 * i + j % 8) % 512, by omega⟩, ⟨j / 8 % 448, by omega⟩⟩

theorem witness_BootSteps_bist :
    (starting 5).boot.fw = .loading ∧ (starting 8).boot.step = 8 ∧ (starting 7).boot.step = 7
    ∧ (∀ n ∈ [24, 25], let u := bistEvent { starting 8 with floor := bistPlan (starting 8) ⟨badCores n, [], [], []⟩ } ⟨badCores n, [], [], []⟩;
      (disabledCls u).length = n ∧ (guaranteed u ≤ goodCount u - fencedCount u)) := by
  decide +kernel

/-- CAL_LOAD of a voltage of frame 55, FLOORPLAN_READ into a buffer. -/
def calRec : CmdRec := rec0 0x0101 0 true [(36, 1, 1)] (some [1, 0, 55, 0, 5, 0, 0, 0])

def planRec (n : Nat) : CmdRec := recM 0x0102 [(40, 8, 4096), (48, 4, n)]

theorem witness_BootSteps_others :
    (∃ t ref, RowTaken (boxed id) (.calLoad .A calRec) t ref ∧ rsvOk calRec [(36, 0, 1)] = true
      ∧ (bufBytes calRec).length = 8 ∧ ∀ i < 1, calEntryOk t (bufBytes calRec) i = true)
    ∧ (∃ t ref, RowTaken (boxed id) (.floorplanRead .A (planRec 86948)) t ref
      ∧ rsvOk (planRec 86948) [(40, 0, 64), (48, 0, 32)] = true ∧ pb (planRec 86948) 40 8 ≠ 0)
    ∧ (∃ t ref, RowTaken (boxed id) (.floorplanRead .A (planRec 86947)) t ref ∧ pb (planRec 86947) 48 4 < 86948)
    ∧ (∃ t ref, RowTaken (boxed id) (.debugUnlockNonce .A (recM 0x0800 [])) t ref ∧ rsvOk (recM 0x0800 []) [(36, 0, 8)] = true)
    ∧ State.reset.inletEn = true ∧ (boxed fun s => { s with powered := false }).powered = false :=
  ⟨taken (moduleSpec 0x0101 8) rfl (by unfold Ready CmdConsumed Unsequenced; decide) (by decide),
    taken ⟨0x0102, (2, 0), false, false, 0⟩ rfl (by unfold Ready CmdConsumed Unsequenced; decide) (by decide),
    taken ⟨0x0102, (2, 0), false, false, 0⟩ rfl (by unfold Ready CmdConsumed Unsequenced; decide) (by decide),
    taken (moduleSpec 0x0800 0) rfl (by unfold Ready CmdConsumed Unsequenced; decide) (by decide), rfl, rfl⟩

/-- DEBUG_UNLOCK phase 1 with 64 signature bytes, and a nonce given 60 s and a nanosecond ago, or now. -/
def grantRec : CmdRec := rec0 0x0800 0 true [(36, 1, 1), (37, 1, 7)] (some (List.replicate 64 0))

def nonced (late : Bool) : State := boxed fun s => { s with
  boot := { s.boot with nonce := some ([1], 0) }, clock := { s.clock with timeNs := if late then 60000000001 else 0 } }

theorem witness_BootSteps_grant :
    (∃ t ref, RowTaken (nonced true) (.debugUnlockGrant .A grantRec) t ref ∧ t.boot.nonce = some ([1], 0)
      ∧ grantOk t grantRec ([1], 0) = false)
    ∧ (∃ t ref, RowTaken (boxed id) (.debugUnlockGrant .A grantRec) t ref ∧ t.boot.nonce = none)
    ∧ (Config.ed25519Verify Config.debugKey (Config.sha512 (grantRecord (nonced false) [1] 7)) (List.replicate 64 0) = true →
      ∃ t ref, RowTaken (nonced false) (.debugUnlockGrant .A grantRec) t ref ∧ t.boot.nonce = some ([1], 0)
        ∧ grantOk t grantRec ([1], 0) = true) := by
  refine ⟨taken (moduleSpec 0x0800 64) rfl (by unfold Ready CmdConsumed Unsequenced; decide) (by decide),
    taken (moduleSpec 0x0800 64) rfl (by unfold Ready CmdConsumed Unsequenced; decide) (by decide), fun h =>
    taken (moduleSpec 0x0800 64) rfl (by unfold Ready CmdConsumed Unsequenced; decide) ⟨rfl, ?_⟩⟩
  have e1 : rsvOk grantRec [(36, 0, 8), (37, 0, 3)] = true := by decide
  have e2 : pb grantRec 37 1 = 7 := by decide
  have e3 : (bufBytes grantRec).take 64 = List.replicate 64 0 := by decide
  simp only [grantOk, e1, e2, e3]
  exact h

/-- An SPDM request of `n` bytes. -/
def spdmReq (ver code p1 p2 n : Nat) : List Byte := record n [(0, 1, ver), (1, 1, code), (2, 1, p1), (3, 1, p2)]

/-- Port A in a phase, with a certificate chain of four bytes. -/
def spdmAt (ph : Nat) : State := boxed fun s => { s with
  portA := { hostA with spdm := { Spdm.none with phase := ph } }, otp := { s.otp with certs := [1, 2, 3, 4] } }

theorem witness_SpdmSteps :
    (∀ ph ≤ 5, (getHost (spdmAt ph) .A).width ≠ 0 ∧ (spdmAt ph).powered = true ∧ (getSpdm (spdmAt ph) .A).phase = ph)
    ∧ getLe (spdmReq 0x10 0x84 0 0 4) 0 1 = 0x10
    ∧ (∀ q ∈ [(0x84, 4), (0xE1, 4), (0xE3, 32), (0x81, 4), (0x82, 8), (0x83, 44), (0xE0, 45), (0xE4, 138), (0xE5, 68), (0xE8, 4),
        (0xE9, 4), (0xEC, 4), (0xFE, 11)],
      let m := spdmReq 0x13 q.1 0 0 q.2; getLe m 0 1 = 0x13 ∧ spdmCode m = q.1 ∧ m.length = q.2)
    ∧ (let m := putLe (putLe (spdmReq 0x13 0xE3 0 0 32) 8 4 0x400) 12 4 4;
      bits (getLe m 8 4) 10 1 = 1 ∧ bits (getLe m 12 4) 2 1 = 1)
    ∧ (∀ o ∈ [0, 3], getLe (putLe (spdmReq 0x13 0x82 0 0 8) 4 2 o) 4 2 < (spdmAt 3).otp.certs.length)
    ∧ (∀ t ∈ [0, 1, 0xFF], summaryOk t = true)
    ∧ (∀ p2 ∈ [0, 5], spdmP2 (spdmReq 0x13 0xE0 1 p2 45) ≤ 5 ∧ bits (spdmP1 (spdmReq 0x13 0xE0 1 p2 45)) 0 1 = 1)
    ∧ (∀ p1 ∈ [1, 3], 1 ≤ spdmP1 (spdmReq 0x13 0xE9 p1 0 4) ∧ spdmP1 (spdmReq 0x13 0xE9 p1 0 4) ≤ 3) := by
  decide

theorem witness_SpdmSteps_ide : ∀ obj ∈ [0, 2, 4, 5],
    let m := putLe (putLe (putLe (spdmReq 0x13 0xFE 0 0 59) 4 2 3) 6 1 2) 7 2 1 |>.set 9 48 |>.set 12 (BitVec.ofNat 8 obj);
    let v := { getSpdm (spdmAt 5) .A with ideKeys := [((0, 0), [])] };
    let b := (m.drop 11).take (getLe m 9 2);
    getLe m 4 2 = 3 ∧ getLe m 6 1 = 2 ∧ getLe m 7 2 = 1 ∧ v.phase = 5 ∧ (ideAnswer (spdmAt 5) v b).isSome = true
      ∧ getLe b 0 1 = 0 ∧ getLe b 1 1 = obj ∧ keyProgStatus v b = 0 ∧ v.ideKeys.any (fun k => k.1 == (getLe b 4 1, getLe b 6 1)) = true := by
  decide

/-- FINISH with the verify data that the session's key gives, and a FINISH cut short of it. -/
def finishMsg (mac : List Byte) : List Byte := [0x13, 0xE5, 0, 0] ++ exactly 64 mac

theorem exactly_length (n : Nat) (b : List Byte) : (exactly n b).length = n := by simp [exactly]

theorem witness_SpdmSteps_finish (b : List Byte) :
    spdmCode (finishMsg b) = 0xE5 ∧ getLe (finishMsg b) 0 1 = 0x13 ∧ (finishMsg b).length = 68
      ∧ (finishMsg b).take 4 = [0x13, 0xE5, 0, 0] ∧ (finishMsg b).drop 4 = exactly 64 b :=
  ⟨rfl, rfl, by simp [finishMsg, exactly_length], rfl, rfl⟩

/-! ### Ill-formed commands -/

theorem test_illformed_buffer : (Instr.hello .A { recM 1 [] with buffer := some [1] }).wf = false := by decide

theorem test_illformed_refetch : (Instr.vaultRefetchDone k0 (List.replicate 65 0)).wf = false := by decide

theorem test_illformed_frame : (Instr.ethFrameReceive 0 true (List.replicate 17 0)).wf = false := by decide

theorem test_illformed_pfc : (Instr.pfcFrame 0 1 (List.replicate 7 0)).wf = false := by decide

theorem test_illformed_register : (Instr.registerWrite (.core c0 2) 0).wf = false ∧ (Instr.rcRegisterRead (.fabric 4096)).wf = false := by
  decide

theorem test_illformed_aperture : (Instr.apertureRead .A (2 ^ 34)).wf = false ∧ (Instr.apertureWrite .A 2 0 0).wf = false := by decide

theorem test_illformed_spdm : (Instr.getVersion .A [0x10, 0x84, 0]).wf = false := by decide

theorem test_illformed_image : ∀ b : List Byte, 16777216 < b.length → (Instr.fwHandover .A b).wf = false := by
  intro b h
  show decide (b.length ≤ 16777216) = false
  simp; omega

theorem test_wellformed : (Instr.rcRegisterRead (.bar0 .B 1048572)).wf = true ∧ (Instr.nop c0).wf = true := by decide

/-! ### Single steps, with results worked out from the spec -/

/-- Core (0, 0) after a command. -/
def after (i : Instr) (s : State) : Core :=
  match exec i s with
  | .next t => coreOf t c0
  | _ => Core.reset

/-- A word of two registers and a destination: gd = g1, ga = g2, gb = g3. -/
def op3 (o : Nat) : Nat := op o (1 * 2 ^ 22 + 2 * 2 ^ 18 + 3 * 2 ^ 14)

/-- The core before such a word, with g2 and g3. -/
def regs (o : Nat) (a b : Word) : State := cue (op3 o) [] fun c => { c with g := (c.g.set 2 a).set 3 b }

theorem test_add_wraps : gReg (after (.add c0) (regs 0x01 0xFFFFFFFF 2)) 1 = 1 := by decide
theorem test_sub_borrows : gReg (after (.sub c0) (regs 0x02 0 1)) 1 = 0xFFFFFFFF := by decide
theorem test_shl_mod_32 : gReg (after (.shl c0) (regs 0x06 1 33)) 1 = 2 := by decide
theorem test_sra_sign : gReg (after (.sra c0) (regs 0x08 0x80000000 31)) 1 = 0xFFFFFFFF := by decide
theorem test_slt_signed : gReg (after (.slt c0) (regs 0x0A 0xFFFFFFFF 0)) 1 = 1 := by decide
theorem test_sltu_unsigned : gReg (after (.sltu c0) (regs 0x0B 0xFFFFFFFF 0)) 1 = 0 := by decide
theorem test_pc_advances : (after (.nop c0) (cue 0 [] id)).pc = 1 := by decide

/-- ADDI g1, g2, -1. -/
theorem test_addi_negative :
    gReg (after (.addi c0) (cue (op 0x10 (1 * 2 ^ 22 + 2 * 2 ^ 18 + 0x3FFFF)) [] fun c => { c with g := c.g.set 2 5 })) 1 = 4 := by
  decide

theorem test_lui_shifts : gReg (after (.lui c0) (cue (op 0x17 (1 * 2 ^ 22 + 0x3FFFF)) [] id)) 1 = 0xFFFFC000 := by decide

/-- CADD of 1 at the largest value saturates and sets CSAT. -/
theorem test_cadd_saturates :
    let c := after (.cadd c0) (cue (op 0x26 1) [] fun c => { c with c := c.c.set 0 0x7FFFFFFF });
    c.c[0] = 0x7FFFFFFF ∧ c.csat = true := by
  decide

theorem test_loop_ends : (after (.loop c0) (g1One (op 0x3A 0x400005))).pc = 1 := by decide

/-- An opcode the table does not list freezes the core with cause 0x10. -/
theorem test_illegal_opcode :
    let c := after (.nop c0) (cue (op 0x3F 0) [] id); c.mode = .frozen ∧ c.cause = 0x10 := by
  decide

/-- A parity error in the instruction store holds the core with cause 0x05. -/
theorem test_store_parity :
    let c := after (.nop c0) (cue 0 [] fun c => { c with istore := { c.istore with bad := [0] } }); c.mode = .held ∧ c.cause = 5 := by
  decide

/-- Published check values: CRC-32C of "123456789", and CRC-24 of RFC 4880 of the same. -/
theorem test_crc : crc32c ([49, 50, 51, 52, 53, 54, 55, 56, 57] : List Byte) = 0xE3069283
    ∧ crc32 ([49, 50, 51, 52, 53, 54, 55, 56, 57] : List Byte) = 0xCBF43926
    ∧ crc24 ([49, 50, 51, 52, 53, 54, 55, 56, 57] : List Byte) = 0x21CF02 := by
  decide

/-- A step on an empty queue at reset leaves the module as it is; a command at the front is taken off. -/
theorem test_step_idle : step State.reset = .next State.reset := rfl

theorem test_step_front : ∃ t, step { State.reset with pending := [.nop c0, .inletEnClose] } = .next t ∧ t.pending = [.inletEnClose] :=
  ⟨_, rfl, rfl⟩

end Sys2Proof.Tests
end

section
/-! SUPPORT. Byte memories read back what was written to them, and a write regenerates the parity of its bytes (R8, R205). -/

namespace Sys2Proof.Machine

open Sys2Proof

/-! ### Little-endian bytes (R8) -/

@[simp] theorem length_leBytes (n v : Nat) : (leBytes n v).length = n := by
  induction n generalizing v with
  | zero => rfl
  | succ n ih => simp [leBytes, ih]

/-- The little-endian bytes of a number assemble to the number, as far as they reach. -/
theorem leNat_leBytes (n v : Nat) : leNat (leBytes n v) = v % 256 ^ n := by
  induction n generalizing v with
  | zero => simp [leBytes, leNat, Nat.mod_one]
  | succ n ih =>
    have hmod : v % 256 ^ (n + 1) = v % 256 + 256 * (v / 256 % 256 ^ n) := by
      rw [Nat.pow_succ', Nat.mod_mul]
    simp [leBytes, leNat, ih, hmod]

theorem getElem?_leBytes {n i : Nat} (v : Nat) (hi : i < n) :
    (leBytes n v)[i]? = some (BitVec.ofNat 8 (v / 2 ^ (8 * i))) := by
  induction n generalizing v i with
  | zero => omega
  | succ n ih =>
    cases i with
    | zero => simp [leBytes]
    | succ i =>
      have hdiv : v / 256 / 2 ^ (8 * i) = v / 2 ^ (8 * (i + 1)) := by
        rw [Nat.div_div_eq_div_mul, Nat.mul_succ, Nat.add_comm, Nat.pow_add]
      simp [leBytes, ih (v / 256) (Nat.lt_of_succ_lt_succ hi), hdiv]

/-! ### Bytes -/

theorem getElem?_ramBytes (m : Ram) (a : Nat) {n i : Nat} (hi : i < n) :
    (ramBytes m a n)[i]? = some (ramByte m (a + i)) := by
  induction n generalizing a i with
  | zero => omega
  | succ n ih =>
    cases i with
    | zero => rfl
    | succ i =>
      have hadd : a + 1 + i = a + (i + 1) := by omega
      simpa [ramBytes, hadd] using ih (a + 1) (Nat.lt_of_succ_lt_succ hi)

/-- Bytes read back as they were written. -/
theorem ramBytes_putBytes_self {m : Ram} (a : Nat) (bs : List Byte) (h : m.wf = true) :
    ramBytes (ramPutBytes m a bs) a bs.length = bs := by
  induction bs generalizing m a with
  | nil => rfl
  | cons b bs ih =>
    have hhead : ramByte (ramPutBytes (ramPutByte m a b) (a + 1) bs) a = b :=
      (ramByte_putBytes_other _ bs (.inl (Nat.lt_succ_self a))).trans (ramByte_putByte_self a b h)
    have htail := ih (a + 1) (Ram.wf_putByte a b h)
    simp [ramPutBytes, ramBytes, hhead, htail]

/-- A write of bytes ends the parity errors of exactly those bytes. -/
theorem bad_ramPutBytes (m : Ram) (a : Nat) (bs : List Byte) :
    (ramPutBytes m a bs).bad = m.bad.filter (fun b => decide (b < a ∨ a + bs.length ≤ b)) := by
  induction bs generalizing m a with
  | nil =>
    refine (List.filter_eq_self.mpr fun b _ => decide_eq_true ?_).symm
    rw [List.length_nil]; omega
  | cons b bs ih =>
    rw [ramPutBytes, ih, ramPutByte, List.filter_filter]
    refine List.filter_congr fun x _ => ?_
    simp only [List.length_cons, bne, beq_eq_decide, ← decide_not, ← Bool.decide_and, decide_eq_decide]
    omega

/-! ### Words -/

/-- A word reads back as it was written. -/
theorem ramWord_putWord_self {m : Ram} (w : Nat) (v : Word) (h : m.wf = true) : ramWord (ramPutWord m w v) w = v := by
  have hbytes := ramBytes_putBytes_self (4 * w) (leBytes 4 v.toNat) h
  rw [length_leBytes] at hbytes
  have hfits : v.toNat % 256 ^ 4 = v.toNat := Nat.mod_eq_of_lt v.isLt
  rw [ramWord, ramPutWord, hbytes, leNat_leBytes, hfits, BitVec.ofNat_toNat, BitVec.setWidth_eq]

/-- Byte `i` of a written word. -/
theorem ramByte_putWord_self {m : Ram} (w : Nat) (v : Word) {i : Nat} (h : m.wf = true) (hi : i < 4) :
    ramByte (ramPutWord m w v) (4 * w + i) = BitVec.ofNat 8 (v.toNat / 2 ^ (8 * i)) := by
  have hbytes := ramBytes_putBytes_self (4 * w) (leBytes 4 v.toNat) h
  have hread := getElem?_ramBytes (ramPutWord m w v) (4 * w) hi
  rw [length_leBytes] at hbytes
  rw [ramPutWord, hbytes, getElem?_leBytes v.toNat hi] at hread
  exact (Option.some.inj hread).symm

theorem ramLanes_eq_zero {m : Ram} {w : Nat} (h : ∀ i, i < 4 → 4 * w + i ∉ m.bad) : ramLanes m w = 0 := by
  have hfirst : 4 * w ∉ m.bad := h 0 (by decide)
  simp [ramLanes, h, hfirst]

/-- A word write regenerates the parity of its word. -/
theorem ramLanes_putWord_self (m : Ram) (w : Nat) (v : Word) : ramLanes (ramPutWord m w v) w = 0 := by
  refine ramLanes_eq_zero fun i hi hmem => ?_
  rw [ramPutWord, bad_ramPutBytes, length_leBytes] at hmem
  have := of_decide_eq_true (List.mem_filter.mp hmem).2
  omega

/-- Settles O37: the bytes by induction on the list written, the word as its four little-endian bytes. -/
theorem storedBytesReadBack : Obligations.StoredBytesReadBack :=
  ⟨fun m a bs h =>
    ⟨ramBytes_putBytes_self a bs h, Ram.wf_putBytes a bs h, bad_ramPutBytes m a bs, fun _ hx => ramByte_putBytes_other m bs hx⟩,
  fun m w v h =>
    ⟨ramWord_putWord_self w v h, ramLanes_putWord_self m w v, fun _ hi => ramByte_putWord_self w v h hi⟩⟩

end Sys2Proof.Machine
end

section
/-! SUPPORT. What single registers of the control blocks and of BAR0 answer, and what their reads and writes change
(R9, R11, R109, R170, R201, R236, R320, R342, R371, R402, R412, R435, R468, R517). -/

namespace Sys2Proof.Machine

open Sys2Proof

/-! ### The two rows -/

/-- A read answers the value of `readReg` in the state after the read's clears. -/
theorem exec_rcRegisterRead {s t : State} {loc : RegLoc} {x : Nat} (h : readReg s loc = (x, t)) :
    exec (.rcRegisterRead loc) s = .next (emit t (.regData (BitVec.ofNat 64 x))) := by
  change Host.Outcome.next (emit (readReg s loc).2 (.regData (BitVec.ofNat 64 (readReg s loc).1))) = _
  rw [h]

theorem exec_registerWrite {s t : State} {loc : RegLoc} {v : DWord} (h : writeReg s loc v = t) :
    exec (.registerWrite loc v) s = .next t := by
  change Host.Outcome.next (writeReg s loc v) = _
  rw [h]

/-- A read of a core's register leaves the core as `readCoreReg` has it. -/
theorem readReg_core {s : State} {c : CoreId} {off : Nat} {x : Word} {co : Core}
    (h : readCoreReg (getCore s (coreKey c)) off = (x, co)) : readReg s (.core c off) = (x.toNat, setCore s (coreKey c) co) := by
  rw [readReg, h]

/-! ### Core block: reads -/

theorem readCoreReg_mxRetakes (c : Core) : readCoreReg c 0x0C = (BitVec.ofNat 32 c.mxRetakes, { c with mxRetakes := 0 }) := rfl

theorem readCoreReg_vxOvf (c : Core) : readCoreReg c 0x2C = (BitVec.ofNat 32 c.vxOvf, { c with vxOvf := 0 }) := rfl

theorem readCoreReg_cuePc (c : Core) : readCoreReg c 0xA4 = (BitVec.ofNat 32 c.pc.toNat, c) := rfl

/-- SPLIT, with CLAIMED and DIRTY. -/
theorem readCoreReg_split (c : Core) : readCoreReg c 0xC0 =
    (BitVec.ofNat 32 (c.split.toNat + bitAt (splitClaimed c) 2 + bitAt (c.cache.any fun l => l.dirty != 0) 3), c) := rfl

theorem readCoreReg_cacheMisses (c : Core) : readCoreReg c 0xC8 = (BitVec.ofNat 32 c.cacheMisses, { c with cacheMisses := 0 }) := rfl

theorem readCoreReg_qStale (c : Core) : readCoreReg c 0x180 = (BitVec.ofNat 32 c.qStale, { c with qStale := 0 }) := rfl

/-! ### Other blocks: reads -/

theorem readReg_vaultCrcErr {s : State} (k : ClusterId) (h : noVaults s = false) :
    readReg s (.cluster k 0x108) =
      ((getCl s (clKey k)).vault.crcErr, setVault s (clKey k) { (getCl s (clKey k)).vault with crcErr := 0 }) := by
  simp [readReg, readClusterReg, readVault, h]

/-- Both counters of the port's register clear with one read. -/
theorem readReg_portDiscard (s : State) (e : EdgePort) : readReg s (.port e 0x08) =
    ((getPort s e.val).discard + (getPort s e.val).resent * 2 ^ 16,
      setPort s e.val { getPort s e.val with discard := 0, resent := 0 }) := rfl

theorem readReg_portPeerSerial (s : State) (e : EdgePort) :
    readReg s (.port e 0x1C) = (bits (getPort s e.val).peerSerial.toNat 0 32, s) := rfl

theorem readReg_fabricNoroute (s : State) :
    readReg s (.fabric 0x08) = (s.fabric.noroute, { s with fabric := { s.fabric with noroute := 0 } }) := rfl

theorem readReg_clockHolds (s : State) :
    readReg s (.clock 0x04) = (s.clock.holds, { s with clock := { s.clock with holds := 0 } }) := rfl

/-- A read of the low half of SIDEBAND_TCAP latches the high half for its port (entry 98 of the spec's log). -/
theorem readReg_tcapLow (s : State) (p : HostPort) : readReg s (.bar0 p 0x28) =
    (bits s.tcap.toNat 0 32, setHost s p { getHost s p with tcapHi := BitVec.ofNat 32 (s.tcap.toNat / 2 ^ 32) }) := rfl

theorem readReg_tcapHigh (s : State) (p : HostPort) : readReg s (.bar0 p 0x2C) = ((getHost s p).tcapHi.toNat, s) := rfl

theorem readReg_cmdHead (s : State) (p : HostPort) : readReg s (.bar0 p 0x110) = ((getHost s p).cmd.head.toNat, s) := rfl

theorem readReg_evtLost (s : State) (p : HostPort) :
    readReg s (.bar0 p 0x148) = ((getHost s p).evtLost, setHost s p { getHost s p with evtLost := 0 }) := rfl

/-! ### Writes -/

/-- A one written to CSAT or WDOG of CUE_STATUS clears it. -/
theorem writeReg_cueStatus (s : State) (c : CoreId) (v : DWord) : writeReg s (.core c 0xA0) v =
    setCore s (coreKey c) { getCore s (coreKey c) with
      csat := (getCore s (coreKey c)).csat && !v.getLsbD 5, wdog := (getCore s (coreKey c)).wdog && !v.getLsbD 6 } := rfl

/-- MX_CTRL takes a write while scope 1 is debug-unlocked. -/
theorem writeReg_mxCtrl (s : State) (c : CoreId) (v : DWord) : writeReg s (.core c 0x10) v =
    setCore s (coreKey c) (if s.boot.scopes.getLsbD 1 then { getCore s (coreKey c) with rchkAllow := v.getLsbD 0 }
      else getCore s (coreKey c)) := rfl

theorem writeReg_cuePc (s : State) (c : CoreId) (v : DWord) :
    writeReg s (.core c 0xA4) v = setCore s (coreKey c) (getCore s (coreKey c)) := rfl

/-- A one written to bit 31 of VT_ERRLOG clears it. -/
theorem writeReg_vaultErrlog {s : State} (k : ClusterId) {v : DWord} (hv : noVaults s = false) (hbit : v.getLsbD 31 = true) :
    writeReg s (.cluster k 0x110) v = setVault s (clKey k)
      { (getCl s (clKey k)).vault with errlog := (getCl s (clKey k)).vault.errlog &&& 0x7FFFFFFF } := by
  have htest : v.toNat.testBit 31 = true := hbit
  simp [writeReg, writeVaultReg, hv, htest]

/-- A ring's base keeps a write out while the ring is enabled, and otherwise takes the dword at its low half. -/
theorem ringBase_low (r : Ring) (base : Nat) (w : Word) : ringBase r base base w =
    if r.en then r else { r with base := BitVec.ofNat 64 (r.base.toNat / 2 ^ 32 * 2 ^ 32 + w.toNat) } := by
  simp [ringBase, putDword]

theorem writeReg_cmdBase (s : State) (p : HostPort) (v : DWord) : writeReg s (.bar0 p 0x108) v =
    setHost s p (if (getHost s p).cmd.en then getHost s p else { getHost s p with cmd := { (getHost s p).cmd with
      base := BitVec.ofNat 64 ((getHost s p).cmd.base.toNat / 2 ^ 32 * 2 ^ 32 + v.toNat % 2 ^ 32) } }) := by
  have hring := ringBase_low (getHost s p).cmd 0x108 (BitVec.ofNat 32 v.toNat)
  rw [BitVec.toNat_ofNat] at hring
  change setHost s p { getHost s p with cmd := ringBase (getHost s p).cmd 0x108 0x108 (BitVec.ofNat 32 v.toNat) } = _
  rw [hring]
  split <;> rfl

theorem writeReg_irqMod (s : State) (p : HostPort) (v : DWord) :
    writeReg s (.bar0 p 0x184) v = setHost s p { getHost s p with irqMod := v.setWidth 32 } := rfl

/-- Every register of a port block is read-only. -/
theorem writeReg_port (s : State) (e : EdgePort) (off : Nat) (v : DWord) : writeReg s (.port e off) v = s := rfl

/-- Every register of the fabric block is read-only. -/
theorem writeReg_fabric (s : State) (off : Nat) (v : DWord) : writeReg s (.fabric off) v = s := rfl

/-- Settles O40: each access is its row applied to the lemma of its register. -/
theorem registerAccesses : Obligations.RegisterAccesses := by
  intro s c k e p v co vt pt h f answers set
  refine ⟨⟨?mxRetakes, ?vxOvf, ?cacheMisses, ?qStale, ?cuePc, ?crcErr, ?discard, ?noroute, ?holds, ?evtLost, ?cmdHead,
    ?tcapLow, ?tcapHigh, ?peerSerial, ?split⟩,
    ?cueStatus, ?mxCtrl, ?cuePcWrite, ?errlog, ?cmdBase, ?irqMod, ?readOnly⟩
  case mxRetakes => exact exec_rcRegisterRead (readReg_core (readCoreReg_mxRetakes co))
  case vxOvf => exact exec_rcRegisterRead (readReg_core (readCoreReg_vxOvf co))
  case cacheMisses => exact exec_rcRegisterRead (readReg_core (readCoreReg_cacheMisses co))
  case qStale => exact exec_rcRegisterRead (readReg_core (readCoreReg_qStale co))
  case cuePc => exact exec_rcRegisterRead (readReg_core (readCoreReg_cuePc co))
  case crcErr => exact fun hv => exec_rcRegisterRead (readReg_vaultCrcErr k hv)
  case discard => exact exec_rcRegisterRead (readReg_portDiscard s e)
  case noroute => exact exec_rcRegisterRead (readReg_fabricNoroute s)
  case holds => exact exec_rcRegisterRead (readReg_clockHolds s)
  case evtLost => exact exec_rcRegisterRead (readReg_evtLost s p)
  case cmdHead => exact exec_rcRegisterRead (readReg_cmdHead s p)
  case tcapLow => exact exec_rcRegisterRead (readReg_tcapLow s p)
  case tcapHigh => exact exec_rcRegisterRead (readReg_tcapHigh s p)
  case peerSerial => exact exec_rcRegisterRead (readReg_portPeerSerial s e)
  case split => exact exec_rcRegisterRead (readReg_core (readCoreReg_split co))
  case cueStatus => exact exec_registerWrite (writeReg_cueStatus s c v)
  case mxCtrl => exact exec_registerWrite (writeReg_mxCtrl s c v)
  case cuePcWrite => exact exec_registerWrite (writeReg_cuePc s c v)
  case errlog => exact fun hv hbit => exec_registerWrite (writeReg_vaultErrlog k hv hbit)
  case cmdBase => exact exec_registerWrite (writeReg_cmdBase s p v)
  case irqMod => exact exec_registerWrite (writeReg_irqMod s p v)
  case readOnly => exact fun off => ⟨exec_registerWrite (writeReg_port s e off v), exec_registerWrite (writeReg_fabric s off v)⟩

end Sys2Proof.Machine
end

section
/-! SUPPORT. Numbers compare by value at a common scale, and the predicates, MIN and MAX follow that order (R49, R50). -/

namespace Sys2Proof.Machine

open Sys2Proof

/-! ### Comparison by value (R49) -/

theorem compare_mul_two_pow (n : Nat) (a b : Int) : compare (a * 2 ^ n) (b * 2 ^ n) = compare a b := by
  have hpos : (0 : Int) < 2 ^ n := by positivity
  rw [← cmp_eq_compare, cmp_mul_pos_right hpos, cmp_eq_compare]

/-- Any scale at or below both is a common one: the order of the values is that of their integers there. -/
theorem cmpScaled_eq_compare {k e1 e2 : Int} (h1 : k ≤ e1) (h2 : k ≤ e2) (m1 m2 : Int) :
    cmpScaled m1 e1 m2 e2 = compare (m1 * 2 ^ (e1 - k).toNat) (m2 * 2 ^ (e2 - k).toNat) := by
  unfold cmpScaled
  split
  next hle =>
    have hshift : (e2 - k).toNat = (e2 - e1).toNat + (e1 - k).toNat := by omega
    rw [hshift, pow_add, ← mul_assoc, compare_mul_two_pow, Nat.cast_pow, Nat.cast_ofNat]
  next hgt =>
    have hshift : (e1 - k).toNat = (e1 - e2).toNat + (e2 - k).toNat := by omega
    rw [hshift, pow_add, ← mul_assoc, compare_mul_two_pow, Nat.cast_pow, Nat.cast_ofNat]

theorem cmpScaled_swap (m1 e1 m2 e2 : Int) : (cmpScaled m1 e1 m2 e2).swap = cmpScaled m2 e2 m1 e1 := by
  rw [cmpScaled_eq_compare (min_le_left e1 e2) (min_le_right e1 e2),
    cmpScaled_eq_compare (min_le_right e1 e2) (min_le_left e1 e2), ← cmp_eq_compare, cmp_swap, cmp_eq_compare]

theorem numCompare_fin {k x1 x2 : Int} (h1 : k ≤ x1) (h2 : k ≤ x2) (m1 m2 : Int) :
    numCompare (.fin m1 x1) (.fin m2 x2) = some (compare (m1 * 2 ^ (x1 - k).toNat) (m2 * 2 ^ (x2 - k).toNat)) :=
  congrArg some (cmpScaled_eq_compare h1 h2 m1 m2)

/-- NaN alone is unordered. -/
theorem numCompare_eq_none_iff {a b : Num} : numCompare a b = none ↔ a = .nan ∨ b = .nan := by
  cases a <;> cases b <;> simp [numCompare]

theorem numCompare_swap (a b : Num) : (numCompare a b).map Ordering.swap = numCompare b a := by
  match a, b with
  | .nan, b => cases b <;> rfl
  | .inf _, .nan | .fin _ _, .nan => rfl
  | .inf n, .inf n' => cases n <;> cases n' <;> rfl
  | .inf n, .fin _ _ | .fin _ _, .inf n => cases n <;> rfl
  | .fin m1 x1, .fin m2 x2 => exact congrArg some (cmpScaled_swap m1 x1 m2 x2)

theorem numCompare_eq_lt_comm {a b : Num} : numCompare b a = some .lt ↔ numCompare a b = some .gt := by
  simp [← numCompare_swap a b, Ordering.swap_eq_lt]

theorem numCompare_eq_gt_comm {a b : Num} : numCompare b a = some .gt ↔ numCompare a b = some .lt := by
  simp [← numCompare_swap a b, Ordering.swap_eq_gt]

/-! ### The predicates (R49) -/

/-- The six predicates, EQ, NE, LT, LE, GT and GE, of two operands. -/
def predRow (a b : Num) : List Bool := (List.range 6).map fun i => lanePred i a b

/-- The row of R49's table for two operands in order `o`. -/
theorem predRow_of_ordered {a b : Num} {o : Ordering} (h : numCompare a b = some o) :
    predRow a b = [o == .eq, o != .eq, o == .lt, o != .gt, o == .gt, o != .lt] := by
  simp [predRow, List.range_succ, lanePred, h]

/-- The row of R49's table for a NaN operand. -/
theorem predRow_of_unordered {a b : Num} (h : numCompare a b = none) :
    predRow a b = [false, true, false, false, false, false] := by
  simp [predRow, List.range_succ, lanePred, h]

theorem lanePred_lt_iff {a b : Num} : lanePred 2 a b = true ↔ numCompare a b = some .lt := by
  cases h : numCompare a b <;> simp [lanePred, h]

theorem lanePred_gt_iff {a b : Num} : lanePred 4 a b = true ↔ numCompare a b = some .gt := by
  cases h : numCompare a b <;> simp [lanePred, h]

/-! ### MIN and MAX (R50) -/

theorem laneMinMax_of_unordered {a b : Num} (gt : Bool) (h : numCompare a b = none) : laneMinMax gt a b = .nan := by
  obtain rfl | rfl := numCompare_eq_none_iff.mp h
  · cases b <;> rfl
  · cases a <;> rfl

/-- The second operand is given only where it lies strictly on the wanted side of the first. -/
theorem laneMinMax_of_ordered {a b : Num} {o : Ordering} (gt : Bool) (h : numCompare a b = some o) :
    laneMinMax gt a b = if o = (if gt then .lt else .gt) then b else a := by
  have hnone : ¬ (a = .nan ∨ b = .nan) := fun hn => by simp [numCompare_eq_none_iff.mpr hn] at h
  obtain ⟨ha, hb⟩ := not_or.mp hnone
  rw [laneMinMax, h]
  · cases o <;> cases gt <;> rfl
  · exact ha
  · exact hb

theorem laneMin_eq {a b : Num} (ha : a ≠ .nan) (hb : b ≠ .nan) :
    laneMinMax false a b = if lanePred 2 b a then b else a := by
  obtain ⟨o, ho⟩ := Option.ne_none_iff_exists'.mp (mt numCompare_eq_none_iff.mp (not_or.mpr ⟨ha, hb⟩))
  simp [laneMinMax_of_ordered false ho, lanePred_lt_iff, numCompare_eq_lt_comm, ho]

theorem laneMax_eq {a b : Num} (ha : a ≠ .nan) (hb : b ≠ .nan) :
    laneMinMax true a b = if lanePred 4 b a then b else a := by
  obtain ⟨o, ho⟩ := Option.ne_none_iff_exists'.mp (mt numCompare_eq_none_iff.mp (not_or.mpr ⟨ha, hb⟩))
  simp [laneMinMax_of_ordered true ho, lanePred_gt_iff, numCompare_eq_gt_comm, ho]

/-- Settles O18: finite values by their integers at the common scale, the special classes by the rows of R49's table, MIN and
MAX by the order of the swapped operands. -/
theorem comparisonByValue : Obligations.ComparisonByValue := by
  refine ⟨?finite, ?below, ?same, ?unordered, ?minMax⟩
  case finite =>
    intro m1 x1 m2 x2 k h1 h2
    simp [lanePred, numCompare_fin h1 h2, compare_lt_iff_lt, compare_gt_iff_gt]
  case below =>
    intro m x o ho
    have hlt : numCompare o.1 o.2 = some .lt := by
      simp only [List.mem_cons, List.not_mem_nil, or_false] at ho
      obtain rfl | rfl | rfl := ho <;> rfl
    exact ⟨predRow_of_ordered hlt, predRow_of_ordered (numCompare_eq_gt_comm.mpr hlt)⟩
  case same =>
    intro n
    exact predRow_of_ordered (o := .eq) (by simp [numCompare])
  case unordered =>
    intro a
    exact ⟨predRow_of_unordered (numCompare_eq_none_iff.mpr (.inl rfl)),
      predRow_of_unordered (numCompare_eq_none_iff.mpr (.inr rfl))⟩
  case minMax =>
    intro a b
    refine ⟨fun hnan => ?_, fun ha hb => ⟨laneMin_eq ha hb, laneMax_eq ha hb⟩⟩
    have hnone := numCompare_eq_none_iff.mpr hnan
    exact ⟨laneMinMax_of_unordered false hnone, laneMinMax_of_unordered true hnone⟩

end Sys2Proof.Machine
end

section
/-! SUPPORT. What the rows of the matrix engine share: events leave the cores alone, a read that succeeds leaves the module alone,
and a descriptor's progress leaves the rest of its core alone (R71 to R103). -/

namespace Sys2Proof.Machine

open Sys2Proof

/-! ### Events leave the cores alone (R419) -/

@[simp] theorem getCore_fireVector (s : State) (p : HostPort) (v i : Nat) : getCore (fireVector s p v) i = getCore s i := by
  simp only [fireVector, apply_ite (getCore · i), getCore_setHost, getCore_emit, ite_self]

@[simp] theorem getCore_writeEvt (s : State) (p : HostPort) (rcd : List Byte) (i : Nat) :
    getCore (writeEvt s p rcd) i = getCore s i := by
  unfold writeEvt
  dsimp only
  split <;> simp

@[simp] theorem getCore_postEvent (s : State) (p : HostPort) (rcd : List Byte) (i : Nat) :
    getCore (postEvent s p rcd) i = getCore s i := by
  simp only [postEvent, apply_ite (getCore · i), getCore_writeEvt, getCore_setHost, ite_self]

@[simp] theorem getCore_raiseEv (s : State) (code sev : Nat) (f : EvFrame) (detail : List (Nat × Nat × Nat)) (i : Nat) :
    getCore (raiseEv s code sev f detail) i = getCore s i := by
  cases hs : f.slate <;> simp only [raiseEv, hs, apply_ite (getCore · i), getCore_postEvent, ite_self] <;> rfl

@[simp] theorem getCore_coreEv (s : State) (k code sev : Nat) (detail : List (Nat × Nat × Nat)) (i : Nat) :
    getCore (coreEv s k code sev detail) i = getCore s i :=
  getCore_raiseEv s code sev _ detail i

/-! ### Reads that succeed leave the module alone -/

theorem memRead_ok_state {s s' : State} {k off n : Nat} {e : HEntry} {stop : Core → Core} {ws : List Word}
    (h : memRead s k e off n false stop = (s', .ok ws)) : s' = s := by
  simp only [memRead, Bool.false_eq_true, and_false, if_false] at h
  split at h
  all_goals
    split at h
    · cases (Prod.mk.inj h).2
    · exact (Prod.mk.inj h).1.symm

theorem mxReadBytes_some_state {s s' : State} {k h a n : Nat} {bs : List Byte}
    (hr : mxReadBytes s k h a n = (s', some bs)) : s' = s := by
  unfold mxReadBytes at hr
  split at hr
  · exact (Prod.mk.inj hr).1.symm
  · split at hr
    case h_1 u ws hread =>
      obtain ⟨rfl, _⟩ := Prod.mk.inj hr
      exact memRead_ok_state hread
    case h_2 => cases (Prod.mk.inj hr).2

theorem mxReadRow_of_some {s : State} {k m p0 span : Nat} {d : MxRun} {r : ARow}
    (h : (mxReadRow s k d m p0 span).2 = some r) : mxReadRow s k d m p0 span = (s, some r) := by
  refine Prod.ext ?_ h
  dsimp only [mxReadRow] at h ⊢
  split at h
  case h_1 s1 ws hwords =>
    obtain rfl := memRead_ok_state hwords
    split at h
    case h_1 s2 sc hscales => simpa [hwords, hscales] using mxReadBytes_some_state hscales
    case h_2 => cases h
  case h_2 => cases h

/-! ### What a descriptor's progress leaves alone -/

@[simp] theorem setMx_accBad (c : Core) (d : MxRun) : (setMx c d).accBad = c.accBad := rfl

@[simp] theorem mxDropTile_mode (c : Core) (d d' : MxRun) (t : Tile) : (mxDropTile c d d' t).mode = c.mode := by
  unfold mxDropTile
  dsimp only
  split <;> rfl

@[simp] theorem gatherCount_mode (c : Core) (d : MxRun) (t : Tile) : (gatherCount c d t).mode = c.mode := rfl

/-- Zeroing accumulator rows leaves their parity marks to be cleared. -/
theorem foldl_setAccRow_accBad (row : Nat → Nat) (v : List Num) (l : List Nat) (c : Core) :
    (l.foldl (fun x i => setAccRow x (row i) v) c).accBad = c.accBad := by
  induction l generalizing c with
  | nil => rfl
  | cons i l ih => exact ih (setAccRow c (row i) v)

/-- A core that holds a matrix descriptor is not the reset value of the table of cores. -/
theorem Core.ne_reset_of_mx {c : Core} (h : c.mx ≠ []) : c ≠ Core.reset := fun e => h (by rw [e]; rfl)

theorem setMx_ne_reset {c : Core} (d : MxRun) (h : c.mx ≠ []) : setMx c d ≠ Core.reset :=
  Core.ne_reset_of_mx (mt List.map_eq_nil_iff.mp h)

end Sys2Proof.Machine
end

section
/-! SUPPORT. Weight tiles: slots and loads, residence and checks, and the violation of a tile that is due (R73 to R78, R93, R113). -/

namespace Sys2Proof.Machine

open Sys2Proof

/-! ### A load begins (R73, R74, R113) -/

theorem exec_weightTileLoadStart {s : State} {c : CoreId} {d : MxRun} (h : mxLoader (coreOf s c) = some d) :
    exec (.weightTileLoadStart c) s = .next (loadStart s (coreKey c) d) := by
  change execWeightTileLoadStart c s = _
  unfold coreOf at h
  simp only [execWeightTileLoadStart, h]

/-- A running engine without tiles takes the next tile of its first descriptor. -/
theorem mxLoader_of_no_tiles {co : Core} {d : MxRun} {ds : List MxRun} (hrun : co.mode = .running) (hstop : co.mxStop = 0)
    (htiles : co.tiles = []) (hmx : co.mx = d :: ds) (hleft : d.ldN < mxNt d) : mxLoader co = some d := by
  simp [mxLoader, mxGoing, hrun, hstop, htiles, hmx, hleft]

/-- While no slot is busy, a tile of one half takes the lowest slots its format needs. -/
theorem freeSlots_of_no_tiles {co : Core} (f : Nat) (htiles : co.tiles = []) :
    freeSlots co f 1 = some [if f = 0 then [0] else if f = 1 then [0, 1] else [0, 1, 2, 3]] := by
  simp only [freeSlots, htiles]
  match f with
  | 0 => rfl
  | 1 => rfl
  | f + 2 => simp

theorem ldHalves_of_kstep {s : State} {k : Nat} {d : MxRun} (h : mxKstep d = 0) : ldHalves s k d = 1 := by
  simp [ldHalves, h]

/-- A load from memory takes its slots. -/
theorem loadStart_memory {s : State} {k : Nat} {d : MxRun} {slots : List (List Nat)}
    (hslots : freeSlots (getCore s k) (mxWf d) (ldHalves s k d) = some slots)
    (hmem : (hEntry (getCore s k) (df d.words 3 12 6)).space ≠ 5) :
    loadStart s k d = setCore s k { getCore s k with
      tiles := (getCore s k).tiles ++ newTiles d slots 0
      planeBad := lanesClear (getCore s k).planeBad slots.flatten.contains } := by
  simp [loadStart, hslots, ldEntry, hmem]

/-- A load from a reel takes its slots and asks for the tile's first words. -/
theorem loadStart_reel {s : State} {k : Nat} {d : MxRun} {slots : List (List Nat)} {t : Tile} {ts : List Tile}
    (hslots : freeSlots (getCore s k) (mxWf d) (ldHalves s k d) = some slots)
    (hreel : (hEntry (getCore s k) (df d.words 3 12 6)).space = 5)
    (horder : reelOrderBad (getCore s k) (df d.words 3 12 6)
      ((hEntry (getCore s k) (df d.words 3 12 6)).base + mxTileOff d d.ldN d.ldK) = false)
    (hts : newTiles d slots (ldTotal d) = t :: ts) :
    loadStart s k d = tileSend (setCore s k { getCore s k with
      tiles := (getCore s k).tiles ++ newTiles d slots (ldTotal d)
      planeBad := lanesClear (getCore s k).planeBad slots.flatten.contains
      reelRef := smapSet 0 (getCore s k).reelRef (df d.words 3 12 6)
        ((hEntry (getCore s k) (df d.words 3 12 6)).base + mxTileOff d d.ldN d.ldK) }) k (df d.words 3 12 6)
      (mxTileOff d d.ldN d.ldK) (sameTile t) 64 := by
  simp [loadStart, hslots, ldEntry, ldOff, hreel, horder, hts]

/-! ### A tile becomes resident (R77, R94, R129) -/

theorem loadParts_some_state {k off : Nat} {e : HEntry} {ps : List (Nat × Nat)} {s : State} {bs out : List Byte}
    (h : (loadParts k e off ps s bs).2 = some out) : (loadParts k e off ps s bs).1 = s := by
  induction ps generalizing s bs with
  | nil => rfl
  | cons p ps ih =>
    obtain ⟨o, n⟩ := p
    cases n with
    | zero => exact ih h
    | succ n =>
      simp only [loadParts] at h ⊢
      split at h
      case h_1 s' ws hread =>
        obtain rfl := memRead_ok_state hread
        simpa only [hread] using ih h
      case h_2 => cases h

/-- A tile read whole is read without a change of the module. -/
theorem loadBytes_of_some {s : State} {k off : Nat} {d : MxRun} {e : HEntry} {bs : List Byte}
    (h : (loadBytes s k d e off).2 = some bs) : loadBytes s k d e off = (s, some bs) := by
  refine Prod.ext ?_ h
  dsimp only [loadBytes] at h ⊢
  split at h
  case h_1 s1 hd hread =>
    obtain rfl := memRead_ok_state hread
    simpa only [hread] using loadParts_some_state h
  case h_2 => cases h

/-- The bytes of the loading tile were read from memory. -/
theorem exec_weightTileResident_memory {s : State} {c : CoreId} {d : MxRun} {t : Tile} {ts : List Tile} {bs : List Byte}
    (hload : loadingTiles (coreOf s c) = t :: ts) (hd : ((coreOf s c).mx.find? fun d => d.op == t.op) = some d)
    (hmem : (hEntry (coreOf s c) (df d.words 3 12 6)).space ≠ 5)
    (hbytes : (loadBytes s (coreKey c) d (hEntry (coreOf s c) (df d.words 3 12 6)) (mxTileOff d d.ldN d.ldK)).2 = some bs) :
    exec (.weightTileResident c) s = .next (makeResident s (coreKey c) d bs) := by
  change execWeightTileResident c s = _
  have hread := loadBytes_of_some hbytes
  unfold coreOf at hload hd hmem hread
  simp only [execWeightTileResident, hload, hd, ldEntry, ldOff, hmem, if_false, hread]

/-- The reel has answered every read of the loading tile. -/
theorem exec_weightTileResident_reel {s : State} {c : CoreId} {d : MxRun} {t : Tile} {ts : List Tile}
    (hload : loadingTiles (coreOf s c) = t :: ts) (hd : ((coreOf s c).mx.find? fun d => d.op == t.op) = some d)
    (hreel : (hEntry (coreOf s c) (df d.words 3 12 6)).space = 5) (hreads : t.reads = []) (hall : t.total ≤ t.next) :
    exec (.weightTileResident c) s = .next (makeResident s (coreKey c) d t.bytes) := by
  change execWeightTileResident c s = _
  unfold coreOf at hload hd hreel
  simp [execWeightTileResident, hload, hd, ldEntry, hreel, hreads, hall]

/-- The one loading tile keeps its place with its bytes and its verdict, and no other tile changes. -/
theorem makeResident_of_one_loading {s : State} {k : Nat} {d : MxRun} {t : Tile} (bs : List Byte)
    (hload : loadingTiles (getCore s k) = [t]) (hclean : t.violation = none) (hhalf : t.half = d.ldH) :
    makeResident s k d bs = setCore s k (loadedCore (getCore s k) d bs) := by
  have hkeep : ∀ x ∈ (getCore s k).tiles,
      (x.resident || decide (x.half < tileHalves bs) || decide (x.half = d.ldH)) = true := by
    intro x hx
    cases hres : x.resident
    case true => rfl
    case false =>
      have hmem : x ∈ loadingTiles (getCore s k) := List.mem_filter.mpr ⟨hx, by simp [hres]⟩
      obtain rfl := List.mem_singleton.mp (hload ▸ hmem)
      simp [hhalf]
  simp only [makeResident, hload, List.filter_eq_self.mpr hkeep, List.head?_cons, Option.bind_some, hclean]
  rfl

/-! ### A tile that failed its checks is due (R93, R131) -/

theorem exec_mxTileViolation {s : State} {c : CoreId} {d : MxRun} {t : Tile} {r : Nat} (hdue : mxDue (coreOf s c) = some (d, t))
    (hbad : t.violation = some r) (hwait : mxTileWaits (coreOf s c) d = false) :
    exec (.mxTileViolation c) s = .next (mxViolate s (coreKey c) d r) := by
  change execMxTileViolation c s = _
  unfold coreOf at hdue hwait
  simp [execMxTileViolation, hdue, hbad, hwait]

/-- Settles O15: each clause is its row's rule; one loading tile alone becomes resident by `makeResident_of_one_loading`. -/
theorem weightTileSteps : Obligations.WeightTileSteps := by
  intro c s d k co h e off first
  refine ⟨?firstLoad, ?memoryLoad, ?reelLoad, ?memoryLoaded, ?reelLoaded, ?memoryResident, ?reelResident, ?violation⟩
  case firstLoad =>
    intro ds hrun hstop htiles hmx hleft hkstep hmem
    have hslots : freeSlots co (mxWf d) (ldHalves s k d) = some [first] := by
      rw [ldHalves_of_kstep hkstep]
      exact freeSlots_of_no_tiles (mxWf d) htiles
    rw [exec_weightTileLoadStart (mxLoader_of_no_tiles hrun hstop htiles hmx hleft), loadStart_memory hslots hmem]
    change Host.Outcome.next (setCore s k { co with tiles := co.tiles ++ _, planeBad := _ }) = _
    rw [htiles, List.flatten_singleton]
    rfl
  case memoryLoad =>
    intro slots hload hslots hmem
    rw [exec_weightTileLoadStart hload, loadStart_memory hslots hmem]
    rfl
  case reelLoad =>
    intro slots t ts hload hslots hreel horder hts
    rw [exec_weightTileLoadStart hload, loadStart_reel hslots hreel horder hts]
    rfl
  case memoryLoaded =>
    intro t bs hload hclean hhalf hd hmem hbytes
    rw [exec_weightTileResident_memory hload hd hmem hbytes, makeResident_of_one_loading bs hload hclean hhalf]
    rfl
  case reelLoaded =>
    intro t hload hclean hhalf hd hreel hreads hall
    rw [exec_weightTileResident_reel hload hd hreel hreads hall, makeResident_of_one_loading t.bytes hload hclean hhalf]
    rfl
  case memoryResident => exact fun t ts bs hload hd hmem hbytes => exec_weightTileResident_memory hload hd hmem hbytes
  case reelResident => exact fun t ts hload hd hreel hreads hall => exec_weightTileResident_reel hload hd hreel hreads hall
  case violation =>
    intro t r hdue hbad hwait
    rw [exec_mxTileViolation hdue hbad hwait]
    simp only [mxViolate, setMx_accBad, foldl_setAccRow_accBad]
    rfl

end Sys2Proof.Machine
end

section
/-! SUPPORT. The residue check of a pass or gather row: the predicted residue is that of the block sums, and the columns it finds are
those whose adders are in error (R97, R100, R126). -/

namespace Sys2Proof.Machine

open Sys2Proof

/-! ### Sums over blocks -/

theorem foldl_add_eq_add_sum {α : Type} (f : α → Int) (l : List α) (a : Int) :
    l.foldl (fun x y => x + f y) a = a + (l.map f).sum := by
  induction l generalizing a with
  | nil => simp
  | cons y l ih => rw [List.foldl_cons, ih, List.map_cons, List.sum_cons, add_assoc]

/-- Terms that all lie in the first `n` blocks sum up block by block. -/
theorem sum_over_blocks {α : Type} (block : α → Nat) (f : α → Int) {n : Nat} {l : List α} (h : ∀ x ∈ l, block x < n) :
    ((List.range n).map fun b => ((l.filter fun x => block x == b).map f).sum).sum = (l.map f).sum := by
  induction l with
  | nil => simp
  | cons y l ih =>
    have hhead : ((List.range n).map fun b => if block y = b then f y else 0).sum = f y := by
      have hone : (List.range n).count (block y) = 1 :=
        List.count_eq_one_of_mem List.nodup_range (List.mem_range.mpr (h y List.mem_cons_self))
      rw [List.sum_map_eq_nsmul_single (block y) _ fun b hb _ => if_neg (Ne.symm hb), hone, one_nsmul, if_pos rfl]
    have hsplit : ∀ b, (((y :: l).filter fun x => block x == b).map f).sum
        = (if block y = b then f y else 0) + ((l.filter fun x => block x == b).map f).sum := by
      intro b
      by_cases hb : block y = b <;> simp [hb]
    simp only [hsplit, List.sum_map_add, hhead, ih fun x hx => h x (List.mem_cons_of_mem y hx), List.map_cons, List.sum_cons]

/-- A residue of a sum of products is that of the products of residues. -/
theorem sum_mul_emod {α : Type} (f g : α → Int) (m : Int) (l : List α) :
    (l.map fun x => f x % m * (g x % m)).sum % m = (l.map fun x => f x * g x).sum % m := by
  rw [List.sum_int_mod, List.sum_int_mod (l.map fun x => f x * g x)]
  simp only [List.map_map, Function.comp_def, ← Int.mul_emod]

/-! ### The prediction without an error (R97, R126) -/

theorem mxLive_le (d : MxRun) (t : Tile) : mxLive d t ≤ 32 * tileBlocks t.bytes := by
  unfold mxLive tileBlocks tileSpan
  split <;> omega

theorem columnLive_position_lt {t : Tile} {n u : Nat} {p : Option Nat × Nat} (h : p ∈ columnLive t n u) : p.2 < u := by
  have hlen := List.snd_lt_of_mem_zipIdx h
  have htake := List.length_take_le u (tileColumn t.bytes t.half n)
  omega

theorem blockResidue_eq_sum (bs : List (Int × Int)) (err : Int) : blockResidue bs err = (err + (bs.map (·.1)).sum) % 63 := by
  rw [blockResidue, foldl_add_eq_add_sum]

/-- The block sums of a column together are the sum of all its products. -/
theorem sum_columnBlocks (d : MxRun) (t : Tile) (r : ARow) (n : Nat) {u : Nat} (dig : Option (Nat × Nat))
    (h : u ≤ 32 * tileBlocks t.bytes) : ((columnBlocks d t r n u dig).map (·.1)).sum
      = ((columnLive t n u).map fun p => (columnFactors d t r n dig p).1 * (columnFactors d t r n dig p).2).sum := by
  have hblock : ∀ p ∈ columnLive t n u, p.2 / 32 < tileBlocks t.bytes := by
    intro p hp
    have := columnLive_position_lt hp
    omega
  rw [← sum_over_blocks (fun p : Option Nat × Nat => p.2 / 32) _ hblock]
  simp only [columnBlocks, foldl_add_eq_add_sum, List.map_map, List.filter_map, zero_add, Function.comp_def]

theorem predictedResidue_eq (d : MxRun) (t : Tile) (r : ARow) (n : Nat) {u : Nat} (dig : Option (Nat × Nat))
    (h : u ≤ 32 * tileBlocks t.bytes) :
    predictedResidue d t r n u dig = blockResidue (columnBlocks d t r n u dig) 0 := by
  rw [blockResidue_eq_sum, sum_columnBlocks d t r n dig h, predictedResidue]
  simp only [foldl_add_eq_add_sum, zero_add, sum_mul_emod]

/-! ### The columns the check finds (R97, R100) -/

/-- Setting the bits of the numbers below `m` that `p` leaves out. -/
theorem getLsbD_foldl_twoPow {w : Nat} (p : Nat → Prop) [DecidablePred p] (m : Nat) {i : Nat} (hi : i < w) :
    ((List.range m).foldl (fun x n => if p n then x else x ||| BitVec.twoPow w n) 0).getLsbD i = (decide (i < m) && !decide (p i)) := by
  induction m with
  | zero => simp
  | succ m ih =>
    rw [List.range_succ, List.foldl_append, List.foldl_cons, List.foldl_nil]
    have hlt : i < m + 1 ↔ i < m ∨ m = i := by omega
    by_cases hp : p m
    · rw [if_pos hp, ih]
      by_cases him : m = i
      · subst him
        simp [hp]
      · simp [hlt, him]
    · rw [if_neg hp, BitVec.getLsbD_or, ih, BitVec.getLsbD_twoPow]
      by_cases him : m = i
      · subst him
        simp [hp, hi]
      · simp [hlt, him]

/-- Exactly the columns whose adders are in error mismatch. -/
theorem residueVerdict_eq (d : MxRun) (t : Tile) (r : ARow) {u : Nat} (dig : Option (Nat × Nat)) (cols : BitVec 128)
    (h : u ≤ 32 * tileBlocks t.bytes) : residueVerdict d t r u dig cols = cols := by
  have hmatch : ∀ n, predictedResidue d t r n u dig
      = blockResidue (columnBlocks d t r n u dig) (if cols.getLsbD n then 1 else 0) ↔ cols.getLsbD n = false := by
    intro n
    rw [predictedResidue_eq d t r n dig h, blockResidue_eq_sum, blockResidue_eq_sum]
    cases cols.getLsbD n
    · simp
    · simp only [if_true, Bool.true_eq_false, iff_false]
      omega
  refine BitVec.eq_of_getLsbD_eq fun i hi => ?_
  simp only [residueVerdict, hmatch, getLsbD_foldl_twoPow _ 128 hi]
  simp [hi]

theorem mxVerdicts_eq (d : MxRun) (t : Tile) (r : ARow) (cols again : BitVec 128) : mxVerdicts d t r cols again = (cols, again) :=
  congrArg₂ Prod.mk (residueVerdict_eq d t r _ cols (mxLive_le d t)) (residueVerdict_eq d t r _ again (mxLive_le d t))

end Sys2Proof.Machine
end

section
/-! SUPPORT. Passes and gather rows: the row joins the accumulator, a mismatch is retaken once, and a second one holds the core
(R79 to R85, R97 to R101, R123 to R126). -/

namespace Sys2Proof.Machine

open Sys2Proof

/-! ### What is due -/

/-- Only a running core's engine takes a pass or a gather row. -/
theorem running_of_mxEnters {co : Core} {g : Bool} {d : MxRun} {t : Tile} (h : mxEnters co g = some (d, t)) : co.mode = .running := by
  by_contra hstop
  simp [mxEnters, mxDue, mxNext, hstop] at h

theorem form_of_mxEnters {co : Core} {g : Bool} {d : MxRun} {t : Tile} (h : mxEnters co g = some (d, t)) :
    decide (tForm t.bytes = 2) = g := by
  unfold mxEnters at h
  split at h
  case h_1 d' t' hdue =>
    split at h
    case isTrue hform =>
      obtain ⟨-, hform, -⟩ := hform
      cases h
      exact hform
    case isFalse => cases h
  case h_2 => cases h

/-- A row that is due with matching parity is fed without a change of the module. -/
theorem mxFeed_of_due {s : State} {c : CoreId} {g : Bool} {d : MxRun} {t : Tile} {r : ARow} (h : RowDue s c g d t r) :
    mxFeed s (coreKey c) d t = (s, some r) := by
  obtain ⟨-, hparity, hread⟩ := h
  unfold coreOf at hparity
  simpa only [mxFeed, hparity, mxFrom] using mxReadRow_of_some hread

/-! ### The row joins (R81 to R85, R123) -/

theorem joinedCore_mode (co : Core) (d next : MxRun) (t : Tile) (r : ARow) (dig : Option (Nat × Nat)) :
    (joinedCore co d next t r dig).mode = co.mode := mxDropTile_mode _ _ _ _

theorem mxJoin_eq_joinedCore (co : Core) (d next : MxRun) (t : Tile) (r : ARow) (dig : Option (Nat × Nat)) :
    mxJoin co d t r dig next = joinedCore co d next t r dig := by
  simp only [mxJoin, joinedCore, joinedRow, ← Bool.decide_and, decide_eq_true_eq]
  rfl

/-- The digits and the next position of a pass, or of a gather row. -/
theorem mxWork_eq {s : State} {k : Nat} {d : MxRun} {t : Tile} {r : ARow} {g : Bool} (hform : decide (tForm t.bytes = 2) = g) :
    mxWork s k d t r = setCore s k (joinedCore (getCore s k) d
      (if g then mxNextGather d (tileHalves t.bytes) else mxNextPass d (tileHalves t.bytes)) t r (if g then none else some (d.i, d.j))) := by
  subst hform
  simp only [mxWork, mxJoin_eq_joinedCore, mxDig, mxNextWork, decide_eq_true_eq]

/-- A row joins a core that its own step has just written. -/
theorem mxWork_setCore {s : State} {k : Nat} {co : Core} {d : MxRun} {t : Tile} {r : ARow} {g : Bool}
    (hform : decide (tForm t.bytes = 2) = g) (hrun : co.mode = .running) :
    mxWork (setCore s k co) k d t r = setCore s k (joinedCore co d
      (if g then mxNextGather d (tileHalves t.bytes) else mxNextPass d (tileHalves t.bytes)) t r (if g then none else some (d.i, d.j))) := by
  have hwritten : co.mode ≠ .idle := by simp [hrun]
  rw [mxWork_eq hform, getCore_setCore_of_mode s k hwritten]
  exact setCore_setCore_of_mode s k hwritten (by rwa [joinedCore_mode])

theorem exec_mxPass {s : State} {c : CoreId} {d : MxRun} {t : Tile} {r : ARow} (h : RowDue s c false d t r) :
    exec (.mxPass c) s = .next (mxWork s (coreKey c) d t r) := by
  change execMxPass c s = _
  have hfeed := mxFeed_of_due h
  have henter : mxEnters (getCore s (coreKey c)) false = some (d, t) := h.1
  simp only [execMxPass, henter, hfeed]

theorem exec_gatherRowDispatch {s : State} {c : CoreId} {d : MxRun} {t : Tile} {r : ARow} (h : RowDue s c true d t r) :
    exec (.gatherRowDispatch c) s
      = .next (mxWork (setCore s (coreKey c) (gatherCount (coreOf s c) d t)) (coreKey c) d t r) := by
  change execGatherRowDispatch c s = _
  have hfeed := mxFeed_of_due h
  have henter : mxEnters (getCore s (coreKey c)) true = some (d, t) := h.1
  simp only [execGatherRowDispatch, henter, hfeed]
  rfl

/-! ### Retakes (R97 to R101, R126) -/

theorem exec_mxRetake {s : State} {c : CoreId} {d : MxRun} {t : Tile} {r : ARow} {cols : BitVec 128} (again : BitVec 128)
    (h : RetakeDue s c false d t r) (hcols : cols ≠ 0) :
    exec (.mxRetake c cols again) s = .next (mxRetake s (coreKey c) d t r cols again) := by
  change execMxRetake c cols again s = _
  obtain ⟨hdue, hchecked⟩ := h
  have hfeed := mxFeed_of_due hdue
  have henter : mxEnters (getCore s (coreKey c)) false = some (d, t) := hdue.1
  unfold coreOf at hchecked
  simp only [execMxRetake, henter, hchecked, hfeed, mxVerdicts_eq, if_true, if_neg hcols]

theorem exec_gatherRetake {s : State} {c : CoreId} {d : MxRun} {t : Tile} {r : ARow} {cols : BitVec 128} (again : BitVec 128)
    (h : RetakeDue s c true d t r) (hcols : cols ≠ 0) :
    exec (.gatherRetake c cols again) s = .next (mxRetake
      (setCore s (coreKey c) (gatherCount (gatherCount (coreOf s c) d t) d t)) (coreKey c) d t r cols again) := by
  change execGatherRetake c cols again s = _
  obtain ⟨hdue, hchecked⟩ := h
  have hfeed := mxFeed_of_due hdue
  have henter : mxEnters (getCore s (coreKey c)) true = some (d, t) := hdue.1
  unfold coreOf at hchecked
  simp only [execGatherRetake, henter, hchecked, hfeed, mxVerdicts_eq, if_true, if_neg hcols]
  rfl

@[simp] theorem retakeCounted_mode (co : Core) (d : MxRun) : (retakeCounted co d).mode = co.mode := rfl

theorem mxDigits_pass (d : MxRun) : mxDigits d false = d.j * 16 + d.i := rfl

theorem mxDigits_gather (d : MxRun) : mxDigits d true = 0xFF := rfl

/-- The retake of a row without a second mismatch is counted, and its row joins. -/
theorem mxRetake_corrected {s : State} {k : Nat} {d : MxRun} {t : Tile} (r : ARow) (cols : BitVec 128) {g : Bool}
    (hform : decide (tForm t.bytes = 2) = g) :
    mxRetake s k d t r cols 0 = mxWork (setCore s k (retakeCounted (getCore s k) (retaken d (mxDigits d g) cols))) k
      (retaken d (mxDigits d g) cols) t r := by
  subst hform
  cases hfirst : d.first <;> simp [mxRetake, retaken, retakeCounted, hfirst]

/-- The same of a core that the row's step has just written. -/
theorem mxRetake_setCore_corrected {s : State} {k : Nat} {co : Core} {d : MxRun} {t : Tile} (r : ARow) (cols : BitVec 128) {g : Bool}
    (hform : decide (tForm t.bytes = 2) = g) (hrun : co.mode = .running) :
    mxRetake (setCore s k co) k d t r cols 0 = mxWork (setCore s k (retakeCounted co (retaken d (mxDigits d g) cols))) k
      (retaken d (mxDigits d g) cols) t r := by
  have hwritten : co.mode ≠ .idle := by simp [hrun]
  rw [mxRetake_corrected r cols hform, getCore_setCore_of_mode s k hwritten,
    setCore_setCore_of_mode s k (d := retakeCounted co (retaken d (mxDigits d g) cols)) hwritten hwritten]

/-- A second mismatch holds the core with cause 0x03 (R101). -/
theorem mxRetake_held {s : State} {k : Nat} {d : MxRun} {t : Tile} (r : ARow) (cols : BitVec 128) {again : BitVec 128} {g : Bool}
    (hform : decide (tForm t.bytes = 2) = g) (hagain : again ≠ 0) :
    mxRetake s k d t r cols again = coreFault (setCore (coreEv s k 0x1002 2
        (mxDetail d.addr d.row (mxDigits d g) d.mT d.nT d.kT (d.retakes + 1) again)) k
      { holdCore (stopMx (getCore s k) 3) 0x03 with mxStop := 3 }) k 0x1002 := by
  subst hform
  simp only [mxRetake, if_neg hagain, getCore_coreEv]

/-- Settles O16: each row's rule, with the verdict of the residue check by `residueVerdict_eq`. -/
theorem matrixRowSteps : Obligations.MatrixRowSteps := by
  intro c s d t r k co
  refine ⟨?pass, ?gather, ?residue, ?passRetaken, ?gatherRetaken, ?held⟩
  case pass =>
    intro h
    rw [exec_mxPass h, mxWork_eq (form_of_mxEnters h.1)]
    rfl
  case gather =>
    intro h
    have hrun : (gatherCount co d t).mode = .running := (gatherCount_mode co d t).trans (running_of_mxEnters h.1)
    rw [exec_gatherRowDispatch h, mxWork_setCore (form_of_mxEnters h.1) hrun]
    rfl
  case residue => exact fun dig => ⟨mxLive_le d t, fun n => predictedResidue_eq d t r n dig (mxLive_le d t)⟩
  case passRetaken =>
    intro cols h hcols d'
    have hform := form_of_mxEnters h.1.1
    have hrun : (retakeCounted (getCore s k) d').mode = .running :=
      (retakeCounted_mode co d').trans (running_of_mxEnters h.1.1)
    rw [exec_mxRetake 0 h hcols, mxRetake_corrected r cols hform, mxDigits_pass, mxWork_setCore hform hrun]
    rfl
  case gatherRetaken =>
    intro cols h hcols d'
    have hform := form_of_mxEnters h.1.1
    have hrun : (gatherCount (gatherCount co d t) d t).mode = .running := by
      rw [gatherCount_mode, gatherCount_mode]
      exact running_of_mxEnters h.1.1
    have hcounted := (retakeCounted_mode _ d').trans hrun
    rw [exec_gatherRetake 0 h hcols, mxRetake_setCore_corrected r cols hform hrun, mxDigits_gather, mxWork_setCore hform hcounted]
    rfl
  case held =>
    intro cols again h hcols hagain
    rw [exec_mxRetake again h hcols, mxRetake_held r cols (form_of_mxEnters h.1.1) hagain]
    rfl

end Sys2Proof.Machine
end

section
/-! SUPPORT. Rows leave, descriptors complete, and a fused vector descriptor begins (R86, R87, R96, R101, R163). -/

namespace Sys2Proof.Machine

open Sys2Proof

/-! ### A row leaves (R86, R87) -/

theorem exec_mxRowExport {s : State} {c : CoreId} {d : MxRun} {x : Nat × Nat × Nat} (h : mxFirstDue (coreOf s c) = some (d, x)) :
    exec (.mxRowExport c) s = .next (mxExport s (coreKey c) d x) := by
  change execMxRowExport c s = _
  unfold coreOf at h
  simp only [execMxRowExport, h]

/-- A core with a row due holds a descriptor. -/
theorem mx_ne_nil_of_due {co : Core} {y : MxRun × (Nat × Nat × Nat)} (h : mxFirstDue co = some y) : co.mx ≠ [] := by
  intro hnil
  simp [mxFirstDue, hnil] at h

theorem mxExport_toMemory {s : State} {k : Nat} {d : MxRun} {x : Nat × Nat × Nat}
    (hclean : laneBad (getCore s k).accBad (mxAccRow d + x.2.2) = false) (htgt : mxTgt d ≠ 2) :
    mxExport s k d x = setCore (mxWriteRow s k d x) k
      (setMx (getCore (mxWriteRow s k d x) k) { d with due := d.due.drop 1 }) := by
  simp [mxExport, hclean, htgt]

theorem mxExport_fused {s : State} {k : Nat} {d : MxRun} {x : Nat × Nat × Nat}
    (hclean : laneBad (getCore s k).accBad (mxAccRow d + x.2.2) = false) (htgt : mxTgt d = 2)
    (htaking : fusedTaking (getCore s k) = true) (hfree : (getCore s k).fusedRows = []) :
    mxExport s k d x = setCore s k (setMx { getCore s k with fusedRows := [accRow (getCore s k) (mxAccRow d + x.2.2)] }
      { d with due := d.due.drop 1 }) := by
  simp [mxExport, hclean, htgt, htaking, hfree]

theorem memWriteBytes_local {s : State} {k byte : Nat} {e : HEntry} (bs : List Byte) (h : e.space = 1) :
    memWriteBytes s k e byte bs =
      setCore s k { getCore s k with sp := ramPutBytes (getCore s k).sp (4 * e.base + byte) bs } := by
  simp [memWriteBytes, h]

theorem memWriteBytes_cluster {s : State} {k byte : Nat} {e : HEntry} (bs : List Byte) (h : e.space = 2) :
    memWriteBytes s k e byte bs = setCl s (clOfTarget e.target) { getCl s (clOfTarget e.target) with
      mem := ramPutBytes (getCl s (clOfTarget e.target)).mem (4 * e.base + byte) bs } := by
  simp [memWriteBytes, h]

/-- An A48 row leaves as eight bytes for each live column. -/
theorem mxWriteRow_a48 {s : State} {k nT mT r : Nat} {d : MxRun} (h : mxOf d = 3) :
    mxWriteRow s k d (nT, mT, r) = memWriteBytes s k (hEntry (getCore s k) (df d.words 3 18 6))
      (4 * (df d.words 9 0 32 + (mT * mxMT d + r) * df d.words 10 0 16) + 1024 * nT)
      (((accRow (getCore s k) (mxAccRow d + r)).take (mxCols d nT)).flatMap fun v => leBytes 8 (a48Code v).toNat) := by
  simp only [mxWriteRow, h, if_true]

/-- Of the row's write and its descriptor's progress, both in the core's own scratchpad, one update of the core remains. -/
theorem setMx_setCore_of_mx {s : State} {k : Nat} {co : Core} (d : MxRun) (h : co.mx ≠ []) :
    setCore (setCore s k co) k (setMx (getCore (setCore s k co) k) d) = setCore s k (setMx co d) := by
  rw [getCore_setCore_of_ne s k (Core.ne_reset_of_mx h)]
  exact setCore_setCore s k (Core.ne_reset_of_mx h) (setMx_ne_reset d h)

/-! ### A descriptor completes (R96, R101) -/

theorem exec_mxDescriptorComplete {s : State} {c : CoreId} {d : MxRun} {ds : List MxRun} (hmx : (coreOf s c).mx = d :: ds)
    (hpasses : d.admitted = true) (hrows : d.due = []) :
    exec (.mxDescriptorComplete c) s = .next (mxComplete s (coreKey c) d) := by
  change execMxDescriptorComplete c s = _
  unfold coreOf at hmx
  simp [execMxDescriptorComplete, hmx, hpasses, hrows]

/-- A completed descriptor's core: its tiles gone, its ranges released unless a fused vector descriptor holds them, and the stop
over when no descriptor is left. -/
def mxCompletedCore (co : Core) (d : MxRun) : Core :=
  let left := co.mx.filter (·.op != d.op)
  let c1 := { co with mx := left, tiles := co.tiles.filter (·.op != d.op) }
  let c2 := if mxTgt d = 2 then c1 else { c1 with sbEntries := co.sbEntries.filter fun e => e.op != d.op }
  if left = [] then { c2 with mxStop := 0 } else c2

theorem mxComplete_without_retake {s : State} {k : Nat} {d : MxRun} (h : d.first = none) :
    mxComplete s k d = putCore s k (doneCtr (mxCompletedCore (getCore s k) d) (d.words.getD 15 0)) := by
  by_cases htgt : mxTgt d = 2 <;> simp [mxComplete, mxCompletedCore, h, htgt, sbRelease]

/-! ### A fused vector descriptor begins (R163) -/

theorem exec_fusedVxdStart {s : State} {c : CoreId} {v : VxRun} (h : vxFusedReady (coreOf s c) = some v) :
    exec (.fusedVxdStart c) s = .next (setCore s (coreKey c) (setVx (coreOf s c) { v with begun := true })) := by
  change execFusedVxdStart c s = _
  unfold coreOf at h ⊢
  simp only [execFusedVxdStart, h]

/-- Settles O17: a row leaves by its write and then its descriptor's progress; completion and the fused start are their rows' rules. -/
theorem matrixOutputSteps : Obligations.MatrixOutputSteps := by
  intro c s d k co o
  refine ⟨?a48, ?memory, ?fused, ?withoutRetake, ?complete, ?fusedStart⟩
  case a48 =>
    intro nT mT r hdue hclean htgt hof byte bs left
    have hmx : co.mx ≠ [] := mx_ne_nil_of_due hdue
    have hwrite : mxWriteRow s (coreKey c) d (nT, mT, r) = memWriteBytes s (coreKey c) o
        (4 * (df d.words 9 0 32 + (mT * mxMT d + r) * df d.words 10 0 16) + 1024 * nT) bs := mxWriteRow_a48 hof
    rw [exec_mxRowExport hdue, mxExport_toMemory (x := (nT, mT, r)) hclean htgt, hwrite]
    refine ⟨fun hlocal => ?_, fun hcluster => ?_⟩
    · rw [memWriteBytes_local bs hlocal]
      exact congrArg Host.Outcome.next (setMx_setCore_of_mx left hmx)
    · rw [memWriteBytes_cluster bs hcluster]
      rfl
  case memory =>
    intro x hdue hclean htgt
    rw [exec_mxRowExport hdue, mxExport_toMemory hclean htgt]
    rfl
  case fused =>
    intro x hdue hclean htgt htaking hfree
    rw [exec_mxRowExport hdue, mxExport_fused hclean htgt htaking hfree]
    rfl
  case withoutRetake =>
    intro ds hmx hpasses hrows hfirst
    rw [exec_mxDescriptorComplete hmx hpasses hrows, mxComplete_without_retake hfirst]
    rfl
  case complete => exact fun ds hmx hpasses hrows => exec_mxDescriptorComplete hmx hpasses hrows
  case fusedStart => exact fun v hready => exec_fusedVxdStart hready

end Sys2Proof.Machine
end

section
/-! SUPPORT. The vector engine: chunks, the tiles of EXPAND, results that wait, and completion (R156, R162, R165). -/

namespace Sys2Proof.Machine

open Sys2Proof

/-! ### Which descriptor is ready (R156, R163) -/

/-- While a result waits to be written, no chunk is read. -/
theorem vxReady_of_vxOut_ne_nil {co : Core} (h : co.vxOut ≠ []) : vxReady co = none := by
  simp [vxReady, h]

/-! ### A chunk is read (R156, R165) -/

theorem exec_vxChunk_of_ready {s : State} {c : CoreId} {d : VxRun} (hready : vxReady (coreOf s c) = some d)
    (hmode : vxMode d.words ≠ 2) : exec (.vxChunk c) s = .next (vxChunkStep s (coreKey c) d) := by
  change execVxChunk c s = _
  unfold coreOf at hready
  simp only [execVxChunk, hready, if_neg hmode]

theorem exec_vxChunk_of_tile {s u : State} {c : CoreId} {d : VxRun} {bs : List Byte} (hready : vxReady (coreOf s c) = some d)
    (hmode : vxMode d.words = 2) (htile : vxTile s (coreKey c) d (d.i0 / 256) (d.row / 128) = (u, some bs))
    (hpass : vxTileReason d bs (d.i0 / 256) = none) :
    exec (.vxChunk c) s = .next (vxChunkStep u (coreKey c) (vxHold d bs)) := by
  change execVxChunk c s = _
  unfold coreOf at hready
  simp only [execVxChunk, hready, if_pos hmode, vxAt, htile, hpass]

theorem exec_vxChunk_of_vxOut_ne_nil {s : State} {c : CoreId} (h : (coreOf s c).vxOut ≠ []) :
    exec (.vxChunk c) s = .next (vxFlush s (coreKey c)) := by
  change execVxChunk c s = _
  have hready := vxReady_of_vxOut_ne_nil h
  unfold coreOf at h hready
  simp [execVxChunk, hready, h]

theorem exec_vxTileViolation {s u : State} {c : CoreId} {d : VxRun} {bs : List Byte} {r : Nat}
    (hready : vxReady (coreOf s c) = some d) (hmode : vxMode d.words = 2)
    (htile : vxTile s (coreKey c) d (d.i0 / 256) (d.row / 128) = (u, some bs))
    (hfail : vxTileReason d bs (d.i0 / 256) = some r) :
    exec (.vxTileViolation c) s = .next (vxViolate u (coreKey c) d r) := by
  change execVxTileViolation c s = _
  unfold coreOf at hready
  simp only [execVxTileViolation, hready, if_pos hmode, vxAt, htile, hfail]

/-! ### The parts of a chunk without I1, segments and column groups (R145, R158, R164) -/

theorem vxI1_of_disabled (s : State) (k : Nat) {d : VxRun} (n : Nat) (h : vxI1En d.words = false) :
    vxI1 s k d n = (s, some (List.replicate n numZero)) := by
  simp [vxI1, h]

theorem vxStarts_of_no_segments (s : State) (k : Nat) {d : VxRun} (i1 : List Num) (h : vxSegm d.words = 0) :
    vxStarts s k d i1 = (s, some (i1.map fun _ => false, d.segPos, d.segLeft)) := by
  simp [vxStarts, h]

/-- Only COMPRESS has column groups. -/
theorem vxGroupEnds_eq_false {d : VxRun} (h : vxMode d.words ≠ 1) : vxGroupEnds d = false := by
  simp [vxGroupEnds, h]

theorem vxPrev_zero (k : Nat) (d : VxRun) (r : Nat) (s : State) : vxPrev k d r 0 s = (s, some []) := rfl

/-- The lanes of a chunk of values `vs`, with zeros for I1 and no segments, run through the chain; the carry is dropped before a
row's first chunk unless it spans rows. -/
def vxPlainLanes (d : VxRun) (vs zeros : List Num) : List LaneSt × Option Num :=
  let l0 := vs.map (vxLoadLane d.words)
  let l1 := zeros.map (vxLoadLane d.words)
  runLanes d.words d.chain ((l0.map (·.1)).zip ((l1.map (·.1)).zip (l1.map fun _ => false)))
    (if d.i0 = 0 ∧ vxSpan d.words = false then none else d.carry) []

theorem vxChunkStep_plain {s u : State} {k : Nat} {d : VxRun} {vs : List Num} {scales : List Nat} (hmode : vxMode d.words = 0)
    (hi1 : vxI1En d.words = false) (hseg : vxSegm d.words = 0)
    (hi0 : vxI0 s k d (vxLive d (vxFusedM d)) = (u, some (vs, scales))) :
    let zeros := List.replicate (vxLive d (vxFusedM d)) numZero
    let run := vxPlainLanes d vs zeros
    vxChunkStep s k d = vxFinish u k { vxKeep d zeros scales with carry := run.2 } run.1
      ((vs.map (vxLoadLane d.words)).foldl (fun a l => a + l.2) 0) [] := by
  intro zeros run
  have hgroup : vxGroupEnds (vxKeep d zeros scales) = false := vxGroupEnds_eq_false (show vxMode d.words ≠ 1 by rw [hmode]; decide)
  have hstarts (i1 : List Num) := vxStarts_of_no_segments u k (d := vxKeep d zeros scales) i1 hseg
  simp only [vxChunkStep, hi0, vxI1_of_disabled u k _ hi1, hstarts, hgroup, Bool.false_eq_true, if_false, vxPrev_zero, hi1,
    Bool.not_false, if_true, Nat.add_zero, Bool.and_eq_true, decide_eq_true_eq, Bool.not_eq_true', List.map_map, zeros, run,
    vxPlainLanes]
  rfl

/-! ### A descriptor completes (R161, R162) -/

theorem exec_vxDescriptorComplete {s : State} {c : CoreId} {d : VxRun} {ds : List VxRun} (hvx : (coreOf s c).vx = d :: ds)
    (hread : d.allRead = true) (hwritten : ∀ x ∈ (coreOf s c).vxOut, x.op ≠ d.op) :
    exec (.vxDescriptorComplete c) s = .next (vxComplete s (coreKey c) d) := by
  change execVxDescriptorComplete c s = _
  unfold coreOf at hvx hwritten
  have hall : (getCore s (coreKey c)).vxOut.all (·.op != d.op) = true := by simpa using hwritten
  simp only [execVxDescriptorComplete, hvx, hread, hall, Bool.and_self, if_true]

/-- Writing the summaries leaves the descriptors and their ranges alone. -/
theorem vxSums_frame (co : Core) (d : VxRun) : (vxSums co d).vx = co.vx ∧ (vxSums co d).sbEntries = co.sbEntries := by
  unfold vxSums
  induction List.range 8 using List.reverseRecOn with
  | nil => exact ⟨rfl, rfl⟩
  | append_singleton is i ih =>
    rw [List.foldl_append, List.foldl_cons, List.foldl_nil]
    split <;> exact ih

/-- A completed descriptor's core: its summaries written, its ranges released, and the stop over when no descriptor is left. -/
def vxCompletedCore (co : Core) (d : VxRun) : Core :=
  let left := co.vx.filter (·.op != d.op)
  let c1 := { vxSums co d with vx := left, sbEntries := co.sbEntries.filter fun e => e.op != d.op }
  if left = [] then { c1 with vxStop := 0 } else c1

theorem vxComplete_without_decline {s : State} {k : Nat} {d : VxRun} (h : d.declFail = none) :
    vxComplete s k d = putCore s k (doneCtr (vxCompletedCore (getCore s k) d) (d.words.getD 15 0)) := by
  obtain ⟨hvx, hranges⟩ := vxSums_frame (getCore s k) d
  simp only [vxComplete, vxCompletedCore, h, sbRelease, hvx, hranges, List.isEmpty_iff]

/-- Settles O19: each clause is its row's rule; a plain chunk by `vxChunkStep_plain`, completion by the frame of the summaries. -/
theorem vectorSteps : Obligations.VectorSteps := by
  intro c s d k co kT nT
  refine ⟨?plain, ?chunk, ?tile, ?flush, ?violation, ?withoutDecline, ?complete⟩
  case plain =>
    intro u vs scales hready hmode hi1 hseg hi0
    rw [exec_vxChunk_of_ready hready (by rw [hmode]; decide), vxChunkStep_plain hmode hi1 hseg hi0]
    rfl
  case chunk => exact exec_vxChunk_of_ready
  case tile => exact fun u bs hready hmode htile hpass => exec_vxChunk_of_tile hready hmode htile hpass
  case flush => exact exec_vxChunk_of_vxOut_ne_nil
  case violation => exact fun u bs r hready hmode htile hfail => exec_vxTileViolation hready hmode htile hfail
  case withoutDecline =>
    intro ds hvx hread hwritten hdecl
    rw [exec_vxDescriptorComplete hvx hread hwritten, vxComplete_without_decline hdecl]
    rfl
  case complete => exact fun ds hvx hread hwritten => exec_vxDescriptorComplete hvx hread hwritten

end Sys2Proof.Machine
end

section
/-! SUPPORT. The rows of the cue core: each is one course of fetch, checks and action (R172 to R178). -/

namespace Sys2Proof.Machine

open Sys2Proof

/-! ### Fetch traps (R172, R177) -/

/-- The rows of the cue core that fetch an instruction word. -/
def cueRows (c : CoreId) : List Instr :=
  [.nop c, .add c, .sub c, .and c, .or c, .xor c, .shl c, .shr c, .sra c, .mul c, .slt c, .sltu c, .min c,
    .max c, .addi c, .andi c, .ori c, .xori c, .shli c, .shri c, .srai c, .lui c, .slti c, .movs c, .rdccb c,
    .rdctr c, .ld c, .st c, .cset c, .cseti c, .cadd c, .cwait c, .cwaiti c, .cwaitt c, .issueMx c, .issueVx c,
    .issueDma c, .send c, .sendb c, .recv c, .recvb c, .qstat c, .arrive c, .clwait c, .br c, .jmp c, .loop c,
    .halt c, .event c, .fence c]

/-- Each of them takes the common course, with an opcode and an action of its own. -/
theorem exec_cueRow {c : CoreId} {i : Instr} (s : State) (hi : i ∈ cueRows c) :
    ∃ opc act, exec i s = .next (cueStep (coreKey c) opc act s) := by
  unfold cueRows at hi
  fin_cases hi <;> exact ⟨_, _, rfl⟩

theorem cueReady_of_running {co : Core} (hmode : co.mode = .running) (hwait : co.wait = .none) : cueReady co = true := by
  simp [cueReady, hmode, hwait]

theorem Core.not_idle {co : Core} (hmode : co.mode = .running) : co.mode ≠ .idle := by
  rw [hmode]
  decide

/-- Settles O11: every row takes the course of `cueStep`, whose two traps stand before its action. -/
theorem cueFetchTraps : Obligations.CueFetchTraps := by
  intro c s i hi k co lanes hmode hwait
  have hready : cueReady co = true := cueReady_of_running hmode hwait
  obtain ⟨opc, act, hrow⟩ := exec_cueRow s hi
  refine ⟨fun hlanes => ?parity, fun hlanes hillegal => ?illegal⟩
  case parity =>
    rw [hrow, cueStep_parity act hready hlanes]
    rfl
  case illegal =>
    rw [hrow, cueStep_illegal act hready hlanes hillegal]
    rfl

end Sys2Proof.Machine
end

section
/-! SUPPORT. Scalar instructions, register reads, branches, and the violation of the program's range (R173 to R177, R181). -/

namespace Sys2Proof.Machine

open Sys2Proof

/-- A row of the cue core at its own legal word takes its action. -/
theorem exec_at {s : State} {c : CoreId} {i : Instr} {opc w : Nat} {act : State → Nat → State} (hat : CueAt s c opc w)
    (hrow : exec i s = .next (cueStep (coreKey c) opc act s)) : exec i s = .next (act s w) := by
  rw [hrow, cueStep_at act hat]

/-! ### Immediates (R174) -/

/-- The low bits of a number, read as a two's-complement value. -/
theorem signedOf_bits (n w : Nat) (hn : 0 < n) : signedOf n (bits w 0 n) = (BitVec.ofNat n w).toInt := by
  have hpow : 2 ^ n = 2 * 2 ^ (n - 1) := by rw [← Nat.pow_succ', Nat.succ_eq_add_one, Nat.sub_add_cancel hn]
  simp only [signedOf, bits, Nat.pow_zero, Nat.div_one, Nat.mod_mod, BitVec.toInt, BitVec.toNat_ofNat]
  split <;> split <;> omega

theorem fSimm18_eq (w : Nat) : fSimm18 w = (BitVec.ofNat 18 w).signExtend 32 := by
  rw [fSimm18, signedOf_bits 18 w (by decide)]
  rfl

theorem fSimm12_eq (w : Nat) : fSimm12 w = (BitVec.ofNat 12 w).signExtend 32 := by
  rw [fSimm12, signedOf_bits 12 w (by decide)]
  rfl

theorem fZimm18_eq (w : Nat) : fZimm18 w = (BitVec.ofNat 18 w).setWidth 32 := by
  apply BitVec.eq_of_toNat_eq
  simp [fZimm18, fImm18, bits]

theorem bits_lt (v lo n : Nat) : bits v lo n < 2 ^ n := Nat.mod_lt _ (Nat.two_pow_pos n)

/-- IMM18 of LUI above 14 zeros. -/
theorem ofNat_fImm18_shift (w : Nat) :
    BitVec.ofNat 32 (fImm18 w * 2 ^ 14) = (BitVec.ofNat 18 w).setWidth 32 <<< 14 := by
  apply BitVec.eq_of_toNat_eq
  simp only [fImm18, bits, Nat.pow_zero, Nat.div_one, BitVec.toNat_ofNat, BitVec.toNat_shiftLeft, BitVec.toNat_setWidth,
    Nat.shiftLeft_eq]
  omega

/-! ### The two families of scalar instructions (R175) -/

theorem sltW_eq : sltW = fun a b => if a.toInt < b.toInt then 1 else 0 := by
  funext a b
  simp [sltW, BitVec.slt]

theorem sltuW_eq : sltuW = fun a b => if a.toNat < b.toNat then 1 else 0 := by
  funext a b
  simp [sltuW, BitVec.ult]

theorem minW_eq : minW = fun a b => if a.toInt ≤ b.toInt then a else b := by
  funext a b
  rcases Int.lt_trichotomy a.toInt b.toInt with h | h | h
  · simp [minW, BitVec.slt, h, Int.le_of_lt h]
  · simp [minW, BitVec.toInt_inj.mp h]
  · simp [minW, BitVec.slt, Int.not_lt.mpr (Int.le_of_lt h), Int.not_le.mpr h]

theorem maxW_eq : maxW = fun a b => if a.toInt ≤ b.toInt then b else a := by
  funext a b
  rcases Int.lt_trichotomy a.toInt b.toInt with h | h | h
  · simp [maxW, BitVec.slt, h, Int.le_of_lt h]
  · simp [maxW, BitVec.toInt_inj.mp h]
  · simp [maxW, BitVec.slt, Int.not_lt.mpr (Int.le_of_lt h), Int.not_le.mpr h]

/-- The instructions of two general registers, with their opcodes and functions. -/
def registerRows (c : CoreId) : List (Instr × Nat × (Word → Word → Word)) :=
  [(.add c, 0x01, fun a b => a + b), (.sub c, 0x02, fun a b => a - b), (.and c, 0x03, fun a b => a &&& b),
    (.or c, 0x04, fun a b => a ||| b), (.xor c, 0x05, fun a b => a ^^^ b), (.shl c, 0x06, shlW), (.shr c, 0x07, shrW),
    (.sra c, 0x08, sraW), (.mul c, 0x09, fun a b => a * b), (.slt c, 0x0A, sltW), (.sltu c, 0x0B, sltuW), (.min c, 0x0C, minW),
    (.max c, 0x0D, maxW)]

theorem exec_registerRow {c : CoreId} {r : Instr × Nat × (Word → Word → Word)} (s : State) (hr : r ∈ registerRows c) :
    exec r.1 s = .next (cueStep (coreKey c) r.2.1 (actGG (coreKey c) r.2.2) s) := by
  unfold registerRows at hr
  fin_cases hr <;> rfl

/-- A legal immediate shift moves by less than 32: bits 5 to 17 of its word are reserved. -/
theorem shiftImm_lt {co : Core} {w : Nat} (hlegal : cueIllegal co w = false) (hopc : rsvMask (fOpc w) = some 0x3FFE0) :
    (fZimm18 w).toNat < 32 := by
  have hreserved : w % 2 ^ 26 &&& 0x3FFE0 = 0 := by
    by_contra hne
    simp only [cueIllegal, hopc, decide_eq_true (p := w % 2 ^ 26 &&& 0x3FFE0 ≠ 0) hne, Bool.true_or, Bool.true_eq_false] at hlegal
  have hbits : w % 2 ^ 18 < 2 ^ 5 := by
    refine Nat.lt_pow_two_of_testBit _ fun i hi => ?_
    rw [Nat.testBit_mod_two_pow]
    by_cases hlt : i < 18
    case neg => simp [hlt]
    case pos =>
      have hmask : Nat.testBit 0x3FFE0 i = true := by interval_cases i <;> rfl
      have hlow : i < 26 := by omega
      have htest := congrArg (Nat.testBit · i) hreserved
      simpa only [Nat.testBit_and, Nat.testBit_mod_two_pow, hmask, hlow, hlt, decide_true, Bool.true_and, Bool.and_true,
        Nat.zero_testBit] using htest
  simp only [fZimm18, fImm18, bits, Nat.pow_zero, Nat.div_one, BitVec.toNat_ofNat]
  omega

/-- The instructions of one general register and IMM18: opcode, whether the immediate is signed, and function. -/
def immediateRows (c : CoreId) : List (Instr × Nat × Bool × (Word → Word → Word)) :=
  [(.addi c, 0x10, true, fun a b => a + b), (.andi c, 0x11, false, fun a b => a &&& b),
    (.ori c, 0x12, false, fun a b => a ||| b), (.xori c, 0x13, false, fun a b => a ^^^ b),
    (.shli c, 0x14, false, fun a b => a <<< b.toNat), (.shri c, 0x15, false, fun a b => a >>> b.toNat),
    (.srai c, 0x16, false, fun a b => a.sshiftRight b.toNat),
    (.slti c, 0x18, true, fun a b => if a.toInt < b.toInt then 1 else 0)]

/-- IMM18 of an instruction, sign-extended or zero-extended. -/
def immOf (signed : Bool) (w : Nat) : Word :=
  if signed then (BitVec.ofNat 18 w).signExtend 32 else (BitVec.ofNat 18 w).setWidth 32

/-- At a legal word each of them is its function of the register and the immediate. -/
theorem exec_immediateRow {c : CoreId} {r : Instr × Nat × Bool × (Word → Word → Word)} {w : Nat} (s : State)
    (hr : r ∈ immediateRows c) (hat : CueAt s c r.2.1 w) :
    exec r.1 s = .next (actG (coreKey c) (fun co w => r.2.2.2 (gReg co (fA w)) (immOf r.2.2.1 w)) s w) := by
  obtain ⟨f, hrow, hf⟩ : ∃ f, exec r.1 s =
        .next (cueStep (coreKey c) r.2.1 (actGI (coreKey c) (if r.2.2.1 then fSimm18 else fZimm18) f) s)
      ∧ ∀ a, f a ((if r.2.2.1 then fSimm18 else fZimm18) w) = r.2.2.2 a ((if r.2.2.1 then fSimm18 else fZimm18) w) := by
    obtain ⟨-, -, -, hopc, -, hlegal⟩ := hat
    have hshift (hmask : rsvMask r.2.1 = some 0x3FFE0) : (fZimm18 w).toNat % 32 = (fZimm18 w).toNat :=
      Nat.mod_eq_of_lt (shiftImm_lt hlegal (hopc ▸ hmask))
    simp only [immediateRows, List.mem_cons, List.not_mem_nil, or_false] at hr
    obtain rfl | rfl | rfl | rfl | rfl | rfl | rfl | rfl := hr
    · exact ⟨_, rfl, fun _ => rfl⟩
    · exact ⟨_, rfl, fun _ => rfl⟩
    · exact ⟨_, rfl, fun _ => rfl⟩
    · exact ⟨_, rfl, fun _ => rfl⟩
    · exact ⟨_, rfl, fun a => congrArg (a <<< ·) (hshift rfl)⟩
    · exact ⟨_, rfl, fun a => congrArg (a >>> ·) (hshift rfl)⟩
    · exact ⟨_, rfl, fun a => congrArg a.sshiftRight (hshift rfl)⟩
    · exact ⟨_, rfl, fun a => congrFun (congrFun sltW_eq a) _⟩
  rw [hrow, cueStep_at _ hat]
  have himm : (if r.2.2.1 then fSimm18 else fZimm18) w = immOf r.2.2.1 w := by
    cases r.2.2.1 <;> simp [immOf, fSimm18_eq, fZimm18_eq]
  rw [himm] at hf
  simp only [actGI, actG, himm, hf]

/-- Settles O1: each row writes its function's value to gd, by `actG_advance`. -/
theorem scalarResults : Obligations.ScalarResults := by
  refine ⟨?registers, ?immediates, ?others⟩
  case registers =>
    intro c s w r hr hat hnext
    rw [← sltW_eq, ← sltuW_eq, ← minW_eq, ← maxW_eq] at hr
    rw [exec_registerRow s hr, cueStep_at _ hat]
    exact congrArg _ (actG_advance _ hat.1 hnext)
  case immediates =>
    intro c s w r hr hat hnext
    rw [exec_immediateRow s hr hat, actG_advance _ hat.1 hnext]
    rfl
  case others =>
    intro c s w hnext
    refine ⟨fun hat => ?nop, fun hat => ?lui, fun hat => ?movs, fun hat => ?rdctr⟩
    case nop => rw [exec_at hat rfl, goNext_advance hnext]
    case lui =>
      rw [exec_at hat rfl, actG_advance _ hat.1 hnext, ofNat_fImm18_shift]
      rfl
    case movs =>
      rw [exec_at hat rfl, actG_advance _ hat.1 hnext]
      rfl
    case rdctr =>
      rw [exec_at hat rfl, actG_advance _ hat.1 hnext]
      rfl

/-! ### Register reads (R181) -/

/-- Two cores of one mode, PC and call sheet: execution goes on alike in both. -/
def SameCourse (a b : Core) : Prop := a.mode = b.mode ∧ a.pc = b.pc ∧ a.sheet = b.sheet

theorem SameCourse.refl (a : Core) : SameCourse a a := ⟨rfl, rfl, rfl⟩

/-- A read of a control block register leaves what execution goes on with. -/
theorem readCoreReg_sameCourse (co : Core) (off : Nat) : SameCourse (readCoreReg co off).2 co := by
  unfold readCoreReg
  dsimp only
  repeat' refine iteInduction (motive := fun p : Word × Core => SameCourse p.2 co) (fun _ => ?_) (fun _ => ?_)
  all_goals exact .refl co

/-- Writing gd of a core that keeps its mode, PC and call sheet, and going on. -/
theorem goNext_setG {s : State} {c : CoreId} {w i : Nat} {v : Word} {co : Core} (hmode : co.mode = .running)
    (hpc : co.pc = (coreOf s c).pc) (hsheet : co.sheet = (coreOf s c).sheet) (hnext : NextInside s c) :
    goNext (setCore s (coreKey c) (setG co i v)) (coreKey c) w = advance s c (setG co i v) :=
  goNext_setCore (Core.not_idle hmode) hpc hsheet hnext

/-- Settles O2: the register's value and the core after the read are those of `readCoreReg` and `qstatClear`. -/
theorem registerReadResults : Obligations.RegisterReadResults := by
  intro c s w hnext
  refine ⟨fun hat => ?rdccb, fun hat hbit => ?qstat, fun hat hbit => ?qcount⟩
  case rdccb =>
    obtain ⟨hmode, hpc, hsheet⟩ := readCoreReg_sameCourse (coreOf s c) (bits w 0 18)
    rw [exec_at hat rfl]
    exact congrArg _ (goNext_setG (hmode.trans hat.1) hpc hsheet hnext)
  case qstat =>
    rw [exec_at hat rfl, actQstat, if_neg (by rw [hbit]; decide)]
    exact congrArg _ (goNext_setG (co := qstatClear (coreOf s c) (fB w)) hat.1 rfl rfl hnext)
  case qcount =>
    rw [exec_at hat rfl, actQstat, if_pos hbit]
    exact congrArg _ (goNext_setG hat.1 rfl rfl hnext)

/-! ### Branches (R175, R176) -/

/-- Going on at an address inside the program with a core just written. -/
theorem goTo_setCore {s : State} {c : CoreId} {w t : Nat} {co : Core} (hmode : co.mode ≠ .idle)
    (hsheet : co.sheet = (coreOf s c).sheet) (ht : t < sheetPlen (coreOf s c)) :
    goTo (setCore s (coreKey c) co) (coreKey c) w t = jumpTo s c t co := by
  have hread : getCore (setCore s (coreKey c) co) (coreKey c) = co := getCore_setCore_of_mode s _ hmode
  have hplen : sheetPlen co = sheetPlen (coreOf s c) := by simp [sheetPlen, sheetW, hsheet]
  rw [goTo_inside (by rw [hread, hplen]; exact ht), hread, setCore_setCore_of_mode s _ hmode (by exact hmode)]
  rfl

theorem brTaken_iff (co : Core) (w : Nat) : brTaken co w = true ↔ BranchHolds co w := by
  unfold brTaken BranchHolds fA fD
  dsimp only
  generalize bits w 12 4 = cond
  match cond with
  | 0 | 1 | 2 | 3 | 4 | 5 => simp [BitVec.slt, BitVec.ult]
  | 6 | _ + 7 => rfl

/-- Settles O4: the condition is `brTaken_iff`, the addresses are `goTo` inside the program. -/
theorem branchResults : Obligations.BranchResults := by
  intro c s w co x
  refine ⟨fun hat htaken ht => ?taken, fun hat htaken hnext => ?on, fun hat ht => ?jmp, fun hat hx ht => ?again,
    fun hat hx hnext => ?done⟩
  case taken =>
    rw [exec_at hat rfl]
    exact congrArg _ ((if_pos ((brTaken_iff co w).mpr htaken)).trans (goTo_inside ht))
  case on =>
    rw [exec_at hat rfl]
    exact congrArg _ ((if_neg (mt (brTaken_iff co w).mp htaken)).trans (goNext_advance hnext))
  case jmp =>
    rw [exec_at hat rfl]
    exact congrArg _ (goTo_inside ht)
  case again =>
    rw [exec_at hat rfl]
    exact congrArg _ ((if_pos hx).trans (goTo_setCore (Core.not_idle hat.1) rfl ht))
  case done =>
    rw [exec_at hat rfl]
    exact congrArg _ ((if_neg (not_not.mpr hx)).trans (goNext_setG hat.1 rfl rfl hnext))

/-! ### The program's range, and what a violation does (R177, R197, R464) -/

/-- Execution that reaches an address outside the program stands there, and the core is frozen. -/
theorem goTo_outside {s : State} {c : CoreId} {w t : Nat} (ht : sheetPlen (coreOf s c) ≤ t) :
    goTo s (coreKey c) w t = violate (jumpTo s c t (coreOf s c)) (coreKey c) 0x11 0x7021
      [(28, 2, (coreOf s c).pc.toNat), (30, 1, 0x11), (32, 4, w), (36, 4, t)] := if_neg (Nat.not_lt.mpr ht)

/-- What the stop of an engine leaves of its core. -/
def StopKeeps (a b : Core) : Prop :=
  a.mode = b.mode ∧ a.cause = b.cause ∧ a.order = b.order ∧ a.pc = b.pc ∧ a.g = b.g ∧ a.s = b.s ∧ a.c = b.c ∧ a.cthr = b.cthr
    ∧ a.tmo = b.tmo ∧ a.ur = b.ur ∧ a.sp = b.sp ∧ a.istore = b.istore ∧ a.queues = b.queues ∧ a.sheet = b.sheet

theorem StopKeeps.refl (a : Core) : StopKeeps a a := ⟨rfl, rfl, rfl, rfl, rfl, rfl, rfl, rfl, rfl, rfl, rfl, rfl, rfl, rfl⟩

theorem stopMx_keeps (co : Core) (x : BitVec 2) : StopKeeps (stopMx co x) co := by
  unfold stopMx
  split <;> exact .refl co

theorem stopVx_keeps (co : Core) (x : BitVec 2) : StopKeeps (stopVx co x) co := by
  unfold stopVx
  split <;> exact .refl co

theorem stopDma_keeps (co : Core) : StopKeeps (stopDma co) co := by
  unfold stopDma
  dsimp only
  split <;> exact .refl co

theorem StopKeeps.trans {a b c : Core} (hab : StopKeeps a b) (hbc : StopKeeps b c) : StopKeeps a c := by
  simp only [StopKeeps] at *
  simp [hab, hbc]

/-- A hold or freeze order keeps all of these of the core it reaches. -/
theorem abandonWait_stopEngines_keeps (co : Core) : StopKeeps (abandonWait (stopEngines co)) co := by
  have hstop : StopKeeps (stopEngines co) co :=
    (stopDma_keeps _).trans ((stopVx_keeps _ 2).trans (stopMx_keeps co 2))
  unfold abandonWait
  split <;> exact hstop

/-- Settles O12: `goTo_outside` at each of the three instructions; a frozen core's frame is that of its engines' stop. -/
theorem rangeViolationsFreeze : Obligations.RangeViolationsFreeze := by
  refine ⟨?range, ?violation⟩
  case range =>
    intro c s w k co out
    refine ⟨fun hat hnext => ?nop, fun hat ht => ?jmp, fun hat htaken ht => ?br⟩
    case nop =>
      have hpc : BitVec.ofNat 12 (co.pc.toNat + 1) = co.pc + 1 := BitVec.eq_of_toNat_eq (by simp)
      rw [exec_at hat rfl]
      refine congrArg _ ((goTo_outside (Nat.not_lt.mp hnext)).trans ?_)
      rw [jumpTo, hpc]
      rfl
    case jmp =>
      rw [exec_at hat rfl]
      exact congrArg _ (goTo_outside ht)
    case br =>
      rw [exec_at hat rfl]
      exact congrArg _ ((if_pos ((brTaken_iff co w).mpr htaken)).trans (goTo_outside ht))
  case violation =>
    intro s k cause code detail co f
    exact ⟨abandonWait_stopEngines_keeps { co with mode := .frozen, cause := cause, order := false }, rfl⟩

end Sys2Proof.Machine
end

section
/-! SUPPORT. Counter waits, loads and stores, and the two clapper instructions (R175, R180, R189 to R191, R210, R214). -/

namespace Sys2Proof.Machine

open Sys2Proof

/-! ### Counter waits (R175, R180) -/

theorem maskMet_iff (co : Core) (mask : Nat) : maskMet co mask = true ↔ MaskReached co mask := by
  simp [maskMet, MaskReached, ctrVal, or_iff_not_imp_left]

theorem waitMet_iff (co : Core) (w : Nat) : waitMet co w = true ↔ WaitReached co w := by
  unfold waitMet WaitReached
  change (if bits w 26 6 = 0x28 then _ else _) = true ↔ _
  split
  · rw [decide_eq_true_eq, fSimm18_eq]
    rfl
  · exact maskMet_iff co _

/-- A CWAITT that ends writes TO and goes on. -/
theorem goNext_setTmo {s : State} {c : CoreId} {w : Nat} (b : Bool) (hmode : (coreOf s c).mode = .running)
    (hnext : NextInside s c) :
    goNext (setCore s (coreKey c) { coreOf s c with tmo := b }) (coreKey c) w = advance s c { coreOf s c with tmo := b } :=
  goNext_setCore (Core.not_idle hmode) rfl rfl hnext

theorem exec_cwaitSatisfied {s : State} {c : CoreId} (hmode : (coreOf s c).mode = .running)
    (hwait : (coreOf s c).wait = .counters ∨ (coreOf s c).wait = .timed) (hmet : WaitReached (coreOf s c) (cueWord (coreOf s c)))
    (hnext : NextInside s c) : exec (.cwaitSatisfied c) s = .next (advance s c
      { coreOf s c with tmo := if (coreOf s c).wait = .timed then false else (coreOf s c).tmo }) := by
  have hready : counterWaitMet (coreOf s c) = true := by
    simp [counterWaitMet, hmode, hwait, (waitMet_iff _ _).mpr hmet]
  exact (if_pos hready).trans (congrArg _ (goNext_setTmo _ hmode hnext))

theorem exec_cwaittDeadline {s : State} {c : CoreId} (hmode : (coreOf s c).mode = .running)
    (hwait : (coreOf s c).wait = .timed) (hnext : NextInside s c) :
    exec (.cwaittDeadline c) s = .next (advance s c
      { coreOf s c with tmo := !waitMet (coreOf s c) (cueWord (coreOf s c)) }) :=
  (if_pos ⟨hmode, hwait⟩).trans (congrArg _ (goNext_setTmo _ hmode hnext))

/-- Settles O5: the first tests by `waitMet_iff`; the ends by the rows' own lemmas. -/
theorem waitResults : Obligations.WaitResults := by
  refine ⟨?tests, ?ends⟩
  case tests =>
    intro c s w co
    have hmet : WaitReached co w → waitMet co w = true := (waitMet_iff co w).mpr
    have hnot : ¬ WaitReached co w → ¬ waitMet co w = true := mt (waitMet_iff co w).mp
    refine ⟨fun hat hw hnext => ?cwait, fun hat hw hnext => ?cwaiti, fun hat hw hnext => ?cwaitt,
      fun hat hw hzero hnext => ?zero, fun hat hw => ?cwaitStays, fun hat hw => ?cwaitiStays, fun hat hw hdeadline => ?timed⟩
    case cwait => exact (exec_at hat rfl).trans (congrArg _ ((if_pos (hmet hw)).trans (goNext_advance hnext)))
    case cwaiti => exact (exec_at hat rfl).trans (congrArg _ ((if_pos (hmet hw)).trans (goNext_advance hnext)))
    case cwaitt => exact (exec_at hat rfl).trans (congrArg _ ((if_pos (hmet hw)).trans (goNext_setTmo false hat.1 hnext)))
    case zero =>
      refine (exec_at hat rfl).trans (congrArg _ ((if_neg (hnot hw)).trans ((if_pos hzero).trans ?_)))
      exact goNext_setTmo true hat.1 hnext
    case cwaitStays => exact (exec_at hat rfl).trans (congrArg _ (if_neg (hnot hw)))
    case cwaitiStays => exact (exec_at hat rfl).trans (congrArg _ (if_neg (hnot hw)))
    case timed => exact (exec_at hat rfl).trans (congrArg _ ((if_neg (hnot hw)).trans (if_neg hdeadline)))
  case ends =>
    intro c s co w hmode hnext
    refine ⟨fun hwait hw => ?counters, fun hwait hw => ⟨?satisfied, ?tie⟩, fun hwait hw => ?deadline⟩
    case counters =>
      rw [exec_cwaitSatisfied hmode (.inl hwait) hw hnext, if_neg (by rw [hwait]; decide)]
    case satisfied =>
      rw [exec_cwaitSatisfied hmode (.inr hwait) hw hnext, if_pos hwait]
    case tie =>
      rw [exec_cwaittDeadline hmode hwait hnext, (waitMet_iff _ _).mpr hw]
      rfl
    case deadline =>
      rw [exec_cwaittDeadline hmode hwait hnext, Bool.eq_false_iff.mpr (mt (waitMet_iff _ _).mp hw)]
      rfl

/-! ### Loads and stores (R175, R210, R214) -/

theorem offsetOf_eq (co : Core) (w : Nat) : (gReg co (fA w) + fSimm12 w).toNat = offsetOf co w := by
  rw [fSimm12_eq]
  rfl

/-- LD whose range is free reads its word into gd and goes on. -/
theorem actLd_ok {s t : State} {c : CoreId} {w : Nat} {ws : List Word}
    (hcheck : handleCheck s (coreKey c) (coreOf s c) (bits w 12 6) .ldst .r (spanOf (offsetOf (coreOf s c) w) 1) = none)
    (hfree : sbConflict (coreOf s c) [rngOf (coreOf s c) (bits w 12 6) (spanOf (offsetOf (coreOf s c) w) 1) false] = false)
    (hread : memRead s (coreKey c) (hEntry (coreOf s c) (bits w 12 6)) (offsetOf (coreOf s c) w) 1 true stopCue = (t, .ok ws))
    (hmode : (coreOf t c).mode = .running) (hnext : NextInside t c) :
    actLd (coreKey c) s w = advance t c (setG (coreOf t c) (bits w 22 4) (ws.getD 0 0)) := by
  have hoff := offsetOf_eq (coreOf s c) w
  unfold coreOf at hcheck hfree hread hoff
  rw [actLd, hoff, fH, withRange_ok _ hcheck hfree]
  simp only [hread]
  exact goNext_setG hmode rfl rfl hnext

/-- ST whose range is free writes gd and goes on. -/
theorem actSt_ok {s : State} {c : CoreId} {w : Nat}
    (hcheck : handleCheck s (coreKey c) (coreOf s c) (bits w 12 6) .ldst .w (spanOf (offsetOf (coreOf s c) w) 1) = none)
    (hfree : sbConflict (coreOf s c) [rngOf (coreOf s c) (bits w 12 6) (spanOf (offsetOf (coreOf s c) w) 1) true] = false) :
    actSt (coreKey c) s w = goNext (memWrite s (coreKey c) (hEntry (coreOf s c) (bits w 12 6)) (offsetOf (coreOf s c) w)
      [gReg (coreOf s c) (bits w 22 4)] true) (coreKey c) w := by
  have hoff := offsetOf_eq (coreOf s c) w
  unfold coreOf at hcheck hfree hoff
  rw [actSt, hoff, fH, withRange_ok _ hcheck hfree]
  rfl

section
variable {s : State} {k off : Nat} {e : HEntry} {stop : Core → Core}

theorem memRead_local {n : Nat} {useCache : Bool} (hspace : e.space = 1)
    (hparity : badWord (getCore s k).sp (e.base + off) n = none) :
    memRead s k e off n useCache stop = (s, .ok (ramWords (getCore s k).sp (e.base + off) n)) := by
  simp [memRead, hspace, hparity]

theorem memRead_cluster {n : Nat} {useCache : Bool} (hspace : e.space = 2) (hcached : e.cached = false)
    (hparity : badWord (getCl s (clOfTarget e.target)).mem (e.base + off) n = none) :
    memRead s k e off n useCache stop = (s, .ok (ramWords (getCl s (clOfTarget e.target)).mem (e.base + off) n)) := by
  simp [memRead, hspace, hcached, hparity]

theorem memRead_cached {n : Nat} (hspace : e.space ≠ 1) (hcached : e.cached = true) :
    memRead s k e off n true stop = cacheRead s k e.space e.target (e.base + off) n stop := by
  simp [memRead, hspace, hcached]

theorem memWrite_local {ws : List Word} {useCache : Bool} (hspace : e.space = 1) :
    memWrite s k e off ws useCache = setCore s k { getCore s k with sp := ramPutWords (getCore s k).sp (e.base + off) ws } := by
  simp [memWrite, hspace]

theorem memWrite_cluster {ws : List Word} {useCache : Bool} (hspace : e.space = 2) (hcached : e.cached = false) :
    memWrite s k e off ws useCache = setCl s (clOfTarget e.target) { getCl s (clOfTarget e.target) with
      mem := ramPutWords (getCl s (clOfTarget e.target)).mem (e.base + off) ws } := by
  simp [memWrite, hspace, hcached]

theorem memWrite_cached {ws : List Word} (hspace : e.space ≠ 1) (hcached : e.cached = true) :
    memWrite s k e off ws true = cacheWrite s k e.space e.target (e.base + off) ws := by
  simp [memWrite, hspace, hcached]

end

/-- Settles O6: each space by its own read or write of the handle's word; the frame of a word write is `ramByte_putWord_other`. -/
theorem loadStoreResults : Obligations.LoadStoreResults := by
  intro c s w k co h e off a cl m
  refine ⟨fun hat hcheck hfree => ⟨?ldLocal, ?ldCluster, ?ldCached⟩, fun hat hcheck hfree => ⟨?stLocal, ?stCluster, ?stCached⟩⟩
  case ldLocal =>
    intro hspace hparity hnext
    rw [exec_at hat rfl, actLd_ok hcheck hfree (memRead_local hspace hparity) hat.1 hnext]
    rfl
  case ldCluster =>
    intro hspace hcached hparity hnext
    rw [exec_at hat rfl, actLd_ok hcheck hfree (memRead_cluster hspace hcached hparity) hat.1 hnext]
    rfl
  case ldCached =>
    intro hcached hspace t ws hread hmode hnext
    rw [exec_at hat rfl, actLd_ok hcheck hfree ((memRead_cached hspace hcached).trans hread) hmode hnext]
  case stLocal =>
    intro hspace hnext
    refine ⟨?_, fun x hx => ramByte_putWord_other co.sp _ hx⟩
    rw [exec_at hat rfl, actSt_ok hcheck hfree, memWrite_local hspace]
    exact congrArg _ (goNext_setCore (Core.not_idle hat.1) rfl rfl hnext)
  case stCluster =>
    intro hspace hcached hnext
    refine ⟨?_, fun x hx => ramByte_putWord_other m _ hx⟩
    rw [exec_at hat rfl, actSt_ok hcheck hfree, memWrite_cluster hspace hcached]
    exact congrArg _ (goNext_advance (s := setCl s cl _) hnext)
  case stCached =>
    intro hcached hspace t hnext
    rw [exec_at hat rfl, actSt_ok hcheck hfree, memWrite_cached hspace hcached]
    exact congrArg _ (goNext_advance hnext)

/-! ### ARRIVE and CLWAIT (R189 to R191) -/

theorem arriveAddr_eq (co : Core) (w : Nat) :
    (gReg co (fA w) + fSimm18 w).toNat = (gReg co (bits w 18 4) + (BitVec.ofNat 18 w).signExtend 32).toNat := by
  rw [fSimm18_eq]
  rfl

/-- CLWAIT at a clapper that passes the checks of R191 and its parity compares the phase. -/
theorem actClwait_sound {s : State} {k w : Nat}
    (hok : clapBad s (getCore s k) (gReg (getCore s k) (fA w)).toNat = false)
    (hparity : clapError s (gReg (getCore s k) (fA w)).toNat = none) :
    actClwait k s w =
      if bits (clapW1 s (gReg (getCore s k) (fA w)).toNat) 0 16 ≠ (gReg (getCore s k) (fB w)).toNat then goNext s k w
      else setCore s k { getCore s k with wait := .clapper, clap := (gReg (getCore s k) (fA w)).toNat } := by
  simp only [actClwait, hok, hparity, Bool.false_eq_true, if_false]

/-- Settles O9: the check of R191 comes first, then the clapper as it stands (log entry 18). -/
theorem clapperInstructionResults : Obligations.ClapperInstructionResults := by
  intro c s w k co a1 a2
  refine ⟨fun hat hok => ?arrive, fun hat hok hparity hphase hnext => ?differs, fun hat hok hparity hphase => ?waits,
    fun hat hbad => ?arriveBad, fun hat hbad => ?clwaitBad⟩
  case arrive =>
    rw [exec_at hat rfl, actArrive, arriveAddr_eq]
    exact congrArg _ (if_neg (ne_true_of_eq_false hok))
  case differs =>
    rw [exec_at hat rfl, actClwait_sound hok hparity]
    exact congrArg _ ((if_pos hphase).trans (goNext_advance hnext))
  case waits =>
    rw [exec_at hat rfl, actClwait_sound hok hparity]
    exact congrArg _ (if_neg (not_not.mpr hphase))
  case arriveBad =>
    rw [exec_at hat rfl, actArrive, arriveAddr_eq]
    exact congrArg _ (if_pos hbad)
  case clwaitBad =>
    rw [exec_at hat rfl, actClwait]
    exact congrArg _ (if_pos hbad)

end Sys2Proof.Machine
end

section
/-! SUPPORT. Sends and pops: what they leave of the core, and the words a queue gives up (R179, R185, R186, R237 to R250). -/

namespace Sys2Proof.Machine

open Sys2Proof

/-! ### Injection leaves the cores alone -/

@[simp] theorem getCore_inject (s : State) (cl plane inj : Nat) (p : Packet) (i : Nat) :
    getCore (inject s cl plane inj p) i = getCore s i := by
  unfold getCore inject injectGo
  rw [fillLocal_cores]

@[simp] theorem getCore_injectFrom (s : State) (k plane unit : Nat) (p : Packet) (i : Nat) :
    getCore (injectFrom s k plane unit p) i = getCore s i := getCore_inject s _ _ _ p i

@[simp] theorem getCore_sendCredit (s : State) (k : Nat) (q : RxQueue) (dst edge plane n i : Nat) :
    getCore (sendCredit s k q dst edge plane n) i = getCore s i := getCore_injectFrom s _ _ _ _ i

/-! ### Progress of a scene (R483) -/

@[simp] theorem getCore_noteProgress (s : State) (co : Core) (i : Nat) : getCore (noteProgress s co) i = getCore s i := by
  unfold noteProgress
  split <;> rfl

@[simp] theorem getCore_progressed (s : State) (a b : Core) (i : Nat) : getCore (progressed s a b) i = getCore s i := by
  unfold progressed
  split
  · rfl
  · exact getCore_noteProgress s a i

theorem noteProgress_setCore (s : State) (k : Nat) (a b : Core) (hscene : a.scene = b.scene) :
    noteProgress (setCore s k a) a = setCore (noteProgress s b) k a := by
  unfold noteProgress
  rw [hscene]
  split <;> rfl

/-- A core of the same scene is stored in a state that has noted its progress. -/
theorem putCore_eq {s : State} {k : Nat} {co : Core} (hscene : co.scene = (getCore s k).scene) :
    putCore s k co = setCore (progressed s (getCore s k) co) k co := by
  unfold putCore progressed
  dsimp only
  split
  · rfl
  · exact noteProgress_setCore s k co _ hscene

/-! ### Counters and queues are all that a pop or a credit changes of a core (R179) -/

/-- `a` is `b` with other counters and queues. -/
def CountsFrame (a b : Core) : Prop :=
  a = { b with c := a.c, csat := a.csat, wdCycles := a.wdCycles, lastMask := a.lastMask, queues := a.queues }

theorem CountsFrame.refl (a : Core) : CountsFrame a a := rfl

theorem CountsFrame.trans {a b c : Core} (hab : CountsFrame a b) (hbc : CountsFrame b c) : CountsFrame a c := by
  unfold CountsFrame at *
  rw [hab, hbc]

theorem CountsFrame.congr {α : Type} {a b : Core} (f : Core → α) (h : CountsFrame a b) :
    f a = f { b with c := a.c, csat := a.csat, wdCycles := a.wdCycles, lastMask := a.lastMask, queues := a.queues } :=
  congrArg f h

theorem CountsFrame.sameCourse {a b : Core} (h : CountsFrame a b) : SameCourse a b :=
  ⟨h.congr Core.mode, h.congr Core.pc, h.congr Core.sheet⟩

theorem ctrAdd_counts (co : Core) (i : Nat) (d : Int) : CountsFrame (ctrAdd co i d) co := by
  unfold ctrAdd
  dsimp only
  split <;> rfl

@[simp] theorem ctrAdd_queues (co : Core) (i : Nat) (d : Int) : (ctrAdd co i d).queues = co.queues := by
  unfold ctrAdd
  dsimp only
  split <;> rfl

theorem bindAdd_counts (co : Core) (kind idx : Nat) (d : Int) : CountsFrame (bindAdd co kind idx d) co := by
  unfold bindAdd
  split
  · exact ctrAdd_counts co _ d
  · exact .refl co

@[simp] theorem bindAdd_queues (co : Core) (kind idx : Nat) (d : Int) : (bindAdd co kind idx d).queues = co.queues := by
  unfold bindAdd
  split
  · exact ctrAdd_queues co _ d
  · rfl

theorem bindAddQ_counts (co : Core) (q : Nat) (words pkts : Int) : CountsFrame (bindAddQ co q words pkts) co := by
  have hboth := (bindAdd_counts (bindAdd co 1 q words) 2 q pkts).trans (bindAdd_counts co 1 q words)
  unfold bindAddQ
  dsimp only
  split
  · exact CountsFrame.trans rfl hboth
  · exact hboth

@[simp] theorem bindAddQ_queues (co : Core) (q : Nat) (words pkts : Int) : (bindAddQ co q words pkts).queues = co.queues := by
  unfold bindAddQ
  dsimp only
  split <;> simp

theorem NextInside.of_sameCourse {s t : State} {c : CoreId} (hnext : NextInside s c)
    (h : SameCourse (coreOf t c) (coreOf s c)) : NextInside t c := by
  obtain ⟨-, hpc, hsheet⟩ := h
  simpa only [NextInside, sheetPlen, sheetW, hpc, hsheet] using hnext

/-! ### Sends (R179, R185, R186) -/

/-- The state in which a core has sent words on an edge as one packet, paid its credits and gone on. -/
def sentOn (s : State) (c : CoreId) (e : Nat) (ws : List Word) (endm : Bool) : State :=
  let u := injectFrom s (coreKey c) (bits (edgeW0 (coreOf s c) e) 22 1) 1
    ⟨edgeHdr (coreOf s c) (coreKey c) 0 e ws.length endm, ws, (coreOf s c).pc.toNat⟩
  let co' := bindAdd (coreOf s c) 3 e (-(ws.length : Int))
  advance (progressed u (coreOf s c) co') c co'

theorem goNext_sendPacket {s : State} {c : CoreId} {w : Nat} (e : Nat) (ws : List Word) (endm : Bool)
    (hmode : (coreOf s c).mode = .running) (hnext : NextInside s c) :
    goNext (sendPacket s (coreKey c) e ws endm) (coreKey c) w = sentOn s c e ws endm := by
  unfold sentOn
  extract_lets u co'
  have hcore : getCore u (coreKey c) = coreOf s c := getCore_injectFrom s _ _ _ _ _
  have hframe : CountsFrame co' (coreOf s c) := bindAdd_counts _ 3 e _
  have hput : sendPacket s (coreKey c) e ws endm = setCore (progressed u (coreOf s c) co') (coreKey c) co' := by
    have hscene : co'.scene = (getCore u (coreKey c)).scene := by
      rw [hcore]
      exact hframe.congr Core.scene
    change putCore u (coreKey c) (bindAdd (getCore u (coreKey c)) 3 e (-(ws.length : Int))) = _
    rw [hcore]
    exact (putCore_eq hscene).trans (by rw [hcore])
  obtain ⟨hco', hpc, hsheet⟩ := hframe.sameCourse
  have hafter : coreOf (progressed u (coreOf s c) co') c = coreOf s c := (getCore_progressed u _ _ _).trans hcore
  rw [hput]
  exact goNext_setCore (Core.not_idle (hco'.trans hmode)) (hpc.trans (by rw [hafter])) (hsheet.trans (by rw [hafter]))
    (hnext.of_sameCourse (by rw [hafter]; exact .refl _))

/-- SENDB whose credit covers its words and whose range is free sends what it reads. -/
theorem actSendb_ok {s t : State} {k w : Nat} {ws : List Word}
    (hcredit : creditOk (getCore s k) (fD w) (edgeRate (getCore s k) (fD w)) = true)
    (hcheck : handleCheck s k (getCore s k) (bits (edgeW1 (getCore s k) (fD w)) 9 6) .queue .r
      (spanOf (offsetOf (getCore s k) w) (edgeRate (getCore s k) (fD w))) = none)
    (hfree : sbConflict (getCore s k) [rngOf (getCore s k) (bits (edgeW1 (getCore s k) (fD w)) 9 6)
      (spanOf (offsetOf (getCore s k) w) (edgeRate (getCore s k) (fD w))) false] = false)
    (hread : memRead s k (hEntry (getCore s k) (bits (edgeW1 (getCore s k) (fD w)) 9 6)) (offsetOf (getCore s k) w)
      (edgeRate (getCore s k) (fD w)) false stopCue = (t, .ok ws)) :
    actSendb k s w = goNext (sendPacket t k (fD w) ws true) k w := by
  simp only [actSendb, hcredit, if_true, offsetOf_eq]
  rw [withRange_ok _ hcheck hfree]
  simp only [hread]

/-- Settles O7: credit is tested first (log entry 27); a packet goes by `goNext_sendPacket`. -/
theorem sendResults : Obligations.SendResults := by
  intro c s w k co sent e1 e2 n h off
  refine ⟨fun hat hcredit hnext => ?send, fun hat hcredit hcheck hfree t ws hread hmode hnext => ?sendb,
    fun hat hcredit => ?sendShort, fun hat hcredit => ?sendbShort⟩
  case send =>
    rw [exec_at hat rfl]
    exact congrArg _ ((if_pos hcredit).trans (goNext_sendPacket e1 _ _ hat.1 hnext))
  case sendb =>
    rw [exec_at hat rfl, actSendb_ok hcredit hcheck hfree hread, goNext_sendPacket _ ws true hmode hnext]
    rfl
  case sendShort =>
    rw [exec_at hat rfl]
    exact congrArg _ (if_neg (ne_true_of_eq_false hcredit))
  case sendbShort =>
    rw [exec_at hat rfl]
    exact congrArg _ (if_neg (ne_true_of_eq_false hcredit))

end Sys2Proof.Machine
end

section
/-! SUPPORT. Pops: what they leave of the core, and the words a queue gives up (R178, R185, R237 to R250). -/

namespace Sys2Proof.Machine

open Sys2Proof

theorem SameCourse.trans {a b c : Core} (hab : SameCourse a b) (hbc : SameCourse b c) : SameCourse a c :=
  ⟨hab.1.trans hbc.1, hab.2.1.trans hbc.2.1, hab.2.2.trans hbc.2.2⟩

/-! ### What pops leave of the core -/

theorem popOne_counts (co : Core) (n : Nat) : CountsFrame (popOne co n).1 co := by
  unfold popOne
  dsimp only
  split
  · split
    · exact (bindAddQ_counts _ _ _ _).trans rfl
    · rfl
  · split
    · rfl
    · exact (bindAddQ_counts _ _ _ _).trans rfl

theorem popSome_counts (co : Core) (n m : Nat) (ps : List Pop) : CountsFrame (popSome co n m ps).1 co := by
  induction m generalizing co ps with
  | zero => exact .refl co
  | succ m ih => exact (ih (popOne co n).1 _).trans (popOne_counts co n)

theorem getCore_setCore_of_counts {s : State} {k : Nat} {a b : Core} (h : CountsFrame a b) (hmode : b.mode ≠ .idle) :
    getCore (setCore s k a) k = a :=
  getCore_setCore_of_mode s k (by rw [h.sameCourse.1]; exact hmode)

theorem creditAfter_counts {s : State} {k : Nat} (n : Nat) (ps : List Pop) (hmode : (getCore s k).mode ≠ .idle) :
    CountsFrame (getCore (creditAfter s k n ps) k) (getCore s k) := by
  have hset (v : RxQueue) : CountsFrame (getCore (setCore s k (setQ (getCore s k) n v)) k) (getCore s k) := by
    rw [getCore_setCore_of_counts (a := setQ (getCore s k) n v) (b := getCore s k) rfl hmode]
    rfl
  unfold creditAfter
  dsimp only
  split
  case h_1 w hw =>
    split
    case isFalse => exact .refl _
    case isTrue =>
      refine List.foldlRecOn (motive := fun t => CountsFrame (getCore t k) (getCore s k)) _ _ (hset _) fun t ht i _ => ?_
      split
      · rw [getCore_sendCredit]
        exact ht
      · exact ht
  case h_2 =>
    split
    case isFalse => exact .refl _
    case isTrue =>
      split
      · rw [getCore_sendCredit]
        exact hset _
      · exact .refl _

theorem putCore_popSome_counts {s : State} {k : Nat} (n m : Nat) (hmode : (getCore s k).mode ≠ .idle) :
    getCore (putCore s k (popSome (getCore s k) n m []).1) k = (popSome (getCore s k) n m []).1 := by
  have hframe := popSome_counts (getCore s k) n m []
  rw [putCore_eq (hframe.congr Core.scene), getCore_setCore_of_counts hframe hmode]

/-- The pops of an instruction change nothing of its core but counters and queues. -/
theorem popCycles_counts {s : State} {k : Nat} (n fuel m : Nat) (ps : List Pop) (hmode : (getCore s k).mode ≠ .idle) :
    CountsFrame (getCore (popCycles s k n fuel m ps).1 k) (getCore s k) := by
  induction fuel generalizing s m ps with
  | zero => exact .refl _
  | succ fuel ih =>
    unfold popCycles
    split
    · exact .refl _
    · have hpops := popSome_counts (getCore s k) n (min m 4) []
      rw [← putCore_popSome_counts n (min m 4) hmode] at hpops
      have hafter := (creditAfter_counts n (popSome (getCore s k) n (min m 4) []).2
        (by rw [hpops.sameCourse.1]; exact hmode)).trans hpops
      exact (ih (m - 4) _ (by rw [hafter.sameCourse.1]; exact hmode)).trans hafter

/-! ### RECV and RECVB as their pops (R185) -/

/-- Pops that meet no parity error hand their words on with UR set. -/
theorem withPops_ok {s : State} {k n m : Nat} (act : State → List Word → State) (hgood : popBad (getCore s k) n m = none) :
    withPops s k n m act =
      act (setCore (popCycles s k n 32 m []).1 k
        { getCore (popCycles s k n 32 m []).1 k with ur := (popCycles s k n 32 m []).2.any (·.empty) })
        ((popCycles s k n 32 m []).2.map (·.word)) := by
  rw [withPops, hgood]

/-- Writing gd of the core stored last, and going on. -/
theorem goNext_setG_stored {s : State} {c : CoreId} {w i : Nat} {v : Word} {co : Core} (hmode : co.mode = .running)
    (hpc : co.pc = (coreOf s c).pc) (hsheet : co.sheet = (coreOf s c).sheet) (hnext : NextInside s c) :
    goNext (setCore (setCore s (coreKey c) co) (coreKey c) (setG (getCore (setCore s (coreKey c) co) (coreKey c)) i v))
        (coreKey c) w =
      advance s c (setG co i v) := by
  rw [getCore_setCore_of_mode s _ (Core.not_idle hmode),
    setCore_setCore_of_mode s _ (Core.not_idle hmode) (Core.not_idle (co := setG co i v) hmode)]
  exact goNext_setG hmode hpc hsheet hnext

/-- RECV whose queue has no parity error where it pops. -/
theorem actRecv_ok {s : State} {c : CoreId} {w : Nat} (hmode : (coreOf s c).mode = .running) (hnext : NextInside s c)
    (hgood : popBad (coreOf s c) (bits w 14 4) 1 = none) :
    let t := (popCycles s (coreKey c) (bits w 14 4) 32 1 []).1
    let p := (popCycles s (coreKey c) (bits w 14 4) 32 1 []).2
    actRecv (coreKey c) s w = advance t c
      (setG { coreOf t c with ur := p.any (·.empty) } (bits w 22 4) ((p.map (·.word)).getD 0 0)) := by
  intro t p
  have hcourse : SameCourse (coreOf t c) (coreOf s c) := (popCycles_counts _ 32 1 [] (Core.not_idle hmode)).sameCourse
  have hrun : (coreOf t c).mode = .running := hcourse.1.trans hmode
  exact (withPops_ok _ hgood).trans
    (goNext_setG_stored (co := { coreOf t c with ur := p.any (·.empty) }) hrun rfl rfl (hnext.of_sameCourse hcourse))

/-- A write that bypasses the cache leaves what execution goes on with. -/
theorem memWrite_sameCourse {s : State} {c : CoreId} (e : HEntry) (off : Nat) (ws : List Word) (hmode : (coreOf s c).mode ≠ .idle) :
    SameCourse (coreOf (memWrite s (coreKey c) e off ws false) c) (coreOf s c) := by
  unfold memWrite
  simp only [Bool.false_eq_true, and_false, if_false]
  split
  · unfold coreOf
    rw [getCore_setCore_of_mode s _ (by exact hmode)]
    exact .refl _
  · exact .refl _

/-- RECVB whose range is free and whose queue has no parity error where it pops. -/
theorem actRecvb_ok {s : State} {c : CoreId} {w : Nat} (hmode : (coreOf s c).mode = .running) (hnext : NextInside s c)
    (hcheck : handleCheck s (coreKey c) (coreOf s c) (bits (queueW0 (coreOf s c) (bits w 22 4)) 10 6) .queue .w
      (spanOf (offsetOf (coreOf s c) w) (queueRate (coreOf s c) (bits w 22 4))) = none)
    (hfree : sbConflict (coreOf s c) [rngOf (coreOf s c) (bits (queueW0 (coreOf s c) (bits w 22 4)) 10 6)
      (spanOf (offsetOf (coreOf s c) w) (queueRate (coreOf s c) (bits w 22 4))) true] = false)
    (hgood : popBad (coreOf s c) (bits w 22 4) (queueRate (coreOf s c) (bits w 22 4)) = none) :
    let n := queueRate (coreOf s c) (bits w 22 4)
    let t := (popCycles s (coreKey c) (bits w 22 4) 32 n []).1
    let p := (popCycles s (coreKey c) (bits w 22 4) 32 n []).2
    let u := memWrite (setCore t (coreKey c) { coreOf t c with ur := p.any (·.empty) }) (coreKey c)
      (hEntry (coreOf s c) (bits (queueW0 (coreOf s c) (bits w 22 4)) 10 6)) (offsetOf (coreOf s c) w) (p.map (·.word)) false
    actRecvb (coreKey c) s w = advance u c (coreOf u c) := by
  intro n t p u
  have hne : (coreOf s c).mode ≠ .idle := Core.not_idle hmode
  have hpops : SameCourse (coreOf t c) (coreOf s c) := (popCycles_counts _ 32 n [] hne).sameCourse
  have htne : (coreOf t c).mode ≠ .idle := by rw [hpops.1]; exact hne
  have hset : coreOf (setCore t (coreKey c) { coreOf t c with ur := p.any (·.empty) }) c =
      { coreOf t c with ur := p.any (·.empty) } :=
    getCore_setCore_of_mode t _ htne
  have hwrite : SameCourse (coreOf u c) { coreOf t c with ur := p.any (·.empty) } :=
    hset ▸ memWrite_sameCourse _ _ _ (by rw [hset]; exact htne)
  have hcourse : SameCourse (coreOf u c) (coreOf s c) := hwrite.trans hpops
  refine Eq.trans ?_ (goNext_advance (w := w) (hnext.of_sameCourse hcourse))
  unfold coreOf at hcheck hfree hgood
  rw [actRecvb, offsetOf_eq, fD, withRange_ok _ hcheck hfree, withPops_ok _ hgood]
  rfl

/-! ### The words a queue gives up (R237, R240) -/

/-- A queue of entries `es`, without a window or a pending marker, whose last word was `v`. -/
def Holds (q : RxQueue) (es : List QEntry) (v : Word) : Prop :=
  q.window = none ∧ q.pending = none ∧ q.entries = es ∧ q.lastv = v

theorem getQ_setQ (co : Core) {n : Nat} (q : RxQueue) (hn : n < 16) : getQ (setQ co n q) n = q := by
  simp [getQ, setQ, hn]

theorem getQ_of_queues {a b : Core} (n : Nat) (h : a.queues = b.queues) : getQ a n = getQ b n := by
  rw [getQ, getQ, h]

/-- What a pop of a data entry finds. -/
def popOf (e : QEntry) : Pop := ⟨e.payload, e.endMark, false⟩

/-- The pop of a data entry at the head of a queue. -/
theorem popOne_data {co : Core} {n : Nat} {e : QEntry} {es : List QEntry} {v : Word} (hn : n < 16)
    (hq : Holds (getQ co n) (e :: es) v) (hdata : e.gap = false) :
    Holds (getQ (popOne co n).1 n) es e.payload ∧ (popOne co n).2 = popOf e := by
  obtain ⟨hwindow, hpending, hentries, -⟩ := hq
  have hpop : popEntries (getQ co n) = ({ getQ co n with
      entries := es, lastv := e.payload, owed := if (getQ co n).mode = 0 then (getQ co n).owed + 1 else (getQ co n).owed },
          popOf e) := by
    simp [popEntries, hentries, passGaps, hdata, placePending, hpending, popOf]
  simp only [popOne, hwindow, hpop, popOf, Bool.false_eq_true, if_false, and_true]
  rw [getQ_of_queues n (bindAddQ_queues _ _ _ _), getQ_setQ co _ hn]
  exact ⟨rfl, hpending, rfl, rfl⟩

/-- The pop of an empty queue finds its last word again. -/
theorem popOne_empty {co : Core} {n : Nat} {v : Word} (hn : n < 16) (hq : Holds (getQ co n) [] v) :
    Holds (getQ (popOne co n).1 n) [] v ∧ (popOne co n).2 = ⟨v, false, true⟩ := by
  obtain ⟨hwindow, hpending, hentries, rfl⟩ := hq
  have hpop : popEntries (getQ co n) = ({ getQ co n with entries := [], ur := true }, ⟨(getQ co n).lastv, false, true⟩) := by
    simp [popEntries, hentries, passGaps, placePending, hpending]
  simp only [popOne, hwindow, hpop, if_true, and_true]
  rw [getQ_setQ co _ hn]
  exact ⟨rfl, hpending, rfl, rfl⟩

/-- The last word of entries that are popped after `v`. -/
def lastWord (v : Word) (es : List QEntry) : Word := es.foldl (fun _ e => e.payload) v

theorem popSome_data {co : Core} {n : Nat} {es fs : List QEntry} {v : Word} (ps : List Pop) (hn : n < 16)
    (hq : Holds (getQ co n) (es ++ fs) v) (hdata : ∀ e ∈ es, e.gap = false) :
    Holds (getQ (popSome co n es.length ps).1 n) fs (lastWord v es) ∧ (popSome co n es.length ps).2 = ps ++ es.map popOf := by
  induction es generalizing co v ps with
  | nil => exact ⟨hq, (List.append_nil ps).symm⟩
  | cons e es ih =>
    obtain ⟨hleft, hpop⟩ := popOne_data hn hq (hdata e (List.mem_cons_self ..))
    obtain ⟨hrest, hpops⟩ := ih (ps ++ [(popOne co n).2]) hleft fun x hx => hdata x (List.mem_cons_of_mem e hx)
    refine ⟨hrest, hpops.trans ?_⟩
    rw [hpop, List.map_cons, List.append_assoc]
    rfl

/-- Credits are sent and owed without a change of what the queue holds (R250). -/
theorem creditAfter_holds {s : State} {k n : Nat} {es : List QEntry} {v : Word} (ps : List Pop) (hn : n < 16)
    (hmode : (getCore s k).mode ≠ .idle) (hq : Holds (getQ (getCore s k) n) es v) :
    Holds (getQ (getCore (creditAfter s k n ps) k) n) es v := by
  simp only [creditAfter, hq.1]
  split
  case isFalse => exact hq
  case isTrue =>
    split
    · rw [getCore_sendCredit, getCore_setCore_of_counts (a := setQ (getCore s k) n _) (b := getCore s k) rfl hmode,
        getQ_setQ _ _ hn]
      exact ⟨rfl, hq.2⟩
    · exact hq

theorem popCycles_zero (s : State) (k n fuel : Nat) (ps : List Pop) : popCycles s k n fuel 0 ps = (s, ps) := by
  cases fuel <;> rfl

/-- The pops of one CORE cycle with the credits after them. -/
theorem popCycles_cycle {s : State} {k n fuel m : Nat} {es : List QEntry} {v : Word} {new : List Pop} (ps : List Pop) (hn : n < 16)
    (hm : m ≠ 0) (hmode : (getCore s k).mode ≠ .idle)
    (hpops : Holds (getQ (popSome (getCore s k) n (min m 4) []).1 n) es v ∧ (popSome (getCore s k) n (min m 4) []).2 = new) :
    ∃ t, popCycles s k n (fuel + 1) m ps = popCycles t k n fuel (m - 4) (ps ++ new) ∧ Holds (getQ (getCore t k) n) es v
      ∧ (getCore t k).mode ≠ .idle := by
  obtain ⟨hleft, rfl⟩ := hpops
  have hcore := putCore_popSome_counts n (min m 4) hmode
  have hputMode : (getCore (putCore s k (popSome (getCore s k) n (min m 4) []).1) k).mode ≠ .idle := by
    rw [hcore, (popSome_counts _ _ _ _).sameCourse.1]
    exact hmode
  refine ⟨_, if_neg hm, creditAfter_holds _ hn hputMode (by rw [hcore]; exact hleft), ?_⟩
  rw [(creditAfter_counts n _ hputMode).sameCourse.1]
  exact hputMode

theorem lastWord_append (v : Word) (es fs : List QEntry) : lastWord v (es ++ fs) = lastWord (lastWord v es) fs :=
  List.foldl_append

/-- As many pops as a queue has data entries at its head take exactly those, four in a cycle. -/
theorem popCycles_data {s : State} {k n fuel : Nat} {es fs : List QEntry} {v : Word} (ps : List Pop) (hn : n < 16)
    (hfuel : es.length ≤ 4 * fuel) (hmode : (getCore s k).mode ≠ .idle) (hq : Holds (getQ (getCore s k) n) (es ++ fs) v)
    (hdata : ∀ e ∈ es, e.gap = false) :
    Holds (getQ (getCore (popCycles s k n fuel es.length ps).1 k) n) fs (lastWord v es)
      ∧ (popCycles s k n fuel es.length ps).2 = ps ++ es.map popOf := by
  induction fuel generalizing s es v ps with
  | zero =>
    obtain rfl := List.length_eq_zero_iff.mp (Nat.le_zero.mp hfuel)
    exact ⟨hq, (List.append_nil ps).symm⟩
  | succ fuel ih =>
    by_cases hempty : es.length = 0
    · obtain rfl := List.length_eq_zero_iff.mp hempty
      rw [List.length_nil, popCycles_zero]
      exact ⟨hq, (List.append_nil ps).symm⟩
    · have hparts : es = es.take 4 ++ es.drop 4 := (List.take_append_drop 4 es).symm
      have hfirst : min es.length 4 = (es.take 4).length := by rw [List.length_take, Nat.min_comm]
      have hpops := popSome_data (fs := es.drop 4 ++ fs) [] hn (by rw [← List.append_assoc, ← hparts]; exact hq)
        fun e he => hdata e (List.mem_of_mem_take he)
      rw [← hfirst, List.nil_append] at hpops
      obtain ⟨t, hcycle, hleft, htmode⟩ := popCycles_cycle ps hn hempty hmode hpops
      rw [hcycle, ← List.length_drop]
      obtain ⟨hrest, hwords⟩ := ih (ps ++ (es.take 4).map popOf) (by rw [List.length_drop]; omega) htmode hleft
        fun e he => hdata e (List.mem_of_mem_drop he)
      rw [← lastWord_append, ← hparts] at hrest
      exact ⟨hrest, by rw [hwords, List.append_assoc, ← List.map_append, ← hparts]⟩

/-- A pop of an empty queue leaves it empty. -/
theorem popCycles_empty {s : State} {k n fuel : Nat} {v : Word} (hn : n < 16) (hmode : (getCore s k).mode ≠ .idle)
    (hq : Holds (getQ (getCore s k) n) [] v) :
    Holds (getQ (getCore (popCycles s k n (fuel + 1) 1 []).1 k) n) [] v
      ∧ (popCycles s k n (fuel + 1) 1 []).2 = [⟨v, false, true⟩] := by
  obtain ⟨hleft, hpop⟩ := popOne_empty hn hq
  obtain ⟨t, hcycle, hafter, -⟩ := popCycles_cycle (fuel := fuel) [] hn Nat.one_ne_zero hmode ⟨hleft, congrArg ([·]) hpop⟩
  rw [hcycle, popCycles_zero]
  exact ⟨hafter, rfl⟩

/-- Data entries at the head of a queue whose parity matches let as many pops go on. -/
theorem popBad_of_data {co : Core} {n : Nat} {es fs : List QEntry} (hwindow : (getQ co n).window = none)
    (hentries : (getQ co n).entries = es ++ fs) (hgood : ∀ e ∈ es, e.gap = false ∧ e.badLanes = 0) :
    popBad co n es.length = none := by
  have hgo (i : Nat) : popBad.go (es ++ fs) i es.length = none := by
    clear hentries
    induction es generalizing i with
    | nil => cases fs <;> rfl
    | cons e es ih =>
      obtain ⟨hgap, hlanes⟩ := hgood e (List.mem_cons_self ..)
      simpa [popBad.go, hgap, hlanes] using ih (fun x hx => hgood x (List.mem_cons_of_mem e hx)) (i + 1)
  simp only [popBad, hwindow, hentries, hgo]

theorem popBad_of_empty {co : Core} {n : Nat} (m : Nat) (hwindow : (getQ co n).window = none)
    (hentries : (getQ co n).entries = []) :
    popBad co n m = none := by
  simp only [popBad, hwindow, hentries, popBad.go]

/-- A core that has been stored and gone on. -/
theorem coreOf_advance {s : State} {c : CoreId} {co : Core} (hmode : co.mode ≠ .idle) :
    coreOf (advance s c co) c = { co with pc := (coreOf s c).pc + 1, wait := .none } :=
  getCore_setCore_of_mode s _ hmode

/-- What RECV leaves when its pop leaves `es` behind. -/
theorem coreOf_recv {s t : State} {c : CoreId} {n i : Nat} {es : List QEntry} {v x : Word} {b : Bool}
    (hmode : (coreOf s c).mode = .running) (hframe : CountsFrame (coreOf t c) (coreOf s c))
    (hq : Holds (getQ (coreOf t c) n) es v) :
    let r := coreOf (advance t c (setG { coreOf t c with ur := b } i x)) c
    r.g = (setG (coreOf s c) i x).g ∧ r.ur = b ∧ (getQ r n).entries = es ∧ (getQ r n).lastv = v ∧ r.pc = (coreOf s c).pc + 1
      ∧ r.wait = .none := by
  intro r
  obtain ⟨hrun, hpc, -⟩ := hframe.sameCourse
  have hr : r = { setG { coreOf t c with ur := b } i x with pc := (coreOf t c).pc + 1, wait := .none } :=
    coreOf_advance (Core.not_idle (hrun.trans hmode))
  have hg : (coreOf t c).g = (coreOf s c).g := hframe.congr Core.g
  rw [hr]
  refine ⟨?_, rfl, hq.2.2.1, hq.2.2.2, by rw [hpc], rfl⟩
  change (coreOf t c).g.setIfInBounds i x = _
  rw [hg]
  rfl

/-- What RECVB to the scratchpad leaves when its pops leave `es` behind. -/
theorem coreOf_recvb {s t : State} {c : CoreId} {n off : Nat} {es : List QEntry} {v : Word} {b : Bool} {e : HEntry} {ws : List Word}
    (hspace : e.space = 1) (hmode : (coreOf s c).mode = .running) (hframe : CountsFrame (coreOf t c) (coreOf s c))
    (hq : Holds (getQ (coreOf t c) n) es v) :
    let u := memWrite (setCore t (coreKey c) { coreOf t c with ur := b }) (coreKey c) e off ws false
    let r := coreOf (advance u c (coreOf u c)) c
    r.sp = ramPutWords (coreOf s c).sp (e.base + off) ws ∧ r.ur = b ∧ (getQ r n).entries = es ∧ r.g = (coreOf s c).g
      ∧ r.pc = (coreOf s c).pc + 1 ∧ r.wait = .none := by
  intro u r
  obtain ⟨hrun, hpc, -⟩ := hframe.sameCourse
  have hne : (coreOf t c).mode ≠ .idle := Core.not_idle (hrun.trans hmode)
  have hset : getCore (setCore t (coreKey c) { coreOf t c with ur := b }) (coreKey c) = { coreOf t c with ur := b } :=
    getCore_setCore_of_mode t _ hne
  have hu : coreOf u c = { coreOf t c with ur := b, sp := ramPutWords (coreOf t c).sp (e.base + off) ws } := by
    change getCore u (coreKey c) = _
    simp only [u]
    rw [memWrite_local hspace, hset]
    exact getCore_setCore_of_mode _ _ hne
  have hr : r = { coreOf u c with pc := (coreOf u c).pc + 1, wait := .none } :=
    coreOf_advance (by rw [hu]; exact hne)
  rw [hr, hu]
  refine ⟨?_, rfl, hq.2.2.1, hframe.congr Core.g, by rw [hpc], rfl⟩
  rw [show (coreOf t c).sp = (coreOf s c).sp from hframe.congr Core.sp]

theorem queueRate_le (co : Core) (n : Nat) : queueRate co n ≤ 128 := by
  have := bits_lt (queueW0 co n) 3 7
  unfold queueRate
  omega

/-- No pop of a data entry is an empty read, and each gives its payload. -/
theorem pops_of_data (es : List QEntry) :
    (es.map popOf).any (·.empty) = false ∧ (es.map popOf).map (·.word) = es.map (·.payload) := by
  simp [popOf, Function.comp_def]

/-- Settles O8: the instructions as their pops, and the pops by `popCycles_data` and `popCycles_empty` (log entry 17). -/
theorem receiveResults : Obligations.ReceiveResults := by
  intro c s w k co q1 q2 n h off r1 r2
  have hq1 : q1 < 16 := bits_lt w 14 4
  have hq2 : q2 < 16 := bits_lt w 22 4
  have hne {opc : Nat} (hat : CueAt s c opc w) : co.mode ≠ .idle := Core.not_idle hat.1
  refine ⟨?word, ?empty, ?recv, ?block, ?recvb⟩
  case recv =>
    intro hat hnext hgood
    exact (exec_at hat rfl).trans (congrArg _ (actRecv_ok hat.1 hnext hgood))
  case recvb =>
    intro hat hnext hcheck hfree hgood
    exact (exec_at hat rfl).trans (congrArg _ (actRecvb_ok hat.1 hnext hcheck hfree hgood))
  case word =>
    intro e es hat hnext hwindow hpending hentries hgap hlanes
    have hgood : popBad co q1 1 = none := popBad_of_data (es := [e]) hwindow hentries (by simp [hgap, hlanes])
    obtain ⟨hleft, hpops⟩ := popCycles_data (s := s) (k := k) (fuel := 32) (es := [e]) [] hq1 (by simp) (hne hat)
      ⟨hwindow, hpending, hentries, rfl⟩ (by simp [hgap])
    have hrun := (exec_at (i := .recv c) hat rfl).trans (congrArg Host.Outcome.next (actRecv_ok hat.1 hnext hgood))
    refine ⟨_, hrun, ?_⟩
    change (popCycles s k q1 32 1 []).2 = _ at hpops
    dsimp only
    rw [hpops]
    exact coreOf_recv hat.1 (popCycles_counts q1 32 1 [] (hne hat)) hleft
  case empty =>
    intro hat hnext hwindow hpending hentries
    have hgood : popBad co q1 1 = none := popBad_of_empty 1 hwindow hentries
    obtain ⟨hleft, hpops⟩ := popCycles_empty (s := s) (k := k) (fuel := 31) hq1 (hne hat) ⟨hwindow, hpending, hentries, rfl⟩
    have hrun := (exec_at (i := .recv c) hat rfl).trans (congrArg Host.Outcome.next (actRecv_ok hat.1 hnext hgood))
    obtain ⟨hg, hur, hes, -, hpc, hwait⟩ := coreOf_recv (i := bits w 22 4) (x := r1.lastv) (b := true) hat.1
      (popCycles_counts q1 32 1 [] (hne hat)) hleft
    refine ⟨_, hrun, ?_⟩
    dsimp only
    rw [hpops]
    exact ⟨hg, hur, hes, hpc, hwait⟩
  case block =>
    intro es fs hat hnext hcheck hfree hspace hwindow hpending hentries hlength hdata
    have hgood : popBad co q2 n = none := hlength ▸ popBad_of_data hwindow hentries hdata
    obtain ⟨hleft, hpops⟩ := popCycles_data (s := s) (k := k) (fuel := 32) [] hq2
      (by rw [hlength]; exact queueRate_le co q2) (hne hat) ⟨hwindow, hpending, hentries, rfl⟩ fun e he => (hdata e he).1
    have hframe := popCycles_counts (s := s) (k := k) q2 32 n [] (hne hat)
    rw [hlength] at hleft hpops
    obtain ⟨hany, hwords⟩ := pops_of_data es
    have hrun := (exec_at (i := .recvb c) hat rfl).trans
      (congrArg Host.Outcome.next (actRecvb_ok hat.1 hnext hcheck hfree hgood))
    change (popCycles s k q2 32 n []).2 = es.map popOf at hpops
    refine ⟨_, hrun, ?_⟩
    rw [show queueRate (coreOf s c) (bits w 22 4) = n from rfl, show bits w 22 4 = q2 from rfl]
    dsimp only
    rw [hpops, hany, hwords]
    exact coreOf_recvb hspace hat.1 hframe hleft

end Sys2Proof.Machine
end

section
/-! SUPPORT. A FENCE whose write-back meets a parity error (R184, R205, R218). -/

namespace Sys2Proof.Machine

open Sys2Proof

/-- A FENCE whose flush leaves its core not RUNNING goes no further. -/
theorem exec_fenceComplete_stopped {s : State} {c : CoreId} (hmode : (coreOf s c).mode = .running)
    (hwait : (coreOf s c).wait = .fence)
    (hdone : localDone s (coreKey c) = true) (hstopped : (coreOf (cacheFlush s (coreKey c)) c).mode ≠ .running) :
    exec (.fenceComplete c) s = .next (cacheFlush s (coreKey c)) :=
  (if_pos ⟨hmode, hwait, hdone⟩).trans (congrArg _ (if_neg fun h => hstopped h.1))

/-- A RUNNING core at a FENCE, in a program of 16 words, whose one dirty cached word fails its parity. -/
def fencedDirty : Core :=
  { Core.reset with
    mode := .running
    wait := .fence
    sheet := some [0, 16 * 2 ^ 12]
    cache := [{ set := 0, way := 0, space := 2, target := 0, line := 0, valid := 1, dirty := 1, data := [0] }]
    cacheBad := [0] }

def cornerCore : CoreId := ⟨0, 0⟩

/-- The module with core (0, 0) so. -/
def fencedDirtyState : State := { State.reset with cores := [(coreKey cornerCore, fencedDirty)] }

/-- The same after the flush. -/
def fencedDirtyFlushed : State := cacheFlush fencedDirtyState (coreKey cornerCore)

/-- The write-back of a word that fails its parity stops the core as a hold order does, before its next instruction (R205). -/
theorem coreOf_fencedDirtyFlushed :
    (coreOf fencedDirtyFlushed cornerCore).mode = .held ∧ (coreOf fencedDirtyFlushed cornerCore).pc = 0 := ⟨rfl, rfl⟩

/-- Refutes O10: FENCE is said to go on whenever local completion is reached, but where its flush meets a parity error the core is
HELD at its PC. -/
theorem not_fenceHaltEventAndHold : ¬ Obligations.FenceHaltEventAndHold := by
  intro h
  obtain ⟨-, -, hfence, -⟩ := h.1 cornerCore fencedDirtyState 0
  obtain ⟨hheld, hpc⟩ := coreOf_fencedDirtyFlushed
  have hstopped : (coreOf fencedDirtyFlushed cornerCore).mode ≠ .running := by rw [hheld]; decide
  have hinside : NextInside fencedDirtyFlushed cornerCore := by
    unfold NextInside
    decide
  have hgoesOn : exec (.fenceComplete cornerCore) fencedDirtyState =
      .next (advance fencedDirtyFlushed cornerCore (coreOf fencedDirtyFlushed cornerCore)) := hfence rfl rfl rfl rfl hinside
  have hstays : exec (.fenceComplete cornerCore) fencedDirtyState = .next fencedDirtyFlushed :=
    exec_fenceComplete_stopped rfl rfl rfl hstopped
  have hsame : fencedDirtyFlushed = advance fencedDirtyFlushed cornerCore (coreOf fencedDirtyFlushed cornerCore) :=
    Host.Outcome.next.inj (hstays.symm.trans hgoesOn)
  have hmoved := congrArg (fun t => (coreOf t cornerCore).pc) hsame
  simp only [coreOf_advance (show (coreOf fencedDirtyFlushed cornerCore).mode ≠ .idle by rw [hheld]; decide), hpc] at hmoved
  exact absurd hmoved (by decide)

end Sys2Proof.Machine
end

section
/-! SUPPORT. ISSUE: its records, its checks, and the waits it can meet (R182, R183, R212 to R214, R230). -/

namespace Sys2Proof.Machine

open Sys2Proof

/-! ### Records (R182) -/

theorem issueAddr_eq (co : Core) (w : Nat) : issueAddr co w = descAddr co w := arriveAddr_eq co w

/-- Records that may be read and whose parity matches are read without a change of the module. -/
theorem readRecords_ok {s : State} {c : CoreId} {w : Nat} {as : List Nat} {rs : List (List Word)}
    (h : List.Forall₂ (RecordAt (coreOf s c)) as rs) : readRecords s (coreKey c) w as = (s, some rs) := by
  unfold coreOf at h
  induction h with
  | nil => rfl
  | cons hrec _ ih =>
    obtain ⟨hok, hparity, rfl⟩ := hrec
    simp only [readRecords, readRecord, hok, hparity, ih, if_true, recordAt]

theorem readDescriptor_ok {s : State} {c : CoreId} {w : Nat} {ws : List Word}
    (hrec : RecordAt (coreOf s c) (descAddr (coreOf s c) w) ws) (halign : descAddr (coreOf s c) w % 16 = 0) :
    readDescriptor s (coreKey c) w = (s, some ws) := by
  have hread := readRecords_ok (w := w) (.cons hrec .nil)
  unfold coreOf at hread halign
  simp only [readDescriptor, issueAddr_eq, halign, hread, if_true, List.getD_cons_zero]

theorem readDescriptor_misaligned {s : State} {c : CoreId} {w : Nat} (halign : descAddr (coreOf s c) w % 16 ≠ 0) :
    readDescriptor s (coreKey c) w =
      (cueViolate s (coreKey c) 0x14 0x7024 w (descAddr (coreOf s c) w), none) := by
  unfold coreOf at *
  simp only [readDescriptor, issueAddr_eq, halign, if_false]

/-- A descriptor off its boundary stops each of the three instructions. -/
theorem exec_issue_misaligned {s : State} {c : CoreId} {w : Nat} {r : Instr × Nat}
    (hr : r ∈ ([(.issueMx c, 0x2C), (.issueVx c, 0x2D), (.issueDma c, 0x2E)] : List (Instr × Nat))) (hat : CueAt s c r.2 w)
    (halign : descAddr (coreOf s c) w % 16 ≠ 0) :
    exec r.1 s = .next (cueViolate s (coreKey c) 0x14 0x7024 w (descAddr (coreOf s c) w)) := by
  have hread := readDescriptor_misaligned halign
  fin_cases hr
  · refine (exec_at (i := .issueMx c) hat rfl).trans ?_
    rw [actIssueMx, hread]
  · refine (exec_at (i := .issueVx c) hat rfl).trans ?_
    rw [actIssueVx, hread]
  · refine (exec_at (i := .issueDma c) hat rfl).trans ?_
    rw [actIssueDma, hread]

/-! ### Checks, scoreboard and slots (R212 to R214) -/

section
variable {s : State} {c : CoreId} {w : Nat} {os : List (Nat × List Operand)} {slots : Core → Bool} {act : Core → Nat → Core}

/-- Every descriptor's operands pass the checks of R210. -/
theorem findSome_operandsBad (hgood : ∀ p ∈ os, operandsBad s (coreKey c) (coreOf s c) p.2 = none) :
    (os.findSome? fun p => (operandsBad s (coreKey c) (getCore s (coreKey c)) p.2).map fun r => (p.1, r)) = none := by
  refine List.findSome?_eq_none_iff.mpr fun p hp => ?_
  rw [show operandsBad s (coreKey c) (getCore s (coreKey c)) p.2 = none from hgood p hp]
  rfl

theorem issueChecked_ok (hgood : ∀ p ∈ os, operandsBad s (coreKey c) (coreOf s c) p.2 = none)
    (hfree : OperandsFree s c (os.flatMap (·.2))) (hslots : slots (coreOf s c) = true) :
    issueChecked s (coreKey c) os slots act w = goNext (setCore s (coreKey c)
      (act (sbRegister (coreOf s c) (operandRngs (coreOf s c) (os.flatMap (·.2)))) (coreOf s c).nextOp)) (coreKey c) w := by
  obtain ⟨-, hconflict, hroom⟩ := hfree
  have hnone := findSome_operandsBad hgood
  unfold coreOf at *
  simp only [issueChecked, hnone, hconflict, hroom, hslots, Bool.not_true, Bool.or_self, Bool.false_eq_true, if_false, if_true]

theorem issueChecked_conflict (hgood : ∀ p ∈ os, operandsBad s (coreKey c) (coreOf s c) p.2 = none)
    (hconflict : sbConflict (coreOf s c) (operandRngs (coreOf s c) (os.flatMap (·.2))) = true) :
    issueChecked s (coreKey c) os slots act w = scoreWait s (coreKey c) := by
  have hnone := findSome_operandsBad hgood
  unfold coreOf at *
  simp only [issueChecked, hnone, hconflict, Bool.true_or, if_true]

theorem issueChecked_full (hgood : ∀ p ∈ os, operandsBad s (coreKey c) (coreOf s c) p.2 = none)
    (hfree : OperandsFree s c (os.flatMap (·.2))) (hslots : slots (coreOf s c) = false) :
    issueChecked s (coreKey c) os slots act w = setCore s (coreKey c) { coreOf s c with wait := .slot } := by
  obtain ⟨-, hconflict, hroom⟩ := hfree
  have hnone := findSome_operandsBad hgood
  unfold coreOf at *
  simp only [issueChecked, hnone, hconflict, hroom, hslots, Bool.not_true, Bool.or_self, Bool.false_eq_true, if_false]

end

/-! ### ISSUE_DMA -/

/-- The stream references of a DMA descriptor's REEL accesses (R359). -/
def reelRefs (co : Core) (os : List Operand) (m : SMap Nat) : SMap Nat :=
  os.foldl (fun m o => if o.use = .dma ∧ (hEntry co o.h).space = 5 then
    smapSet 0 m o.h ((hEntry co o.h).base + (spanLo o.sp).toNat) else m) m

theorem hEntry_of_sheet {a b : Core} (h : Nat) (hsheet : a.sheet = b.sheet) : hEntry a h = hEntry b h := by
  simp only [hEntry, sheetW, hsheet]

theorem foldl_reelRef {co : Core} (os : List Operand) {a : Core} (hsheet : a.sheet = co.sheet) :
    os.foldl (fun c o =>
      let e := hEntry c o.h
      if o.use = .dma ∧ e.space = 5 then
        { c with reelRef := smapSet 0 c.reelRef o.h (e.base + (spanLo o.sp).toNat) } else c) a =
      { a with reelRef := reelRefs co os a.reelRef } := by
  induction os generalizing a with
  | nil => rfl
  | cons o os ih =>
    simp only [List.foldl_cons, reelRefs, hEntry_of_sheet o.h hsheet]
    split
    · exact ih hsheet
    · exact ih hsheet

/-- A DMA descriptor at `a` as the engine takes it. -/
def newDma (op a : Nat) (ws : List Word) : DmaRun := ⟨op, a, ws, 0, 0, [], [], 0, false, false, false⟩

/-- What ISSUE_DMA makes of a core whose descriptor at `a` passes its checks. -/
def dmaIssued (a : Nat) (ws : List Word) (co : Core) (op : Nat) : Core :=
  { co with dma := co.dma ++ [newDma op a ws], reelRef := reelRefs co (dmaOperands ws) co.reelRef }

section
variable {s : State} {c : CoreId} {w : Nat} {ws : List Word}

theorem actIssueDma_ok (hrec : RecordAt (coreOf s c) (descAddr (coreOf s c) w) ws) (halign : descAddr (coreOf s c) w % 16 = 0)
    (hform : dmaMalformed (coreOf s c) ws = none) :
    actIssueDma (coreKey c) s w = issueChecked s (coreKey c) [(descAddr (coreOf s c) w, dmaOperands ws)]
      (fun co => decide (co.dma.length < 2)) (dmaIssued (descAddr (coreOf s c) w) ws) w := by
  have hread := readDescriptor_ok hrec halign
  unfold coreOf at hform
  simp only [actIssueDma, hread, hform, issueAddr_eq]
  refine congrArg (fun act => issueChecked s (coreKey c) _ _ act w) (funext fun co => funext fun op => ?_)
  exact foldl_reelRef (co := co) (dmaOperands ws) rfl

theorem actIssueDma_malformed {x : Nat} (hrec : RecordAt (coreOf s c) (descAddr (coreOf s c) w) ws)
    (halign : descAddr (coreOf s c) w % 16 = 0) (hform : dmaMalformed (coreOf s c) ws = some x) :
    actIssueDma (coreKey c) s w = descMalformed s (coreKey c) 0x7014 (descAddr (coreOf s c) w) x := by
  have hread := readDescriptor_ok hrec halign
  unfold coreOf at hform
  simp only [actIssueDma, hread, hform, issueAddr_eq]
  rfl

/-! ### ISSUE_VX and ISSUE_MX -/

theorem actIssueVx_ok {ch st : List Word} (hrec : RecordAt (coreOf s c) (descAddr (coreOf s c) w) ws)
    (halign : descAddr (coreOf s c) w % 16 = 0) (hch : RecordAt (coreOf s c) (df ws 10 0 16) ch)
    (hst : RecordAt (coreOf s c) (df ws 10 16 16) st) (hform : vxMalformed (coreOf s c) ws ch st false = none) :
    actIssueVx (coreKey c) s w = issueChecked s (coreKey c) [(descAddr (coreOf s c) w, vxOperands (coreOf s c) ws st false)]
      (fun co => decide ((vxSlots co.vx).length < 2))
      (fun co op => { co with vx := co.vx ++ [newVx op (descAddr (coreOf s c) w) ws ch st none] }) w := by
  have hread := readDescriptor_ok hrec halign
  have hptrs : readRecords s (coreKey c) w (vxPtrs ws) = (s, some [ch, st]) := readRecords_ok (.cons hch (.cons hst .nil))
  unfold coreOf at hform
  simp only [actIssueVx, hread, hptrs, List.getD_cons_zero, List.getD_cons_succ, hform, issueAddr_eq]
  rfl

theorem actIssueMx_plain (hrec : RecordAt (coreOf s c) (descAddr (coreOf s c) w) ws) (halign : descAddr (coreOf s c) w % 16 = 0)
    (htarget : df ws 0 18 2 ≠ 2) (hform : mxMalformed ws 0 = none) :
    actIssueMx (coreKey c) s w = issueChecked s (coreKey c)
      [(descAddr (coreOf s c) w, mxOperands (newMx 0 (descAddr (coreOf s c) w) ws))] (fun co => decide (co.mx.length < 2))
      (fun co op => { co with mx := co.mx ++ [newMx op (descAddr (coreOf s c) w) ws] }) w := by
  have hread := readDescriptor_ok hrec halign
  simp only [actIssueMx, hread, htarget, if_false, issueMxPlain, hform, issueAddr_eq]
  rfl

theorem actIssueMx_fused {fw ch st : List Word} (hrec : RecordAt (coreOf s c) (descAddr (coreOf s c) w) ws)
    (halign : descAddr (coreOf s c) w % 16 = 0) (htarget : df ws 0 18 2 = 2) (hfw : RecordAt (coreOf s c) (df ws 14 0 16) fw)
    (hch : RecordAt (coreOf s c) (df fw 10 0 16) ch) (hst : RecordAt (coreOf s c) (df fw 10 16 16) st)
    (hform : mxMalformed ws (fw.getD 0 0) = none) (hvx : vxMalformed (coreOf s c) fw ch st true = none)
    (hfused : fusedMalformed fw (mxM (newMx 0 (descAddr (coreOf s c) w) ws) * mxNt (newMx 0 (descAddr (coreOf s c) w) ws)) = none) :
    actIssueMx (coreKey c) s w = issueChecked s (coreKey c)
      [(descAddr (coreOf s c) w, mxOperands (newMx 0 (descAddr (coreOf s c) w) ws)),
        (df ws 14 0 16, vxOperands (coreOf s c) fw st true)]
      (fun co => decide (co.mx.length < 2) && decide ((vxSlots co.vx).length < 2))
      (fun co op => { co with
        mx := co.mx ++ [newMx op (descAddr (coreOf s c) w) ws]
        vx := co.vx ++ [newVx op (df ws 14 0 16) fw ch st (some (mxN (newMx 0 (descAddr (coreOf s c) w) ws)))] }) w := by
  have hread := readDescriptor_ok hrec halign
  have hfused1 : readRecords s (coreKey c) w [df ws 14 0 16] = (s, some [fw]) := readRecords_ok (.cons hfw .nil)
  have hptrs : readRecords s (coreKey c) w (vxPtrs fw) = (s, some [ch, st]) := readRecords_ok (.cons hch (.cons hst .nil))
  unfold coreOf at hvx hfused
  simp only [actIssueMx, hread, htarget, if_true, hfused1, List.getD_cons_zero, hptrs, List.getD_cons_succ, issueMxFused, hform,
    hvx, hfused, issueAddr_eq, Option.orElse_none]
  rfl

end

/-- A descriptor that passes its checks is registered and handed over, and execution goes on. -/
theorem issueChecked_advance {s : State} {c : CoreId} {w : Nat} {os : List (Nat × List Operand)} {slots : Core → Bool}
    {act : Core → Nat → Core} {flat : List Operand} (hmode : (coreOf s c).mode = .running) (hnext : NextInside s c)
    (hflat : os.flatMap (·.2) = flat) (hgood : ∀ p ∈ os, operandsBad s (coreKey c) (coreOf s c) p.2 = none)
    (hfree : OperandsFree s c flat) (hslots : slots (coreOf s c) = true)
    (hact : ∀ co op, SameCourse (act co op) co) :
    issueChecked s (coreKey c) os slots act w =
      advance s c (act (sbRegister (coreOf s c) (operandRngs (coreOf s c) flat)) (coreOf s c).nextOp) := by
  subst hflat
  obtain ⟨hrun, hpc, hsheet⟩ := hact (sbRegister (coreOf s c) (operandRngs (coreOf s c) (os.flatMap (·.2)))) (coreOf s c).nextOp
  rw [issueChecked_ok hgood hfree hslots]
  exact goNext_setCore (Core.not_idle (hrun.trans hmode)) hpc hsheet hnext

/-- Settles O13: each descriptor passes to `issueChecked`, which registers its ranges and goes on. -/
theorem issueResults : Obligations.IssueResults := by
  intro c s w ws co a op hrec halign hnext
  refine ⟨fun hat hform hfree hslot => ?dma, fun ch st hat hch hst hform hfree hslot => ?vx,
    fun hat htarget hform hfree hslot => ?mx,
    fun fw ch st hat htarget hfw hch hst hform hvx hfused hmxGood hfree hvxGood hmxSlot hvxSlot => ?fused⟩
  case dma =>
    rw [exec_at hat rfl, actIssueDma_ok hrec halign hform]
    exact congrArg _ (issueChecked_advance hat.1 hnext (List.flatMap_singleton _ _) (List.forall_mem_singleton.mpr hfree.1) hfree
      (decide_eq_true hslot) fun _ _ => ⟨rfl, rfl, rfl⟩)
  case vx =>
    rw [exec_at hat rfl, actIssueVx_ok hrec halign hch hst hform]
    exact congrArg _ (issueChecked_advance hat.1 hnext (List.flatMap_singleton _ _) (List.forall_mem_singleton.mpr hfree.1) hfree
      (decide_eq_true hslot) fun _ _ => ⟨rfl, rfl, rfl⟩)
  case mx =>
    rw [exec_at hat rfl, actIssueMx_plain hrec halign htarget hform]
    exact congrArg _ (issueChecked_advance hat.1 hnext (List.flatMap_singleton _ _) (List.forall_mem_singleton.mpr hfree.1) hfree
      (decide_eq_true hslot) fun _ _ => ⟨rfl, rfl, rfl⟩)
  case fused =>
    have hslots : (decide (co.mx.length < 2) && decide ((vxSlots co.vx).length < 2)) = true := by simp [hmxSlot, hvxSlot]
    have hflat (l m : Nat × List Operand) : [l, m].flatMap (·.2) = l.2 ++ m.2 := by simp
    rw [exec_at hat rfl, actIssueMx_fused hrec halign htarget hfw hch hst hform hvx hfused]
    exact congrArg _ (issueChecked_advance hat.1 hnext (hflat _ _)
      (List.forall_mem_cons.mpr ⟨hmxGood, List.forall_mem_singleton.mpr hvxGood⟩) hfree hslots fun _ _ => ⟨rfl, rfl, rfl⟩)

/-! ### Waits at the PC (R182, R213, R214) -/

/-- The instructions that can wait on the scoreboard. -/
def scoreRows (c : CoreId) : List (Instr × Nat) :=
  [(.ld c, 0x20), (.st c, 0x21), (.sendb c, 0x31), (.recvb c, 0x33), (.issueMx c, 0x2C), (.issueVx c, 0x2D), (.issueDma c, 0x2E)]

/-- The waiting instruction is executed as its own row executes it once the core waits for nothing. -/
theorem retryAtPc_eq {s t : State} {c : CoreId} {w : Nat} {r : Instr × Nat} (hr : r ∈ scoreRows c)
    (ht : t = setCore s (coreKey c) { coreOf s c with wait := .none }) (hword : cueWord (coreOf s c) = w) (hat : CueAt t c r.2 w) :
    exec r.1 t = .next (retryAtPc s (coreKey c)) := by
  have hretry : retryAtPc s (coreKey c) = retryOp (coreKey c) t w := by
    rw [ht, ← hword]
    rfl
  obtain ⟨-, -, -, hopc, -, -⟩ := id hat
  obtain ⟨act, hrun, hact⟩ : ∃ act, exec r.1 t = .next (cueStep (coreKey c) r.2 act t) ∧ retryOp (coreKey c) t w = act t w := by
    unfold scoreRows at hr
    fin_cases hr <;> exact ⟨_, rfl, by simp only [retryOp, hopc]⟩
  rw [hretry, hact, exec_at hat hrun]

/-- Settles O14: refusals and waits are the branches of `issueChecked`; an ended wait runs the row itself. -/
theorem issueRefusalsAndWaits : Obligations.IssueRefusalsAndWaits := by
  refine ⟨?issue, ?ends⟩
  case issue =>
    intro c s w ws k co a
    refine ⟨fun halign r hr hat => exec_issue_misaligned hr hat halign, fun hrec halign hat =>
      ⟨fun x hform => ?malformed, fun hform hgood => ⟨fun hconflict => ?conflict, fun hfree hfull => ?full⟩⟩⟩
    case malformed => exact (exec_at hat rfl).trans (congrArg _ (actIssueDma_malformed hrec halign hform))
    case conflict =>
      rw [exec_at hat rfl, actIssueDma_ok hrec halign hform, issueChecked_conflict (List.forall_mem_singleton.mpr hgood)
        (by rw [List.flatMap_singleton]; exact hconflict)]
      rfl
    case full =>
      rw [exec_at hat rfl, actIssueDma_ok hrec halign hform, issueChecked_full (List.forall_mem_singleton.mpr hgood)
        (by rw [List.flatMap_singleton]; exact hfree) (decide_eq_false (Nat.not_lt.mpr hfull))]
  case ends =>
    intro c s w r co t hmode hat
    have hne : co.mode ≠ .idle := Core.not_idle hmode
    have hword : cueWord co = w := by
      obtain ⟨-, -, hword, -, -, -⟩ := hat
      rw [show coreOf t c = { co with wait := .none } from getCore_setCore_of_mode s _ hne] at hword
      exact hword
    refine ⟨fun hr hwait => ?slot, fun hr hwait => ?score⟩
    case slot =>
      have hrun : exec (.issueSlotFree c) s = .next (retryAtPc s (coreKey c)) := if_pos ⟨hmode, hwait⟩
      have hrow := retryAtPc_eq (List.mem_append_right [(.ld c, 0x20), (.st c, 0x21), (.sendb c, 0x31), (.recvb c, 0x33)] hr)
         rfl hword hat
      exact ⟨hrun.trans hrow.symm, _, hrun⟩
    case score =>
      have hrun : exec (.scoreboardWaitEnd c) s = .next (retryAtPc s (coreKey c)) := if_pos ⟨hmode, hwait⟩
      exact ⟨hrun.trans (retryAtPc_eq hr rfl hword hat).symm, _, hrun⟩

end Sys2Proof.Machine
end

section
/-! SUPPORT. Clappers: what ejection leaves of a cluster, arrivals, replies and notifications (R189, R190, R294, R303). -/

namespace Sys2Proof.Machine

open Sys2Proof

/-! ### A router that has granted keeps its cluster in the table -/

/-- The memory of cluster `cl` is `m`, and one of its output ports has granted a packet: it is not the table's default. -/
def GrantedAt (s : State) (cl : Nat) (m : Ram) : Prop := (getCl s cl).mem = m ∧ (getCl s cl).arb ≠ []

/-- Writes of a cluster that keep its memory and its arbitration keep both, in that cluster as in any other. -/
theorem GrantedAt.setCl {s : State} {cl : Nat} {m : Ram} (h : GrantedAt s cl m) {j : Nat} {x : Cluster}
    (hmem : x.mem = (getCl s j).mem) (harb : x.arb = (getCl s j).arb) : GrantedAt (setCl s j x) cl m := by
  obtain ⟨hm, ha⟩ := h
  by_cases hj : cl = j
  · subst hj
    have hx : x ≠ Cluster.reset := fun e => ha (by rw [← harb, e]; rfl)
    rw [GrantedAt, getCl_setCl_of_ne s cl hx]
    exact ⟨hmem.trans hm, by rw [harb]; exact ha⟩
  · rw [GrantedAt, getCl_setCl_other s x hj]
    exact ⟨hm, ha⟩

theorem GrantedAt.fillLocal {s : State} {cl : Nat} {m : Ram} (h : GrantedAt s cl m) (j plane vc fuel : Nat) :
    GrantedAt (fillLocal j plane vc fuel s) cl m := by
  induction fuel generalizing s with
  | zero => exact h
  | succ fuel ih =>
    unfold Machine.fillLocal
    split
    · exact h
    · split
      · exact h
      · split
        · exact ih (h.setCl (x := { getCl s j with turns := _ }) rfl rfl)
        · exact h

theorem GrantedAt.injectAll {s : State} {cl : Nat} {m : Ram} (h : GrantedAt s cl m) : GrantedAt (injectAll s) cl m :=
  List.foldlRecOn (motive := (GrantedAt · cl m)) _ _ h fun _ ht f _ => ht.fillLocal f.cl f.plane (vcOf f) _

theorem GrantedAt.fenceStep {s : State} {cl : Nat} {m : Ram} (h : GrantedAt s cl m) : GrantedAt (fenceStep s) cl m := by
  unfold Machine.fenceStep
  split
  · split
    · exact h
    · exact GrantedAt.injectAll (s := { s with routeDark := _, routeFence := none }) h
  · exact h

theorem GrantedAt.leaveMesh {s : State} {cl : Nat} {m : Ram} (h : GrantedAt s cl m) (f : Flight) (count : RouterRegs → RouterRegs) :
    GrantedAt (leaveMesh s f count) cl m := by
  refine GrantedAt.fenceStep (GrantedAt.fillLocal ?_ _ _ _ _)
  exact GrantedAt.setCl (s := meshDrop s f) h rfl rfl

/-- The record of an output port after a grant is not the reset record: the turn has passed on. -/
theorem arb_after_grant_ne_reset (last age : List Nat) {v : Nat} (n : Nat) (hv : v < 4) :
    (⟨last.set v (n + 1), age⟩ : Arb) ≠ Arb.reset := by
  intro e
  have hlist : last.set v (n + 1) = [0, 0, 0, 0] := congrArg Arb.last e
  have hlen : last.length = 4 := by rw [← List.length_set (i := v) (a := n + 1), hlist]; rfl
  have hturn : (last.set v (n + 1))[v]? = some (n + 1) := by simp [hlen, hv]
  rw [hlist] at hturn
  interval_cases v <;> simp at hturn

theorem smapPut_ne_nil {α : Type} (m : SMap α) (k : Nat) (v : α) : smapPut m k v ≠ [] := by
  cases m with
  | nil => exact List.cons_ne_nil _ _
  | cons p m =>
    unfold smapPut
    split
    · exact List.cons_ne_nil _ _
    · split <;> exact List.cons_ne_nil _ _

theorem grantArb_grantedAt (s : State) (ready : Flight → Bool) (o : PortDir) (f : Flight) :
    GrantedAt (grantArb s ready o f) f.cl (getCl s f.cl).mem := by
  have harb (last age : List Nat) (k n : Nat) : smapSet Arb.reset (getCl s f.cl).arb k ⟨last.set (vcOf f) (n + 1), age⟩ ≠ [] := by
    have hvc : vcOf f < 4 := bits_lt _ 4 2
    rw [smapSet, if_neg (arb_after_grant_ne_reset last age n hvc)]
    exact smapPut_ne_nil _ _ _
  unfold grantArb
  dsimp only
  rw [GrantedAt, getCl_setCl_of_ne s f.cl fun e => harb _ _ _ _ (congrArg Cluster.arb e)]
  exact ⟨rfl, harb _ _ _ _⟩

/-- Ejection leaves the memory of its cluster alone. -/
theorem mem_getCl_ejected (s : State) (f : Flight) : (getCl (ejected s f) f.cl).mem = (getCl s f.cl).mem :=
  ((grantArb_grantedAt s (unitReady s) .loc f).leaveMesh f _).1

/-! ### An arrival (R189) -/

/-- The reply to an arrival, with the phase before it. -/
def arrivalReply (s : State) (f : Flight) : State :=
  inject s f.cl 0 clapInjector ⟨mkHdr 7 ⟨0, 0, pSrc f.pkt.hdr, lowCore f.cl, pSlate f.pkt.hdr, pEpoch f.pkt.hdr⟩ 0 false
    (pArg f.pkt.hdr) (bits (clapW1 s (pArg f.pkt.hdr)) 0 16), [], 0⟩

/-- The two words of a clapper of cluster `cl` written together. -/
def clapStore (s : State) (cl a v0 v1 : Nat) : State :=
  setCl s cl { getCl s cl with mem := ramPutWords (getCl s cl).mem (clapWord a) [BitVec.ofNat 32 v0, BitVec.ofNat 32 v1] }

section
variable {s : State} {f : Flight}

theorem clapArriveIn_counts (hparity : badWord (getCl s f.cl).mem (clapWord (pArg f.pkt.hdr)) 2 = none)
    (hmore : bits (clapW0 s (pArg f.pkt.hdr)) 16 16 + 1 ≠ bits (clapW0 s (pArg f.pkt.hdr)) 0 16) :
    clapArriveIn s f = clapStore (arrivalReply s f) f.cl (pArg f.pkt.hdr)
      (bits (clapW0 s (pArg f.pkt.hdr)) 0 16 + (bits (clapW0 s (pArg f.pkt.hdr)) 16 16 + 1) % 2 ^ 16 * 2 ^ 16)
      (clapW1 s (pArg f.pkt.hdr)) := by
  have hphase : clapW1 s (pArg f.pkt.hdr) - bits (clapW1 s (pArg f.pkt.hdr)) 0 16 + bits (clapW1 s (pArg f.pkt.hdr)) 0 16 =
      clapW1 s (pArg f.pkt.hdr) := Nat.sub_add_cancel ((Nat.mod_le _ _).trans (Nat.div_le_self _ _))
  simp only [clapArriveIn, hparity, decide_eq_false hmore, Bool.false_eq_true, if_false, hphase]
  rfl

theorem clapArriveIn_completes (hparity : badWord (getCl s f.cl).mem (clapWord (pArg f.pkt.hdr)) 2 = none)
    (hfull : bits (clapW0 s (pArg f.pkt.hdr)) 16 16 + 1 = bits (clapW0 s (pArg f.pkt.hdr)) 0 16) :
    clapArriveIn s f = clapDone (clapStore (arrivalReply s f) f.cl (pArg f.pkt.hdr) (bits (clapW0 s (pArg f.pkt.hdr)) 0 16)
      (clapW1 s (pArg f.pkt.hdr) - bits (clapW1 s (pArg f.pkt.hdr)) 0 16 + (bits (clapW1 s (pArg f.pkt.hdr)) 0 16 + 1) % 2 ^ 16))
      (pArg f.pkt.hdr) (bits (clapW1 s (pArg f.pkt.hdr)) 0 16) := by
  simp only [clapArriveIn, hparity, decide_eq_true hfull, if_true, Nat.add_zero]
  rfl

end

/-- The clapper unit reads nothing of WDONE. -/
theorem clapArriveIn_handed (s : State) (f : Flight) : clapArriveIn s (handed f) = clapArriveIn s f := by
  simp [clapArriveIn, handed]

theorem exec_clapArrive {s : State} {k : ClusterId} {pl : Plane} {f : Flight} (h : TakesPacket s k pl 6 f) :
    exec (.clapArrive k pl 0 0) s = .next (clapArriveIn (ejected s f) f) :=
  congrArg Host.Outcome.next ((arrivalRow_ok clapArriveIn h).trans (clapArriveIn_handed _ f))

/-! ### Replies and notifications (R189, R190) -/

/-- Going on inside the program. -/
theorem goNext_inside {s : State} {k w : Nat} (hinside : (getCore s k).pc.toNat + 1 < sheetPlen (getCore s k)) :
    goNext s k w = setCore s k { getCore s k with pc := (getCore s k).pc + 1, wait := .none } := by
  have hpc : BitVec.ofNat 12 ((getCore s k).pc.toNat + 1) = (getCore s k).pc + 1 := BitVec.eq_of_toNat_eq (by simp)
  rw [goNext, goTo_inside hinside, hpc]

/-- Going on inside the program with a core just written. -/
theorem goNext_stored {s : State} {k w : Nat} {co : Core} (hmode : co.mode ≠ .idle) (hinside : co.pc.toNat + 1 < sheetPlen co) :
    goNext (setCore s k co) k w = setCore s k { co with pc := co.pc + 1, wait := .none } := by
  have hread : getCore (setCore s k co) k = co := getCore_setCore_of_mode s k hmode
  rw [goNext_inside (by rw [hread]; exact hinside), hread, setCore_setCore_of_mode s k hmode (by exact hmode)]

theorem exec_clapReply {s : State} {k : ClusterId} {pl : Plane} {f : Flight} (h : TakesPacket s k pl 7 f)
    (hwait : (target s f).wait = .arrive) (hclap : (target s f).clap = pArg f.pkt.hdr) :
    exec (.clapReply k pl 0 0) s = .next (arriveEnd (ejected s f) (pDst f.pkt.hdr)
      (setG (target s f) (fD (cueWord (target s f))) (BitVec.ofNat 32 (bits (pArg2 f.pkt.hdr) 0 16)))) := by
  unfold target at *
  refine congrArg Host.Outcome.next ((arrivalRow_ok clapReplyIn h).trans ?_)
  simp only [clapReplyIn, handed, pDst_setWdone, pArg_setWdone, pArg2_setWdone, getCore_ejected, hwait, hclap, and_self, if_true]

theorem exec_clapNotify {s : State} {k : ClusterId} {pl : Plane} {f : Flight} (h : TakesPacket s k pl 8 f)
    (hmode : (target s f).mode = .running) (hwait : (target s f).wait = .clapper) (hclap : (target s f).clap = pArg f.pkt.hdr)
    (hphase : bits (pArg2 f.pkt.hdr) 0 16 ≠ (gReg (target s f) (bits (cueWord (target s f)) 14 4)).toNat) :
    exec (.clapNotify k pl 0 0) s = .next (goNext (ejected s f) (pDst f.pkt.hdr) (cueWord (target s f))) := by
  have hphase' : bits (pArg2 f.pkt.hdr) 0 16 ≠ (gReg (target s f) (fB (cueWord (target s f)))).toNat := hphase
  unfold target at *
  refine congrArg Host.Outcome.next ((arrivalRow_ok clapNotifyIn h).trans ?_)
  simp only [clapNotifyIn, handed, pDst_setWdone, pArg_setWdone, pArg2_setWdone, getCore_ejected, hmode, hwait, hclap, hphase',
    ne_eq, not_false_eq_true, and_self, if_true]

/-! ### The copy of a resume point (R294) -/

/-- A resume point whose copy is complete becomes its scene's latest, its event is raised and its clapper's waiters are notified. -/
def resumeReached (v : State) (x : Scene) (b : Storyboard) (sbn idx r area : Nat) : State :=
  clapNotify (raiseEv { v with
      unfinished := v.unfinished.map fun y =>
        if y.sbn = sbn ∧ y.idx = idx ∧ (boundSlates x).contains y.slate = true then
          { y with latest := some r, area := area, winMark := x.winCount } else y }
    0xB020 0 (sceneFrame x) (resumeDetail x (resAddr b.words idx r) (resPhase b.words idx r))) (resAddr b.words idx r)
    ((resPhase b.words idx r + 1) % 2 ^ 16)

/-- The copy of a scene's resume point goes on by its job's work. -/
theorem resumeCopied_work {s t : State} {sbn idx r area : Nat} {x : Scene} {b : Storyboard} {j j' : CopyJob}
    (hscene : (s.scenes.find? fun x => x.sbn == sbn && x.idx == idx && x.copying.isSome) = some x)
    (hboard : getBoard s sbn = some b) (hcopying : x.copying = some (r, area)) (hjob : copyJob s .resume sbn (scKey x) = some j)
    (hwork : copyWork s j = (t, j')) :
    resumeCopied s sbn idx =
      if copyDone t j' then
        resumeReached (setScene (copyDrop t j') { x with copying := none, latest := some r, area := area, winMark := x.winCount })
          x b sbn idx r area
      else t := by
  simp only [resumeCopied, hscene, hboard, hcopying, hjob, hwork]
  cases copyDone t j' <;> rfl

/-- Settles O25: arrivals by `clapArriveIn` on the ejected packet, whose cluster keeps its memory; the rest by each row's lemma. -/
theorem clapperSteps : Obligations.ClapperSteps := by
  intro s k pl f h a w m co u w0 w1 phase reply wrote
  have hmem : badWord m w 2 = none → badWord (getCl u f.cl).mem w 2 = none := by
    rw [show (getCl u f.cl).mem = m from mem_getCl_ejected s f]
    exact id
  refine ⟨fun htakes hparity hmore => ?counts, fun htakes hparity hfull => ?completes,
    fun htakes hwait hclap hmode hinside => ?reply, fun htakes hmode hwait hclap hphase hinside => ?notify,
    fun sc x b r area hscene hboard hcopying => ⟨rfl, fun j t j' hjob hwork => ?copy⟩⟩
  case counts => exact (exec_clapArrive htakes).trans (congrArg _ (clapArriveIn_counts (hmem hparity) hmore))
  case completes => exact (exec_clapArrive htakes).trans (congrArg _ (clapArriveIn_completes (hmem hparity) hfull))
  case reply =>
    refine (exec_clapReply htakes hwait hclap).trans (congrArg _ ?_)
    exact (if_pos (.inl hmode)).trans (goNext_stored (Core.not_idle hmode) hinside)
  case notify =>
    have hcore : getCore u (pDst h) = co := getCore_ejected s f (pDst h)
    rw [exec_clapNotify htakes hmode hwait hclap hphase, goNext_inside (by rw [hcore]; exact hinside), hcore]
  case copy =>
    have hstep : exec (.resumePointCopyDone sc) s = _ := congrArg Host.Outcome.next
        (resumeCopied_work hscene hboard hcopying hjob hwork)
    exact ⟨fun hdone => hstep.trans (congrArg _ (if_neg (ne_true_of_eq_false hdone))),
      fun hdone => hstep.trans (congrArg _ (if_pos hdone))⟩

end Sys2Proof.Machine
end

section
/-! SUPPORT. The DMA engine: a row within the core's own scratchpad, the deadlines, and completion (R229, R231 to R233). -/

namespace Sys2Proof.Machine

open Sys2Proof

/-! ### The executing descriptor (R227, R229) -/

/-- A core that holds a DMA descriptor is not the reset value of the table of cores. -/
theorem Core.ne_reset_of_dma {co : Core} (h : co.dma ≠ []) : co ≠ Core.reset := fun e => h (by rw [e]; rfl)

/-- A core that holds a DMA descriptor reads as written. -/
theorem getCore_setCore_of_dma (s : State) (k : Nat) {co : Core} (h : co.dma ≠ []) : getCore (setCore s k co) k = co :=
  getCore_setCore_of_ne s k (Core.ne_reset_of_dma h)

theorem dmaOf_executing {co : Core} {d : DmaRun} {ds : List DmaRun} (h : co.dma = d :: ds) : dmaOf co d.op = some d := by
  simp [dmaOf, h]

/-- A descriptor with progress made is found by its operation number. -/
theorem dmaOf_setDma_executing {co : Core} {d e : DmaRun} {ds : List DmaRun} (h : co.dma = d :: ds) (hop : e.op = d.op) :
    dmaOf (setDma co e) d.op = some e := by
  simp [dmaOf, setDma, h, hop]

/-- Nothing bars the next row of a descriptor that is neither stopped, refused nor late. -/
theorem dmaMay_of_running {co : Core} {d : DmaRun} (hmode : co.mode = .running) (hstopped : d.stopped = false)
    (hstatus : d.status = 0) (hexpired : d.expired = false) (hrow : d.row < dmRows d.words) : dmaMay co d = true := by
  simp [dmaMay, hmode, hstopped, hstatus, hexpired, hrow]

theorem exec_dmaRow {s : State} {c : CoreId} {d : DmaRun} {ds : List DmaRun} (hdma : (coreOf s c).dma = d :: ds)
    (hmay : dmaMay (coreOf s c) d = true) :
    exec (.dmaRow c) s = .next (dmaRow (coreKey c) d.op d.row (dmRowLen d.words) s) := by
  unfold coreOf at hdma hmay
  change execDmaRow c s = _
  simp only [execDmaRow, dmaNext, hdma, hmay, if_true]

/-! ### A row within the core's own scratchpad (R229) -/

/-- The words of the present row of a fill, or of a row that is read from the core's own scratchpad. -/
def rowWords (co : Core) (d : DmaRun) : List Word :=
  if dmFill d.words then List.replicate (dmRowLen d.words) (d.words.getD 7 0)
  else ramWords co.sp ((hEntry co (dmSrc d.words)).base + dmSrcOff d.words d.row) (dmRowLen d.words)

/-- A core whose executing descriptor has written its present row to the core's own scratchpad. -/
def rowWritten (co : Core) (d : DmaRun) : Core :=
  { setDma co { d with row := d.row + 1 } with
    sp := ramPutWords co.sp ((hEntry co (dmDst d.words)).base + dmDstOff d.words d.row) (rowWords co d) }

/-- The present row has not begun, is one piece, and goes from a fill or the core's own scratchpad to the latter. -/
structure LocalRow (co : Core) (d : DmaRun) : Prop where
  whole : d.off = 0
  nonempty : 0 < dmRowLen d.words
  onePiece : dmRowLen d.words ≤ 128
  dst : (hEntry co (dmDst d.words)).space = 1
  src : dmFill d.words = true ∨ (hEntry co (dmSrc d.words)).space = 1
    ∧ badWord co.sp ((hEntry co (dmSrc d.words)).base + dmSrcOff d.words d.row) (dmRowLen d.words) = none

/-- Once its descriptor has gone on from a row, nothing more of the row is issued. -/
theorem dmaRow_of_passed {s : State} {k op row : Nat} {d : DmaRun} (fuel : Nat) (hd : dmaOf (getCore s k) op = some d)
    (hpassed : d.row ≠ row) : dmaRow k op row fuel s = s := by
  cases fuel with
  | zero => rfl
  | succ fuel => simp only [dmaRow, hd, hpassed, false_and, if_false]

/-- What a descriptor writes to the own scratchpad of a core just stored, without a tag, completes at once. -/
theorem dmaWrite_local {s : State} {k op row off : Nat} {co : Core} {d : DmaRun} {ws : List Word} (hne : co.dma ≠ [])
    (hd : dmaOf co op = some d) (hdst : (hEntry co (dmDst d.words)).space = 1) :
    dmaWrite (setCore s k co) k op row off ws none = setCore s k { co with
      sp := ramPutWords co.sp ((hEntry co (dmDst d.words)).base + (dmDstOff d.words row + off)) ws } := by
  have hown : ownMem k (hEntry co (dmDst d.words)) = true := by simp [ownMem, hdst]
  have hread := getCore_setCore_of_dma s k hne
  simp only [dmaWrite, hread, hd, hown, if_true, memWrite_local hdst]
  exact setCore_setCore s k (Core.ne_reset_of_dma hne) (Core.ne_reset_of_dma hne)

section
variable {s : State} {k : Nat} {d : DmaRun} {ds : List DmaRun}

/-- The one piece of a local row is read, and its core's progress is stored, before it is written. -/
theorem dmaPiece_local (hdma : (getCore s k).dma = d :: ds) (hrow : LocalRow (getCore s k) d) :
    dmaPiece s k d.op = (dmaWrite (setCore s k (setDma (getCore s k) { d with row := d.row + 1 })) k d.op d.row 0
      (rowWords (getCore s k) d) none, true) := by
  obtain ⟨hwhole, hnonempty, hone, hdst, hsrc⟩ := hrow
  have hlen : min (pieceMax (hEntry (getCore s k) (dmDst d.words))) (dmRowLen d.words) = dmRowLen d.words := by
    simp [pieceMax, hdst, hone]
  have hdown : ownMem k (hEntry (getCore s k) (dmDst d.words)) = true := by simp [ownMem, hdst]
  have hnext : ({ d with off := 0, row := d.row + 1 } : DmaRun) = { d with row := d.row + 1 } := by rw [← hwhole]
  simp only [dmaPiece, dmaOf_executing hdma, hwhole, Nat.sub_zero, Nat.add_zero, Nat.zero_add, hlen, lt_irrefl, if_false, hdown, hnext,
    rowWords, Bool.not_true, Bool.false_and, Bool.false_eq_true]
  cases hfill : dmFill d.words with
  | true => simp
  | false =>
    obtain ⟨hspace, hparity⟩ := hsrc.resolve_left (ne_true_of_eq_false hfill)
    have hsown : ownMem k (hEntry (getCore s k) (dmSrc d.words)) = true := by simp [ownMem, hspace]
    simp only [hsown, Bool.or_true, if_true, Bool.false_eq_true, if_false, memRead_local hspace hparity]

/-- A local row is written at once, and its descriptor goes on to the next. -/
theorem dmaRow_local (hdma : (getCore s k).dma = d :: ds) (hmay : dmaMay (getCore s k) d = true)
    (hrow : LocalRow (getCore s k) d) :
    dmaRow k d.op d.row (dmRowLen d.words) s = setCore s k (rowWritten (getCore s k) d) := by
  have hne : (rowWritten (getCore s k) d).dma ≠ [] := by simp [rowWritten, setDma, hdma]
  have hafter := getCore_setCore_of_dma s k hne
  have hpiece : dmaPiece s k d.op = (setCore s k (rowWritten (getCore s k) d), true) :=
    (dmaPiece_local hdma hrow).trans
      (congrArg (·, true) (dmaWrite_local (d := { d with row := d.row + 1 }) hne (dmaOf_setDma_executing hdma rfl) hrow.dst))
  have hpassed (fuel : Nat) := dmaRow_of_passed (row := d.row) fuel
    (by rw [hafter]; exact dmaOf_setDma_executing hdma rfl) (Nat.succ_ne_self d.row)
  obtain ⟨fuel, hfuel⟩ := Nat.exists_eq_succ_of_ne_zero hrow.nonempty.ne'
  rw [hfuel]
  simp only [dmaRow, dmaOf_executing hdma, hmay, and_self, if_true, hpiece, hpassed]

end

/-! ### Deadlines (R233) -/

/-- A deadline that expires before its descriptor can complete bars the descriptor's further rows. -/
theorem dmaExpire_late {s : State} {k : Nat} {d : DmaRun}
    (h : (getCore s k).dma.head? ≠ some d ∨ dmaCanComplete s (getCore s k) d = false) :
    dmaExpire s k d = setCore s k (setDma (getCore s k) { d with expired := true }) :=
  if_neg fun ⟨hhead, hcomplete⟩ => h.elim (· hhead) fun hno => Bool.false_ne_true (hno.symm.trans hcomplete)

/-- A descriptor that can complete wins over its deadline. -/
theorem dmaExpire_wins {s : State} {k : Nat} {d : DmaRun} (hhead : (getCore s k).dma.head? = some d)
    (hcomplete : dmaCanComplete s (getCore s k) d = true) : dmaExpire s k d = s :=
  if_pos ⟨hhead, hcomplete⟩

theorem exec_dmaDeadline_one {s : State} {c : CoreId} {d : DmaRun} (h : dmaTimed (coreOf s c) = [d]) :
    exec (.dmaDeadline c) s = .next (dmaExpire s (coreKey c) d) := by
  unfold coreOf at h
  change execDmaDeadline c s = _
  simp only [execDmaDeadline, h]

/-- Of two deadlines that run, that of the earlier issued descriptor expires first unless it is the longer (log entry 98). -/
theorem exec_dmaDeadline_earlier {s : State} {c : CoreId} {d e : DmaRun} {es : List DmaRun}
    (h : dmaTimed (coreOf s c) = d :: e :: es) (hle : df d.words 9 0 5 ≤ df e.words 9 0 5) :
    exec (.dmaDeadline c) s = .next (dmaExpire s (coreKey c) d) := by
  unfold coreOf at h
  change execDmaDeadline c s = _
  simp only [execDmaDeadline, h, hle, if_true]

/-! ### Completion (R231) -/

theorem exec_dmaDescriptorComplete {s : State} {c : CoreId} {d : DmaRun} {ds : List DmaRun} (hdma : (coreOf s c).dma = d :: ds)
    (hcomplete : dmaCanComplete s (coreOf s c) d = true) :
    exec (.dmaDescriptorComplete c) s = .next (dmaComplete s (coreKey c) d) := by
  unfold coreOf at hdma hcomplete
  change execDmaDescriptorComplete c s = _
  simp only [execDmaDescriptorComplete, dmaEnding, hdma, hcomplete, if_true]

theorem dmaStatusOf_eq_zero_iff (d : DmaRun) : dmaStatusOf d = 0 ↔ d.status = 0 ∧ d.expired = false := by
  by_cases hstatus : d.status = 0
  · cases hexpired : d.expired <;> simp [dmaStatusOf, hstatus, hexpired]
  · simp [dmaStatusOf, hstatus]

/-- A descriptor that completes with OK has no piece in flight. -/
theorem pieces_of_complete_ok {s : State} {co : Core} {d : DmaRun} (hcomplete : dmaCanComplete s co d = true)
    (hok : dmaStatusOf d = 0) : d.pieces = [] := by
  obtain ⟨-, hexpired⟩ := (dmaStatusOf_eq_zero_iff d).mp hok
  simp only [dmaCanComplete, hexpired, Bool.false_or, Bool.and_eq_true, List.isEmpty_iff] at hcomplete
  obtain ⟨⟨⟨hpieces, -⟩, -⟩, -⟩ := hcomplete
  exact hpieces

/-- DONE_EN clear: no counter takes the completion. -/
theorem doneCtr_zero (co : Core) : doneCtr co 0 = co := by
  simp [doneCtr, bits]

/-- A core that keeps its counters is stored, and its scene has made no progress. -/
theorem putCore_same_counters {s : State} {k : Nat} {co : Core} (h : (getCore s k).c = co.c) : putCore s k co = setCore s k co :=
  if_pos h

/-- A fill that completes with OK writes its status word and leaves the engine with its ranges. -/
theorem dmaComplete_fill_ok {s : State} {k : Nat} {d : DmaRun} (hok : dmaStatusOf d = 0) (hpieces : d.pieces = [])
    (hdone : d.words.getD 15 0 = 0) (hfill : dmFill d.words = true) :
    let t := memWrite s k (hEntry (getCore s k) (dmStat d.words)) (df d.words 8 0 32) [BitVec.ofNat 32 (dmaDone d * 2 ^ 16)] false
    dmaComplete s k d = setCore t k (sbRelease { getCore t k with dma := (getCore t k).dma.filter (·.op != d.op) } d.op) := by
  intro t
  have hplain : dmaImmutable t k d = t := by simp [dmaImmutable, hfill]
  simp only [dmaComplete, hok, Nat.zero_add, if_true, hdone, doneCtr_zero, hpieces, List.map_nil, List.append_nil]
  change putCore (dmaImmutable t k d) k _ = _
  rw [hplain]
  exact putCore_same_counters rfl

/-- Settles O20: a local row by `dmaRow_local`, the deadlines by `dmaExpire_late` and `dmaExpire_wins` (which of two expires first is
log entry 98), completion by `dmaComplete_fill_ok`. -/
theorem dmaSteps : Obligations.DmaSteps := by
  intro c s d k co len src dst late
  refine ⟨fun ds hdma hmode hstopped hstatus hexpired hrow hoff hpos hlen hdst hsrc => ?localRow,
    fun ds hdma hmode hstopped hstatus hexpired hrow => exec_dmaRow hdma (dmaMay_of_running hmode hstopped hstatus hexpired hrow),
    fun htimed hlate => (exec_dmaDeadline_one htimed).trans (congrArg _ (dmaExpire_late hlate)),
    fun htimed hhead hcomplete => (exec_dmaDeadline_one htimed).trans (congrArg _ (dmaExpire_wins hhead hcomplete)),
    fun e es htimed hle hlate => (exec_dmaDeadline_earlier htimed hle).trans (congrArg _ (dmaExpire_late hlate)),
    fun ds hdma hcomplete hok hdone hfill => ?fillDone,
    fun ds hdma hcomplete => exec_dmaDescriptorComplete hdma hcomplete⟩
  case localRow =>
    have hmay := dmaMay_of_running hmode hstopped hstatus hexpired hrow
    exact (exec_dmaRow hdma hmay).trans (congrArg _ (dmaRow_local hdma hmay ⟨hoff, hpos, hlen, hdst, hsrc⟩))
  case fillDone =>
    exact (exec_dmaDescriptorComplete hdma hcomplete).trans
      (congrArg _ (dmaComplete_fill_ok hok (pieces_of_complete_ok hcomplete hok) hdone hfill))

end Sys2Proof.Machine
end

section
/-! SUPPORT. Packets of the memory ports: reads and writes of cluster memory and vaults, and their answers (R225, R232, R235, R299). -/

namespace Sys2Proof.Machine

open Sys2Proof

/-- A write of words leaves every byte outside them. -/
theorem ramByte_putWords_other (m : Ram) {w x : Nat} (vs : List Word) (h : x < 4 * w ∨ 4 * (w + vs.length) ≤ x) :
    ramByte (ramPutWords m w vs) x = ramByte m x := by
  induction vs generalizing m w with
  | nil => rfl
  | cons v vs ih =>
    rw [List.length_cons] at h
    calc ramByte (ramPutWords (ramPutWord m w v) (w + 1) vs) x
        = ramByte (ramPutWord m w v) x := ih _ (by omega)
      _ = ramByte m x := ramByte_putWord_other m v (by omega)

/-! ### A packet as its unit takes it (R304) -/

@[simp] theorem handed_cl (f : Flight) : (handed f).cl = f.cl := rfl
@[simp] theorem handed_plane (f : Flight) : (handed f).plane = f.plane := rfl
@[simp] theorem handed_note (f : Flight) : (handed f).pkt.note = f.pkt.note := rfl
@[simp] theorem handed_payload (f : Flight) : (handed f).pkt.payload = f.pkt.payload := rfl
@[simp] theorem pDst_handed (f : Flight) : pDst (handed f).pkt.hdr = pDst f.pkt.hdr := pDst_setWdone _
@[simp] theorem pEpoch_handed (f : Flight) : pEpoch (handed f).pkt.hdr = pEpoch f.pkt.hdr := pEpoch_setWdone _
@[simp] theorem pArg_handed (f : Flight) : pArg (handed f).pkt.hdr = pArg f.pkt.hdr := pArg_setWdone _
@[simp] theorem pArg2_handed (f : Flight) : pArg2 (handed f).pkt.hdr = pArg2 f.pkt.hdr := pArg2_setWdone _

/-! ### Requests at their cluster (R225) -/

section
variable {s : State} {k : ClusterId} {pl : Plane} {f : Flight}

/-- The memory port answers with the words as they stood before the packet was ejected. -/
theorem exec_memRd_cluster (h : TakesPacket s k pl 9 f) (hport : (pArg f.pkt.hdr).testBit 27 = false)
    (hvault : (pArg f.pkt.hdr).testBit 28 = false)
    (hparity : badWord (getCl s f.cl).mem (bits (pArg f.pkt.hdr) 0 28) (pArg2 f.pkt.hdr % 256) = none) :
    exec (.memRd k pl 0 0) s = .next (readReply (ejected s f) f.cl memoryInjector (handed f) 0
      (ramWords (getCl s f.cl).mem (bits (pArg f.pkt.hdr) 0 28) (pArg2 f.pkt.hdr % 256))) := by
  refine congrArg Host.Outcome.next ((arrivalRow_ok memRdIn h).trans ?_)
  simp only [memRdIn, handed_cl, pArg_handed, pArg2_handed, mem_getCl_ejected, hport, hvault, hparity, Bool.false_eq_true, if_false]

theorem exec_memRd_vault (h : TakesPacket s k pl 9 f) (hport : (pArg f.pkt.hdr).testBit 27 = false)
    (hvault : (pArg f.pkt.hdr).testBit 28 = true) :
    exec (.memRd k pl 0 0) s = .next (vaultEnqueue (ejected s f) f.cl
      ⟨.router (handed f).pkt f.plane, bits (pArg f.pkt.hdr) 0 28, pArg2 f.pkt.hdr % 256, none⟩) := by
  refine congrArg Host.Outcome.next ((arrivalRow_ok memRdIn h).trans ?_)
  simp only [memRdIn, handed_cl, handed_plane, pArg_handed, pArg2_handed, hport, hvault, Bool.false_eq_true, if_false, if_true]

theorem exec_memWr_cluster (h : TakesPacket s k pl 0xB f) (hport : (pArg f.pkt.hdr).testBit 27 = false)
    (hvault : (pArg f.pkt.hdr).testBit 28 = false) :
    exec (.memWr k pl 0 0) s = .next (writeReply (setCl (ejected s f) f.cl { getCl (ejected s f) f.cl with
      mem := ramPutWords (getCl s f.cl).mem (bits (pArg f.pkt.hdr) 0 28) f.pkt.payload }) f.cl memoryInjector (handed f) 0) := by
  refine congrArg Host.Outcome.next ((arrivalRow_ok memWrIn h).trans ?_)
  simp only [memWrIn, handed_cl, handed_payload, pArg_handed, mem_getCl_ejected, hport, hvault, Bool.false_eq_true, if_false]

theorem exec_memWr_vault (h : TakesPacket s k pl 0xB f) (hport : (pArg f.pkt.hdr).testBit 27 = false)
    (hvault : (pArg f.pkt.hdr).testBit 28 = true) :
    exec (.memWr k pl 0 0) s = .next (vaultEnqueue (ejected s f) f.cl
      ⟨.router (handed f).pkt f.plane, bits (pArg f.pkt.hdr) 0 28, f.pkt.payload.length, some f.pkt.payload⟩) := by
  refine congrArg Host.Outcome.next ((arrivalRow_ok memWrIn h).trans ?_)
  simp only [memWrIn, handed_cl, handed_plane, handed_payload, pArg_handed, hport, hvault, Bool.false_eq_true, if_false, if_true]

end

/-! ### Answers at their requester (R232, R233, R235) -/

/-- The core that a packet is for still waits for the answer of a tag: the request was not given up, and is of the core's epoch. -/
def Awaits (s : State) (p : Packet) (tag : Nat) : Prop :=
  (getCore s (pDst p.hdr)).deadTags.contains tag = false ∧ pEpoch p.hdr = (getCore s (pDst p.hdr)).epoch.toNat

theorem awaits_handed (s : State) (f : Flight) (tag : Nat) : Awaits (ejected s f) (handed f).pkt tag ↔ Awaits s f.pkt tag := by
  simp [Awaits]

section
variable {s : State} {p : Packet} {tag status : Nat} {ws : List Word}

theorem memAnswer_unawaited {ack : Bool} (hcore : p.note < 2 ^ 16) (h : ¬ Awaits s p tag) :
    memAnswer s p tag status ack ws = setCore s (pDst p.hdr) { getCore s (pDst p.hdr) with
      deadTags := (getCore s (pDst p.hdr)).deadTags.filter (· != tag) } := by
  have hgone : ((getCore s (pDst p.hdr)).deadTags.contains tag || pEpoch p.hdr != (getCore s (pDst p.hdr)).epoch.toNat) = true := by
    simpa [Awaits, or_iff_not_imp_left] using h
  simp only [memAnswer, Nat.not_le.mpr hcore, hgone, if_true, if_false]

/-- An awaited acknowledgement is the DMA engine's; awaited words are the matrix loader's where a tile waits for their tag. -/
theorem memAnswer_awaited {ack : Bool} (hcore : p.note < 2 ^ 16) (h : Awaits s p tag) :
    memAnswer s p tag status ack ws =
      if ack then dmaAck s (pDst p.hdr) tag status
      else if (tileByTag (getCore s (pDst p.hdr)) tag).isSome then tileData s (pDst p.hdr) tag status ws
      else dmaData s (pDst p.hdr) tag status ws := by
  obtain ⟨hlive, hepoch⟩ := h
  have hno : ((getCore s (pDst p.hdr)).deadTags.contains tag || pEpoch p.hdr != (getCore s (pDst p.hdr)).epoch.toNat) = false := by
    rw [hlive, hepoch, bne_self_eq_false, Bool.or_false]
  simp only [memAnswer, Nat.not_le.mpr hcore, hno, Bool.false_eq_true, if_false]

/-- The acknowledgement of a write takes its piece from its descriptor. -/
theorem dmaAck_ok {k : Nat} {d : DmaRun} {q : DmaPiece} (hpiece : dmaByTag (getCore s k) tag = some (d, q))
    (hwriting : q.writing = true) :
    dmaAck s k tag 0 = setCore s k (setDma (getCore s k) { d with pieces := d.pieces.filter (·.tag != tag) }) := by
  simp only [dmaAck, hpiece, hwriting, Bool.not_true, Bool.false_eq_true, if_false, if_true]

end

section
variable {s : State} {k : ClusterId} {pl : Plane} {f : Flight}

theorem exec_memRdData (h : TakesPacket s k pl 0xA f) (hcore : f.pkt.note < 2 ^ 16) :
    exec (.memRdData k pl 0 0) s = .next (memAnswer (ejected s f) (handed f).pkt (bits (pArg2 f.pkt.hdr) 8 8)
      (bits (pArg f.pkt.hdr) 0 16) false f.pkt.payload) := by
  have hplain : f.pkt.note ≠ refetchNote := by
    unfold refetchNote
    omega
  refine congrArg Host.Outcome.next ((arrivalRow_ok memRdDataIn h).trans ?_)
  simp only [memRdDataIn, handed_note, handed_payload, pArg_handed, pArg2_handed, hplain, if_false]

theorem exec_memWrAck (h : TakesPacket s k pl 0xC f) :
    exec (.memWrAck k pl 0 0) s = .next (memAnswer (ejected s f) (handed f).pkt (bits (pArg2 f.pkt.hdr) 8 8)
      (bits (pArg f.pkt.hdr) 0 16) true []) := by
  refine congrArg Host.Outcome.next ((arrivalRow_ok memWrAckIn h).trans ?_)
  simp only [memWrAckIn, pArg_handed, pArg2_handed]

/-- An answer that its core no longer waits for changes nothing but its tag. -/
theorem memAnswer_handed_unawaited {tag status : Nat} {ack : Bool} {ws : List Word} (hcore : f.pkt.note < 2 ^ 16)
    (h : ¬ Awaits s f.pkt tag) :
    memAnswer (ejected s f) (handed f).pkt tag status ack ws = setCore (ejected s f) (pDst f.pkt.hdr)
      { target s f with deadTags := (target s f).deadTags.filter (· != tag) } := by
  rw [memAnswer_unawaited (p := (handed f).pkt) hcore (mt (awaits_handed s f tag).mp h), pDst_handed, getCore_ejected]
  rfl

theorem memAnswer_handed_awaited {tag status : Nat} {ack : Bool} {ws : List Word} (hcore : f.pkt.note < 2 ^ 16)
    (h : Awaits s f.pkt tag) :
    memAnswer (ejected s f) (handed f).pkt tag status ack ws =
      if ack then dmaAck (ejected s f) (pDst f.pkt.hdr) tag status
      else if (tileByTag (target s f) tag).isSome then tileData (ejected s f) (pDst f.pkt.hdr) tag status ws
      else dmaData (ejected s f) (pDst f.pkt.hdr) tag status ws := by
  rw [memAnswer_awaited (p := (handed f).pkt) hcore ((awaits_handed s f tag).mpr h), pDst_handed, getCore_ejected]
  rfl

end

/-- Settles O26: requests by the memory port's two cases, answers by `memAnswer_awaited` and `memAnswer_unawaited`; the frame of a write
is `ramByte_putWords_other`. -/
theorem memoryPackets : Obligations.MemoryPackets := by
  intro s k pl f h w n tag u m co awaited
  have hcore : getCore u (pDst h) = co := getCore_ejected s f (pDst h)
  refine ⟨exec_memRd_cluster, exec_memRd_vault,
    fun htakes hport hvault => ⟨exec_memWr_cluster htakes hport hvault, fun x => ramByte_putWords_other m f.pkt.payload⟩,
    exec_memWr_vault, fun htakes hnote hwaits htile => ?dma, fun htakes hnote hwaits htile => ?tile, ?gone,
    fun d p htakes hnote hwaits hok hpiece hwriting => ?ack⟩
  case dma =>
    exact (exec_memRdData htakes hnote).trans
      (congrArg _ ((memAnswer_handed_awaited hnote hwaits).trans (if_neg (ne_true_of_eq_false htile))))
  case tile =>
    exact (exec_memRdData htakes hnote).trans (congrArg _ ((memAnswer_handed_awaited hnote hwaits).trans (if_pos htile)))
  case gone =>
    intro r hr htakes hnote hgone
    simp only [List.mem_cons, List.not_mem_nil, or_false] at hr
    rcases hr with rfl | rfl
    · exact (exec_memRdData htakes hnote).trans (congrArg _ (memAnswer_handed_unawaited hnote hgone))
    · exact (exec_memWrAck htakes).trans (congrArg _ (memAnswer_handed_unawaited hnote hgone))
  case ack =>
    rw [exec_memWrAck htakes, memAnswer_handed_awaited hnote hwaits, if_pos rfl, hok,
      dmaAck_ok (by rw [hcore]; exact hpiece) hwriting, hcore]

end Sys2Proof.Machine
end

section
/-! SUPPORT. Storyboard loads and the commands of scenes: running, resuming, halting (R275 to R278, R281, R335, R603). -/

namespace Sys2Proof.Machine

open Sys2Proof

/-! ### A load begins (R275) -/

theorem loadBegin_ok {s : State} {n : Nat} {r : CmdRec} (ref : CmdRef) (h : loadStatus s n r = 0) :
    loadBegin n r ref s = accept { s with works := { s.works with load := s.works.load ++
      [{ cmd := ref, slate := n, vault := loadVault r, host := BitVec.ofNat 64 (pb r 48 8), sbn := loadReplaces r }] } } ref [] := by
  simp only [loadBegin, h]

/-! ### A load ends (R276, R335) -/

/-- The module without a storyboard load in progress. -/
def loadTaken (s : State) (w : LoadWork) : State := { s with works := { s.works with load := s.works.load.erase w } }

/-- The storyboard that a load stores. -/
def loadedBoard (slate : Nat) (w : LoadWork) (img : List Word) : Storyboard :=
  { slate := slate, words := img, vault := w.vault, host := w.host, substs := [] }

/-- What becomes of the load of a good image into number `n`, as its write to a vault turns out: stored, failed, or still to be
written. -/
def loadOutcome (s : State) (slate n : Nat) (w : LoadWork) (img : List Word) : State × RdOut → State
  | (v, .wait) => { v with works := { v.works with load := s.works.load } }
  | (v, .err) => finish v w.cmd 0x0901 []
  | (v, .ok _) => finish (setBoard (imageSeen (vaultRegister (boardForget v n) w img) w img) n
      (some (loadedBoard slate w img))) w.cmd 0 [(24, 1, n)]

section
variable {s : State} {slate : Nat} {w : LoadWork} {ws : List Word}

theorem loadEnd_bad {words : Option (List Word)} {o : Nat} (hfind : s.works.load.find? (fun w => w.slate == slate) = some w)
    (hbad : loadBad (loadTaken s w) w words = some o) :
    loadEnd s slate words = finish (loadTaken s w) w.cmd 0x0103 [(28, 4, o)] := by
  unfold loadTaken at *
  simp only [loadEnd, hfind, hbad]

/-- An image that passes its checks and replaces no storyboard takes the lowest free number (log entry 34). -/
theorem loadEnd_good {q : State × RdOut} (hfind : s.works.load.find? (fun w => w.slate == slate) = some w)
    (hgood : loadBad (loadTaken s w) w (some ws) = none) (hnew : w.sbn = none)
    (hwrite : vaultImage (loadTaken s w) w (ws.take (imLength ws)) = q) :
    loadEnd s slate (some ws) = loadOutcome s slate (freeBoard (loadTaken s w)) w (ws.take (imLength ws)) q := by
  rw [← hwrite]
  unfold loadTaken at *
  simp only [loadEnd, hfind, hgood, hnew, ne_eq, not_true_eq_false, if_false, Option.getD_none]
  rfl

end

/-- An image without a vault is not written to one. -/
theorem vaultImage_host {s : State} {w : LoadWork} (img : List Word) (h : w.vault = none) : vaultImage s w img = (s, .ok []) := by
  simp only [vaultImage, h]

section
variable {s v : State} {slate n : Nat} {w : LoadWork} {img l : List Word}

/-- An image without a vault stands in host memory, where it has been read. -/
theorem loadOutcome_host (h : w.vault = none) :
    loadOutcome s slate n w img (v, .ok l) = finish (setBoard
      (hostWrite (boardForget v n) w.cmd.port w.host.toNat (wordsBytes img)) n (some (loadedBoard slate w img))) w.cmd 0 [(24, 1, n)] := by
  simp only [loadOutcome, vaultRegister, imageSeen, h, Option.isNone_none, if_true]

theorem loadOutcome_vault (h : w.vault.isSome = true) :
    loadOutcome s slate n w img (v, .ok l) = finish (setBoard
      (vaultRegister (boardForget v n) w img) n (some (loadedBoard slate w img))) w.cmd 0 [(24, 1, n)] := by
  have hvault : w.vault.isNone = false := Option.isNone_eq_false_iff.mpr h
  simp only [loadOutcome, imageSeen, hvault, Bool.false_eq_true, if_false]

end

/-! ### SCENE_RUN (R277, R278) -/

section
variable {s v : State} {p : HostPort} {r : CmdRec} {ref : CmdRef}

/-- An image that no longer passes its checks makes its storyboard unknown (log entry 34). -/
theorem runBegin_unknown (hhold : s.clock.hold = false) (hagain : imageAgain s p (pb r 36 1) = (v, false)) :
    runBegin p r ref s = finish v ref 0x0103 [] := by
  simp [runBegin, hhold, hagain]

/-- A run that passes orders 1 to 4 is queued, or refused by the later orders. -/
theorem runBegin_judged {b : Storyboard} {x : Scene} (hhold : s.clock.hold = false)
    (hagain : imageAgain s p (pb r 36 1) = (v, true)) (horder : runOrder1 v r = some (b, x))
    (hslates : slateStatus v p (boundSlates x) = 0) :
    runBegin p r ref s =
      let cut := runCut b r x.idx
      let cand := candidate v b { x with cmd := ref }
      if admitStatus v cand cut true ≠ 0 then finish v ref (admitStatus v cand cut true) []
      else
        let u := if cut then (cutScenes v cand.scene.region).foldl cutClose v else v
        { u with queuedRuns := u.queuedRuns ++ [{ cand.scene with cut := cut }] } := by
  have hbound : slateStatus v p (boundSlates { x with cmd := ref }) = 0 := hslates
  simp only [runBegin, hhold, hagain, Bool.false_eq_true, if_false, if_true, horder, hbound]

/-- Only a variant without vaults reads the image again (R275). -/
theorem imageAgain_with_vaults (n : Nat) (h : noVaults s = false) : imageAgain s p n = (s, true) := by
  unfold imageAgain
  split
  · exact if_neg fun ⟨hno, _⟩ => Bool.false_ne_true (h.symm.trans hno)
  · rfl

/-! ### A resume (R278, R281) -/

/-- A HALTED scene whose cores have been released, RUNNING again from now on. -/
def resumed (u : State) (y : Scene) : Scene := { y with phase := .running, lastProgress := now u }

theorem resumeRun_ok {b : Storyboard} {x y : Scene} (hhold : s.clock.hold = false) (horder : runOrder1 s r = some (b, x))
    (hslates : slateStatus s p (boundSlates x) = 0)
    (hfind : s.scenes.find? (fun y => y.sbn == x.sbn && y.idx == x.idx && slotsMatch y x && y.phase == .halted) = some y)
    (hstatus : resumeStatus s x (some y) = 0) :
    let u := y.cores.foldl (fun t q => releaseCore t q.1) (accept s ref [])
    resumeRun p r ref s = sceneCheck (finish
      ((boundSlates (resumed u y)).foldl (fun t n => slateRuns t (resumed u y) n) (setScene u (resumed u y))) ref 0 [])
      y.sbn (scKey (resumed u y)) := by
  intro u
  simp only [resumeRun, hhold, Bool.false_eq_true, if_false, horder, hslates, hfind, Option.some_or, hstatus, ne_eq, not_true_eq_false]
  rfl

/-! ### SCENE_HALT (R603) -/

theorem haltCmd_named {x : Scene} (hscene : phaseScene s r [.running, .ended] = some x)
    (hrsv : rsvOk r [(36, 0, 8), (38, 0, 16)] = true) :
    haltCmd p r ref s =
      if (boundSlates x).any fun n => (getSlate s n).owner != p then finish s ref 0x0203 []
      else finish ((boundSlates x).foldl (fun t n => holdSlate t n 5) (haltScene (accept s ref []) x)) ref 0 [] := by
  simp only [haltCmd, hscene, hrsv, Bool.true_eq_false, if_false]

end

end Sys2Proof.Machine
end

section
/-! SUPPORT. Copies of keyframes, and the commands that take and release them (R231, R292, R293). -/

namespace Sys2Proof.Machine

open Sys2Proof

/-! ### A copy to host memory (R231, R292) -/

@[simp] theorem hostWrite_works (s : State) (p : HostPort) (a : Nat) (bs : List Byte) : (hostWrite s p a bs).works = s.works :=
  setHost_works s p _

/-- A copy to host memory over a link that is up copies what is left of it. -/
theorem copyStep_host {s : State} {j : CopyJob} {a : DWord} (hok : j.status = 0) (hkf : j.kf = .host a)
    (hlink : (getHost s j.port).linkUp = true) : copyStep s j = copyRanges s j j.left := by
  simp only [copyStep, hok, ne_eq, not_true_eq_false, if_false, hkf, hlink, if_true]

/-- A range of a scratchpad whose parity matches reaches host memory. -/
theorem copyRanges_scratchpad {s : State} {j : CopyJob} {a : DWord} {off k w n : Nat} (hkf : j.kf = .host a)
    (hparity : badWord (getCore s k).sp w n = none) :
    copyRanges s j [(off, 1, k, w, n)] =
      (hostWrite s j.port (a.toNat + off) (wordsBytes (ramWords (getCore s k).sp w n)), { j with left := [] }) := by
  simp only [copyRanges, placeRead, if_true, hparity, copyOut, hkf]

/-- A copy to host memory is complete when nothing of it is left. -/
theorem copyDone_host {s : State} {j : CopyJob} {a : DWord} (hok : j.status = 0) (hkf : j.kf = .host a) (hleft : j.left = []) :
    copyDone s j = true := by
  simp [copyDone, hok, hkf, hleft]

theorem copyWork_last_range {s : State} {j : CopyJob} {a : DWord} {off k w n : Nat} (hok : j.status = 0) (hkf : j.kf = .host a)
    (hlink : (getHost s j.port).linkUp = true) (hleft : j.left = [(off, 1, k, w, n)])
    (hparity : badWord (getCore s k).sp w n = none) :
    let u := hostWrite s j.port (a.toNat + off) (wordsBytes (ramWords (getCore s k).sp w n))
    let i := { j with left := [] }
    copyWork s j = ({ u with works := { s.works with copies := s.works.copies.map fun q => if q = j then i else q } }, i) := by
  simp only [copyWork, copyStep_host hok hkf hlink, hleft, copyRanges_scratchpad hkf hparity, hostWrite_works]

/-! ### KEYFRAME_TAKE (R292) -/

/-- The module without a KEYFRAME_TAKE in progress, which has completed with a status. -/
def takeEnded (s : State) (k : TakeWork) (st : Nat) : State :=
  finish { s with works := { s.works with takes := s.works.takes.erase k } } k.cmd st []

theorem takeCmd_ok {s : State} {r : CmdRec} {ref : CmdRef} {x : Scene} {kf : KfDest} {b : Storyboard}
    (hscene : phaseScene s r [.running, .halted, .ended] = some x) (hkf : kfParam r (if pbit r 48 0 then 2 else 1) = some kf)
    (hrsv : rsvOk r [(36, 0, 8), (38, 0, 16), (40, 0, 64), (48, 0, 1)] = true) :
    let u := accept { s with works := { s.works with takes := s.works.takes ++ [⟨ref, x.sbn, x.idx, kf⟩] } } ref []
    getBoard u x.sbn = some b → takeCmd r ref s = copyStart u .take b x.sbn x.idx x.idx ref.port kf none 0 := by
  intro u hboard
  unfold u at *
  simp only [takeCmd, hscene, hkf, hrsv, if_true, hboard]

section
variable {s : State} {sbn idx st : Nat} {k : TakeWork}

theorem takeEnd_alone (hfind : s.works.takes.find? (fun k => k.sbn == sbn && k.idx == idx) = some k)
    (hjob : copyJob s .take sbn idx = none) : takeEnd s sbn idx st = takeEnded s k st := by
  simp only [takeEnd, hfind, hjob]
  rfl

/-- A copy that has failed, or that ends with a status given, takes its KEYFRAME_TAKE with it. -/
theorem takeEnd_failed {j : CopyJob} (hfind : s.works.takes.find? (fun k => k.sbn == sbn && k.idx == idx) = some k)
    (hjob : copyJob s .take sbn idx = some j) (hfailed : j.status ≠ 0 ∨ st ≠ 0) :
    takeEnd s sbn idx st = takeEnded (copyDrop s j) k (if j.status = 0 then st else j.status) := by
  have hnot : ¬ (j.status = 0 ∧ st = 0) := fun ⟨hj, hst⟩ => hfailed.elim (· hj) (· hst)
  simp only [takeEnd, hfind, hjob, hnot, if_false]
  rfl

/-- Without a failure the copy goes on first. -/
theorem takeEnd_works {j i : CopyJob} {v : State} (hfind : s.works.takes.find? (fun k => k.sbn == sbn && k.idx == idx) = some k)
    (hjob : copyJob s .take sbn idx = some j) (hok : j.status = 0) (hwork : copyWork s j = (v, i)) :
    takeEnd s sbn idx 0 =
      if copyDone v i then takeEnded (copyDrop v i) k 0
      else if i.status ≠ 0 then takeEnded (copyDrop v i) k i.status
      else v := by
  simp only [takeEnd, hfind, hjob, hok, and_self, if_true, hwork]
  rfl

end

/-! ### KEYFRAME_RELEASE (R293) -/

theorem releaseCmd_ok {s : State} {r : CmdRec} {ref : CmdRef} {b : Storyboard} {q : ClosedRun}
    (hboard : getBoard s (pb r 36 1) = some b) (hrsv : rsvOk r [(36, 0, 8), (38, 0, 16)] = true)
    (hidx : pb r 38 2 < imScenes b.words)
    (hlive : s.scenes.any (fun x => x.sbn == pb r 36 1 && x.idx == pb r 38 2 && x.slots.contains r.slate.toNat) = false)
    (hfinished : unfinishedFor s (pb r 36 1) (pb r 38 2) r.slate.toNat = none)
    (hrun : s.closedScenes.find? (fun q => q.sbn == pb r 36 1 && q.idx == pb r 38 2 && q.slate == r.slate.toNat) = some q) :
    let pick := releasedEntries q (destBytes b (pb r 38 2))
    let u := immFreeWhere s fun _ e => pick e
    releaseCmd r ref s = finish
      { u with closedScenes := u.closedScenes.map fun k => if k = q then { q with kfs := [] } else k } ref 0
      [(24, 4, s.clusters.foldl (fun a c => a + (c.2.vault.imm.filter pick).length) 0)] := by
  simp only [releaseCmd, hboard, hrsv, Nat.not_le.mpr hidx, hlive, hfinished, hrun, Option.isNone_some, Option.isSome_none,
    Bool.true_eq_false, Bool.false_eq_true, false_and, or_self, if_false]

/-- Settles O46: a load's end by `loadEnd_good` and what its vault's write gives (log entry 34), a run's judgement by
`runBegin_judged`, a resume by `resumeRun_ok` (log entry 35), a take's end by `takeEnd_works` and `takeEnd_failed` (log entry 37). -/
theorem sceneCommands : Obligations.SceneCommands := by
  intro s t p r ref n
  refine ⟨fun htaken hok => (exec_storyboardLoad_taken htaken).trans (congrArg _ (loadBegin_ok ref hok)),
    fun sl words w hfind => ⟨fun o hbad => congrArg _ (loadEnd_bad hfind hbad), ?stored⟩,
    fun v htaken hhold hagain => (exec_sceneRun_taken htaken).trans (congrArg _ (runBegin_unknown hhold hagain)),
    fun v b x htaken hhold hagain horder hslates => ?run, imageAgain_with_vaults _,
    fun b x y htaken hhold horder hslates hfind hstatus =>
      (exec_sceneRunResume_taken htaken).trans (congrArg _ (resumeRun_ok hhold horder hslates hfind hstatus)),
    fun x htaken hscene hrsv => ?halt,
    fun x kf b htaken hscene hkf hrsv hboard =>
      (exec_keyframeTake_taken htaken).trans (congrArg _ (takeCmd_ok hscene hkf hrsv hboard)),
    fun sc st k hfind => ⟨fun hjob => congrArg _ (takeEnd_alone hfind hjob),
      fun j hjob => ⟨fun hfailed => congrArg _ (takeEnd_failed hfind hjob hfailed), fun v i hok hst hwork => ?takeGoesOn⟩⟩,
    fun j a off k w n hok hkf hlink hleft hparity =>
      ⟨copyWork_last_range hok hkf hlink hleft hparity, copyDone_host hok hkf rfl⟩,
    fun b q htaken hboard hrsv hidx hlive hfinished hrun =>
      (exec_keyframeRelease_taken htaken).trans (congrArg _ (releaseCmd_ok hboard hrsv hidx hlive hfinished hrun))⟩
  case stored =>
    rintro ws rfl hgood hnew
    have hend {q} (hwrite : vaultImage (loadTaken s w) w (ws.take (imLength ws)) = q) :
        exec (.storyboardLoadDone sl (some ws)) s = _ := congrArg Host.Outcome.next (loadEnd_good hfind hgood hnew hwrite)
    exact ⟨fun hhost => (hend (vaultImage_host _ hhost)).trans (congrArg _ (loadOutcome_host hhost)),
      fun v hvault => ⟨fun l hwrite => (hend hwrite).trans (congrArg _ (loadOutcome_vault hvault)), hend, hend⟩⟩
  case run =>
    have hrun := (exec_sceneRun_taken htaken).trans (congrArg _ (runBegin_judged hhold hagain horder hslates))
    exact ⟨fun hadmit => hrun.trans (congrArg _ (if_neg (not_not.mpr hadmit))),
      fun hrefused => hrun.trans (congrArg _ (if_pos hrefused))⟩
  case halt =>
    have hhalt := (exec_sceneHalt_taken htaken).trans (congrArg _ (haltCmd_named hscene hrsv))
    exact ⟨fun hown => hhalt.trans (congrArg _ (if_neg (ne_true_of_eq_false hown))),
      fun hforeign => hhalt.trans (congrArg _ (if_pos hforeign))⟩
  case takeGoesOn =>
    have htake : exec (.keyframeTakeDone sc st) s = _ := congrArg Host.Outcome.next
      ((congrArg (takeEnd s _ _) hst).trans (takeEnd_works hfind hjob hok hwork))
    exact ⟨fun hdone => htake.trans (congrArg _ (if_pos hdone)),
      fun hopen hfailed => htake.trans (congrArg _ ((if_neg (ne_true_of_eq_false hopen)).trans (if_pos hfailed))),
      fun hopen hwaits => htake.trans (congrArg _ ((if_neg (ne_true_of_eq_false hopen)).trans (if_neg (not_not.mpr hwaits))))⟩

end Sys2Proof.Machine
end

section
/-! SUPPORT. Receive queues: words for a credited queue, packets refused or counted stale, and end marks (R245 to R251, R284). -/

namespace Sys2Proof.Machine

open Sys2Proof

/-! ### A packet as its queue unit or its core takes it (R304) -/

@[simp] theorem qOfPkt_handed (f : Flight) : qOfPkt (handed f).pkt.hdr = qOfPkt f.pkt.hdr :=
  congrArg (bits · 0 4) (pArg_handed f)
@[simp] theorem edgeOfPkt_handed (f : Flight) : edgeOfPkt (handed f).pkt.hdr = edgeOfPkt f.pkt.hdr :=
  congrArg (bits · 4 4) (pArg_handed f)
@[simp] theorem pSrc_handed (f : Flight) : pSrc (handed f).pkt.hdr = pSrc f.pkt.hdr := pSrc_setWdone _
@[simp] theorem pSlate_handed (f : Flight) : pSlate (handed f).pkt.hdr = pSlate f.pkt.hdr := pSlate_setWdone _
@[simp] theorem pEnd_handed (f : Flight) : pEnd (handed f).pkt.hdr = pEnd f.pkt.hdr := pEnd_setWdone _

/-- Ejection leaves the core a packet is for as it was. -/
@[simp] theorem target_handed (s : State) (f : Flight) : target (ejected s f) (handed f) = target s f := by
  simp [target]

/-- The queue a packet addresses. -/
def addressed (s : State) (f : Flight) : RxQueue := getQ (target s f) (qOfPkt f.pkt.hdr)

@[simp] theorem addressed_handed (s : State) (f : Flight) : addressed (ejected s f) (handed f) = addressed s f := by
  simp [addressed]

theorem queueServes_handed (s : State) (f : Flight) : QueueServes (ejected s f) (handed f) ↔ QueueServes s f := by
  simp [QueueServes]

/-- Q_STALE of the core a packet is for, counted as its unit takes the packet. -/
theorem countStale_ejected (s : State) (f : Flight) (n : Nat) :
    countStale (ejected s f) (pDst (handed f).pkt.hdr) n =
      setCore (ejected s f) (pDst f.pkt.hdr) { target s f with qStale := satAdd 0xFFFFFFFF (target s f).qStale n } := by
  simp [countStale, target]

/-! ### Ejection leaves the scenes alone -/

theorem fillLocal_scenes (cl plane vc fuel : Nat) (s : State) : (fillLocal cl plane vc fuel s).scenes = s.scenes := by
  induction fuel generalizing s with
  | zero => rfl
  | succ fuel ih =>
    unfold fillLocal
    split
    · rfl
    · split
      · rfl
      · split
        · exact ih _
        · rfl

theorem injectAll_scenes (s : State) : (injectAll s).scenes = s.scenes :=
  List.foldlRecOn (motive := (State.scenes · = s.scenes)) _ _ rfl fun t ht f _ =>
    (fillLocal_scenes f.cl f.plane (vcOf f) _ t).trans ht

theorem fenceStep_scenes (s : State) : (fenceStep s).scenes = s.scenes := by
  unfold fenceStep
  split
  · split
    · rfl
    · exact injectAll_scenes _
  · rfl

theorem leaveMesh_scenes (s : State) (f : Flight) (count : RouterRegs → RouterRegs) : (leaveMesh s f count).scenes = s.scenes :=
  (fenceStep_scenes _).trans (fillLocal_scenes _ _ _ _ _)

@[simp] theorem sceneOf_ejected (s : State) (f : Flight) (co : Core) : sceneOf (ejected s f) co = sceneOf s co := by
  have hscenes : (ejected s f).scenes = s.scenes := leaveMesh_scenes _ f _
  unfold sceneOf findScene
  rw [hscenes]

/-! ### The words of a packet (R237) -/

theorem packetWords_length (p : Packet) : (packetWords p).length = p.payload.length := List.length_mapIdx

/-- The words of a packet become its entries. -/
theorem packetWords_entries (p : Packet) (epoch : BitVec 4) :
    ((packetWords p).map fun x => (⟨x.1, x.2, false, epoch, 0⟩ : QEntry)) = entriesOf p.payload (pEnd p.hdr) epoch :=
  List.ext_getElem (by simp [packetWords, entriesOf]) (by simp [packetWords, entriesOf])

/-- Only the last word carries the packet's end mark. -/
theorem packetWords_concat {p : Packet} {ws : List Word} {w : Word} (hwords : p.payload = ws ++ [w]) :
    packetWords p = ws.map (·, false) ++ [(w, pEnd p.hdr)] := by
  have hbefore : (ws.mapIdx fun i v => (v, pEnd p.hdr && decide (i = ws.length))) = ws.map (·, false) := by
    refine List.ext_getElem (by simp) fun i hi _ => ?_
    have hlt : i < ws.length := by simpa using hi
    simp [hlt.ne]
  simp [packetWords, hwords, hbefore]

theorem packetWords_marks {p : Packet} (hsome : 0 < p.payload.length) :
    ((packetWords p).filter (·.2)).length = if pEnd p.hdr then 1 else 0 := by
  rcases List.eq_nil_or_concat' p.payload with hnil | ⟨ws, w, hwords⟩
  · simp [hnil] at hsome
  · rw [packetWords_concat hwords]
    cases pEnd p.hdr <;> simp

/-! ### The queue unit (R245 to R251) -/

/-- A packet of the bound edge for a credited queue with room becomes its newest entries. -/
theorem creditedIn_room {s : State} {k plane : Nat} {p : Packet} {co : Core} {n : Nat} {q : RxQueue} {src : Nat × Nat × Nat}
    (hcore : getCore s k = co) (hn : qOfPkt p.hdr = n) (hq : getQ co n = q) (hsrc : (pSrc p.hdr, edgeOfPkt p.hdr, plane) = src)
    (hactive : q.state = .active) (hbound : q.bound.getD src = src)
    (hroom : q.entries.length + p.payload.length ≤ 128) (hsome : 0 < p.payload.length) :
    creditedIn s k plane p = putCore s k (bindAddQ
      (setQ co n { q with bound := some src, entries := q.entries ++ entriesOf p.payload (pEnd p.hdr) q.epoch }) n
      p.payload.length (if pEnd p.hdr then 1 else 0)) := by
  subst hsrc hq hn hcore
  have hfold := creditedWord_fold (packetWords p)
    { getQ (getCore s k) (qOfPkt p.hdr) with bound := some (pSrc p.hdr, edgeOfPkt p.hdr, plane) } 0 0 hactive
    (by rw [packetWords_length]; exact hroom)
  simp only [Nat.zero_add, packetWords_length, packetWords_entries, packetWords_marks hsome] at hfold
  simp only [creditedIn, hbound, hfold, ne_eq, not_true_eq_false, if_false, Bool.false_eq_true]
  cases pEnd p.hdr <;> rfl

section
variable {s : State} {f : Flight}

theorem queueIn_outOfService (hout : (addressed s f).state = .disabled ∨ (addressed s f).state = .retired) :
    queueIn s f = ctlBack (setCore s (pDst f.pkt.hdr)
      { target s f with qRefused := satAdd 0xFFFFFFFF (target s f).qRefused 1 }) (pDst f.pkt.hdr) f.plane 3 0x0403 f.pkt :=
  if_pos hout

theorem not_outOfService {q : RxQueue} (hin : q.state = .active ∨ q.state = .overflowed) :
    ¬ (q.state = .disabled ∨ q.state = .retired) := by
  rcases hin with h | h <;> simp [h]

theorem queueIn_otherEpoch (hin : (addressed s f).state = .active ∨ (addressed s f).state = .overflowed)
    (hepoch : (addressed s f).epoch.toNat ≠ pEpoch f.pkt.hdr) :
    queueIn s f = countStale s (pDst f.pkt.hdr) f.pkt.payload.length :=
  (if_neg (not_outOfService hin)).trans (if_pos hepoch)

/-- A packet that passes the checks of R245 goes to its queue by the queue's mode. -/
theorem queueIn_serves (hserves : QueueServes s f) (hmode : (addressed s f).mode = 0) :
    queueIn s f = creditedIn s (pDst f.pkt.hdr) f.plane f.pkt := by
  obtain ⟨hin, hepoch, hslate⟩ := hserves
  exact (if_neg (not_outOfService hin)).trans
    ((if_neg (not_not.mpr hepoch)).trans ((if_neg (not_not.mpr hslate)).trans (if_pos hmode)))

/-! ### End marks (R284) -/

theorem endMarkIn_counts {x : Scene} (hstate : (addressed s f).state ≠ .disabled)
    (hepoch : (addressed s f).epoch.toNat = pEpoch f.pkt.hdr) (hscene : sceneOf s (target s f) = some x) :
    endMarkIn s f = sceneCheck (setScene s { x with marks := x.marks + 1, progress := true }) x.sbn (scKey x) := by
  unfold addressed target at *
  simp only [endMarkIn, hscene, hepoch, hstate, ne_eq, not_false_eq_true, and_self, if_true]

end

/-- Settles O23: each row hands the ejected packet to `queueIn` or `endMarkIn`, whose branches are those of R245 and R284; the words
of a packet for a queue with room are taken by `creditedIn_room`. -/
theorem queueArrivals : Obligations.QueueArrivals := by
  intro s k pl f co n q d src
  have hq : addressed (ejected s f) (handed f) = q := addressed_handed s f
  have hco : target (ejected s f) (handed f) = co := target_handed s f
  have hqueue (h : TakesPacket s k pl 0 f) : exec (.queue k pl 0 0) s = .next (queueIn (ejected s f) (handed f)) :=
    congrArg _ (arrivalRow_ok queueIn h)
  refine ⟨fun htakes hserves hactive hmode hbound hroom hsome => ?credited, fun htakes hout => ?refused,
    fun htakes hin hepoch => ?stale, fun x htakes hstate hepoch hscene => ?mark⟩
  case credited =>
    have hsrc : (pSrc (handed f).pkt.hdr, edgeOfPkt (handed f).pkt.hdr, (handed f).plane) = src := by
      rw [pSrc_handed, edgeOfPkt_handed, handed_plane]
    rw [hqueue htakes, queueIn_serves ((queueServes_handed s f).mpr hserves) (by rwa [hq]),
      creditedIn_room hco (qOfPkt_handed f) rfl hsrc hactive hbound hroom hsome, pEnd_handed, pDst_handed]
    rfl
  case refused =>
    rw [hqueue htakes, queueIn_outOfService (by rwa [hq]), hco, pDst_handed]
    rfl
  case stale =>
    rw [hqueue htakes, queueIn_otherEpoch (by rwa [hq]) (by rwa [hq, pEpoch_handed]), countStale_ejected]
    rfl
  case mark =>
    exact congrArg _ ((arrivalRow_ok endMarkIn htakes).trans (endMarkIn_counts (by rwa [hq]) (by rwa [hq, pEpoch_handed])
      (by rwa [hco, sceneOf_ejected])))

end Sys2Proof.Machine
end

section
/-! SUPPORT. Messages to a core: credits, refusals, returns and freeze orders (R187, R246, R247, R250, R312). -/

namespace Sys2Proof.Machine

open Sys2Proof

section
variable {s : State} {f : Flight}

/-! ### Messages of the epoch that runs -/

theorem creditIn_running (hrun : runningEpoch (target s f) (pEpoch f.pkt.hdr) = true) :
    creditIn s f = putCore s (pDst f.pkt.hdr)
      (bindAdd (target s f) 3 (bits (pArg f.pkt.hdr) 0 4) (bits (pArg f.pkt.hdr) 4 8 : Nat)) :=
  if_pos hrun

theorem refuseIn_running {status : Nat} (hrun : runningEpoch (target s f) (pEpoch f.pkt.hdr) = true) :
    refuseIn s f status = sendRefused s (pDst f.pkt.hdr) status (edgeOfPkt (hdrOfWords f.pkt.payload)) f.pkt.note
      (pDst (hdrOfWords f.pkt.payload)) :=
  if_pos hrun

/-- What a freeze order does to the slate of the core it has frozen (R247, R464). -/
def orderedSlate (v : State) (co : Core) (k : Nat) : State :=
  match sheetSlate co with
  | some n => freezeSlate v n [(28, 1, 1), (30, 3, k)]
  | none => v

theorem freezeIn_running (hrun : runningEpoch (target s f) (pEpoch f.pkt.hdr) = true) (hmode : (target s f).mode ≠ .frozen) :
    freezeIn s f = orderedSlate (setCore s (pDst f.pkt.hdr) (freezeCore (target s f) 0x17)) (target s f) (pDst f.pkt.hdr) :=
  (if_pos hrun).trans (if_neg hmode)

/-! ### Messages of another epoch -/

theorem creditIn_stale (hstale : runningEpoch (target s f) (pEpoch f.pkt.hdr) = false) :
    creditIn s f = countStale s (pDst f.pkt.hdr) 1 :=
  if_neg (ne_true_of_eq_false hstale)

theorem refuseIn_stale {status : Nat} (hstale : runningEpoch (target s f) (pEpoch f.pkt.hdr) = false) :
    refuseIn s f status = countStale s (pDst f.pkt.hdr) 1 :=
  if_neg (ne_true_of_eq_false hstale)

theorem freezeIn_stale (hstale : runningEpoch (target s f) (pEpoch f.pkt.hdr) = false) :
    freezeIn s f = countStale s (pDst f.pkt.hdr) 1 :=
  if_neg (ne_true_of_eq_false hstale)

/-! ### Returns (R312) -/

/-- A returned queue packet is a refusal of another status. -/
theorem darkRetIn_queue (htype : pType (hdrOfWords f.pkt.payload) = 0) : darkRetIn s f = refuseIn s f 0x0704 := by
  simp only [darkRetIn, htype]

theorem darkRetIn_arrive (htype : pType (hdrOfWords f.pkt.payload) = 6) :
    darkRetIn s f = arriveReturned s (pDst f.pkt.hdr) (hdrOfWords f.pkt.payload) := by
  simp only [darkRetIn, htype]

/-- The ARRIVE of a RUNNING core that waits for it ends, and its return is recorded as a send's. -/
theorem arriveReturned_running {k : Nat} {co : Core} {h : BitVec 128} (hcore : getCore s k = co) (hwait : co.wait = .arrive)
    (hclap : co.clap = pArg h) (hmode : co.mode = .running) (hinside : co.pc.toNat + 1 < sheetPlen co) :
    arriveReturned s k h =
      sendRefused (setCore s k { co with wait := .none, pc := co.pc + 1 }) k 0x0704 0 co.pc.toNat (pDst h) := by
  subst hcore
  have hend : arriveEnd s k (getCore s k) = _ := (if_pos (.inl hmode)).trans (goNext_stored (Core.not_idle hmode) hinside)
  exact (if_pos ⟨hwait, hclap⟩).trans (congrArg (sendRefused · k 0x0704 0 _ (pDst h)) hend)

end

/-- Settles O24: each row hands the ejected packet to its unit, whose branches test `runningEpoch` as the core stood before; a return
of an ARRIVE ends it by `arriveReturned_running`. The program counter recorded is the packet's note (log entry 15). -/
theorem coreMessages : Obligations.CoreMessages := by
  intro s k pl f co d u h
  have hcore : getCore u (pDst (handed f).pkt.hdr) = co := target_handed s f
  have hepoch (b : Bool) : runningEpoch (target u (handed f)) (pEpoch (handed f).pkt.hdr) = b ↔
      runningEpoch co (pEpoch f.pkt.hdr) = b := by
    rw [target_handed, pEpoch_handed]
  refine ⟨fun htakes hrun => ?credit, fun htakes hrun => ?refuse, fun htakes hrun htype => ?returned,
    fun htakes htype hwait hclap hmode hinside => ?arrive, fun htakes hrun hmode => ?freeze, ?stale, fun e pc status => rfl⟩
  case credit =>
    refine congrArg _ ((arrivalRow_ok creditIn htakes).trans ((creditIn_running ((hepoch true).mpr hrun)).trans ?_))
    rw [target_handed, pDst_handed, pArg_handed]
  case refuse =>
    refine congrArg _ ((arrivalRow_ok (refuseIn · · 0x0403) htakes).trans ((refuseIn_running ((hepoch true).mpr hrun)).trans ?_))
    rw [pDst_handed]
    rfl
  case returned =>
    refine congrArg _ ((arrivalRow_ok darkRetIn htakes).trans ((darkRetIn_queue (f := handed f) htype).trans
      ((refuseIn_running ((hepoch true).mpr hrun)).trans ?_)))
    rw [pDst_handed]
    rfl
  case arrive =>
    refine congrArg _ ((arrivalRow_ok darkRetIn htakes).trans ((darkRetIn_arrive (f := handed f) htype).trans
      ((arriveReturned_running hcore hwait hclap hmode hinside).trans ?_)))
    rw [pDst_handed]
  case freeze =>
    refine congrArg _ ((arrivalRow_ok freezeIn htakes).trans
      ((freezeIn_running ((hepoch true).mpr hrun) (by rw [target_handed]; exact hmode)).trans ?_))
    rw [target_handed, pDst_handed]
    rfl
  case stale =>
    intro r hr htakes hstale
    simp only [List.mem_cons, List.not_mem_nil, or_false] at hr
    have hcount : countStale u (pDst (handed f).pkt.hdr) 1 = _ := countStale_ejected s f 1
    have hother := (hepoch false).mpr hstale
    rcases hr with rfl | rfl | rfl
    · exact congrArg _ ((arrivalRow_ok creditIn htakes).trans ((creditIn_stale hother).trans hcount))
    · exact congrArg _ ((arrivalRow_ok (refuseIn · · 0x0403) htakes).trans ((refuseIn_stale hother).trans hcount))
    · exact congrArg _ ((arrivalRow_ok freezeIn htakes).trans ((freezeIn_stale hother).trans hcount))

end Sys2Proof.Machine
end

section
/-! SUPPORT. The consumer of a ring in cluster memory, and splice links that lose lock (R267, R268, R311). -/

namespace Sys2Proof.Machine

open Sys2Proof

/-! ### Rings (R267, R268) -/

/-- A consumer whose words pass their parity goes by the ring's stop, then by its size and contents, then by the record at TAIL. -/
theorem ringConsume_clean (s : State) (cl ctl : Nat) :
    let c := getCl s cl
    let a := 16 * ctl
    let log := bits (ramWord c.mem a).toNat 0 5
    let size := 2 ^ log
    let head := ramWord c.mem (a + 4)
    let tail := ramWord c.mem (a + 8)
    let p := tail.toNat % size
    let w := (ramWord c.mem (a + 16 + p / 4)).toNat
    (∀ x ∈ [a, a + 4, a + 8, a + 16 + p / 4], ramLanes c.mem x = 0) →
    ringConsume s cl ctl =
      if c.ringStops.contains ctl then
        if head = 0 ∧ tail = 0 then setCl s cl { c with ringStops := c.ringStops.filter (· != ctl) } else s
      else if log < 7 ∨ 24 < log ∨ head = tail then s
      else if p % 64 ≠ 0 ∨ ringRecBad (bits w 0 16) (bits w 16 16) size p = true then
        raiseEv (setCl s cl { c with ringStops := c.ringStops ++ [ctl] }) 0x3020 2 noFrame
          [(28, 8, 64 * ctl), (36, 4, p), (40, 2, bits w 0 16)]
      else setCl s cl { c with
        mem := ramPutWord c.mem (a + 8) (tail + BitVec.ofNat 32 (ringRecLen (bits w 0 16) (bits w 16 16) size p)) } := by
  intro c a log size head tail p w hclean
  have hwords : 64 * ctl / 4 = a := by omega
  have hreads : ((ringReads c.mem a).find? fun x => ramLanes c.mem x != 0) = none := by
    rw [List.find?_eq_none]
    intro x hx
    simp [hclean x hx]
  simp only [ringConsume, hwords]
  rw [hreads]

/-! ### Seams (R311) -/

theorem seamUniform_eq (s : State) (sm cause : Nat) (l0 l1 : Byte) :
    seamUniform s sm l0.toNat l1.toNat cause = raiseEv { s with
        splice := s.splice.filter (· != sm)
        floor := { s.floor with
          generation := s.floor.generation + 1
          changed := s.clock.timeNs
          dead := smapSet (0, 0) s.floor.dead sm
            ((smapGet (0, 0) s.floor.dead sm).1 ||| l0, (smapGet (0, 0) s.floor.dead sm).2 ||| l1) } }
      0x4001 1 noFrame [(28, 1, sm), (29, 1, l0.toNat), (30, 1, l1.toNat), (31, 1, cause)] := by
  simp only [seamUniform, BitVec.ofNat_toNat, BitVec.setWidth_eq]
  rfl

/-- Settles O27: the ring by the branches of `ringConsume_clean` (a stopped ring stays stopped by log entry 98), the seam by
`seamUniform_eq`. -/
theorem ringAndSpliceSteps : Obligations.RingAndSpliceSteps := by
  intro s k ctl sm l0 l1 cause c a size head tail p w clean ready
  have hring (hclean : clean) : exec (.ringRecordConsume k ctl) s = _ :=
    congrArg Host.Outcome.next (ringConsume_clean s (clKey k) ctl.val hclean)
  have hgoes (hready : ready) : c.ringStops.contains ctl.val ≠ true
      ∧ ¬ (bits (ramWord c.mem a).toNat 0 5 < 7 ∨ 24 < bits (ramWord c.mem a).toNat 0 5 ∨ head = tail) := by
    obtain ⟨hlive, hmin, hmax, hsome⟩ := hready
    exact ⟨ne_true_of_eq_false hlive, by simp [hsome, hmin, hmax]⟩
  refine ⟨fun hclean hready haligned hgood => ?record, fun hclean hready hbad => ?malformed,
    fun hclean hstopped hopen => ?stopped, fun hlocked => ?splice⟩
  case record =>
    have hfine : ¬ (p % 64 ≠ 0 ∨ ringRecBad (bits w 0 16) (bits w 16 16) size p = true) := by simp [haligned, hgood]
    obtain ⟨hlive, hfilled⟩ := hgoes hready
    rw [hring hclean, if_neg hlive, if_neg hfilled, if_neg hfine]
    rfl
  case malformed =>
    obtain ⟨hlive, hfilled⟩ := hgoes hready
    rw [hring hclean, if_neg hlive, if_neg hfilled, if_pos hbad]
  case stopped =>
    rw [hring hclean, if_pos hstopped, if_neg (by rwa [not_and_or])]
  case splice =>
    exact (if_pos hlocked).trans (congrArg _ (seamUniform_eq s sm.val _ l0 l1))

end Sys2Proof.Machine
end

section
/-! SUPPORT. What the parts of the module hold right after a cold reset (R372, R384, R432, R473, R554). -/

namespace Sys2Proof.Machine

open Sys2Proof

/-- Only HANG has arguments of its own (R473). -/
theorem getPolicy_reset (k : Nat) : getPolicy State.reset k = if k = 7 then hangDefault else policyDefault := by
  by_cases h : k = 7
  · rw [h]; rfl
  · rw [if_neg h]
    exact if_neg (Ne.symm h)

theorem getPolicy_reset_armed (k : Nat) : (getPolicy State.reset k).armed = decide (k = 7) := by
  rw [getPolicy_reset]
  by_cases h : k = 7 <;> simp [h, hangDefault, policyDefault]

/-- HANG's arguments read back as the numbers they encode. -/
theorem hangArgs_reset : hangArgs State.reset = (2000, 0, 0, 0) := by
  have hargs : (getPolicy State.reset 7).args = leBytes 4 2000 ++ List.replicate 20 0 := rfl
  simp only [hangArgs, hargs]
  decide

/-- The boot ROM extends measurement 1 alone (R554). -/
theorem measReset_first : measReset[0] = Config.sha512 (List.replicate 64 0 ++ Config.romDigest) :=
  Vector.getElem_set_self _

theorem measReset_rest {i : Nat} (hi : i < 5) (hpos : 0 < i) : measReset[i] = List.replicate 64 0 := by
  rw [measReset, Vector.getElem_set_ne _ _ hpos.ne, Vector.getElem_replicate]

theorem rings_reset (p : HostPort) : (getHost State.reset p).cmd.en = false ∧ (getHost State.reset p).cpl.en = false
    ∧ (getHost State.reset p).evt.en = false := by
  cases p <;> exact ⟨rfl, rfl, rfl⟩

/-- No core, cluster or reel store is written yet, and host memory reads as zeros. -/
theorem memOk_reset : State.reset.memOk = true := by
  simp [State.memOk, State.reset, HPort.reset, Ram.wf_zero]

/-- Settles O59: policies, measurements, rings and memories by their lemmas; the other parts stand in `State.reset` itself. -/
theorem resetState : Obligations.ResetState :=
  ⟨rfl, fun _ => rfl, getPolicy_reset_armed, hangArgs_reset, rfl, fun i hi => measReset_rest i.isLt hi, measReset_first, rfl, rfl,
    rfl, rfl, rfl, fun _ => rfl, rings_reset, rfl, memOk_reset⟩

end Sys2Proof.Machine
end

section
/-! SUPPORT. Messages of the reel protocol: RHELLO_ACK, OPEN_ACK, ERROR and PUT_ACK at the head of a STREAM port's payloads
(R280, R362, R363, R366 to R368, R370). -/

namespace Sys2Proof.Machine

open Sys2Proof

/-! ### The row takes its message (R360) -/

section
variable {s : State} {e : EdgePort} {typ : Nat} {m : List Byte} {rest : List (Nat × List Byte)}

/-- A well-formed message of the row's type leaves the port, acts, and the buffer's marks are tested (R356). -/
theorem withReel_head (act : State → List Byte → State) (h : ReelHead s e typ m rest) :
    withReel s e.val typ act = pfcCheck (act (msgsLeft s e rest) m) e.val := by
  obtain ⟨hmsgs, htyp, hgood⟩ := h
  simp only [withReel, hmsgs, htyp, hgood, Bool.false_eq_true, if_false, if_true]
  rfl

theorem exec_rhelloAck_head (h : ReelHead s e 2 m rest) :
    exec (.rhelloAck e) s = .next (pfcCheck (rhelloAck (msgsLeft s e rest) e.val m) e.val) := congrArg _ (withReel_head _ h)

theorem exec_openAck_head (h : ReelHead s e 4 m rest) :
    exec (.openAck e) s = .next (pfcCheck (openAck (msgsLeft s e rest) e.val m) e.val) := congrArg _ (withReel_head _ h)

theorem exec_error_head (h : ReelHead s e 9 m rest) :
    exec (.error e) s = .next (pfcCheck (reelStoreError (msgsLeft s e rest) e.val m) e.val) := congrArg _ (withReel_head _ h)

theorem exec_putAck_head (h : ReelHead s e 12 m rest) :
    exec (.putAck e) s = .next (pfcCheck (putAck (msgsLeft s e rest) e.val m) e.val) := congrArg _ (withReel_head _ h)

end

section
variable {s : State} {e : Nat} {m : List Byte}

/-! ### RHELLO_ACK (R362, R370) -/

/-- OPEN leaves for every bound slot that is not HELD, and the first re-fetch begins. -/
def slotsOpened (s : State) (e : Nat) : State :=
  refetchBegin ((getPort s e).slots.foldl (fun t b =>
    match slotOf t e b.1 with
    | some y => if y.held then t else sendReel t e 3 y.reel 0 0 []
    | none => t) s) e

/-- The module with the reel layer of a port up under version `v`, and its link-up told. -/
def reelVersioned (s : State) (e v : Nat) : State :=
  upShown (setPort s e { getPort s e with reelver := BitVec.ofNat 2 v, reelUp := true }) e v

/-- A supported version opens the slots, once the keyframe copies that wait have left or, under a version without PUT, the
writes have been refused. -/
theorem rhelloAck_supported {v : Nat} (hv : getLe m 12 1 = v) (hmin : 1 ≤ v) (hmax : v ≤ 3) :
    let u := reelVersioned s e v
    rhelloAck s e m = slotsOpened (if v = 1 then writesRefused u e
      else (getPort u e).copyPuts.foldl (fun t q => putOut t e q.1 q.2) u) e := by
  subst hv
  exact if_pos ⟨hmin, hmax⟩

/-- Any other version leaves the layer down and holds every bound slot with cause 4. -/
theorem rhelloAck_unsupported (hv : getLe m 12 1 = 0 ∨ 3 < getLe m 12 1) :
    rhelloAck s e m = (getPort s e).slots.foldl (fun t q => slotHold t e q.1 4 0 0)
      (upShown (setPort s e { getPort s e with reelver := 0, reelUp := false }) e 0) :=
  if_neg fun ⟨hmin, hmax⟩ => by omega

/-! ### OPEN_ACK and ERROR (R363, R367) -/

section
variable {x : ReelSlot} (hslot : slotForReel s e (getLe m 4 3) = some x)
include hslot

theorem openAck_inRange (hheld : x.held = false) (hblocks : getLe m 8 4 = x.blocks) (hmin : 0 < getLe m 12 4)
    (hmax : getLe m 12 4 ≤ 1048576) (hfresh : x.reserved = false) :
    openAck s e m = reserveAll (x.puts.foldl (fun t q => putOut t e x.reel q) (setSlot s e (getLe m 4 3 % 128)
      (some { x with maxblk := getLe m 12 4, acked := true, credit := 0 }))) e := by
  have hok : ¬ (getLe m 8 4 ≠ x.blocks ∨ getLe m 12 4 = 0 ∨ 1048576 < getLe m 12 4) := by omega
  simp only [openAck, hslot, hheld, hok, hfresh, Bool.false_eq_true, if_false]

theorem openAck_outOfRange (hheld : x.held = false)
    (hbad : getLe m 8 4 ≠ x.blocks ∨ getLe m 12 4 = 0 ∨ 1048576 < getLe m 12 4) :
    openAck s e m = slotHold s e (getLe m 4 3 % 128) 3 (getLe m 2 2) 0 := by
  simp only [openAck, hslot, hheld, hbad, Bool.false_eq_true, if_false, if_true]

/-- An ERROR for a block the slot has asked for is the slot's, whatever re-fetch waits. -/
theorem reelStoreError_asked (hasked : x.requested.contains (getLe m 8 4) = true) :
    reelStoreError s e m = slotHold s e (getLe m 4 3 % 128) 2 (getLe m 2 2) (getLe m 8 4) := by
  simp only [reelStoreError, hslot, hasked]
  cases (getPort s e).refetch <;> simp

/-! ### PUT_ACK (R280, R366) -/

theorem putAck_slot {q : Put}
    (hput : x.puts.find? (fun q => q.start == getLe m 8 4 * 2 ^ 32 + getLe m 12 4) = some q) :
    putAck s e m =
      if getLe m 2 2 = 5 ∧ q.resent = false then
        putOut (setSlot s e (getLe m 4 3 % 128)
          (some { x with puts := x.puts.map fun r => if r = q then { q with resent := true } else r })) e x.reel q
      else putDone s e (getLe m 4 3 % 128) x q (decide (getLe m 2 2 = 0)) := by
  simp only [putAck, hslot, hput, Option.map_some]

end

theorem putAck_copy {q : Nat × Put} (hslot : slotForReel s e (getLe m 4 3) = none)
    (hput : (getPort s e).copyPuts.find?
      (fun q => q.1 == getLe m 4 3 && q.2.start == getLe m 8 4 * 2 ^ 32 + getLe m 12 4) = some q) :
    putAck s e m = copyPutAck s e (getLe m 4 3) (getLe m 2 2) q.2 := by
  simp only [putAck, hslot, hput]

/-- Status 5 asks for the same PUT again, once. -/
theorem copyPutAck_again {reel : Nat} {q : Put} (hfirst : q.resent = false) :
    copyPutAck s e reel 5 q = putOut (setPort s e { getPort s e with
      copyPuts := (getPort s e).copyPuts.map fun r => if r = (reel, q) then (reel, { q with resent := true }) else r }) e reel q :=
  if_pos ⟨rfl, hfirst⟩

/-- A PUT that the store has not stored, and that is not sent again, fails the copies to its reel. -/
theorem copyPutAck_failed {reel st : Nat} {q : Put} (hst : st ≠ 0) (honce : st ≠ 5 ∨ q.resent = true) :
    copyPutAck s e reel st q =
      copyPutFail (setPort s e { getPort s e with copyPuts := (getPort s e).copyPuts.erase (reel, q) }) e reel := by
  have hfinal : ¬ (st = 5 ∧ q.resent = false) := fun ⟨h5, hfirst⟩ => honce.elim (· h5) (by simp [hfirst])
  exact (if_neg hfinal).trans (if_neg hst)

end

/-- Settles O32: each row hands its message on by `withReel_head`; the messages by the lemmas above (0x5001 of a port that waits for
RHELLO_ACK is log entry 101, the causes of a HELD slot are log entry 73). -/
theorem reelMessages : Obligations.ReelMessages := by
  intro s e m rest x q u i put v shown up opened
  refine ⟨fun hhead hmin hmax => ?puts, fun hhead hone => ?refused, fun hhead hbad => ?unsupported,
    fun hhead hslot hheld => ?openAck, fun hhead hslot hasked => ?error, fun hhead hslot hput => ?putAck,
    fun hhead hslot => ?copy⟩
  case puts =>
    have hnot : v ≠ 1 := by omega
    rw [exec_rhelloAck_head hhead, rhelloAck_supported rfl (by omega) hmax, if_neg hnot]
    rfl
  case refused =>
    rw [exec_rhelloAck_head hhead, rhelloAck_supported rfl hone.ge (by omega), if_pos hone]
    rfl
  case unsupported =>
    rw [exec_rhelloAck_head hhead, rhelloAck_unsupported hbad]
    rfl
  case openAck =>
    refine ⟨fun hblocks hmin hmax hfresh => ?_, fun hbad => ?_⟩
    · rw [exec_openAck_head hhead, openAck_inRange hslot hheld hblocks hmin hmax hfresh]
    · rw [exec_openAck_head hhead, openAck_outOfRange hslot hheld hbad]
  case error =>
    rw [exec_error_head hhead, reelStoreError_asked hslot hasked]
  case putAck =>
    rw [exec_putAck_head hhead, putAck_slot hslot hput]
    refine ⟨fun h5 hfirst => ?_, fun h5 hagain => ?_, fun hnot => ?_⟩
    · rw [if_pos ⟨h5, hfirst⟩]
      rfl
    · rw [if_neg (by simp [hagain]), h5]
      rfl
    · rw [if_neg fun h => hnot h.1]
  case copy =>
    intro id key p gone marked failed hput stored
    rw [exec_putAck_head hhead, putAck_copy hslot hput]
    refine ⟨fun hstored => ?_, fun h5 hfirst => ?_, fun hst honce => ?_⟩
    · rw [hstored]
      rfl
    · rw [h5, copyPutAck_again hfirst]
    · rw [copyPutAck_failed hst honce]
      rfl

end Sys2Proof.Machine
end

section
/-! SUPPORT. Admission of scenes, their start, and the commands REPLAY and REMAP (R279, R280, R441, R456, R477, R478). -/

namespace Sys2Proof.Machine

open Sys2Proof

/-! ### Admission (R279, R280) -/

section
variable {s : State} {sbn idx : Nat} {x : Scene} {b : Storyboard}

/-- An ENDED scene in its region, or the same scene, keeps a queued scene waiting. -/
theorem admitScene_waits (hfind : s.queuedRuns.find? (fun y => y.sbn == sbn && y.idx == idx && !y.restoring) = some x)
    (hboard : getBoard s sbn = some b)
    (hmeets : s.scenes.any (fun y => regionsMeet y.region (candidate s b x).scene.region || sameScene y x) = true) :
    admitScene s sbn idx = s := by
  simp only [admitScene, hfind, hboard, hmeets, if_true]

/-- With its region free and an epoch, every core is installed in one step (log entry 92). -/
theorem admitScene_installs {e : Nat} (hfind : s.queuedRuns.find? (fun y => y.sbn == sbn && y.idx == idx && !y.restoring) = some x)
    (hboard : getBoard s sbn = some b)
    (hfree : s.scenes.any (fun y => regionsMeet y.region (candidate s b x).scene.region || sameScene y x) = false)
    (hepoch : nextEpoch s (candidate s b x).scene.region = some e) :
    let q := admitInstall { s with queuedRuns := s.queuedRuns.erase x } (candidate s b x) e
    admitScene s sbn idx =
      if q.2.kf = .inPlace ∨ q.2.latest.isSome = true then admitAccept q.1 q.2 false
      else copyStart q.1 .admission b sbn idx (scKey q.2) q.2.cmd.port q.2.kf none 0 := by
  simp only [admitScene, hfind, hboard, hfree, hepoch, Bool.false_eq_true, if_false]

/-- The copies of step 6 go on as far as they can, and the last of them brings ACCEPTED. -/
theorem exec_admissionCopyDone_works {sc : SceneId} {j i : CopyJob} {v : State}
    (hcopying : copyingScene s sc.sbn.val sc.idx.val = some (x, b)) (hjob : copyJob s .admission x.sbn (scKey x) = some j)
    (hwork : copyWork s j = (v, i)) :
    exec (.admissionCopyDone sc) s = .next (if copyDone v i then admitAccept (copyDrop v i) x true else v) := by
  simp only [exec, execAdmissionCopyDone, hcopying, hjob, hwork]

/-- The status that an admission's own copy has failed with, or 0. -/
def admissionCopyStatus (s : State) (x : Scene) : Nat :=
  match copyJob s .admission x.sbn (scKey x) with
  | some j => j.status
  | none => 0

/-- The failed admission of a SCENE_RUN is undone and completes with the copy's own status, or else the one reported. -/
theorem exec_admissionCopyFailed_run {sc : SceneId} {st : Word16} (hcopying : copyingScene s sc.sbn.val sc.idx.val = some (x, b))
    (hrun : x.replay = none) :
    let own := admissionCopyStatus s x
    exec (.admissionCopyFailed sc st) s = .next (finish (admitUndo s b x) x.cmd (if own = 0 then st.toNat else own) []) := by
  simp only [exec, execAdmissionCopyFailed, hcopying, admitFail, hrun]
  rfl

end

/-! ### The start order (R279) -/

/-- A core that the start order may reach takes it by its scene's stage and phase. -/
theorem sceneStartCore_ready {s : State} {k : Nat} {x : Scene} (hscene : sceneOf s (getCore s k) = some x)
    (hidle : (getCore s k).mode = .idle) (hfresh : (getCore s k).started = false)
    (hsheet : (getCore s k).sheet.isSome = true) :
    sceneStartCore s k =
      if x.stage = 2 ∧ x.phase = .admitting then
        if s.clock.hold then s
        else startCore (sceneStrobe (setScene s { x with stage := 3, phase := .running })) k
      else if x.stage = 3 then startCore s k
      else s := by
  have hready : ¬ ((getCore s k).mode ≠ .idle ∨ (getCore s k).started = true ∨ (getCore s k).sheet.isNone = true) := by
    simp [hidle, hfresh, Option.isNone_eq_false_iff.mpr hsheet]
  simp only [sceneStartCore, hscene]
  rw [if_neg hready]

/-! ### REPLAY (R456) -/

/-- The replay that a REPLAY record asks for. -/
def replayAsk (p : HostPort) (r : CmdRec) (ref : CmdRef) : ReplayAsk :=
  { port := p, slate := r.slate.toNat, sbn := pb r 36 1, idx := pb r 38 2, boundary := pbit r 37 0, cause := 0, cmd := some ref }

/-- The module without AUTO_REPLAY's mark on a slate (R480). -/
def faultForgotten (s : State) (n : Nat) : State := setSlate s n { getSlate s n with faultHeld := false }

/-- A replay that is admitted to the queue: the scenes it cuts close, its command is ACCEPTED, and 0xB033 is raised. -/
def replayQueued (s : State) (b : Storyboard) (a : ReplayAsk) (q : RunRecord) : State :=
  let cand := candidate s b (replayScene b a q)
  let u := if scCut b.words a.idx then (cutScenes s cand.scene.region).foldl cutClose s else s
  let w := match a.cmd with | some ref => accept u ref [] | none => u
  replayEvent { w with queuedRuns := w.queuedRuns ++ [cand.scene] } a q

/-- The status that a replay's admission checks give. -/
def replayStatus (s : State) (b : Storyboard) (a : ReplayAsk) (q : RunRecord) : Nat :=
  admitStatus s (candidate s b (replayScene b a q)) (scCut b.words a.idx) false

/-- With a good image and slates that allow it, a replay is judged as an admission once its HALTED scene has closed
(log entry 36). -/
theorem replayRun_judged {s u : State} {b0 b : Storyboard} {a : ReplayAsk} {q : RunRecord}
    (hagain : imageAgain s a.port a.sbn = (u, true)) (hboard : getBoard u a.sbn = some b)
    (hslates : slateStatus (replayClose u a.sbn a.idx a.slate) a.port [a.slate] = 0) :
    let v := replayClose u a.sbn a.idx a.slate
    replayRun s b0 a q = if replayStatus v b a q ≠ 0 then (v, replayStatus v b a q) else (replayQueued v b a q, 0) := by
  simp only [replayRun, hagain, hboard, hslates, Bool.not_true, Bool.false_eq_true, if_false, Option.getD_some]
  rfl

/-- What REPLAY answers: nothing more for a replay that is queued, else its refusing status. -/
def replayAnswer (ref : CmdRef) : State × Nat → State
  | (u, 0) => u
  | (u, st) => finish u ref st []

theorem replayAnswer_refused {ref : CmdRef} {u : State} {st : Nat} (hst : st ≠ 0) :
    replayAnswer ref (u, st) = finish u ref st [] := by
  simp only [replayAnswer]

/-- A REPLAY of recorded work goes by the run of that record. -/
theorem replayCmd_recorded {s : State} {p : HostPort} {r : CmdRec} {ref : CmdRef} {b : Storyboard} {q : RunRecord}
    (hhold : s.clock.hold = false) (hboard : getBoard s (pb r 36 1) = some b) (hwarm : pbit r 37 1 = false)
    (hrecord : runRecord s (pb r 36 1) (pb r 38 2) r.slate.toNat = some q)
    (hrsv : rsvOk r [(36, 0, 8), (37, 0, 2), (38, 0, 16), (40, 0, 12), (48, 0, 64)] = true) :
    replayCmd p r ref s = replayAnswer ref (replayRun (faultForgotten s r.slate.toNat) b (replayAsk p r ref) q) := by
  simp only [replayCmd, hhold, hboard, hwarm, hrecord, hrsv, Bool.false_eq_true, if_false, if_true]
  rfl

/-! ### The restore of a replay (R456) -/

/-- A queued replay is given up: the REPLAY that asked for it, if one did, completes with a status. -/
def replayLost (s : State) (x : Scene) (st : Nat) : State :=
  let u := { s with queuedRuns := s.queuedRuns.erase x }
  match x.replay with
  | some (_, some ref) => finish u ref st []
  | _ => u

theorem replayLost_ordered {s : State} {x : Scene} {st n : Nat} {ref : CmdRef} (hreplay : x.replay = some (n, some ref)) :
    replayLost s x st = finish { s with queuedRuns := s.queuedRuns.erase x } ref st [] := by
  simp only [replayLost, hreplay]

/-- What becomes of a replay, as the writes of its restore turn out: it waits for admission alone, is still to be restored, or is
lost. -/
def restoreOutcome (x : Scene) : State × RdOut → State
  | (v, .ok _) => { v with queuedRuns := v.queuedRuns.map fun y => if y = x then { y with restoring := false } else y }
  | (v, .wait) => v
  | (v, .err) => replayLost v x 0x0901

section
variable {s : State} {sbn idx : Nat} {x : Scene}
  (hfind : s.queuedRuns.find? (fun x => x.sbn == sbn && x.idx == idx && x.restoring) = some x)
include hfind

/-- A restore reported without an error goes by its writes. -/
theorem restoreEnd_written {b : Storyboard} (hboard : getBoard s sbn = some b) :
    restoreEnd s sbn idx 0 = restoreOutcome x (replayRestore s b x) := by
  simp only [restoreEnd, hfind, if_true, hboard]
  rfl

theorem restoreEnd_failed {st : Nat} (hfailed : st ≠ 0) : restoreEnd s sbn idx st = replayLost s x st := by
  simp only [restoreEnd, hfind, hfailed, if_false]
  rfl

end

/-! ### REMAP (R477, R478) -/

section
variable {s : State} {sbn idx n old new cause : Nat} {b : Storyboard} {q : RunRecord}
  (hboard : getBoard s sbn = some b) (hrecord : runRecord s sbn idx n = some q)
include hboard hrecord

/-- A substitution that passes is recorded with its storyboard and raises 0xB032. -/
theorem remapOrder_passes {k : Nat} (hcheck : remapCheck s b q idx n old new = (0, k)) :
    remapOrder s sbn idx n old new cause =
      (raiseEv (setBoard s sbn (some { b with substs := b.substs ++ [(idx, old, k)] })) 0xB032 1
        ⟨none, some n, some (q.number, 0)⟩ [(28, 4, old), (32, 4, k), (36, 2, sbn), (38, 2, idx), (40, 1, cause)], 0, k) := by
  simp only [remapOrder, hboard, hrecord, hcheck]

theorem remapOrder_fails {e k : Nat} (he : e ≠ 0) (hcheck : remapCheck s b q idx n old new = (e, k)) :
    remapOrder s sbn idx n old new cause = (s, e, 0) := by
  simp only [remapOrder, hboard, hrecord, hcheck]

end

section
variable {s u : State} {r : CmdRec} {ref : CmdRef}
  (hrsv : rsvOk r [(36, 0, 8), (38, 0, 16), (40, 0, 18), (44, 0, 18)] = true)
include hrsv

theorem remapCmd_done {k : Nat}
    (horder : remapOrder s (pb r 36 1) (pb r 38 2) r.slate.toNat (pb r 40 4) (pb r 44 4) 0 = (u, 0, k)) :
    remapCmd r ref s = autoReplay (finish u ref 0 [(24, 4, k)]) r.slate.toNat := by
  simp only [remapCmd, hrsv, if_true, horder]

theorem remapCmd_refused {e k : Nat} (he : e ≠ 0)
    (horder : remapOrder s (pb r 36 1) (pb r 38 2) r.slate.toNat (pb r 40 4) (pb r 44 4) 0 = (u, e, k)) :
    remapCmd r ref s = finish u ref e [] := by
  simp only [remapCmd, hrsv, if_true, horder]

end

/-- Settles O47: an admission by `admitScene_installs` (log entry 92) and its copies, a start by `sceneStartCore_ready`, a replay by
`replayRun_judged` (log entry 36), its restore by `restoreEnd_written`, a substitution by `remapOrder_passes`. -/
theorem admissionAndReplay : Obligations.AdmissionAndReplay := by
  intro s t p r ref sc c st n sbn idx
  refine ⟨fun x b e hfind hboard => ⟨fun hmeets => congrArg _ (admitScene_waits hfind hboard hmeets),
      fun hfree hepoch => congrArg _ (admitScene_installs hfind hboard hfree hepoch)⟩,
    fun x b hcopying => ⟨fun j v i hjob hwork => ?copies, exec_admissionCopyFailed_run hcopying⟩,
    fun x => ?start, fun b0 b q u htaken hhold hboard0 hwarm hrecord hrsv hagain hboard => ?replay,
    fun x hfind => ⟨fun b v hst hboard => ?restore,
      fun m k hst hreplay => congrArg _ ((restoreEnd_failed hfind hst).trans (replayLost_ordered hreplay))⟩,
    fun b q k htaken hrsv hboard hrecord => ⟨fun hcheck => ?remapped, fun e he hcheck => ?remapRefused⟩⟩
  case copies =>
    rw [exec_admissionCopyDone_works hcopying hjob hwork]
    exact ⟨fun hdone => congrArg _ (if_pos hdone), fun hopen => congrArg _ (if_neg (ne_true_of_eq_false hopen))⟩
  case start =>
    intro co hscene hidle hfresh hsheet
    have hstart : exec (.coreSceneStart c) s = _ := congrArg Host.Outcome.next (sceneStartCore_ready hscene hidle hfresh hsheet)
    rw [hstart]
    refine ⟨fun hstage => ?_, fun hstage hphase hhold => ?_, fun hstage hphase hhold => ?_⟩
    · rw [if_neg (by omega), if_pos hstage]
    · rw [if_pos ⟨hstage, hphase⟩, if_pos hhold]
    · rw [if_pos ⟨hstage, hphase⟩, if_neg (ne_true_of_eq_false hhold)]
  case replay =>
    intro a v x cut
    have hcmd (hslates : slateStatus v p [n] = 0) : exec (.replay p r) s = _ :=
      (exec_replay_taken htaken).trans (congrArg _ ((replayCmd_recorded hhold hboard0 hwarm hrecord hrsv).trans
        (congrArg (replayAnswer ref) (replayRun_judged hagain hboard hslates))))
    exact ⟨fun hslates hadmit => (hcmd hslates).trans (congrArg _ (congrArg (replayAnswer ref) (if_neg (not_not.mpr hadmit)))),
      fun hslates hrefused => (hcmd hslates).trans (congrArg _
        ((congrArg (replayAnswer ref) (if_pos hrefused)).trans (replayAnswer_refused hrefused)))⟩
  case restore =>
    have hend {q} (hwrite : replayRestore s b x = q) : exec (.keyframeRestoreDone sc st) s = .next (restoreOutcome x q) := by
      rw [← hwrite, ← restoreEnd_written hfind hboard, ← hst]
      rfl
    exact ⟨fun l => hend, hend, fun m k hwrite hreplay => (hend hwrite).trans (congrArg _ (replayLost_ordered hreplay))⟩
  case remapped =>
    exact (exec_remap_taken htaken).trans (congrArg _ (remapCmd_done hrsv (remapOrder_passes hboard hrecord hcheck)))
  case remapRefused =>
    exact (exec_remap_taken htaken).trans (congrArg _ (remapCmd_refused hrsv he (remapOrder_fails hboard hrecord he hcheck)))

end Sys2Proof.Machine
end

section
/-! SUPPORT. Routers: which head an output port grants, and the hop, wait or return of a head (R302 to R304, R306, R312). -/

namespace Sys2Proof.Machine

open Sys2Proof

/-! ### Which head an output port grants (R303) -/

/-- The head whose turn it is is one of the heads. -/
theorem turnHead_mem {n : Nat} {l : List Flight} {f : Flight} (h : turnHead n l = some f) : f ∈ l := by
  refine List.foldlRecOn (motive := fun (b : Option Flight) => ∀ g, b = some g → g ∈ l) l _ (by rintro _ ⟨⟩) ?_ f h
  intro b hb a ha g hg
  cases b with
  | none => exact Option.some.inj hg ▸ ha
  | some c =>
    dsimp only at hg
    split at hg
    · exact Option.some.inj hg ▸ ha
    · exact hb g hg

/-- Heads that wait are never passed over: it is the turn of one of them. -/
theorem turnHead_isSome (n : Nat) {l : List Flight} (h : l ≠ []) : (turnHead n l).isSome = true := by
  obtain ⟨f, fs, rfl⟩ := List.exists_cons_of_ne_nil h
  refine List.foldlRecOn (motive := fun (b : Option Flight) => b.isSome = true) fs _ rfl ?_
  intro b hb a _
  cases b with
  | none => rfl
  | some c =>
    dsimp only
    split <;> rfl

theorem turnHead_nil (n : Nat) : turnHead n [] = none := rfl

theorem readyHeads_vc {s : State} {ready : Flight → Bool} {cl pl v : Nat} {o : PortDir} {f : Flight}
    (h : f ∈ readyHeads s ready cl pl o v) : pVc f.pkt.hdr = v := by
  obtain ⟨d, -, hd⟩ := List.mem_filterMap.mp h
  cases hhead : headOf s cl pl d v with
  | none => simp [hhead] at hd
  | some g =>
    have hvc := List.find?_some hhead
    simp only [Bool.and_eq_true, beq_iff_eq] at hvc
    simp only [hhead, Option.ite_none_right_eq_some, Option.some.injEq] at hd
    exact hd.2 ▸ hvc.2

section
variable {s : State} {ready : Flight → Bool} {cl pl : Nat} {o : PortDir} {g : Flight}
  (hgrant : granted s ready cl pl o = some g)
include hgrant

theorem granted_mem : g ∈ readyHeads s ready cl pl o (pVc g.pkt.hdr) := by
  obtain ⟨v, -, hv⟩ := List.exists_of_findSome?_eq_some hgrant
  have hg := turnHead_mem hv
  rwa [readyHeads_vc hg]

/-- The first channel in the port's order that holds a ready head is the one granted. -/
theorem granted_vc {v : Nat} {before after : List Nat} (horder : vcOrder (arbOf s cl pl o) = before ++ v :: after)
    (hbefore : ∀ u ∈ before, readyHeads s ready cl pl o u = []) (hv : readyHeads s ready cl pl o v ≠ []) : pVc g.pkt.hdr = v := by
  obtain ⟨f, hf⟩ := Option.isSome_iff_exists.mp (turnHead_isSome ((arbOf s cl pl o).last.getD v 0) hv)
  have hskip : before.findSome? (fun u => turnHead ((arbOf s cl pl o).last.getD u 0) (readyHeads s ready cl pl o u)) = none :=
    List.findSome?_eq_none_iff.mpr fun u hu => by rw [hbefore u hu, turnHead_nil]
  have hfirst : granted s ready cl pl o = some f := by
    simp only [granted, horder, List.findSome?_append, hskip, List.findSome?_cons, hf, Option.none_or]
  rw [hgrant] at hfirst
  exact readyHeads_vc (turnHead_mem (Option.some.inj hfirst ▸ hf))

end

/-- While no channel has waited 32 cycles, RSP follows CTL. -/
theorem vcOrder_young {a : Arb} (h : ∀ v, a.age.getD v 0 < 32) : vcOrder a = [0, 2, 1, 3] := by
  have hnone : ([2, 1, 3].filter fun v => decide (32 ≤ a.age.getD v 0)) = [] :=
    List.filter_eq_nil_iff.mpr fun v _ => by simp only [decide_eq_true_eq]; exact Nat.not_le.mpr (h v)
  rw [vcOrder, hnone]
  rfl

/-! ### The head of a buffer (R302, R304, R312) -/

section
variable {s : State} {f : Flight}

/-- A head whose link exists and is lit takes its hop when it is granted, and waits otherwise. -/
theorem forward_link {o : PortDir} {n : Nat} (hentry : outPort s f = some o) (hout : o ≠ .loc) (hbeyond : beyond f.cl o = some n)
    (hlit : isDark s n = false) : forward s f =
      if granted s (linkReady s o) f.cl f.plane o = some f then hop (grantArb s (linkReady s o) o f) f o n else s := by
  unfold forward
  cases o with
  | loc => exact absurd rfl hout
  | _ => simp only [hentry, hbeyond, hlit, Bool.false_eq_true, if_false]

/-- Without an entry, or before a dark cluster, a head goes back. -/
theorem forward_back
    (h : outPort s f = none ∨ ∃ o n, outPort s f = some o ∧ o ≠ .loc ∧ beyond f.cl o = some n ∧ isDark s n = true) :
    forward s f = if returnReady s f then darkReturn s f else s := by
  unfold forward
  rcases h with hentry | ⟨o, n, hentry, hout, hbeyond, hdark⟩
  · rw [hentry]
  · cases o with
    | loc => exact absurd rfl hout
    | _ => simp only [hentry, hbeyond, hdark, if_true]

/-- At its end a head waits for its unit. -/
theorem forward_local (hentry : outPort s f = some .loc) : forward s f = s := by
  unfold forward
  rw [hentry]

/-- A hop of a packet just granted: its router counts its flits, and the packet joins the far router's buffers as the last. -/
theorem hop_granted (ready : Flight → Bool) (o : PortDir) (n : Nat) : hop (grantArb s ready o f) f o n =
    injectGo { setRouter (grantArb s ready o f) f.cl f.plane fun r => { r with flits := satAdd 0xFFFFFFFF r.flits (flitsOf f.pkt) } with
      mesh := s.mesh.erase f ++ [⟨n, f.plane, farSide o,
        { f.pkt with hdr := if o = .w then f.pkt.hdr else setWdone f.pkt.hdr }, none⟩] } f.cl f.plane (pVc f.pkt.hdr) := rfl

theorem exec_routerForward_head {k : ClusterId} {pl : Plane} {d : PortDir} {vc : Chan} (hlit : isDark s (clKey k) = false)
    (hhead : headOf s (clKey k) pl.val d (chanNo vc) = some f) :
    exec (.routerForward k pl d vc) s = .next (fenceStep (forward s f)) := by
  simp only [exec, execRouterForward, hlit, Bool.false_eq_true, if_false, hhead]

end

/-! ### The end of a route fence (R306) -/

theorem fenceStep_none {s : State} (h : s.routeFence = none) : fenceStep s = s := by
  unfold fenceStep
  rw [h]

theorem fenceStep_some {s : State} {new : List Nat} (h : s.routeFence = some new) :
    fenceStep s = if fenceWaits s then s else injectAll { s with routeDark := new, routeFence := none } := by
  unfold fenceStep
  rw [h]

/-- Settles O21: the head by `forward_link`, `forward_back` and `forward_local` (a whole packet in one row, log entry 80), the grant
by `granted_vc` and the fence by `fenceStep_some` (log entry 100). -/
theorem routerForwardResults : Obligations.RouterForwardResults := by
  intro s k pl d vc f entry
  refine ⟨fun hlit hhead => ?_, fun ready o g hgrant => ⟨granted_mem hgrant, fun hctl => ?ctl, fun hctl hyoung hrsp => ?rsp⟩,
    fenceStep_none, fun new => fenceStep_some⟩
  · rw [exec_routerForward_head hlit hhead]
    refine ⟨fun o n hentry hout hbeyond hnext hgrant => ?hop, fun o n hentry hout hbeyond hnext hother => ?waits,
      fun hback => congrArg _ (congrArg _ (forward_back hback)), fun hend => congrArg _ (congrArg _ (forward_local hend))⟩
    case hop =>
      rw [forward_link hentry hout hbeyond hnext, if_pos hgrant, hop_granted]
    case waits =>
      rw [forward_link hentry hout hbeyond hnext, if_neg hother]
  case ctl =>
    exact granted_vc hgrant (before := []) rfl (fun _ hu => nomatch hu) hctl
  case rsp =>
    exact granted_vc hgrant (before := [0]) (vcOrder_young hyoung) (by simpa using hctl) hrsp

end Sys2Proof.Machine
end

section
/-! SUPPORT. Power by command: budgets, fades and unfades, stop limits and energy counters (R306, R501, R523, R524, R535 to R542). -/

namespace Sys2Proof.Machine

open Sys2Proof

/-! ### Budgets (R524) -/

section
variable {r : CmdRec} {ref : CmdRef} {t : State}

/-- A budget in range, with no lease or one in range, replaces the old budget and its lease. -/
theorem budgetBody_set (hrsv : rsvOk r [(36, 0, 32), (40, 0, 32)] = true) (hlow : 30000 ≤ pb r 36 4) (hhigh : pb r 36 4 ≤ 84000)
    (hlease : pb r 40 4 = 0 ∨ 100 ≤ pb r 40 4 ∧ pb r 40 4 ≤ 600000) :
    budgetBody r ref t = finish { t with power := { t.power with
        budget := pb r 36 4
        lease := if pb r 40 4 = 0 then none else some (now t + pb r 40 4 * 1000000)
        fallback := false } } ref 0 [(24, 4, t.power.budget)] :=
  if_neg (by simp only [hrsv, reduceCtorEq, false_or]; omega)

theorem budgetBody_refused (hrange : pb r 36 4 < 30000 ∨ 84000 < pb r 36 4) : budgetBody r ref t = finish t ref 0x0103 [] :=
  if_pos (.inr (by omega))

/-! ### FADE and UNFADE begin (R535, R537) -/

section
variable (hrun : t.clock.hold = false)
include hrun

theorem fadeBody_begins (hform : askBad r false = false) (hok : fadeStatus t (askOf r) = 0) :
    fadeBody r ref t = fadeBegin (accept t ref []) (askOf r) (some ref) none 0 := by
  simp only [fadeBody, hrun, hform, hok, Bool.false_eq_true, if_false]

theorem fadeBody_refused (hform : askBad r false = false) (hbad : fadeStatus t (askOf r) ≠ 0) :
    fadeBody r ref t = finish t ref (fadeStatus t (askOf r)) [] := by
  obtain ⟨e, he⟩ := Nat.exists_eq_succ_of_ne_zero hbad
  simp only [fadeBody, hrun, hform, he, Bool.false_eq_true, if_false]

theorem unfadeBody_begins (hform : askBad r true = false) (hok : unfadeStatus t (askOf r) = 0) :
    unfadeBody r ref t = unfadeBegin (accept t ref []) (askOf r) (some ref) none := by
  simp only [unfadeBody, hrun, hform, hok, Bool.false_eq_true, if_false]

theorem unfadeBody_refused (hform : askBad r true = false) (hbad : unfadeStatus t (askOf r) ≠ 0) :
    unfadeBody r ref t = finish t ref (unfadeStatus t (askOf r)) [] := by
  obtain ⟨e, he⟩ := Nat.exists_eq_succ_of_ne_zero hbad
  simp only [unfadeBody, hrun, hform, he, Bool.false_eq_true, if_false]

end

/-! ### Stop limits (R523) -/

theorem limitBody_set (hrsv : rsvOk r [(36, 0, 8), (37, 0, 8)] = true) (hstop : pb r 37 1 ≤ 15)
    (hframe : pb r 36 1 = 0xFF ∨ frameOk t (pb r 36 1) = true) :
    limitBody r ref t = finish ((if pb r 36 1 = 0xFF then (List.range 56).filter (frameOk t) else [pb r 36 1]).foldl
      (fun u f => setFrame u f { getFrame u f with limit := BitVec.ofNat 4 (pb r 37 1) }) t) ref 0 [] := by
  have hfine : ¬ (pb r 36 1 ≠ 0xFF ∧ frameOk t (pb r 36 1) = false) := by
    rintro ⟨hone, hnone⟩
    rcases hframe with hall | hok
    · exact hone hall
    · exact ne_true_of_eq_false hnone hok
  refine if_neg ?_
  rintro (hform | hhigh | hmissing)
  · exact ne_true_of_eq_false hform hrsv
  · exact Nat.not_lt.mpr hstop hhigh
  · exact hfine hmissing

/-! ### Energy counters (R541, R542) -/

theorem energyBody_read {p : HostPort} (hform : energyBad t r = false) :
    let u := growEnergy t (pb r 36 1) (pb r 40 4) (pb r 44 4)
    energyBody p r ref t = finish (hostWrite u p (pb r 48 8)
      ((List.range (pb r 44 4)).flatMap fun i => leBytes 8 (energyOf u (pb r 36 1) (pb r 40 4 + i)))) ref 0 [(24, 8, u.power.boundary)] :=
  if_neg (ne_true_of_eq_false hform)

end

/-- Counters with a rail of their own, and those of a slate without vaults or ports, do not grow as they are read (log entry 64). -/
theorem growEnergy_still {t : State} {kind first n : Nat} (h : kind ≤ 3 ∨ kind = 4 ∧ usesUnits t first = false) :
    growEnergy t kind first n = t := by
  unfold growEnergy
  rcases h with hkind | ⟨hkind, hunused⟩
  · rw [if_neg (by omega), if_neg (by omega)]
  · rw [if_pos hkind, growSlate, hunused]
    rfl

/-! ### Fades and unfades end (R501, R536, R538) -/

section
variable {s : State} {w : FadeWork}

/-- Once its fence and the flits of its region are gone, the oldest fade ends. -/
theorem fadeEnd_done (hopen : (fenceStep s).routeFence = none) (hfirst : (fenceStep s).works.fades.find? (·.off) = some w)
    (hclear : fadeFlits (fenceStep s) w = false) :
    fadeEnd s = fadeReply (fadeEvent ((framesOf w.clusters).foldl settleSource
      (w.clusters.foldl (fadeCluster w.retain) (dropFade (fenceStep s) w))) 0x9040 w w.clusters.length) w 0 := by
  simp only [fadeEnd, hfirst, hopen, hclear, Option.isSome_none, Bool.false_eq_true, or_self, if_false]

theorem fadeEnd_waits (hfirst : (fenceStep s).works.fades.find? (·.off) = some w)
    (hbusy : (fenceStep s).routeFence.isSome = true ∨ fadeFlits (fenceStep s) w = true) : fadeEnd s = fenceStep s := by
  simp only [fadeEnd, hfirst]
  exact if_pos hbusy

/-- The oldest unfade fails with a unit of its region, waits for its route fence, or ends. -/
theorem unfadeEnd_first (hfirst : s.works.fades.find? (fun w => !w.off) = some w) : unfadeEnd s =
    let u := fenceTo (fenceStep s) (darkSet s [] w.clusters)
    if unfadeFailed s w then fadeReply (dropFade s w) w 0x0601
    else if u.routeFence.isSome then u
    else fadeReply (fadeEvent ((framesOf w.clusters).foldl settleSource
      (w.clusters.foldl unfadeCluster (dropFade u w))) 0x9041 w w.clusters.length) w 0 := by
  simp only [unfadeEnd, hfirst]

end

/-- Settles O50: each command by its body, FADE and UNFADE (log entry 65) to their ends by `fadeEnd_done`, `fadeEnd_waits` and
`unfadeEnd_first` (log entry 100), energy by `energyBody_read` and `growEnergy_still` (log entry 64). -/
theorem powerCommands : Obligations.PowerCommands := by
  intro s t p r ref w b ms
  refine ⟨fun htaken hrsv => ?budget, fun htaken hrun hform => ?fade, fun htaken hrun hform => ?unfade, ?fadeEnds,
    fun hfirst => ?unfadeEnds, fun htaken hrsv hstop hframe => ?limit, fun htaken hform => ?energy⟩
  case budget =>
    rw [exec_powerBudgetSet_taken htaken]
    exact ⟨fun hlow hhigh hlease => congrArg _ (budgetBody_set hrsv hlow hhigh hlease),
      fun hrange => congrArg _ (budgetBody_refused hrange)⟩
  case fade =>
    rw [exec_fade_taken htaken]
    exact ⟨fun hok => congrArg _ (fadeBody_begins hrun hform hok), fun hbad => congrArg _ (fadeBody_refused hrun hform hbad)⟩
  case unfade =>
    rw [exec_unfade_taken htaken]
    exact ⟨fun hok => congrArg _ (unfadeBody_begins hrun hform hok), fun hbad => congrArg _ (unfadeBody_refused hrun hform hbad)⟩
  case fadeEnds =>
    exact ⟨fun hopen hfirst hclear => congrArg _ (fadeEnd_done hopen hfirst hclear),
      fun hfirst hbusy => congrArg _ (fadeEnd_waits hfirst hbusy), fenceStep_none⟩
  case unfadeEnds =>
    have hend : exec .unfadeComplete s = _ := congrArg Host.Outcome.next (unfadeEnd_first hfirst)
    rw [hend]
    refine ⟨fun u hsound hfence => ?_, fun hfailed => congrArg _ (if_pos hfailed)⟩
    subst hfence
    refine ⟨fun hopen => congrArg _ ((if_neg (ne_true_of_eq_false hsound)).trans (if_neg ?_)),
      fun hwaits => congrArg _ ((if_neg (ne_true_of_eq_false hsound)).trans (if_pos hwaits))⟩
    rw [hopen]
    exact Bool.false_ne_true
  case limit =>
    rw [exec_stopLimitSet_taken htaken, limitBody_set hrsv hstop hframe]
  case energy =>
    exact ⟨(exec_energyRead_taken htaken).trans (congrArg _ (energyBody_read hform)), growEnergy_still⟩

end Sys2Proof.Machine
end

section
/-! SUPPORT. The vault port: reads, writes, repairs, patrol and bands (R323 to R337). Each rule below holds of every state, but for
the two that read a line's CRC back after it was renewed: those ask for the canonical form of the CRC table. O28 and O29 state them
without it, and a table that lists a line twice refutes them. -/

namespace Sys2Proof.Machine

open Sys2Proof

/-! ### Reads and writes of lines (R323, R327, R332) -/

section
variable {s : State} {cl w n code idx : Nat} {ws : List Word} {req : Option VaultReq}

/-- The vault that a write of `ws` from word `w` leaves. -/
def written (v : Vault) (w : Nat) (ws : List Word) : Vault := immWritten (vaultStore v w ws) w ws.length

theorem onLocked_of_none {v : Vault} (w n : Nat) (hfree : v.locked = none) : onLocked v w n = false := by
  simp [onLocked, hfree]

/-- A line found good, and free of repair, is read without a change of the module. -/
theorem vaultRead_ok (hfree : onLocked (getCl s cl).vault w n = false)
    (hgood : ∀ l ∈ linesOf w n, lineBad (getCl s cl).vault l = false) :
    vaultRead s cl w n code idx req = (s, .ok (ramWords (getCl s cl).vault.mem w n)) := by
  have hnone : (linesOf w n).find? (lineBad (getCl s cl).vault) = none :=
    List.find?_eq_none.mpr fun l hl => by simp [hgood l hl]
  simp only [vaultRead, hfree, hnone, Bool.false_eq_true, if_false]

/-- Only a line covered in part is checked before a write (R327). -/
theorem vaultWrite_ok (hfree : onLocked (getCl s cl).vault w ws.length = false)
    (hgood : ∀ l ∈ linesOf w ws.length, partialLine w ws.length l = true → lineBad (getCl s cl).vault l = false) :
    vaultWrite s cl w ws idx req = (setVault s cl (written (getCl s cl).vault w ws), .ok []) := by
  have hnone : (linesOf w ws.length).find? (fun l => partialLine w ws.length l && lineBad (getCl s cl).vault l) = none :=
    List.find?_eq_none.mpr fun l hl hbad => by
      obtain ⟨hpart, hbad⟩ := (Bool.and_eq_true _ _).mp hbad
      exact absurd (hgood l hl hpart) (by simp [hbad])
  simp only [vaultWrite, hfree, hnone, Bool.false_eq_true, if_false, written]

theorem lineBad_written_eq (v : Vault) (l : Nat) : lineBad (written v w ws) l = lineBad (vaultStore v w ws) l := rfl

/-- In a canonical CRC table every line a write touches matches its CRC afterwards (R323). -/
theorem lineBad_written {v : Vault} {l : Nat} (hcrc : smapOk zeroLineCrc v.crc = true) (hl : l ∈ linesOf w ws.length) :
    lineBad (written v w ws) l = false :=
  (lineBad_written_eq v l).trans (lineBad_vaultStore w ws hcrc hl)

theorem ramByte_written_other (v : Vault) {x : Nat} (h : x < 4 * w ∨ 4 * (w + ws.length) ≤ x) :
    ramByte (written v w ws).mem x = ramByte v.mem x :=
  ramByte_putWords_other v.mem ws h

end

/-! ### The port's turn (R325, R330) -/

section
variable {s : State} {cl : Nat} {r : VaultReq}

/-- A vault that is present reads as written. -/
theorem vault_setVault {v : Vault} (hmode : v.mode ≠ .absent) : (getCl (setVault s cl v) cl).vault = v := by
  have hne : ({ getCl s cl with vault := v } : Cluster) ≠ Cluster.reset := fun h =>
    hmode (congrArg (fun c => c.vault.mode) h)
  rw [setVault, getCl_setCl_of_ne s cl hne]

theorem onLocked_of_vaultPick {v : Vault} {q seen : List VaultReq} (h : vaultPick v q seen = some r) :
    onLocked v r.w r.len = false := by
  induction q generalizing seen with
  | nil => cases h
  | cons x q ih =>
    unfold vaultPick at h
    split at h
    case isTrue => exact ih h
    case isFalse hfree =>
      obtain rfl := Option.some.inj h
      exact Bool.eq_false_of_not_eq_true fun hlock => hfree (by simp [hlock])

theorem vaultServe_idle
    (h : vaultWorks (getCl s cl).vault = true → vaultPick (getCl s cl).vault (getCl s cl).vault.queue [] = none) :
    vaultServe s cl = s := by
  by_cases hworks : vaultWorks (getCl s cl).vault = true
  · simp only [vaultServe, hworks, h hworks, if_true]
  · simp only [vaultServe, Bool.eq_false_of_not_eq_true hworks, Bool.false_eq_true, if_false]

section
variable (hworks : vaultWorks (getCl s cl).vault = true)
  (hpick : vaultPick (getCl s cl).vault (getCl s cl).vault.queue [] = some r)
include hworks hpick

/-- The request picked leaves the queue, and its requester is told. -/
theorem vaultServe_answers {u : State} {out : RdOut} (hrun : vaultRun s cl r = (u, out)) (hdone : out ≠ .wait) :
    vaultServe s cl =
      vaultAnswer (setVault u cl { (getCl u cl).vault with queue := (getCl u cl).vault.queue.erase r }) cl r out := by
  cases out with
  | wait => exact absurd rfl hdone
  | ok ws => simp only [vaultServe, hworks, hpick, hrun, if_true]
  | err => simp only [vaultServe, hworks, hpick, hrun, if_true]

theorem vaultServe_read (hread : r.data = none) (hgood : ∀ l ∈ linesOf r.w r.len, lineBad (getCl s cl).vault l = false) :
    vaultServe s cl = vaultAnswer (setVault s cl { (getCl s cl).vault with queue := (getCl s cl).vault.queue.erase r }) cl r
      (.ok (ramWords (getCl s cl).vault.mem r.w r.len)) := by
  have hrun : vaultRun s cl r = (s, .ok (ramWords (getCl s cl).vault.mem r.w r.len)) := by
    simp only [vaultRun, hread, vaultRead_ok (onLocked_of_vaultPick hpick) hgood]
  exact vaultServe_answers hworks hpick hrun (by simp)

theorem vaultServe_write {ws new : List Word} (hwrite : r.data = some ws) (hnew : reqWords (getCl s cl).vault r ws = new)
    (hfree : (getCl s cl).vault.locked = none)
    (hgood : ∀ l ∈ linesOf r.w new.length, partialLine r.w new.length l = true → lineBad (getCl s cl).vault l = false) :
    vaultServe s cl = vaultAnswer (setVault (setVault s cl (written (getCl s cl).vault r.w new)) cl
      { written (getCl s cl).vault r.w new with queue := (getCl s cl).vault.queue.erase r }) cl r (.ok []) := by
  have hrun : vaultRun s cl r = (setVault s cl (written (getCl s cl).vault r.w new), .ok []) := by
    simp only [vaultRun, hwrite, hnew, vaultWrite_ok (onLocked_of_none _ _ hfree) hgood]
  have hmode : (written (getCl s cl).vault r.w new).mode ≠ .absent := fun habsent => by
    have : (getCl s cl).vault.mode = .absent := habsent
    simp [vaultWorks, this] at hworks
  rw [vaultServe_answers hworks hpick hrun (by simp), vault_setVault hmode]
  rfl

end
end

/-! ### Repair and patrol (R334, R335, R337) -/

section
variable {s : State} {cl : Nat} {k : ClusterId} {data : List Byte} {r : Refetch}

/-- The vault once `data` has repaired line `l`. -/
def repaired (v : Vault) (l : Nat) (data : List Byte) : Vault :=
  crcRenew { v with mem := ramPutBytes v.mem (64 * l) data, locked := none, refetchDone := satAdd 0xFFFF v.refetchDone 1 } [l]

theorem satAdd_ne_zero (a : Nat) : satAdd 0xFFFF a 1 ≠ 0 := by
  unfold satAdd
  split <;> omega

/-- A vault whose repair has been counted reads as written. -/
theorem vault_setVault_repaired (v : Vault) (l : Nat) :
    (getCl (setVault s cl (repaired v l data)) cl).vault = repaired v l data := by
  have hne : ({ getCl s cl with vault := repaired v l data } : Cluster) ≠ Cluster.reset := fun h =>
    satAdd_ne_zero v.refetchDone (congrArg (fun c => c.vault.refetchDone) h)
  rw [setVault, getCl_setCl_of_ne s cl hne]

/-- In a canonical CRC table a repaired line matches its CRC (R334). -/
theorem lineBad_repaired {v : Vault} {l : Nat} (hcrc : smapOk zeroLineCrc v.crc = true) :
    lineBad (repaired v l data) l = false := by
  rw [repaired, lineBad_crcRenew [l] (by exact hcrc), if_pos (List.mem_singleton_self l)]

@[simp] theorem ownerOf_setVault (v : Vault) (space place w : Nat) :
    ownerOf (setVault s cl v) space place w = ownerOf s space place w := rfl

@[simp] theorem now_setVault (v : Vault) : now (setVault s cl v) = now s := rfl

/-- The module once a repair has been reported (event 0x2021). -/
def repairTold (s : State) (cl : Nat) (r : Refetch) (data : List Byte) : State :=
  raiseEv (setVault s cl (repaired (getCl s cl).vault r.line data)) 0x2021 1 ⟨none, ownerOf s 3 cl (16 * r.line), none⟩
    [(28, 2, targetOfCl cl), (30, 4, r.line), (34, 1, r.code), (35, 1, r.entry), (36, 4, (now s - r.since) / 1000)]

theorem vaultRepair_alone (hlocked : (getCl s cl).vault.locked = some r) (hreq : r.req = none) :
    vaultRepair s cl data = repairTold s cl r data := by
  simp only [vaultRepair, hlocked, hreq, repairTold, repaired, ownerOf_setVault, now_setVault]

/-- The request that waited is served once the line is repaired. -/
theorem vaultRepair_serves {q : VaultReq} {u : State} {out : RdOut} (hlocked : (getCl s cl).vault.locked = some r)
    (hreq : r.req = some q) (hrun : vaultRun (repairTold s cl r data) cl q = (u, out)) (hdone : out ≠ .wait) :
    vaultRepair s cl data = vaultAnswer u cl q out := by
  simp only [repairTold, repaired] at hrun
  cases out with
  | wait => exact absurd rfl hdone
  | ok ws => simp only [vaultRepair, hlocked, hreq, ownerOf_setVault, now_setVault, hrun]
  | err => simp only [vaultRepair, hlocked, hreq, ownerOf_setVault, now_setVault, hrun]

/-- The module once a repair has failed (R335): the event, the memory fault it stands for, and an error for the request that
waited. -/
def repairLost (s : State) (cl : Nat) (r : Refetch) (failure : Nat) : State :=
  let v := (getCl s cl).vault
  let told := vaultCrcEvent (setVault s cl (refetchLost { v with locked := none })) cl r.line r.code (refetchIdx r) 1 failure
  match r.req with
  | none => told
  | some q => vaultAnswer told cl q .err

theorem vaultRefetchFail_locked (failure : Nat) (hlocked : (getCl s cl).vault.locked = some r) :
    vaultRefetchFail s cl failure = repairLost s cl r failure := by
  simp only [vaultRefetchFail, hlocked]
  rfl

theorem exec_vaultRefetchTimeout (hlocked : (getCl s (clKey k)).vault.locked = some r) :
    exec (.vaultRefetchTimeout k) s = .next (refetchForget (repairLost s (clKey k) r 4) (clKey k)) := by
  have hexec : exec (.vaultRefetchTimeout k) s = execVaultRefetchTimeout k s := rfl
  rw [hexec, execVaultRefetchTimeout, hlocked, Option.isSome_some, if_pos rfl, vaultRefetchFail_locked 4 hlocked]

/-- The data of a HOST origin repair the line if they are a whole line, and else are the host's refusal (R334, log entry 75). -/
theorem exec_vaultRefetchDone (hlocked : (getCl s (clKey k)).vault.locked = some r) (hhost : r.origin.kind = 1) :
    exec (.vaultRefetchDone k data) s =
      .next (if data.length = 64 then vaultRepair s (clKey k) data else repairLost s (clKey k) r 1) := by
  have hexec : exec (.vaultRefetchDone k data) s = execVaultRefetchDone k data s := rfl
  rw [hexec, ← vaultRefetchFail_locked 1 hlocked]
  simp only [execVaultRefetchDone, lockedEntry, hlocked, Option.map_some, hhost, if_true]
  split <;> rfl

theorem linesOf_line (l : Nat) : linesOf (16 * l) 16 = [l] := by
  have hcount : (16 * l + 16 - 1) / 16 - 16 * l / 16 + 1 = 1 := by omega
  have hfirst : 16 * l / 16 = l := by omega
  rw [linesOf, hcount, hfirst]
  simp

/-- The patrol of an idle port reads a line that matches its CRC, and goes on to the next (R337). -/
theorem exec_vaultPatrol (hmode : (getCl s (clKey k)).vault.mode = .active) (hidle : (getCl s (clKey k)).vault.queue = [])
    (hscrub : scrubbing s (clKey k) = false) (hon : (getCl s (clKey k)).vault.patrolEn = true) (hvaults : noVaults s = false)
    (hfree : (getCl s (clKey k)).vault.locked = none)
    (hgood : lineBad (getCl s (clKey k)).vault (getCl s (clKey k)).vault.patrolLine = false) :
    exec (.vaultPatrol k) s = .next (setVault s (clKey k) { (getCl s (clKey k)).vault with
      patrolLine := if 16 * ((getCl s (clKey k)).vault.patrolLine + 1) < vaultWords s
        then (getCl s (clKey k)).vault.patrolLine + 1 else 0 }) := by
  have hexec : exec (.vaultPatrol k) s = execVaultPatrol k s := rfl
  have hread : ∀ code idx req, vaultRead s (clKey k) (16 * (getCl s (clKey k)).vault.patrolLine) 16 code idx req =
      (s, .ok (ramWords (getCl s (clKey k)).vault.mem (16 * (getCl s (clKey k)).vault.patrolLine) 16)) := fun _ _ _ =>
    vaultRead_ok (onLocked_of_none _ _ hfree) (by rw [linesOf_line]; simpa using hgood)
  rw [hexec]
  simp [execVaultPatrol, execVaultPatrol.step1, vaultServes, hmode, hidle, hscrub, hon, hvaults, hread]

end

/-! ### Bands (R329) -/

/-- A sample moves a vault up to the band of its temperature at once, and down only once it lies two degrees below its band. -/
theorem bandNext_eq {b : Nat} (hb : b ≤ 3) (t : Int) :
    (100 ≤ t → bandNext b t = 3)
    ∧ (95 ≤ t → t < 100 → bandNext b t = if b = 3 ∧ 98 < t then 3 else 2)
    ∧ (85 ≤ t → t < 95 → bandNext b t = if b = 2 ∧ 93 < t ∨ b = 3 ∧ 93 < t then 2 else 1)
    ∧ (t < 85 → bandNext b t = if 1 ≤ b ∧ 83 < t then 1 else 0) := by
  refine ⟨fun hhard => ?hard, fun hlow hhigh => ?soft, fun hlow hhigh => ?warm, fun hhigh => ?cool⟩
  case hard => simp only [bandNext, if_pos hhard, if_pos hb]
  case soft => interval_cases b <;> grind [bandNext, bandDown, bandLow]
  case warm => interval_cases b <;> grind [bandNext, bandDown, bandLow]
  case cool => interval_cases b <;> grind [bandNext, bandDown, bandLow]

/-! ### A line listed twice -/

/-- A renewal to the CRC of a zero line takes one entry off the table: of a line listed twice the second entry then shows. -/
theorem crcHeld_crcRenew_listedTwice {v : Vault} {l : Nat} {c d : Word} {m : SMap Word} (hcrc : v.crc = (l, c) :: (l, d) :: m)
    (hzero : lineCrc v.mem l = zeroLineCrc) : crcHeld (crcRenew v [l]) l = d := by
  simp [crcHeld, crcRenew, hcrc, hzero, smapSet, smapDel, smapGet]

theorem lineBad_crcRenew_listedTwice {v : Vault} {l : Nat} {c d : Word} {m : SMap Word} (hcrc : v.crc = (l, c) :: (l, d) :: m)
    (hzero : lineCrc v.mem l = zeroLineCrc) (hd : d ≠ zeroLineCrc) : lineBad (crcRenew v [l]) l = true := by
  rw [lineBad, crcHeld_crcRenew_listedTwice hcrc hzero, crcRenew_mem, hzero]
  exact bne_iff_ne.mpr hd

/-- A zeroed vault whose CRC table lists line 0 twice, which no renewal makes of a canonical one
(`smapOk_crcRenew`). -/
def listedTwice (locked : Option Refetch) : Vault :=
  { Vault.reset with mode := .active, crc := [(0, 1), (0, 1)], locked := locked }

/-- The module with this vault at cluster (0, 0). -/
def listedTwiceState (locked : Option Refetch) : State :=
  { State.reset with clusters := [(0, { Cluster.reset with vault := listedTwice locked })] }

def cornerCluster : ClusterId := ⟨0, 0⟩

/-- Line 0 under repair from host memory, for a patrol read. -/
def cornerRefetch : Refetch := ⟨0, 0, ⟨1, false, 0, 0, 0, 16, 0, 0⟩, 4, none, 0⟩

theorem vault_listedTwiceState (locked : Option Refetch) :
    (getCl (listedTwiceState locked) (clKey cornerCluster)).vault = listedTwice locked := rfl

set_option maxRecDepth 20000 in
/-- The CRC of 64 zero bytes is the one an unlisted line holds (R323). -/
theorem lineCrc_zero : lineCrc .zero 0 = zeroLineCrc := by decide

theorem ramPutBytes_zero (a n : Nat) : ramPutBytes .zero a (List.replicate n 0) = .zero := by
  induction n generalizing a with
  | zero => rfl
  | succ n ih => exact ih (a + 1)

theorem ramPutWords_zero (w n : Nat) : ramPutWords .zero w (List.replicate n 0) = .zero := by
  induction n generalizing w with
  | zero => rfl
  | succ n ih => exact ih (w + 1)

theorem lineBad_written_listedTwice : lineBad (written (listedTwice none) 0 (List.replicate 16 0)) 0 = true := by
  rw [lineBad_written_eq, vaultStore, List.length_replicate, show linesOf 0 16 = [0] from linesOf_line 0]
  exact lineBad_crcRenew_listedTwice rfl ((congrArg (lineCrc · 0) (ramPutWords_zero 0 16)).trans lineCrc_zero) (by decide)

theorem lineBad_repaired_listedTwice : lineBad (repaired (listedTwice (some cornerRefetch)) 0 (List.replicate 64 0)) 0 = true :=
  lineBad_crcRenew_listedTwice (v := { listedTwice (some cornerRefetch) with
      mem := ramPutBytes .zero (64 * 0) (List.replicate 64 0), locked := none, refetchDone := satAdd 0xFFFF 0 1 })
    rfl ((congrArg (lineCrc · 0) (ramPutBytes_zero 0 64)).trans lineCrc_zero) (by decide)

/-! ### The two statements -/

/-- What O28 says, of a vault whose CRC table is canonical. -/
theorem vaultAccesses_of_canonical {s : State} {k : ClusterId} {v : Vault} (hvault : (getCl s (clKey k)).vault = v)
    (hcrc : smapOk zeroLineCrc v.crc = true) :
    (∀ r u out, vaultWorks v = true → vaultPick v v.queue [] = some r → vaultRun s (clKey k) r = (u, out) → out ≠ .wait →
      exec (.vaultPortRequest k) s = .next (vaultAnswer (setVault u (clKey k) { (getCl u (clKey k)).vault with
        queue := (getCl u (clKey k)).vault.queue.erase r }) (clKey k) r out))
    ∧ (∀ r, vaultWorks v = true → vaultPick v v.queue [] = some r → r.data = none →
      (∀ l ∈ linesOf r.w r.len, lineBad v l = false) → exec (.vaultPortRequest k) s = .next (vaultAnswer
        (setVault s (clKey k) { v with queue := v.queue.erase r }) (clKey k) r (.ok (ramWords v.mem r.w r.len))))
    ∧ (∀ r ws new, vaultWorks v = true → v.locked = none → vaultPick v v.queue [] = some r → r.data = some ws →
      reqWords v r ws = new →
      (∀ l ∈ linesOf r.w new.length, partialLine r.w new.length l = true → lineBad v l = false) →
      exec (.vaultPortRequest k) s = .next (vaultAnswer (setVault (setVault s (clKey k) (written v r.w new)) (clKey k)
        { written v r.w new with queue := v.queue.erase r }) (clKey k) r (.ok [])))
    ∧ ((vaultWorks v = true → vaultPick v v.queue [] = none) → exec (.vaultPortRequest k) s = .next s)
    ∧ (∀ w n code idx req, v.locked = none → (∀ l ∈ linesOf w n, lineBad v l = false) →
      vaultRead s (clKey k) w n code idx req = (s, .ok (ramWords v.mem w n)))
    ∧ ∀ w ws idx req, v.locked = none → (∀ l ∈ linesOf w ws.length, partialLine w ws.length l = true → lineBad v l = false) →
      vaultWrite s (clKey k) w ws idx req = (setVault s (clKey k) (written v w ws), .ok [])
      ∧ (∀ l ∈ linesOf w ws.length, lineBad (written v w ws) l = false)
      ∧ ∀ x, x < 4 * w ∨ 4 * (w + ws.length) ≤ x → ramByte (written v w ws).mem x = ramByte v.mem x := by
  subst hvault
  have hexec : exec (.vaultPortRequest k) s = .next (vaultServe s (clKey k)) := rfl
  rw [hexec]
  exact ⟨fun r u out hworks hpick hrun hdone => congrArg _ (vaultServe_answers hworks hpick hrun hdone),
    fun r hworks hpick hread hgood => congrArg _ (vaultServe_read hworks hpick hread hgood),
    fun r ws new hworks hfree hpick hwrite hnew hgood => congrArg _ (vaultServe_write hworks hpick hwrite hnew hfree hgood),
    fun hidle => congrArg _ (vaultServe_idle hidle),
    fun w n code idx req hfree => vaultRead_ok (onLocked_of_none w n hfree),
    fun w ws idx req hfree hgood => ⟨vaultWrite_ok (onLocked_of_none w ws.length hfree) hgood, fun l => lineBad_written hcrc,
      fun x => ramByte_written_other _⟩⟩

/-- Refutes O28: it asks nothing of the CRC table, and in one that lists line 0 twice a write of 16 zero words leaves line 0 with a
CRC that does not match. In a canonical table the statement holds (`vaultAccesses_of_canonical`). -/
theorem not_vaultAccesses : ¬ Obligations.VaultAccesses := by
  intro h
  obtain ⟨-, -, -, -, -, hwrite⟩ := h (listedTwiceState none) cornerCluster
  have hwhole : ∀ l ∈ linesOf 0 16, partialLine 0 16 l = true → lineBad (listedTwice none) l = false := by decide
  obtain ⟨-, hmatches, -⟩ := hwrite 0 (List.replicate 16 0) 0 none rfl hwhole
  have hgood : lineBad (written (listedTwice none) 0 (List.replicate 16 0)) 0 = false := hmatches 0 (by decide)
  exact absurd (lineBad_written_listedTwice.symm.trans hgood) (by decide)

/-- What O29 says of one vault, if its CRC table is canonical. -/
theorem vaultRepair_of_canonical {s : State} {k : ClusterId} {data : List Byte} {r : Refetch} {v : Vault}
    (hvault : (getCl s (clKey k)).vault = v) (hcrc : smapOk zeroLineCrc v.crc = true) (hlocked : v.locked = some r) :
    (r.origin.kind = 1 → data.length = 64 →
      (r.req = none → exec (.vaultRefetchDone k data) s = .next (repairTold s (clKey k) r data))
      ∧ (∀ q u out, r.req = some q → vaultRun (repairTold s (clKey k) r data) (clKey k) q = (u, out) → out ≠ .wait →
        exec (.vaultRefetchDone k data) s = .next (vaultAnswer u (clKey k) q out))
      ∧ (getCl (setVault s (clKey k) (repaired v r.line data)) (clKey k)).vault = repaired v r.line data
      ∧ lineBad (repaired v r.line data) r.line = false
      ∧ ∀ x, x < 64 * r.line ∨ 64 * r.line + 64 ≤ x → ramByte (repaired v r.line data).mem x = ramByte v.mem x)
    ∧ (r.origin.kind = 1 → data.length ≠ 64 → exec (.vaultRefetchDone k data) s = .next (repairLost s (clKey k) r 1))
    ∧ exec (.vaultRefetchTimeout k) s = .next (refetchForget (repairLost s (clKey k) r 4) (clKey k)) := by
  subst hvault
  refine ⟨fun hhost hline => ?repair, fun hhost hline => ?refused, exec_vaultRefetchTimeout hlocked⟩
  case repair =>
    rw [exec_vaultRefetchDone hlocked hhost, if_pos hline]
    exact ⟨fun hreq => congrArg _ (vaultRepair_alone hlocked hreq),
      fun q u out hreq hrun hdone => congrArg _ (vaultRepair_serves hlocked hreq hrun hdone), vault_setVault_repaired _ _,
      lineBad_repaired hcrc, fun x hx => ramByte_putBytes_other _ data (by omega)⟩
  case refused => rw [exec_vaultRefetchDone hlocked hhost, if_neg hline]

/-- Refutes O29: it asks nothing of the CRC table, and in one that lists line 0 twice a repair of line 0 with 64 zero bytes leaves it
with a CRC that does not match. In a canonical table a repair does what is said of it (`vaultRepair_of_canonical`); the patrol and
the bands hold of every state (`exec_vaultPatrol`, `bandNext_eq`). -/
theorem not_vaultRepairAndRefresh : ¬ Obligations.VaultRepairAndRefresh := by
  intro h
  obtain ⟨hrepair, -⟩ := h
  obtain ⟨hdone, -⟩ := hrepair (listedTwiceState (some cornerRefetch)) cornerCluster (List.replicate 64 0) cornerRefetch
    cornerRefetch.origin
  obtain ⟨-, -, -, hmatches, -⟩ := hdone rfl rfl rfl rfl
  have hgood : lineBad (getCl (setVault (listedTwiceState (some cornerRefetch)) (clKey cornerCluster)
      (repaired (getCl (listedTwiceState (some cornerRefetch)) (clKey cornerCluster)).vault 0 (List.replicate 64 0)))
        (clKey cornerCluster)).vault 0 = false := hmatches
  rw [vault_setVault_repaired, vault_listedTwiceState] at hgood
  exact absurd (lineBad_repaired_listedTwice.symm.trans hgood) (by decide)

end Sys2Proof.Machine
end

section
/-! SUPPORT. Reception on an edge port: frames, the checks of Vexaz packets, and what each TYPE does (R347, R349 to R352). Each rule
holds of every state but `paused_vexazTaken`, which reads a port back after its last packet was taken: it asks for a table of ports in
order. O30 states the answer to INIT without it, and a table that lists a port twice refutes it. -/

namespace Sys2Proof.Machine

open Sys2Proof

section
variable {s : State} {e : EdgePort} {typ pcp : Nat} {m : List Byte} {rest : List (Nat × List Byte)}

/-! ### Frames (R347) -/

theorem exec_ethFrameReceive_taken {frame : List Byte} (hon : (getPort s e.val).enable = true)
    (hours : frameForPort s e.val frame = true) :
    exec (.ethFrameReceive e true frame) s = .next (setPort s e.val { getPort s e.val with
      rxq := (getPort s e.val).rxq ++ [(beNat ((frame.drop 14).take 2) / 2 ^ 13, frame.drop 18)] }) := by
  have hexec : exec (.ethFrameReceive e true frame) s = execEthFrameReceive e true frame s := rfl
  simp [hexec, execEthFrameReceive, hon, hours]

theorem exec_ethFrameReceive_badFcs (frame : List Byte) (hon : (getPort s e.val).enable = true) :
    exec (.ethFrameReceive e false frame) s =
      .next (setPort s e.val { getPort s e.val with fcsErr := satAdd 0xFFFFFFFF (getPort s e.val).fcsErr 1 }) := by
  have hexec : exec (.ethFrameReceive e false frame) s = execEthFrameReceive e false frame s := rfl
  simp [hexec, execEthFrameReceive, hon]

/-! ### The row takes its packet (R350) -/

section
variable (act : State → List Byte → State)

/-- A sound packet of the row's type leaves the port and acts. -/
theorem withVexaz_head (h : VexazHead s e typ m rest) : withVexaz s e.val typ act = act (vexazTaken s e rest) m := by
  obtain ⟨⟨pcp, hrxq⟩, hgood, htyp⟩ := h
  simp only [withVexaz, hrxq, hgood, htyp, Bool.false_eq_true, if_false, if_true]
  rfl

/-- Any row that finds a packet that fails a check discards it (log entry 72). -/
theorem withVexaz_bad (hrxq : (getPort s e.val).rxq = (pcp, m) :: rest) (hbad : vexazBad m = true) :
    withVexaz s e.val typ act = vexazDiscard (vexazTaken s e rest) e.val pcp := by
  simp only [withVexaz, hrxq, hbad, if_true]
  rfl

end

theorem exec_vexaz_bad {i : Instr} (hi : i ∈ [Instr.init e, .initAck e, .vexazData e, .ack e, .nak e, .idle e])
    (hrxq : (getPort s e.val).rxq = (pcp, m) :: rest) (hbad : vexazBad m = true) :
    exec i s = .next (vexazDiscard (vexazTaken s e rest) e.val pcp) := by
  simp only [List.mem_cons, List.not_mem_nil, or_false] at hi
  rcases hi with rfl | rfl | rfl | rfl | rfl | rfl <;> exact congrArg _ (withVexaz_bad _ hrxq hbad)

end

/-! ### Control packets and pauses (R349, R352) -/

section
variable {s : State} {e : Nat} {m : List Byte}

theorem sendCtl_free (c : CtlPkt) (hfree : (getPort s e).paused.getD 3 false = false) :
    sendCtl s e c = sendVexaz s e c.typ 3 c.seq c.ack c.ackCl c.payload := if_neg (ne_true_of_eq_false hfree)

theorem sendCtl_paused {c : CtlPkt} (hpaused : (getPort s e).paused.getD 3 false = true)
    (hnew : (getPort s e).ctlHeld.contains c = false) :
    sendCtl s e c = setPort s e { getPort s e with ctlHeld := (getPort s e).ctlHeld ++ [c] } :=
  (if_pos hpaused).trans (if_neg (ne_true_of_eq_false hnew))

/-- A port whose priority 3 is paused reads as written: at reset none is. -/
theorem getPort_setPort_paused {p : Port} (hpaused : p.paused.getD 3 false = true) : getPort (setPort s e p) e = p := by
  refine getPort_setPort_of_ne s e fun hreset => ?_
  rw [hreset] at hpaused
  exact absurd hpaused (by decide)

/-- The INIT_ACK that answers a received INIT. -/
def answerOf (s : State) (e : Nat) (m : List Byte) : CtlPkt :=
  ⟨2, 0, 0, 0, initPay s e (initVersion (getLe (vxPay m) 0 1) (getLe (vxPay m) 1 1))⟩

theorem initIn_free (hfree : (getPort s e).paused.getD 3 false = false) :
    let t := sendVexaz s e 2 3 0 0 0 (answerOf s e m).payload
    initIn s e m = linkTry (setPort t e
      { getPort t e with ackSent := some (initVersion (getLe (vxPay m) 0 1) (getLe (vxPay m) 1 1)) }) e := by
  have hsent : sendCtl s e (answerOf s e m) = sendVexaz s e 2 3 0 0 0 (answerOf s e m).payload := sendCtl_free _ hfree
  have hanswer : initIn s e m = initAckSent (sendCtl s e (answerOf s e m)) e _ := rfl
  rw [hanswer, hsent]
  exact if_neg (ne_true_of_eq_false hfree)

/-- A port that has received no INIT_ACK waits for it. -/
theorem linkTry_unanswered (hnone : (getPort s e).ackRcvd = none) : linkTry s e = s := by
  simp only [linkTry, hnone]
  cases (getPort s e).ackSent <;> rfl

/-- Sending an INIT_ACK sends nothing else while none has been received. -/
theorem emitted_linkTry_ackSent {v : Option Nat} (hpaused : (getPort s e).paused.getD 3 false = true)
    (hnone : (getPort s e).ackRcvd = none) :
    (linkTry (setPort s e { getPort s e with ackSent := v }) e).emitted = s.emitted := by
  rw [linkTry_unanswered]
  · rfl
  · rw [getPort_setPort_paused (by exact hpaused)]
    exact hnone

/-- An INIT_ACK held back is not yet sent: the link waits for it. -/
theorem initIn_paused (hpaused : (getPort s e).paused.getD 3 false = true)
    (hnew : (getPort s e).ctlHeld.contains (answerOf s e m) = false) :
    initIn s e m = setPort s e { getPort s e with ctlHeld := (getPort s e).ctlHeld ++ [answerOf s e m] } := by
  have hanswer : initIn s e m = initAckSent (sendCtl s e (answerOf s e m)) e _ := rfl
  rw [hanswer, sendCtl_paused hpaused hnew]
  refine if_pos ?_
  rw [getPort_setPort_paused (by exact hpaused)]
  exact hpaused

end

section
variable {s : State} {e : EdgePort} {m : List Byte} {rest : List (Nat × List Byte)}

/-- In a table of ports in order, taking a packet leaves the pauses as they are. -/
theorem paused_vexazTaken (hports : smapSorted s.ports = true) :
    (getPort (vexazTaken s e rest) e.val).paused = (getPort s e.val).paused := by
  rw [vexazTaken, getPort_setPort_self s e.val _ hports]

/-- A port whose priority 3 is paused keeps its pauses in any table. -/
theorem paused_vexazTaken_of_paused (hpaused : (getPort s e.val).paused.getD 3 false = true) :
    (getPort (vexazTaken s e rest) e.val).paused.getD 3 false = true := by
  rw [vexazTaken, getPort_setPort_paused (by exact hpaused)]
  exact hpaused

theorem exec_init_head (h : VexazHead s e 1 m rest) : exec (.init e) s = .next (initIn (vexazTaken s e rest) e.val m) :=
  congrArg _ (withVexaz_head _ h)

end

/-! ### DATA and acknowledgements (R351) -/

section
variable {s : State} {e : Nat} {m : List Byte} (hup : (getPort s e).link = .up)
include hup

/-- A DATA packet on a link that is up first advances the class its ACK names, then is in sequence or is not. -/
theorem dataIn_up :
    let a := if vxAckCl m ≤ 2 then ackAdvance s e (vxAckCl m) (vxAck m) else s
    let r := rxOf (getPort a e) (vxClass m)
    dataIn s e m =
      if vxSeq m = r.expected then
        let b := payloadIn (setPort a e (setRx (getPort a e) (vxClass m) ⟨r.expected + 1, false, r.unreported + 1⟩)) e (vxClass m)
          (vxPay m)
        pfcCheck (if 32 ≤ (rxOf (getPort b e) (vxClass m)).unreported then sendAck b e (vxClass m) 4 else b) e
      else sendNak a e (vxClass m) :=
  if_neg (not_not.mpr hup)

theorem ackIn_up (hcls : vxAckCl m ≤ 2) : ackIn s e m = ackAdvance s e (vxAckCl m) (vxAck m) := if_pos ⟨hup, hcls⟩

theorem nakIn_up (hcls : vxAckCl m ≤ 2) : nakIn s e m = resendFrom s e (vxAckCl m) (vxSeq m) := if_pos ⟨hup, hcls⟩

end

/-! ### A port listed twice -/

/-- An INIT as a module in its factory state sends it. -/
def initPacket : List Byte :=
  let b := vexazHdr 0 1 3 24 0 0 0 ++ initPay State.reset 0 0
  b ++ leBytes 4 (crc32c b)

/-- Port 0 listed twice, which no update makes of a table in order: with the INIT and nothing else that reset would not leave, and with
priority 3 paused. -/
def portTwiceState : State :=
  { State.reset with ports :=
      [(0, { Port.reset with rxq := [(0, initPacket)] }), (0, { Port.reset with paused := List.replicate 4 true })] }

def firstPort : EdgePort := ⟨0, by decide⟩

set_option maxRecDepth 20000 in
theorem vexazHead_portTwice : VexazHead portTwiceState firstPort 1 initPacket [] := ⟨⟨0, rfl⟩, by decide⟩

/-- The entry without the INIT is the reset value and leaves the table: the second entry shows. -/
theorem getPort_portTwice_taken :
    getPort (vexazTaken portTwiceState firstPort []) 0 = { Port.reset with paused := List.replicate 4 true } := by decide

/-- The INIT is not answered, though the port that received it was not paused. -/
theorem emitted_init_portTwice :
    (initIn (vexazTaken portTwiceState firstPort []) 0 initPacket).emitted = [] := by
  have hport := getPort_portTwice_taken
  rw [initIn_paused (by rw [hport]; rfl) (by rw [hport]; rfl)]
  rfl

/-! ### The statement -/

/-- What O30 says, of a table of ports in order. -/
theorem linkReception_of_sorted {s : State} (e : EdgePort) (m : List Byte) (rest : List (Nat × List Byte))
    (hports : smapSorted s.ports = true) :
    let p := getPort s e.val
    let u := vexazTaken s e rest
    (∀ frame, p.enable = true → frameForPort s e.val frame = true →
        exec (.ethFrameReceive e true frame) s = .next (setPort s e.val
          { p with rxq := p.rxq ++ [(beNat ((frame.drop 14).take 2) / 2 ^ 13, frame.drop 18)] }))
    ∧ (∀ frame, p.enable = true →
        exec (.ethFrameReceive e false frame) s = .next (setPort s e.val { p with fcsErr := satAdd 0xFFFFFFFF p.fcsErr 1 }))
    ∧ (∀ pcp, ∀ i ∈ [Instr.init e, .initAck e, .vexazData e, .ack e, .nak e, .idle e], p.rxq = (pcp, m) :: rest →
        vexazBad m = true → exec i s = .next (vexazDiscard u e.val pcp))
    ∧ (VexazHead s e 1 m rest →
        let t := sendVexaz u e.val 2 3 0 0 0 (answerOf u e.val m).payload
        (p.paused.getD 3 false = false → exec (.init e) s = .next (linkTry (setPort t e.val
          { getPort t e.val with ackSent := some (initVersion (getLe (vxPay m) 0 1) (getLe (vxPay m) 1 1)) }) e.val))
        ∧ (p.paused.getD 3 false = true → (getPort u e.val).ctlHeld.contains (answerOf u e.val m) = false →
          exec (.init e) s = .next (setPort u e.val
            { getPort u e.val with ctlHeld := (getPort u e.val).ctlHeld ++ [answerOf u e.val m] })))
    ∧ (VexazHead s e 2 m rest →
        let b := vxPay m
        exec (.initAck e) s = .next (linkTry (setPort u e.val
          { getPort u e.val with ackRcvd := some (getLe b 6 1, getLe b 2 1, getLe b 3 1, getLe b 1 1) }) e.val))
    ∧ (VexazHead s e 3 m rest → (getPort u e.val).link = .up →
        let cls := vxClass m
        let a := if vxAckCl m ≤ 2 then ackAdvance u e.val (vxAckCl m) (vxAck m) else u
        let r := rxOf (getPort a e.val) cls
        let b := payloadIn (setPort a e.val (setRx (getPort a e.val) cls ⟨r.expected + 1, false, r.unreported + 1⟩)) e.val cls (vxPay m)
        (vxSeq m = r.expected → exec (.vexazData e) s = .next (pfcCheck
          (if 32 ≤ (rxOf (getPort b e.val) cls).unreported then sendAck b e.val cls 4 else b) e.val))
        ∧ (vxSeq m ≠ r.expected → exec (.vexazData e) s = .next (sendNak a e.val cls)))
    ∧ (VexazHead s e 4 m rest → (getPort u e.val).link = .up → vxAckCl m ≤ 2 →
        exec (.ack e) s = .next (ackAdvance u e.val (vxAckCl m) (vxAck m)))
    ∧ (VexazHead s e 6 m rest → (getPort u e.val).link = .up → vxAckCl m ≤ 2 →
        exec (.idle e) s = .next (ackAdvance u e.val (vxAckCl m) (vxAck m)))
    ∧ (VexazHead s e 5 m rest → (getPort u e.val).link = .up → vxAckCl m ≤ 2 →
        exec (.nak e) s = .next (resendFrom u e.val (vxAckCl m) (vxSeq m))) := by
  intro p u
  refine ⟨fun frame hon hours => exec_ethFrameReceive_taken hon hours, fun frame hon => exec_ethFrameReceive_badFcs frame hon,
    fun pcp i hi hrxq hbad => exec_vexaz_bad hi hrxq hbad, fun hhead => ?init, fun hhead => ?initAck, fun hhead hup => ?data,
    fun hhead hup hcls => ?ack, fun hhead hup hcls => ?idle, fun hhead hup hcls => ?nak⟩
  case init =>
    rw [exec_init_head hhead]
    refine ⟨fun hfree => congrArg _ (initIn_free ?_),
      fun hpaused hnew => congrArg _ (initIn_paused (paused_vexazTaken_of_paused hpaused) hnew)⟩
    rw [paused_vexazTaken hports]
    exact hfree
  case initAck => exact congrArg _ (withVexaz_head _ hhead)
  case data =>
    have hdata : exec (.vexazData e) s = .next (dataIn u e.val m) := congrArg _ (withVexaz_head _ hhead)
    rw [hdata, dataIn_up hup]
    exact ⟨fun hseq => congrArg _ (if_pos hseq), fun hseq => congrArg _ (if_neg hseq)⟩
  case ack => exact congrArg _ ((withVexaz_head _ hhead).trans (ackIn_up hup hcls))
  case idle => exact congrArg _ ((withVexaz_head _ hhead).trans (ackIn_up hup hcls))
  case nak => exact congrArg _ ((withVexaz_head _ hhead).trans (nakIn_up hup hcls))

/-- Refutes O30: it asks nothing of the table of ports, and in one that lists port 0 twice the port that has received an INIT reads as
paused once the INIT is taken: its INIT_ACK is held back, not sent. In a table in order the statement holds
(`linkReception_of_sorted`). -/
theorem not_linkReception : ¬ Obligations.LinkReception := by
  intro h
  obtain ⟨-, -, -, hinit, -⟩ := h portTwiceState firstPort initPacket []
  obtain ⟨hsends, -⟩ := hinit vexazHead_portTwice
  have hsent := hsends rfl
  rw [exec_init_head vexazHead_portTwice] at hsent
  injection hsent with hsent
  have hframe := (congrArg State.emitted hsent).symm.trans emitted_init_portTwice
  rw [emitted_linkTry_ackSent] at hframe
  · simp [sendVexaz] at hframe
  · exact congrArg (fun p : Port => p.paused.getD 3 false) getPort_portTwice_taken
  · exact congrArg Port.ackRcvd getPort_portTwice_taken

end Sys2Proof.Machine
end

section
/-! SUPPORT. The timers and pins of an edge port: INIT, reports, resends, pauses, link-down (R349, R351 to R353, R356). -/

namespace Sys2Proof.Machine

open Sys2Proof

section
variable {s : State} {e : EdgePort}

/-! ### Lock and INIT (R352) -/

theorem exec_pcsLock_gained (hon : (getPort s e.val).enable = true) (hunlocked : (getPort s e.val).pcs = false)
    (hrun : s.clock.hold = false) :
    exec (.pcsLock e) s = .next (linkTry (sendInit (setPort s e.val { getPort s e.val with pcs := true }) e.val) e.val) :=
  if_pos (by simp [hon, hunlocked, hrun])

theorem exec_initRepeat_training (hon : (getPort s e.val).enable = true) (hlocked : (getPort s e.val).pcs = true)
    (hdown : (getPort s e.val).link ≠ .up) : exec (.initRepeat e) s = .next (sendInit s e.val) :=
  if_pos (by simp [hon, hlocked, hdown])

/-- A link that is up goes down with its lock (R353). -/
theorem exec_linkDown_up (hon : (getPort s e.val).enable = true) (hlocked : (getPort s e.val).pcs = true)
    (hup : (getPort s e.val).link = .up) :
    exec (.linkDown e) s = .next (linkDown (setPort s e.val { getPort s e.val with pcs := false }) e.val 1) :=
  (if_pos (by simp [hon, hlocked])).trans (congrArg _ (if_pos hup))

/-! ### Resends (R351) -/

theorem retryIn_up {cls : Nat} {q : Word} {m : List Byte} {rest : List (Word × List Byte)} (hup : (getPort s e.val).link = .up)
    (holdest : (txOf (getPort s e.val) cls).unacked = (q, m) :: rest) : retryIn s e.val cls = resendFrom s e.val cls q := by
  simp only [retryIn, holdest, hup, if_true]

/-- Sixteen resends without an advance take the link down, unless a pause holds the oldest packet back. -/
theorem resendFrom_limit {n cls : Nat} {q : Word} {m : List Byte} {rest : List (Word × List Byte)}
    (holdest : (txOf (getPort s n) cls).unacked = (q, m) :: rest) (hlimit : 16 ≤ (txOf (getPort s n) cls).resends)
    (hmay : maySend (getPort s n) cls = true) (hfree : pausedIn s n = false) : resendFrom s n cls q = linkDown s n 2 := by
  have hkept : decide ((q - q).toNat < 2 ^ 31) = true := by simp
  simp only [resendFrom, holdest, List.filter_cons, hkept, if_true, List.takeWhile_cons, hfree, Bool.false_and, Bool.not_false,
    List.isEmpty_cons, hmay, Bool.not_true, Bool.or_self, Bool.false_eq_true, if_false, hlimit]

/-! ### Pauses (R349, R356) -/

theorem exec_pfcRepeat_above (habove : (getPort s e.val).pfcTx = true) : exec (.pfcRepeat e) s = .next (sendPfc s e.val true) :=
  if_pos habove

/-- Each of the priorities 0 to 3 that a PFC frame names is paused, or resumed by a time of 0 (log entry 71); what was held back goes
out. -/
theorem exec_pfcFrame_on (mask : Byte) (quanta : List Word16) (hon : (getPort s e.val).enable = true) :
    let paused := [0, 1, 2, 3].map fun i =>
      if mask.getLsbD i then decide (quanta.getD i 0 ≠ (0 : Word16)) else (getPort s e.val).paused.getD i false
    let xoff := [0, 1, 2, 3].any fun i => mask.getLsbD i && decide (quanta.getD i 0 ≠ (0 : Word16))
    exec (.pfcFrame e mask quanta) s = .next ([0, 1, 2].foldl (fun t c => pumpAll t e.val c)
      (ctlFlush (setPort s e.val { getPort s e.val with
        paused := paused, xoffRx := if xoff then satAdd 0xFFFF (getPort s e.val).xoffRx 1 else (getPort s e.val).xoffRx }) e.val)) :=
  if_neg (by simp [hon])

theorem exec_pfcQuantaExpiry_paused {prio : Fin 8} (hpaused : (getPort s e.val).paused.getD prio.val false = true) :
    exec (.pfcQuantaExpiry e prio) s = .next (pumpAll (ctlFlush (setPort s e.val { getPort s e.val with
      paused := (getPort s e.val).paused.set prio.val false }) e.val) e.val prio.val) :=
  if_pos hpaused

end

section
variable {s : State} {pin : SbPin} (hpin : (getPin s pin.val).func = 2)
include hpin

/-- A pin of function 2 takes stream pause in for the ports of its block. -/
theorem pauseBlock_pauseIn : pauseBlock s pin.val = some (getPin s pin.val).block := if_pos hpin

theorem exec_streamPauseIn_pauseIn :
    exec (.streamPauseIn pin) s = .next (setPin s pin.val { getPin s pin.val with level := true }) :=
  if_pos (by rw [pauseBlock_pauseIn hpin]; rfl)

theorem exec_streamPauseInRelease_pauseIn :
    exec (.streamPauseInRelease pin) s = .next ((List.range 8).foldl (fun t i => pumpAll t (8 * (getPin s pin.val).block + i) 0)
      (setPin s pin.val { getPin s pin.val with level := false })) := by
  have hexec : exec (.streamPauseInRelease pin) s = execStreamPauseInRelease pin s := rfl
  simp only [hexec, execStreamPauseInRelease, pauseBlock_pauseIn hpin]

end

/-- Settles O31: each row by its own lemma; the rows of the times act when they come, and the model keeps no time of its own for them (log
entry 3). -/
theorem linkTimers : Obligations.LinkTimers := by
  intro s e p
  refine ⟨exec_pcsLock_gained, exec_initRepeat_training, rfl, fun hup => if_pos hup, fun c q m rest hup holdest => ?retry,
    exec_linkDown_up, exec_pfcRepeat_above, fun mask quanta hon => exec_pfcFrame_on mask quanta hon,
    fun prio hpaused => exec_pfcQuantaExpiry_paused hpaused,
    fun pin hpin => ⟨exec_streamPauseIn_pauseIn hpin, exec_streamPauseInRelease_pauseIn hpin⟩⟩
  case retry =>
    have hresend : exec (.retryTimeout e c) s = .next (resendFrom s e.val c.val q) := congrArg _ (retryIn_up hup holdest)
    exact ⟨hresend, fun hlimit hmay hfree => hresend.trans (congrArg _ (resendFrom_limit holdest hlimit hmay hfree))⟩

end Sys2Proof.Machine
end

section
/-! SUPPORT. Reel accesses of the mesh and segments of a block (R358, R364 to R367). -/

namespace Sys2Proof.Machine

open Sys2Proof

section
variable {s : State} {e : EdgePort} {p : Packet} {pl : Nat}

/-! ### The row takes its packet (R358) -/

section
variable {row : Packet → Bool} (h : PortTakes s e row p pl)
include h

theorem withInbox_takes (act : State → Packet → Nat → State) :
    withInbox s e.val row act = act (portTaken s e p pl) p pl := by
  unfold PortTakes at h
  simp only [withInbox, h]
  rfl

theorem picked_of_portTakes : row p = true := List.find?_some (p := fun q : Packet × Nat => row q.1) h

end

theorem exec_reelRead_takes (h : PortTakes s e (fun p => pType p.hdr == 9) p pl) :
    exec (.reelRead e) s = .next (reelRead (portTaken s e p pl) e.val p pl) := congrArg _ (withInbox_takes h _)

theorem exec_reelWrite_takes (h : PortTakes s e (fun p => pType p.hdr == 0xB && decide (pArg p.hdr < 2 ^ 28)) p pl) :
    exec (.reelWrite e) s = .next (reelWrite (portTaken s e p pl) e.val p pl) := congrArg _ (withInbox_takes h _)

end

/-! ### Accesses (R358, R366) -/

section
variable {s : State} {e pl : Nat} {p : Packet}

/-- REEL_ERROR goes back to an access that no slot takes (log entry 73). -/
theorem reelRefuse_read (htype : pType p.hdr = 9) : reelRefuse s e p pl = portReadReply s e ⟨p, pl, 0, 0⟩ 0x0903 [] := if_pos htype

theorem reelRefuse_write (htype : pType p.hdr = 0xB) : reelRefuse s e p pl = portWriteReply s e ⟨p, pl, 0, 0⟩ 0x0903 :=
  if_neg (by rw [htype]; decide)

theorem reelRead_unbound (hslot : slotOf s e (pArg p.hdr % 2 ^ 27 / 2 ^ 20) = none) : reelRead s e p pl = reelRefuse s e p pl := by
  simp only [reelRead, hslot]

/-- A write needs a slot and a version that carries PUT (R362). -/
theorem reelWrite_untaken (hnone : slotOf s e (pArg p.hdr % 2 ^ 27 / 2 ^ 20) = none ∨ (getPort s e).reelver = 1) :
    reelWrite s e p pl = reelRefuse s e p pl := by
  rcases hslot : slotOf s e (pArg p.hdr % 2 ^ 27 / 2 ^ 20) with _ | x
  case none => simp only [reelWrite, hslot]
  case some =>
    rw [hslot] at hnone
    simp only [reelWrite, hslot, hnone.resolve_left (Option.some_ne_none x), if_true]

section
variable {x : ReelSlot} (hslot : slotOf s e (pArg p.hdr % 2 ^ 27 / 2 ^ 20) = some x)
include hslot

/-- A read joins its slot's reads, and moves the cursor to its last word (log entry 73 has a write move it too). -/
theorem reelRead_bound :
    let i := pArg p.hdr % 2 ^ 27 / 2 ^ 20
    let w := reelWord x (pArg p.hdr % 2 ^ 27 % 2 ^ 20)
    reelRead s e p pl = slotGo (setSlot s e i (some { x with
      cursor := max x.cursor (w + pArg2 p.hdr % 256 - 1)
      reads := x.reads ++ [⟨p, pl, w, pArg2 p.hdr % 256⟩] })) e i := by
  simp only [reelRead, hslot]

theorem reelWrite_bound (hput : (getPort s e).reelver ≠ 1) :
    let i := pArg p.hdr % 2 ^ 27 / 2 ^ 20
    let w := reelWord x (pArg p.hdr % 2 ^ 27 % 2 ^ 20)
    reelWrite s e p pl = slotGo (gatherFull (setSlot s e i (some { x with
      cursor := max x.cursor (w + p.payload.length - 1)
      writes := x.writes ++ [⟨p, pl, w, 4 * p.payload.length⟩]
      gather := gatherAdd (4 * w) (wordsBytes p.payload) x.gather })) e i) e i := by
  simp only [reelWrite, hslot, hput, if_false]

end
end

/-! ### Segments (R364, R365, R367) -/

section
variable {m : List Byte}

theorem segOf_mid (hmid : getLe m 1 1 % 2 = 0) : segOf m = (m.drop 16, none) :=
  if_neg (by omega)

theorem segOf_last (hlast : getLe m 1 1 % 2 = 1) :
    let body := m.drop 16
    let n := body.length - 8
    segOf m = (body.take n, some (getLe body n 4, getLe body (n + 4) 4)) :=
  if_pos hlast

/-- The bytes a slot holds of a block. -/
def blockHeld (x : ReelSlot) (b : Nat) : List Byte :=
  match x.data.find? fun d => d.idx == b with
  | some d => d.data
  | none => []

/-- The blocks of a slot once `bytes` have joined block `b`. -/
def blocksWith (x : ReelSlot) (b : Nat) (bytes : List Byte) (chk : Bool) : List ReelBlock :=
  (x.data.filter fun d => d.idx != b) ++ [⟨b, blockHeld x b ++ bytes, chk⟩]

/-- A segment that continues its block within MAXBLK. -/
def SegmentFits (x : ReelSlot) (b arg : Nat) (bytes : List Byte) : Prop :=
  arg = (blockHeld x b).length ∧ 0 < bytes.length ∧ bytes.length ≤ 8192 ∧ (blockHeld x b).length + bytes.length ≤ x.maxblk

section
variable {s : State} {e i b arg : Nat} {bytes : List Byte} {x : ReelSlot}

theorem slotSegment_fits (last : Option (Nat × Nat)) (hfits : SegmentFits x b arg bytes) :
    slotSegment s e i b arg bytes last x =
      match last with
      | none => slotGo (setSlot s e i (some { x with data := blocksWith x b bytes false })) e i
      | some (len, crc) =>
        if len ≠ (blockHeld x b ++ bytes).length ∨ crc ≠ crc32c (blockHeld x b ++ bytes) then
          blockFail s e i b { x with data := blocksWith x b bytes false }
        else if b + 1 < x.blocks ∧ (blockHeld x b ++ bytes).length ≠ x.maxblk then slotHold s e i 3 0 b
        else slotGo (sendReel (setSlot s e i (some { x with
            data := blocksWith x b bytes true
            requested := x.requested.tail
            okBlocks := max x.okBlocks (b + 1)
            used := x.used.filter fun u => u.2 != b })) e 8 x.reel b 0 []) e i := by
  obtain ⟨harg, hsome, hmax, hblk⟩ := hfits
  refine if_neg ?_
  rw [List.length_append]
  rintro (hgap | hempty | hlong | hover)
  · exact hgap harg
  · omega
  · omega
  · exact absurd hblk (Nat.not_le.mpr hover)

/-- The last segment of a block whose length and CRC are those of the bytes gathered gives the block. -/
theorem slotSegment_gives {len crc : Nat} (hfits : SegmentFits x b arg bytes) (hlen : len = (blockHeld x b).length + bytes.length)
    (hcrc : crc = crc32c (blockHeld x b ++ bytes)) (hfull : b + 1 < x.blocks → (blockHeld x b).length + bytes.length = x.maxblk) :
    slotSegment s e i b arg bytes (some (len, crc)) x = slotGo (sendReel (setSlot s e i (some { x with
      data := blocksWith x b bytes true
      requested := x.requested.tail
      okBlocks := max x.okBlocks (b + 1)
      used := x.used.filter fun u => u.2 != b })) e 8 x.reel b 0 []) e i := by
  rw [slotSegment_fits _ hfits]
  rw [← List.length_append] at hlen hfull
  exact (if_neg (by simp [hlen, hcrc])).trans (if_neg fun ⟨hinner, hshort⟩ => hshort (hfull hinner))

theorem slotSegment_fails {len crc : Nat} (hfits : SegmentFits x b arg bytes)
    (hbad : ¬ (len = (blockHeld x b).length + bytes.length ∧ crc = crc32c (blockHeld x b ++ bytes))) :
    slotSegment s e i b arg bytes (some (len, crc)) x = blockFail s e i b { x with data := blocksWith x b bytes false } := by
  rw [slotSegment_fits _ hfits]
  rw [← List.length_append] at hbad
  exact if_pos (not_and_or.mp hbad)

end

/-! ### DATA (R364, R460) -/

section
variable {s : State} {e i : Nat} {x : ReelSlot}

theorem slotData_retired (hretired : retired s x.slate = true) : slotData s e i m x = countRetired s x.slate := if_pos hretired

/-- A slot that drops nothing takes the block it has asked for, and no other. -/
theorem slotData_live (hlive : retired s x.slate = false) (hheld : x.held = false) (hkept : x.dropping = []) :
    slotData s e i m x =
      if x.requested.head? = some (getLe m 8 4) then
        slotSegment s e i (getLe m 8 4) (getLe m 12 4) (segOf m).1 (segOf m).2 x
      else slotHold s e i 3 0 (getLe m 8 4) := by
  simp only [slotData, hlive, hheld, hkept, Bool.false_eq_true, if_false]

/-- A segment is its slot's when the slot has asked for its block, or no re-fetch waits for it. -/
theorem reelData_slot (hslot : slotForReel s e (getLe m 4 3) = some x)
    (hours : x.requested.head? = some (getLe m 8 4) ∨ refetchMatches (getPort s e) (getLe m 4 3) (getLe m 8 4) = false) :
    reelData s e m = pfcCheck (slotData s e (getLe m 4 3 % 128) m x) e := by
  rcases hours with hasked | hfree
  · simp [reelData, hslot, hasked]
  · simp [reelData, hslot, hfree]

end

section
variable {s : State} {e : EdgePort} {rest : List (Nat × List Byte)} {x : ReelSlot}

theorem exec_reelData_slot (h : ReelHead s e 6 m rest) (hslot : slotForReel (msgsLeft s e rest) e.val (getLe m 4 3) = some x)
    (hours : x.requested.head? = some (getLe m 8 4)
      ∨ refetchMatches (getPort (msgsLeft s e rest) e.val) (getLe m 4 3) (getLe m 8 4) = false) :
    exec (.reelData e) s =
      .next (pfcCheck (pfcCheck (slotData (msgsLeft s e rest) e.val (getLe m 4 3 % 128) m x) e.val) e.val) := by
  have hexec : exec (.reelData e) s = _ := congrArg Host.Outcome.next (withReel_head (reelData · e.val ·) h)
  rw [hexec, reelData_slot hslot hours]

/-- A segment of the block that a live slot has asked for joins it. -/
theorem exec_reelData_asked (h : ReelHead s e 6 m rest) (hslot : slotForReel (msgsLeft s e rest) e.val (getLe m 4 3) = some x)
    (hlive : retired (msgsLeft s e rest) x.slate = false) (hheld : x.held = false) (hkept : x.dropping = [])
    (hasked : x.requested.head? = some (getLe m 8 4)) :
    exec (.reelData e) s = .next (pfcCheck (pfcCheck (slotSegment (msgsLeft s e rest) e.val (getLe m 4 3 % 128) (getLe m 8 4)
      (getLe m 12 4) (segOf m).1 (segOf m).2 x) e.val) e.val) := by
  rw [exec_reelData_slot h hslot (.inl hasked), slotData_live hlive hheld hkept, if_pos hasked]

end
end

/-- Settles O33: accesses by `reelRead_bound`, `reelWrite_bound` and `reelRefuse` (log entry 73), segments by `slotSegment` where the
slot has asked for their block. -/
theorem reelBlocks : Obligations.ReelBlocks := by
  intro s e m rest x p pl u t off w rd wr b body n old with_ fits i asked passes
  refine ⟨fun htakes hslot => ?read, fun htakes hnone => ?readRefused, fun htakes hslot hput => ?write,
    fun htakes hnone => ?writeRefused, rfl, fun hhead hours hasked hmid hfits => ?middle,
    fun hhead hours hasked hlast hfits hpass hfull hlong => ?last, fun hhead hours hasked hlast hfits hbad hlong => ?mismatch,
    fun hhead hours hother hfree => ?unasked, fun hhead hslot hretired hasked => ?cut⟩
  case read => rw [exec_reelRead_takes htakes, reelRead_bound hslot]
  case readRefused =>
    rw [exec_reelRead_takes htakes, reelRead_unbound hnone, reelRefuse_read (beq_iff_eq.mp (picked_of_portTakes htakes))]
  case write => rw [exec_reelWrite_takes htakes, reelWrite_bound hslot hput]
  case writeRefused =>
    obtain ⟨htype, -⟩ := (Bool.and_eq_true _ _).mp (picked_of_portTakes htakes)
    rw [exec_reelWrite_takes htakes, reelWrite_untaken hnone, reelRefuse_write (beq_iff_eq.mp htype)]
  case middle =>
    obtain ⟨hslot, hlive, hheld, hkept⟩ := hours
    rw [exec_reelData_asked hhead hslot hlive hheld hkept hasked, segOf_mid hmid, slotSegment_fits none hfits]
    rfl
  case last =>
    obtain ⟨hslot, hlive, hheld, hkept⟩ := hours
    have hcount : (body.take n).length = n := List.length_take_of_le (Nat.sub_le _ _)
    obtain ⟨hlen, hcrc⟩ := hpass
    rw [exec_reelData_asked hhead hslot hlive hheld hkept hasked, segOf_last hlast]
    exact congrArg (fun v => Host.Outcome.next (pfcCheck (pfcCheck v e.val) e.val))
      (slotSegment_gives hfits (by rw [hcount]; exact hlen) hcrc (by rw [hcount]; exact hfull))
  case mismatch =>
    obtain ⟨hslot, hlive, hheld, hkept⟩ := hours
    have hcount : (body.take n).length = n := List.length_take_of_le (Nat.sub_le _ _)
    rw [exec_reelData_asked hhead hslot hlive hheld hkept hasked, segOf_last hlast]
    exact congrArg (fun v => Host.Outcome.next (pfcCheck (pfcCheck v e.val) e.val))
      (slotSegment_fails hfits (by rw [hcount]; exact hbad))
  case unasked =>
    obtain ⟨hslot, hlive, hheld, hkept⟩ := hours
    rw [exec_reelData_slot hhead hslot (.inr hfree), slotData_live hlive hheld hkept, if_neg hother]
  case cut => rw [exec_reelData_slot hhead hslot (.inl hasked), slotData_retired hretired]

end Sys2Proof.Machine
end

section
/-! SUPPORT. Ports, routes, discovery, windows and aperture pages by command (R354, R355, R380, R383 to R385, R393, R396, R402, R408). -/

namespace Sys2Proof.Machine

open Sys2Proof

section
variable {r : CmdRec} {ref : CmdRef} {t : State}

/-! ### PORT_CONFIG (R354, R355, R402) -/

section
variable (hform : portConfigBad t r = false)
include hform

/-- A sound record, of a change that the port's claims allow (log entry 60). -/
theorem portBody_applies
    (hallowed : portChanges (getPort t (pb r 36 1)) (configured (getPort t (pb r 36 1)) r) = false ∨ portClaimed t (pb r 36 1) = false) :
    portBody r ref t = finish (portApply t (pb r 36 1) (configured (getPort t (pb r 36 1)) r)) ref 0 [] :=
  (if_neg (ne_true_of_eq_false hform)).trans (if_neg (ne_true_of_eq_false (Bool.and_eq_false_iff.mpr hallowed)))

theorem portBody_claimed (hchange : portChanges (getPort t (pb r 36 1)) (configured (getPort t (pb r 36 1)) r) = true)
    (hclaimed : portClaimed t (pb r 36 1) = true) : portBody r ref t = finish t ref 0x0302 [] :=
  (if_neg (ne_true_of_eq_false hform)).trans (if_pos ((Bool.and_eq_true _ _).mpr ⟨hchange, hclaimed⟩))

end

/-- The module with gateway port `g` for the clusters of a rectangle. -/
def gatewaysSet (t : State) (rect g : Nat) : State :=
  (rectCls rect).foldl (fun u cl => setCl u cl { getCl u cl with gwPort := BitVec.ofNat 7 g }) t

theorem fabricFormBody_sound (hform : fabricFormBad t r = false) :
    fabricFormBody r ref t = finish (if pbit r 43 0 then gatewaysSet (writeTmo t (pb r 40 2)) (pb r 44 4) (pb r 42 1)
      else writeTmo t (pb r 40 2)) ref 0 [] :=
  if_neg (ne_true_of_eq_false hform)

/-! ### ROUTE_TABLE_WRITE (R384, R385) -/

theorem routeBody_writes (hrsv : rsvOk r [(36, 0, 16), (38, 0, 16)] = true) (hsome : 0 < pb r 38 2) (hmax : pb r 38 2 ≤ 1024)
    (hend : pb r 36 2 + pb r 38 2 ≤ 20480) (hwords : (List.range (pb r 38 2)).all (fun i => routeOk t (routeWord r i)) = true) :
    routeBody r ref t = finish { t with fabric := { t.fabric with
      dest := (List.range (pb r 38 2)).foldl (fun m i => smapSet 0x0FFFFFFF m (pb r 36 2 + i) (routeWord r i)) t.fabric.dest } }
        ref 0 [] :=
  if_neg (by simp only [hrsv, hwords, reduceCtorEq, false_or, or_false]; omega)

theorem routeBody_outOfRange (hrange : pb r 38 2 = 0 ∨ 1024 < pb r 38 2 ∨ 20480 < pb r 36 2 + pb r 38 2) :
    routeBody r ref t = finish t ref 0x0103 [] :=
  if_pos (.inr (by omega))

/-! ### DISCOVERY_RUN (R380) -/

section
variable (hform : walkBad r = false)
include hform

/-- One walk is under way at a time (log entry 61). -/
theorem walkBody_busy (hbusy : t.works.discovery.isSome = true) : walkBody r ref t = finish t ref 0x0301 [] :=
  (if_neg (ne_true_of_eq_false hform)).trans (if_pos hbusy)

/-- A walk leaves by its first port, or the command fails with NO_ROUTE (log entry 61). -/
theorem walkBody_alone (hfree : t.works.discovery = none) :
    let u := accept t ref []
    walkBody r ref t =
      if pb r 38 1 < 120 ∧ fabUp u (pb r 38 1) = true then
        fabSend { u with works := { u.works with discovery := some (ref, BitVec.ofNat 64 (pb r 48 8), now u) } } (pb r 38 1)
          (walkPacket u r)
      else finish u ref 0x0705 [] :=
  (if_neg (ne_true_of_eq_false hform)).trans (if_neg (by simp [hfree]))

end

/-- PROBE and ASSIGN do the same work. -/
theorem exec_walk_taken {s : State} {p : HostPort} {i : Instr} (hi : i ∈ [Instr.probe p r, .assign p r]) (h : RowTaken s i t ref) :
    exec i s = .next (walkBody r ref t) := by
  simp only [List.mem_cons, List.not_mem_nil, or_false] at hi
  rcases hi with rfl | rfl
  · exact exec_probe_taken h
  · exact exec_assign_taken h

/-! ### Windows (R393, R396) -/

/-- The window that a WINDOW_OPEN asks for. -/
def windowAsked (r : CmdRec) : FabWindow where
  state := .opened
  space := pb r 36 1
  cl := clOfTarget (pb r 38 2)
  base := pb r 40 4
  len := pb r 44 4
  slate := r.slate.toNat
  peers := (List.range (pb r 48 1)).map (peerAt r)

theorem windowOpenBody_opens {w : Nat} (hform : windowBad t r = false) (hid : engId t ≠ 0x7FFF) (hfree : nextWindow t = some w) :
    windowOpenBody r ref t = finish { t with fabric := { t.fabric with
      lastWin := w, windows := smapSet .free t.fabric.windows w (windowAsked r) } } ref 0 [(24, 2, w)] := by
  have hassigned : assigned t = true := bne_iff_ne.mpr hid
  simp only [windowOpenBody, hform, hassigned, hfree, Bool.false_eq_true, if_false, if_true]
  rfl

theorem windowCloseBody_closes (hrsv : rsvOk r [(36, 0, 14)] = true) (hopen : (winOf t (pb r 36 2)).state = .opened)
    (hown : (winOf t (pb r 36 2)).slate = r.slate.toNat) :
    let u := windowShut (accept t ref []) (pb r 36 2)
    windowCloseBody r ref t = { u with works := { u.works with windowClose := u.works.windowClose ++ [(ref, pb r 36 2)] } } :=
  if_neg (by simp [hrsv, hopen, hown])

/-! ### MAP_APERTURE (R408) -/

theorem mapBody_maps {p : HostPort} (hok : mapStatus t p r = 0) : mapBody p r ref t =
    finish ((List.range (pb r 38 2)).foldl (fun u k => setPage u p (pb r 36 2 + k) (pageOf r k)) t) ref 0 [] := by
  simp only [mapBody, hok]

theorem mapBody_refused {p : HostPort} (hbad : mapStatus t p r ≠ 0) : mapBody p r ref t = finish t ref (mapStatus t p r) [] := by
  obtain ⟨st, hst⟩ := Nat.exists_eq_succ_of_ne_zero hbad
  simp only [mapBody, hst]

end

/-- Settles O48: each command by its body (the claims of a port are log entry 60, the walk's refusals log entry 61). -/
theorem fabricCommands : Obligations.FabricCommands := by
  intro s t p r ref e q tmo n
  refine ⟨fun htaken hform => ?port, fun htaken hform => ?fabric, fun htaken hrsv => ?routes, fun i hi htaken hform => ?walk,
    fun u id from0 => rfl, fun w htaken hform hid hfree => ?opens, fun htaken hrsv hopen hown => ?closes, fun htaken => ?map⟩
  case port =>
    rw [exec_portConfig_taken htaken]
    exact ⟨fun hallowed => congrArg _ (portBody_applies hform hallowed),
      fun hchange hclaimed => congrArg _ (portBody_claimed hform hchange hclaimed)⟩
  case fabric =>
    rw [exec_portConfigFabricForm_taken htaken, fabricFormBody_sound hform]
    refine ⟨fun hkept => ?_, fun hset => ?_⟩
    · rw [hkept]
      rfl
    · rw [hset]
      rfl
  case routes =>
    rw [exec_routeTableWrite_taken htaken]
    exact ⟨fun hsome hmax hend hwords => congrArg _ (routeBody_writes hrsv hsome hmax hend hwords),
      fun hrange => congrArg _ (routeBody_outOfRange hrange)⟩
  case walk =>
    rw [exec_walk_taken hi htaken]
    exact ⟨fun hbusy => congrArg _ (walkBody_busy hform hbusy),
      fun hfree hport hup => congrArg _ ((walkBody_alone hform hfree).trans (if_pos ⟨hport, hup⟩)),
      fun hfree hnone => congrArg _ ((walkBody_alone hform hfree).trans (if_neg hnone))⟩
  case opens => exact (exec_windowOpen_taken htaken).trans (congrArg _ (windowOpenBody_opens hform hid hfree))
  case closes => exact (exec_windowClose_taken htaken).trans (congrArg _ (windowCloseBody_closes hrsv hopen hown))
  case map =>
    rw [exec_mapAperture_taken htaken]
    exact ⟨fun hok => congrArg _ (mapBody_maps hok), fun hbad => congrArg _ (mapBody_refused hbad)⟩

end Sys2Proof.Machine
end

section
/-! SUPPORT. Every step answers a next state, takes one command, and keeps the factory values (R552, R557, R560). -/

namespace Sys2Proof.Machine

open Sys2Proof

/-- A row that keeps the waiting commands and the factory values is steady. -/
theorem Steady.of_kept {s t : State} (h : t.kept = s.kept) : Steady s t := by
  obtain ⟨hpending, hotp⟩ := Prod.mk.inj h
  refine ⟨hpending, ?_, ?_⟩ <;> rw [hotp]

theorem Steady.trans {s t u : State} (hst : Steady s t) (htu : Steady t u) : Steady s u := by
  obtain ⟨hp, ho, hs⟩ := hst
  obtain ⟨hp', ho', hs'⟩ := htu
  refine ⟨hp'.trans hp, ?_, hs.trans hs'⟩
  rw [ho', ho]

/-- Every row but FW_HANDOVER, by its own law. -/
theorem exec_kept {i : Instr} (s : State) (h : ∀ p b, i ≠ .fwHandover p b) : ∃ t, exec i s = .next t ∧ t.kept = s.kept :=
  match i with
  | .hello p r => execHello_kept p r s
  | .claimAuthority p r => execClaimAuthority_kept p r s
  | .releaseAuthority p r => execReleaseAuthority_kept p r s
  | .fwLoad p r => execFwLoad_kept p r s
  | .fwHandover p image => absurd rfl (h p image)
  | .calLoad p r => execCalLoad_kept p r s
  | .floorplanRead p r => execFloorplanRead_kept p r s
  | .slateOpen p r => execSlateOpen_kept p r s
  | .slateCut p r => execSlateCut_kept p r s
  | .slateStatus p r => execSlateStatus_kept p r s
  | .slateRelease p r => execSlateRelease_kept p r s
  | .storyboardLoad p r => execStoryboardLoad_kept p r s
  | .sceneRun p r => execSceneRun_kept p r s
  | .sceneRunResume p r => execSceneRunResume_kept p r s
  | .sceneHalt p r => execSceneHalt_kept p r s
  | .keyframeTake p r => execKeyframeTake_kept p r s
  | .replay p r => execReplay_kept p r s
  | .remap p r => execRemap_kept p r s
  | .keyframeRelease p r => execKeyframeRelease_kept p r s
  | .portConfig p r => execPortConfig_kept p r s
  | .portConfigFabricForm p r => execPortConfigFabricForm_kept p r s
  | .routeTableWrite p r => execRouteTableWrite_kept p r s
  | .probe p r => execProbe_kept p r s
  | .assign p r => execAssign_kept p r s
  | .setLocal p r => execSetLocal_kept p r s
  | .clearLocal p r => execClearLocal_kept p r s
  | .discoveryTimeout p => execDiscoveryTimeout_kept p s
  | .windowOpen p r => execWindowOpen_kept p r s
  | .windowClose p r => execWindowClose_kept p r s
  | .windowCloseDone win => execWindowCloseDone_kept win s
  | .mapAperture p r => execMapAperture_kept p r s
  | .powerBudgetSet p r => execPowerBudgetSet_kept p r s
  | .fade p r => execFade_kept p r s
  | .fadeComplete => execFadeComplete_kept s
  | .unfade p r => execUnfade_kept p r s
  | .unfadeComplete => execUnfadeComplete_kept s
  | .stopLimitSet p r => execStopLimitSet_kept p r s
  | .energyRead p r => execEnergyRead_kept p r s
  | .policySet p r => execPolicySet_kept p r s
  | .fenceCore p r => execFenceCore_kept p r s
  | .unfenceCore p r => execUnfenceCore_kept p r s
  | .dailiesCollect p r => execDailiesCollect_kept p r s
  | .dailiesWritten => execDailiesWritten_kept s
  | .reset p r => execReset_kept p r s
  | .resetDone => execResetDone_kept s
  | .sbAssign p r => execSbAssign_kept p r s
  | .clockSourceSelect p r => execClockSourceSelect_kept p r s
  | .clockSelectTimeout => execClockSelectTimeout_kept s
  | .debugUnlockNonce p r => execDebugUnlockNonce_kept p r s
  | .debugUnlockGrant p r => execDebugUnlockGrant_kept p r s
  | .sceneAdmission sc => execSceneAdmission_kept sc s
  | .admissionCopyDone sc => execAdmissionCopyDone_kept sc s
  | .admissionCopyFailed sc status => execAdmissionCopyFailed_kept sc status s
  | .coreSceneStart c => execCoreSceneStart_kept c s
  | .cutDrainDone slate => execCutDrainDone_kept slate s
  | .cutDeadline slate => execCutDeadline_kept slate s
  | .cutRetire slate => execCutRetire_kept slate s
  | .scrubDone slate us => execScrubDone_kept slate us s
  | .faultHalt => execFaultHalt_kept s
  | .hangProgressReport => execHangProgressReport_kept s
  | .hangDeclared sc => execHangDeclared_kept sc s
  | .hangCoreResetTimeout c => execHangCoreResetTimeout_kept c s
  | .hangSuspectEnded slate => execHangSuspectEnded_kept slate s
  | .heartbeat => execHeartbeat_kept s
  | .controllerWatchdog => execControllerWatchdog_kept s
  | .nop c => execNop_kept c s
  | .add c => execAdd_kept c s
  | .sub c => execSub_kept c s
  | .and c => execAnd_kept c s
  | .or c => execOr_kept c s
  | .xor c => execXor_kept c s
  | .shl c => execShl_kept c s
  | .shr c => execShr_kept c s
  | .sra c => execSra_kept c s
  | .mul c => execMul_kept c s
  | .slt c => execSlt_kept c s
  | .sltu c => execSltu_kept c s
  | .min c => execMin_kept c s
  | .max c => execMax_kept c s
  | .addi c => execAddi_kept c s
  | .andi c => execAndi_kept c s
  | .ori c => execOri_kept c s
  | .xori c => execXori_kept c s
  | .shli c => execShli_kept c s
  | .shri c => execShri_kept c s
  | .srai c => execSrai_kept c s
  | .lui c => execLui_kept c s
  | .slti c => execSlti_kept c s
  | .movs c => execMovs_kept c s
  | .rdccb c => execRdccb_kept c s
  | .rdctr c => execRdctr_kept c s
  | .ld c => execLd_kept c s
  | .st c => execSt_kept c s
  | .cset c => execCset_kept c s
  | .cseti c => execCseti_kept c s
  | .cadd c => execCadd_kept c s
  | .cwait c => execCwait_kept c s
  | .cwaiti c => execCwaiti_kept c s
  | .cwaitt c => execCwaitt_kept c s
  | .cwaitSatisfied c => execCwaitSatisfied_kept c s
  | .cwaittDeadline c => execCwaittDeadline_kept c s
  | .issueMx c => execIssueMx_kept c s
  | .issueVx c => execIssueVx_kept c s
  | .issueDma c => execIssueDma_kept c s
  | .issueSlotFree c => execIssueSlotFree_kept c s
  | .scoreboardWaitEnd c => execScoreboardWaitEnd_kept c s
  | .send c => execSend_kept c s
  | .sendb c => execSendb_kept c s
  | .recv c => execRecv_kept c s
  | .recvb c => execRecvb_kept c s
  | .qstat c => execQstat_kept c s
  | .arrive c => execArrive_kept c s
  | .clwait c => execClwait_kept c s
  | .br c => execBr_kept c s
  | .jmp c => execJmp_kept c s
  | .loop c => execLoop_kept c s
  | .halt c => execHalt_kept c s
  | .haltComplete c => execHaltComplete_kept c s
  | .event c => execEvent_kept c s
  | .fence c => execFence_kept c s
  | .fenceComplete c => execFenceComplete_kept c s
  | .noProgress c => execNoProgress_kept c s
  | .coreHoldOrder c => execCoreHoldOrder_kept c s
  | .weightTileLoadStart c => execWeightTileLoadStart_kept c s
  | .weightTileResident c => execWeightTileResident_kept c s
  | .mxTileViolation c => execMxTileViolation_kept c s
  | .mxPass c => execMxPass_kept c s
  | .mxRetake c cols again => execMxRetake_kept c cols again s
  | .mxRowExport c => execMxRowExport_kept c s
  | .mxDescriptorComplete c => execMxDescriptorComplete_kept c s
  | .gatherRowDispatch c => execGatherRowDispatch_kept c s
  | .gatherRetake c cols again => execGatherRetake_kept c cols again s
  | .fusedVxdStart c => execFusedVxdStart_kept c s
  | .vxChunk c => execVxChunk_kept c s
  | .vxDescriptorComplete c => execVxDescriptorComplete_kept c s
  | .vxTileViolation c => execVxTileViolation_kept c s
  | .dmaRow c => execDmaRow_kept c s
  | .dmaDescriptorComplete c => execDmaDescriptorComplete_kept c s
  | .dmaDeadline c => execDmaDeadline_kept c s
  | .routerForward k pl d vc => execRouterForward_kept k pl d vc s
  | .queue k pl hd td => execQueue_kept k pl hd td s
  | .endMark k pl hd td => execEndMark_kept k pl hd td s
  | .credit k pl hd td => execCredit_kept k pl hd td s
  | .refuse k pl hd td => execRefuse_kept k pl hd td s
  | .darkRet k pl hd td => execDarkRet_kept k pl hd td s
  | .freeze k pl hd td => execFreeze_kept k pl hd td s
  | .clapArrive k pl hd td => execClapArrive_kept k pl hd td s
  | .resumePointCopyDone sc => execResumePointCopyDone_kept sc s
  | .clapReply k pl hd td => execClapReply_kept k pl hd td s
  | .clapNotify k pl hd td => execClapNotify_kept k pl hd td s
  | .memRd k pl hd td => execMemRd_kept k pl hd td s
  | .memRdData k pl hd td => execMemRdData_kept k pl hd td s
  | .memWr k pl hd td => execMemWr_kept k pl hd td s
  | .memWrAck k pl hd td => execMemWrAck_kept k pl hd td s
  | .ringRecordConsume k ctl => execRingRecordConsume_kept k ctl s
  | .spliceLockLoss sm l0 l1 cause => execSpliceLockLoss_kept sm l0 l1 cause s
  | .vaultPortRequest k => execVaultPortRequest_kept k s
  | .vaultRefetchDone k data => execVaultRefetchDone_kept k data s
  | .vaultRefetchTimeout k => execVaultRefetchTimeout_kept k s
  | .vaultPatrol k => execVaultPatrol_kept k s
  | .vaultTempSample k t => execVaultTempSample_kept k t s
  | .ethFrameReceive e fcsOk frame => execEthFrameReceive_kept e fcsOk frame s
  | .pfcFrame e mask quanta => execPfcFrame_kept e mask quanta s
  | .pfcRepeat e => execPfcRepeat_kept e s
  | .pcsLock e => execPcsLock_kept e s
  | .initRepeat e => execInitRepeat_kept e s
  | .init e => execInit_kept e s
  | .initAck e => execInitAck_kept e s
  | .vexazData e => execVexazData_kept e s
  | .ack e => execAck_kept e s
  | .nak e => execNak_kept e s
  | .idle e => execIdle_kept e s
  | .ackDue e => execAckDue_kept e s
  | .idleDue e => execIdleDue_kept e s
  | .retryTimeout e vcl => execRetryTimeout_kept e vcl s
  | .linkDown e => execLinkDown_kept e s
  | .rhelloAck e => execRhelloAck_kept e s
  | .openAck e => execOpenAck_kept e s
  | .reelData e => execReelData_kept e s
  | .error e => execError_kept e s
  | .putAck e => execPutAck_kept e s
  | .reelRead e => execReelRead_kept e s
  | .reelWrite e => execReelWrite_kept e s
  | .putFlush e => execPutFlush_kept e s
  | .streamPauseIn pin => execStreamPauseIn_kept pin s
  | .fhello e => execFhello_kept e s
  | .fhelloRepeat e => execFhelloRepeat_kept e s
  | .discReq e => execDiscReq_kept e s
  | .discRsp e => execDiscRsp_kept e s
  | .idAssign e => execIdAssign_kept e s
  | .idAssignAck e => execIdAssignAck_kept e s
  | .originWrite e => execOriginWrite_kept e s
  | .wwrite e => execWwrite_kept e s
  | .wack e => execWack_kept e s
  | .fabricTimeout e seq => execFabricTimeout_kept e seq s
  | .cmdDoorbell p v => execCmdDoorbell_kept p v s
  | .cplTail p v => execCplTail_kept p v s
  | .evtTail p v => execEvtTail_kept p v s
  | .ringEnable p v => execRingEnable_kept p v s
  | .ringDisable p v => execRingDisable_kept p v s
  | .registerWrite loc v => execRegisterWrite_kept loc v s
  | .rcRegisterRead loc => execRcRegisterRead_kept loc s
  | .apertureRead p off => execApertureRead_kept p off s
  | .apertureWrite p off be v => execApertureWrite_kept p off be v s
  | .irqModTimeout p ring => execIrqModTimeout_kept p ring s
  | .holdingBufferFlush p => execHoldingBufferFlush_kept p s
  | .hostLinkLoss p cause => execHostLinkLoss_kept p cause s
  | .hostLinkUp p rate width => execHostLinkUp_kept p rate width s
  | .getVersion p m => execGetVersion_kept p m s
  | .getCapabilities p m => execGetCapabilities_kept p m s
  | .negotiateAlgorithms p m => execNegotiateAlgorithms_kept p m s
  | .getDigests p m => execGetDigests_kept p m s
  | .getCertificate p m => execGetCertificate_kept p m s
  | .challenge p m => execChallenge_kept p m s
  | .getMeasurements p m => execGetMeasurements_kept p m s
  | .keyExchange p m => execKeyExchange_kept p m s
  | .finish p m => execFinish_kept p m s
  | .spdmHeartbeat p m => execSpdmHeartbeat_kept p m s
  | .keyUpdate p m => execKeyUpdate_kept p m s
  | .endSession p m => execEndSession_kept p m s
  | .vendorDefinedRequest p m => execVendorDefinedRequest_kept p m s
  | .oscQualified u => execOscQualified_kept u s
  | .oscNotStable u => execOscNotStable_kept u s
  | .refLost cause => execRefLost_kept cause s
  | .refReturn => execRefReturn_kept s
  | .meshLock => execMeshLock_kept s
  | .reflocFailed => execReflocFailed_kept s
  | .timePulseOut pin => execTimePulseOut_kept pin s
  | .timePulseIn pin => execTimePulseIn_kept pin s
  | .fadeReqInAssert pin => execFadeReqInAssert_kept pin s
  | .fadeReqInRelease pin => execFadeReqInRelease_kept pin s
  | .inletEnClose => execInletEnClose_kept s
  | .inletEnOpen => execInletEnOpen_kept s
  | .hotSwapRampDone => execHotSwapRampDone_kept s
  | .inletRange mv => execInletRange_kept mv s
  | .inletDisconnect mv => execInletDisconnect_kept mv s
  | .calWaitExpiry => execCalWaitExpiry_kept s
  | .bistComplete bist => execBistComplete_kept bist s
  | .fastPathDone => execFastPathDone_kept s
  | .frameCorrection f mw => execFrameCorrection_kept f mw s
  | .leaseExpired => execLeaseExpired_kept s
  | .budgetUnmet mw => execBudgetUnmet_kept mw s
  | .droopDetect f mv => execDroopDetect_kept f mv s
  | .droopEnd f => execDroopEnd_kept f s
  | .logicSensorSample k t => execLogicSensorSample_kept k t s
  | .coolantSample cs => execCoolantSample_kept cs s
  | .monFaultWrite v => execMonFaultWrite_kept v s
  | .setdasa addr => execSetdasa_kept addr s
  | .rstdaa => execRstdaa_kept s
  | .jtagInstruction ir => execJtagInstruction_kept ir s
  | .storyboardLoadDone slate words => execStoryboardLoadDone_kept slate words s
  | .keyframeTakeDone sc status => execKeyframeTakeDone_kept sc status s
  | .keyframeRestoreDone sc status => execKeyframeRestoreDone_kept sc status s
  | .streamPauseInRelease pin => execStreamPauseInRelease_kept pin s
  | .pfcQuantaExpiry e prio => execPfcQuantaExpiry_kept e prio s

/-- The anti-rollback counter as the image orders it; no other factory value changes, and it never falls (R552, R557, log entry 45). -/
def svnRaised (s : State) (commit : Bool) (svn : Nat) : State :=
  if (commit && decide (s.otp.svn < svn)) = true then { s with otp := { s.otp with svn := svn } } else s

theorem svnRaised_steady (s : State) (commit : Bool) (svn : Nat) : Steady s (svnRaised s commit svn) := by
  unfold svnRaised
  split
  case isTrue hraise =>
    have hlt : s.otp.svn < svn := by simp_all
    exact ⟨rfl, rfl, hlt.le⟩
  case isFalse => exact .of_kept rfl

/-- A handover changes the counter; what follows keeps it. -/
theorem handover_kept (s : State) (ref : CmdRef) (commit : Bool) (calWait : Nat) (b : List Byte) :
    (handover s ref commit calWait b).kept = (svnRaised s commit (getLe b 12 1)).kept := by
  unfold handover
  simp only [startFirmware_kept, kept_mk, kept_fold, finish_kept, extendMeas_kept]
  rfl

theorem imageRead_steady (s : State) (p : HostPort) (b : List Byte) : Steady s (imageRead s p b) := by
  unfold imageRead
  split
  · exact .of_kept rfl
  · split
    · exact .of_kept rfl
    · split
      · exact (svnRaised_steady ..).trans (.of_kept (handover_kept ..))
      · exact .of_kept (by simp only [finish_kept, kept_mk, kept_fold])

/-- Every row answers a next state, takes nothing off the queue and keeps the factory values (log entry 12). -/
theorem exec_steady (i : Instr) (s : State) : ∃ t, exec i s = .next t ∧ Steady s t := by
  by_cases h : ∃ p b, i = .fwHandover p b
  · obtain ⟨p, b, rfl⟩ := h
    exact ⟨_, rfl, imageRead_steady s p b⟩
  · obtain ⟨t, ht, hkept⟩ := exec_kept s fun p b hi => h ⟨p, b, hi⟩
    exact ⟨t, ht, .of_kept hkept⟩

theorem tick_kept (s : State) : (tick s).kept = s.kept := by
  unfold tick
  split <;> rfl

/-- On an empty queue a nanosecond passes (R504, log entry 2). -/
theorem step_idle {s : State} (h : s.pending = []) : step s = .next (tick s) := by
  unfold step
  rw [h]

theorem step_front {s : State} {i : Instr} {rest : List Instr} (h : s.pending = i :: rest) :
    step s = exec i { s with pending := rest } := by
  unfold step
  rw [h]

/-- Settles O60: the idle tick, or the row at the front of the queue (log entries 12 and 45). -/
theorem everyStepIsSteady : Obligations.EveryStepIsSteady := by
  intro s
  unfold stepsTo
  cases hqueue : s.pending with
  | nil => exact ⟨tick s, step_idle hqueue, .of_kept ((tick_kept s).trans (congrArg (·, s.otp) hqueue))⟩
  | cons i rest =>
    rw [step_front hqueue]
    exact exec_steady i _

/-- Settles O58. -/
theorem stepTakesFront : Obligations.StepTakesFront := fun _ _ => ⟨step_front rfl, step_idle⟩

end Sys2Proof.Machine
end

section
/-! SUPPORT. The rows of the fabric layer: routing, windows, discovery and identity (R373 to R397, R451). -/

namespace Sys2Proof.Machine

open Sys2Proof

/-! ### A row takes its packet (R373, R377) -/

section
variable {s : State} {e : EdgePort} {typ : Nat} {q : Nat × List Byte}

/-- A packet from the link is handled, and the buffer's marks are tested. -/
theorem fabRow_head (act : State → List Byte → State) (h : FabricHead s e typ q) :
    fabRow s e.val typ act = pfcCheck (act (msgsLeft s e ((getPort s e.val).msgs.erase q)) q.2) e.val := by
  obtain ⟨hfirst, htag, hver⟩ := h
  have hroom : (portTag (getPort s e.val)).isNone = false := by simpa using htag
  simp only [fabRow, fabTake, hroom, hfirst, hver, Bool.false_eq_true, if_false, if_true]
  rfl

theorem exec_fhello_head (h : FabricHead s e 1 q) : exec (.fhello e) s =
    .next (pfcCheck (fhelloIn (msgsLeft s e ((getPort s e.val).msgs.erase q)) e.val q.2) e.val) := congrArg _ (fabRow_head _ h)

theorem exec_discReq_head (h : FabricHead s e 2 q) : exec (.discReq e) s =
    .next (pfcCheck (discWalk (msgsLeft s e ((getPort s e.val).msgs.erase q)) e.val q.2) e.val) := congrArg _ (fabRow_head _ h)

theorem exec_idAssign_head (h : FabricHead s e 4 q) : exec (.idAssign e) s =
    .next (pfcCheck (discWalk (msgsLeft s e ((getPort s e.val).msgs.erase q)) e.val q.2) e.val) := congrArg _ (fabRow_head _ h)

/-- DISC_RSP and ID_ASSIGN_ACK do the same work. -/
theorem exec_discReturn_head {r : Instr × Nat} (hr : r ∈ [(Instr.discRsp e, 3), (.idAssignAck e, 5)]) (h : FabricHead s e r.2 q) :
    exec r.1 s = .next (pfcCheck (discReturn (msgsLeft s e ((getPort s e.val).msgs.erase q)) e.val q.2) e.val) := by
  simp only [List.mem_cons, List.not_mem_nil, or_false] at hr
  rcases hr with rfl | rfl <;> exact congrArg _ (fabRow_head _ h)

theorem exec_wwrite_head (h : FabricHead s e 0x10 q) : exec (.wwrite e) s =
    .next (pfcCheck (routeWrite (msgsLeft s e ((getPort s e.val).msgs.erase q)) e.val q.2) e.val) := congrArg _ (fabRow_head _ h)

theorem exec_wack_head (h : FabricHead s e 0x11 q) : exec (.wack e) s =
    .next (pfcCheck (routeWack (msgsLeft s e ((getPort s e.val).msgs.erase q)) e.val q.2) e.val) := congrArg _ (fabRow_head _ h)

/-- A packet that another port has handed over is acknowledged and leaves. -/
theorem fabRow_handed {m : List Byte} {h : Packet × Nat} {w : State} (act : State → List Byte → State)
    (hhanded : FabricHanded s e typ m h w) :
    fabRow s e.val typ act = fabLeave (portWriteReply w e ⟨h.1, h.2, 0, 0⟩ 0) e m := by
  obtain ⟨htake, htag⟩ := hhanded
  have hroom : (portTag (getPort s e.val)).isNone = false := by simpa using htag
  simp only [fabRow, htake, hroom, Bool.false_eq_true, if_false]

end

/-! ### Routing (R384, R386, R390) -/

section
variable {s : State}

theorem assigned_iff : assigned s = true ↔ engId s ≠ 0x7FFF := bne_iff_ne

theorem assigned_eq_false_iff : assigned s = false ↔ engId s = 0x7FFF := by simp [assigned]

/-- The port that a destination's table entry chooses. -/
def routeOf (s : State) (dst : Nat) : Nat := choiceOf (destWord s dst) (bits (destWord s dst).toNat 28 2)

/-- A destination's table entry is valid and its port carries fabric packets. -/
def RouteUsable (s : State) (dst : Nat) : Prop := (destWord s dst).getLsbD 31 = true ∧ fabUp s (routeOf s dst) = true

theorem fabLookup_usable {dst hops : Nat} (h : RouteUsable s dst) (hhops : 0 < hops) :
    fabLookup s dst hops = (some (routeOf s dst), 0) := by
  obtain ⟨hvalid, hup⟩ := h
  simp only [fabLookup, routeOf] at hup ⊢
  simp [hvalid, hup, Nat.ne_of_gt hhops]

theorem fabLookup_exhausted {dst : Nat} (h : RouteUsable s dst) : fabLookup s dst 0 = (none, 2) := by
  obtain ⟨hvalid, hup⟩ := h
  simp only [fabLookup, routeOf] at hup ⊢
  simp [hvalid, hup]

theorem fabLookup_unusable {dst : Nat} (hops : Nat) (h : ¬ RouteUsable s dst) : fabLookup s dst hops = (none, 1) := by
  refine if_pos ?_
  by_contra hno
  exact h (by simpa [RouteUsable, routeOf] using hno)

section
variable (e : Nat) {m : List Byte}

/-- An unassigned module forwards nothing (R373). -/
theorem routeWrite_unassigned (h : engId s = 0x7FFF) : routeWrite s e m = countMalf s := if_pos (by simp [assigned, h])

theorem routeWack_unassigned (h : engId s = 0x7FFF) : routeWack s e m = countMalf s := if_pos (by simp [assigned, h])

theorem routeWrite_here (hid : engId s ≠ 0x7FFF) (hdst : fbDst m = engId s) : routeWrite s e m = windowWrite s e m := by
  simp [routeWrite, assigned_iff.mpr hid, hdst]

/-- A write for another module that the table sends out of a port. -/
theorem routeWrite_out {out : Nat} (hid : engId s ≠ 0x7FFF) (hdst : fbDst m ≠ engId s)
    (hlookup : fabLookup s (fbDst m) (fbHops m) = (some out, 0)) :
    let less := putLe m 8 1 (fbHops m - 1)
    routeWrite s e m = if fabFits s out less = true then fabOut s e out less
      else sendWack (norouteEvent s e (fbDst less) 4) e less 0x0102 := by
  simp only [routeWrite, assigned_iff.mpr hid, hdst, hlookup, Bool.not_true, Bool.false_eq_true, if_false]

/-- A write for another module that the table sends nowhere. -/
theorem routeWrite_noRoute {cause : Nat} (hid : engId s ≠ 0x7FFF) (hdst : fbDst m ≠ engId s)
    (hlookup : fabLookup s (fbDst m) (fbHops m) = (none, cause)) :
    routeWrite s e m = sendWack (noRoute s e (fbDst m) cause) e m 0x0705 := by
  simp only [routeWrite, assigned_iff.mpr hid, hdst, hlookup, Bool.not_true, Bool.false_eq_true, if_false]

theorem routeWack_out {out : Nat} (hid : engId s ≠ 0x7FFF) (hsrc : fbSrc m ≠ engId s)
    (hlookup : fabLookup s (fbSrc m) (fbHops m) = (some out, 0)) :
    let less := putLe m 8 1 (fbHops m - 1)
    routeWack s e m = if fabFits s out less = true then fabOut s e out less else countNoroute s := by
  simp only [routeWack, assigned_iff.mpr hid, hsrc, hlookup, Bool.not_true, Bool.false_eq_true, if_false]

theorem routeWack_noRoute {cause : Nat} (hid : engId s ≠ 0x7FFF) (hsrc : fbSrc m ≠ engId s)
    (hlookup : fabLookup s (fbSrc m) (fbHops m) = (none, cause)) : routeWack s e m = noRoute s e (fbSrc m) cause := by
  simp only [routeWack, assigned_iff.mpr hid, hsrc, hlookup, Bool.not_true, Bool.false_eq_true, if_false]

/-- A WACK of this module's write goes to its gateway. -/
theorem routeWack_home (hid : engId s ≠ 0x7FFF) (hsrc : fbSrc m = engId s) :
    routeWack s e m = if fbGw m = e then gatewayDone s e m else fabCross s e (fbGw m) m := by
  simp only [routeWack, assigned_iff.mpr hid, hsrc, Bool.not_true, Bool.false_eq_true, if_false, if_true]

/-- The window writes that a WACK may complete at its gateway. -/
def namedBy (m : List Byte) (o : OutWrite) : Bool :=
  o.seq == fbSeq m && bits (pArg2 o.pkt.hdr) 8 8 == fbTag m && pSrc o.pkt.hdr == fbXy m

theorem gatewayDone_named {o : OutWrite} (hfind : (getPort s e).outWrites.find? (namedBy m) = some o) : gatewayDone s e m =
    portWriteReply (setPort s e { getPort s e with outWrites := (getPort s e).outWrites.erase o }) e ⟨o.pkt, o.plane, 0, 0⟩
      (if fbStatus m = 0x0501 then 0 else fbStatus m) := by
  unfold namedBy at hfind
  simp only [gatewayDone, hfind]

/-- A late WACK is counted, and one of a retired incarnation is dropped and counted too (R391, R460). -/
theorem gatewayDone_late (hfind : (getPort s e).outWrites.find? (namedBy m) = none) :
    let u := { s with fabric := { s.fabric with late := satAdd 0xFFFFFFFF s.fabric.late 1 } }
    gatewayDone s e m = if retiredPkt s m = true then dropRetired u m else u := by
  unfold namedBy at hfind
  simp only [gatewayDone, hfind]
  rfl

end

/-- A packet that another port has handed over leaves by this port's link (R377). -/
theorem fabLeave_sent {e : Nat} {m : List Byte} (hid : engId s ≠ 0x7FFF) (hlive : retiredPkt s m = false)
    (haway : ¬ (fbType m = 0x11 ∧ fbSrc m = engId s)) (hup : fabUp s e = true) (hfits : fabFits s e m = true) :
    fabLeave s e m = sendData s e (fbClass m) (putLe m 1 1 (fabVer (getPort s e))) := by
  simp [fabLeave, assigned_iff.mpr hid, hlive, haway, hup, hfits, fabSend]

end

/-! ### Origin writes (R389 to R391) -/

section
variable {s : State} {e : EdgePort} {p : Packet} {pl : Nat}

/-- The packets that ORIGIN_WRITE takes. -/
def isOrigin (p : Packet) : Bool := pType p.hdr == 0xB && decide (2 ^ 28 ≤ pArg p.hdr) && decide (p.note < 2 ^ 16)

theorem exec_originWrite_takes (h : PortTakes s e isOrigin p pl) (htag : (portTag (getPort s e.val)).isSome = true) :
    exec (.originWrite e) s = .next (originWrite (portTaken s e p pl) e.val p pl) := by
  have hroom : (portTag (getPort s e.val)).isNone = false := by simpa using htag
  have htake := withInbox_takes h fun s p pl => originWrite s e.val p pl
  exact (if_neg (by simp [hroom])).trans (congrArg _ htake)

end

section
variable {s : State} {e : Nat} {p : Packet} {pl : Nat}

/-- The engine ID that an origin write is for. -/
def originDst (p : Packet) : Nat := bits (p.payload.getD 0 0).toNat 0 15

/-- The window packets that a core has been counted, and the SEQ of the next (R389, R449). -/
def windowCount (x : Scene) (k : Nat) : Nat := ((x.winCount.find? fun q => q.1 == k).map (·.2)).getD 0

def originSeq (s : State) (x : Scene) (k : Nat) : Nat := runOf x k * 2 ^ 20 + windowIndex s x k * 2 ^ 12 + windowCount x k

/-- The state once a core's next window packet is counted and kept at its gateway. -/
def originKept (s : State) (e : Nat) (p : Packet) (pl : Nat) (x : Scene) : State :=
  let k := pSrc p.hdr
  let v := setScene s { x with winCount := (k, windowCount x k + 1) :: x.winCount.filter fun q => q.1 != k }
  setPort v e { getPort v e with
    outWrites := (getPort v e).outWrites ++ [⟨originSeq s x k, originDst p, bits (p.payload.getD 0 0).toNat 16 14, p, pl⟩] }

theorem originWrite_unassigned (h : engId s = 0x7FFF) :
    originWrite s e p pl = portWriteReply (noRoute s e (originDst p) 3) e ⟨p, pl, 0, 0⟩ 0x0705 := if_pos (by simp [assigned, h])

theorem originWrite_noScene (hid : engId s ≠ 0x7FFF) (hscene : sceneOf s (getCore s (pSrc p.hdr)) = none) :
    originWrite s e p pl = portWriteReply (countRetired s (pSlate p.hdr)) e ⟨p, pl, 0, 0⟩ 0x0402 := by
  simp only [originWrite, assigned_iff.mpr hid, hscene, Bool.not_true, Bool.false_eq_true, if_false]

theorem originWrite_scene {x : Scene} (hid : engId s ≠ 0x7FFF) (hscene : sceneOf s (getCore s (pSrc p.hdr)) = some x) :
    originWrite s e p pl = if 4096 ≤ windowCount x (pSrc p.hdr) then portWriteReply s e ⟨p, pl, 0, 0⟩ 0x0301
      else routeWrite (originKept s e p pl x) e
        (originHdr (originKept s e p pl x) e p (originSeq s x (pSrc p.hdr)) ++ wordsBytes (p.payload.drop 2)) := by
  simp only [originWrite, assigned_iff.mpr hid, hscene, Bool.not_true, Bool.false_eq_true, if_false]
  rfl

theorem exec_fabricTimeout_found {e : EdgePort} {seq : Word} {o : OutWrite}
    (hfind : (getPort s e.val).outWrites.find? (fun o => o.seq == seq.toNat) = some o) :
    exec (.fabricTimeout e seq) s = .next (outTimeout s e.val o) := by
  simp only [exec, execFabricTimeout, hfind]

/-- A write without a WACK in time: 0x5044, at most once a second for a destination, and FAB_TIMEOUT (R391). -/
theorem outTimeout_eq {o : OutWrite} {v : State} {say : Bool} (hsay : oncePerSec s 0x44 o.dst = (v, say)) :
    let late := if say then raiseEv v 0x5044 1 noFrame [(28, 1, e), (30, 2, o.dst), (32, 2, o.win),
      (34, 2, ((getPort s e).outWrites.filter fun x => x.dst == o.dst).length)] else v
    outTimeout s e o = portWriteReply
      (setPort late e { getPort late e with outWrites := (getPort late e).outWrites.erase o }) e ⟨o.pkt, o.plane, 0, 0⟩ 0x0601 := by
  cases say <;> simp only [outTimeout, hsay] <;> rfl

end

/-- The rows of packets that the table routes, with their types. -/
def routedRows (e : EdgePort) : List (Instr × Nat) := [(.wwrite e, 0x10), (.wack e, 0x11)]

/-- An unassigned module discards a routed packet and counts it (R373). -/
theorem exec_routed_unassigned {s : State} {e : EdgePort} {q : Nat × List Byte} {r : Instr × Nat} (hr : r ∈ routedRows e)
    (hhead : FabricHead s e r.2 q) (hid : engId (msgsLeft s e ((getPort s e.val).msgs.erase q)) = 0x7FFF) :
    exec r.1 s = .next (pfcCheck (countMalf (msgsLeft s e ((getPort s e.val).msgs.erase q))) e.val) := by
  simp only [routedRows, List.mem_cons, List.not_mem_nil, or_false] at hr
  rcases hr with rfl | rfl
  · rw [exec_wwrite_head hhead, routeWrite_unassigned _ hid]
  · rw [exec_wack_head hhead, routeWack_unassigned _ hid]

/-- A routed packet that another port has handed over is acknowledged, and leaves by this port's link (R377). -/
theorem exec_routed_handed {s w : State} {e : EdgePort} {b : List Byte} {h : Packet × Nat} {r : Instr × Nat} (hr : r ∈ routedRows e)
    (hhanded : FabricHanded s e r.2 b h w) : exec r.1 s = .next (fabLeave (portWriteReply w e.val ⟨h.1, h.2, 0, 0⟩ 0) e.val b) := by
  simp only [routedRows, List.mem_cons, List.not_mem_nil, or_false] at hr
  rcases hr with rfl | rfl <;> exact congrArg _ (fabRow_handed _ hhanded)

/-- Settles O34: the row takes its packet, and the table sends it on, or nowhere (log entries 78, 90 and 102). -/
theorem fabricRouting : Obligations.FabricRouting := by
  intro s e q p pl u m less out usable mine t ori
  refine ⟨fun hhead hid hdst => ?write, fun hhead hid hsrc => ?wack, fun r hr hhead hid => exec_routed_unassigned hr hhead hid,
    fun r hr b h w hhanded => ?handed, fun hhead hid hsrc hgw => ?cross, fun o hhead hid hsrc hgw hmine => ?done,
    fun hhead hid hsrc hgw hmine => ?late, fun htakes htag => ?origin, fun seq o v say hfind hsay => ?timeout⟩
  case write =>
    rw [exec_wwrite_head hhead]
    refine ⟨fun husable hhops hfits => ?_, fun husable hhops hfits => ?_, fun husable hhops => ?_, fun hnone => ?_⟩
    · rw [routeWrite_out _ hid hdst (fabLookup_usable husable hhops)]
      exact congrArg _ (congrArg (pfcCheck · e.val) (if_pos hfits))
    · rw [routeWrite_out _ hid hdst (fabLookup_usable husable hhops)]
      exact congrArg _ (congrArg (pfcCheck · e.val) (if_neg (ne_true_of_eq_false hfits)))
    · rw [routeWrite_noRoute _ hid hdst (hhops ▸ fabLookup_exhausted husable)]
    · rw [routeWrite_noRoute _ hid hdst (fabLookup_unusable _ hnone)]
  case wack =>
    rw [exec_wack_head hhead]
    refine ⟨fun husable hhops hfits => ?_, fun husable hhops hfits => ?_, fun husable hhops => ?_, fun hnone => ?_⟩
    · rw [routeWack_out _ hid hsrc (fabLookup_usable husable hhops)]
      exact congrArg _ (congrArg (pfcCheck · e.val) (if_pos hfits))
    · rw [routeWack_out _ hid hsrc (fabLookup_usable husable hhops)]
      exact congrArg _ (congrArg (pfcCheck · e.val) (if_neg (ne_true_of_eq_false hfits)))
    · rw [routeWack_noRoute _ hid hsrc (hhops ▸ fabLookup_exhausted husable)]
    · rw [routeWack_noRoute _ hid hsrc (fabLookup_unusable _ hnone)]
  case handed =>
    intro v htype hid hlive haway hup hfits
    have haway : ¬ (fbType b = 0x11 ∧ fbSrc b = engId v) := fun hback =>
      haway.elim (· hback.2) fun htyp => absurd (htype.symm.trans hback.1) (by rw [htyp]; decide)
    rw [exec_routed_handed hr hhanded, fabLeave_sent hid hlive haway hup hfits]
  case cross => rw [exec_wack_head hhead, routeWack_home _ hid hsrc, if_neg hgw]
  case done => rw [exec_wack_head hhead, routeWack_home _ hid hsrc, if_pos hgw, gatewayDone_named _ hmine]
  case late =>
    rw [exec_wack_head hhead, routeWack_home _ hid hsrc, if_pos hgw, gatewayDone_late _ hmine]
    exact ⟨fun hlive => congrArg _ (congrArg (pfcCheck · e.val) (if_neg (ne_true_of_eq_false hlive))),
      fun hretired => congrArg _ (congrArg (pfcCheck · e.val) (if_pos hretired))⟩
  case origin =>
    rw [exec_originWrite_takes htakes htag]
    refine ⟨fun hid => congrArg _ (originWrite_unassigned hid), fun hid hscene => congrArg _ (originWrite_noScene hid hscene),
      fun x hid hscene => ⟨fun hroom => congrArg _ ?_, fun hfull => congrArg _ ?_⟩⟩
    · exact (originWrite_scene hid hscene).trans (if_neg (Nat.not_le.mpr hroom))
    · exact (originWrite_scene hid hscene).trans (if_pos hfull)
  case timeout =>
    intro late
    rw [exec_fabricTimeout_found hfind]
    exact congrArg _ (outTimeout_eq hsay)

end Sys2Proof.Machine
end

section
/-! SUPPORT. Windows, discovery and identity of the fabric layer (R379 to R381, R393 to R397, R451). -/

namespace Sys2Proof.Machine

open Sys2Proof

/-! ### Writes into windows (R393 to R397) -/

section
variable {s : State} {e : Nat} {m : List Byte} {w : FabWindow} (hw : winOf s (fbWin m) = w)
include hw

theorem windowWrite_frozen (hstate : w.state ≠ .free) (hfrozen : s.fabric.frozen.contains (flowOf m w.slate) = true) :
    windowWrite s e m = sendWack s e m 0x0703 := by
  subst hw
  exact if_pos ⟨hstate, hfrozen⟩

/-- A window that is not OPEN refuses a write of a flow that is not frozen. -/
theorem windowWrite_notOpen (hstate : w.state ≠ .opened)
    (hthawed : w.state = .free ∨ s.fabric.frozen.contains (flowOf m w.slate) = false) : windowWrite s e m = sendWack s e m 0x0701 := by
  subst hw
  have hno : ¬ ((winOf s (fbWin m)).state ≠ .free ∧ s.fabric.frozen.contains (flowOf m (winOf s (fbWin m)).slate) = true) :=
    fun h => hthawed.elim h.1 fun hf => ne_true_of_eq_false hf h.2
  exact (if_neg hno).trans (if_pos hstate)

section
variable (hopen : w.state = .opened) (hthawed : s.fabric.frozen.contains (flowOf m w.slate) = false)
include hopen hthawed

theorem windowWrite_unlisted (hpeers : w.peers.any (peerFits m) = false) : windowWrite s e m = denyWrite s e m w.slate 1 := by
  simp only [windowWrite, hw, hopen, hthawed, hpeers]
  simp

theorem windowWrite_outside (hpeers : w.peers.any (peerFits m) = true) (hlen : w.len < fbOff m + fbLen m / 4) :
    windowWrite s e m = denyWrite s e m w.slate 2 := by
  simp only [windowWrite, hw, hopen, hthawed, hpeers, hlen]
  simp

/-- What becomes of a write that its window admits, by its judgement (R451). -/
def windowAnswer (s : State) (e : Nat) (m : List Byte) (w : FabWindow) : Judged → State
  | .full => sendWack s e m 0x0301
  | .stale r => staleWrite s r m
  | .older r => sendWack (countDup (setFlow s r)) e m 0x0501
  | .dup r => duplicateWrite (setFlow s r) e m w.slate
  | .fresh r => applyWrite (setFlow s r) e m w

theorem windowWrite_admitted (hpeers : w.peers.any (peerFits m) = true) (hlen : fbOff m + fbLen m / 4 ≤ w.len) :
    windowWrite s e m = windowAnswer s e m w (judge s (flowOf m w.slate) (fbInc m) (fbSeq m)) := by
  have hno : ¬ (w.state ≠ .free ∧ s.fabric.frozen.contains (flowOf m w.slate) = true) :=
    fun h => ne_true_of_eq_false hthawed h.2
  subst hw
  unfold windowWrite
  rw [if_neg hno, if_neg (not_not_intro hopen), if_neg (by simp [hpeers]), if_neg (Nat.not_lt.mpr hlen)]
  cases judge s (flowOf m (winOf s (fbWin m)).slate) (fbInc m) (fbSeq m) <;> rfl

end
end

/-! ### The judgement of a write (R448, R451) -/

section
variable {s : State} {f : FlowKey} {r : FlowRec} {inc seq : Nat} (hfind : s.fabric.flows.find? (fun r => r.flow == f) = some r)
include hfind

/-- An incarnation half the circle ahead is an older one. -/
theorem judge_stale (h : 2 ^ 15 ≤ (inc + 65536 - r.inc) % 65536) : judge s f inc seq = .stale r := by
  simp only [judge, hfind]
  exact if_pos h

/-- A write of the incarnation and the run of its record is new where its bit is clear. -/
theorem judge_same (hinc : inc = r.inc) (hrun : seq / 2 ^ 20 = r.run) :
    judge s f inc seq = if r.map.contains (seq % 2 ^ 20) then .dup r else .fresh { r with map := (seq % 2 ^ 20) :: r.map } := by
  have hahead : (inc + 65536 - r.inc) % 65536 = 0 := by omega
  have hup : (seq / 2 ^ 20 + 4096 - r.run) % 4096 = 0 := by omega
  simp only [judge, hfind]
  rw [if_neg (by omega), if_pos hahead, if_neg (by omega), if_pos hup]

end

/-! ### A window closes (R396) -/

/-- The commands `r.1` end with a window's close, and `r.2` still wait. -/
def closesEnd (v : State) (r : List (CmdRef × Nat) × List (CmdRef × Nat)) : State :=
  r.1.foldl (fun t w => finish t w.1 0 []) { v with works := { v.works with windowClose := r.2 } }

theorem exec_windowCloseDone_quiet {s : State} {win : Fin 16384} (hclosing : (winOf s win.val).state = .closing)
    (hquiet : windowQuiet s win.val = true) :
    let v := windowFree s win.val
    exec (.windowCloseDone win) s =
      .next ((v.works.windowClose.filter fun w => w.2 == win.val).foldl (fun t w => finish t w.1 0 [])
        { v with works := { v.works with windowClose := v.works.windowClose.filter fun w => !(w.2 == win.val) } }) := by
  exact (if_pos ⟨hclosing, hquiet⟩).trans
    (congrArg (fun r => Host.Outcome.next (closesEnd (windowFree s win.val) r)) List.partition_eq_filter_filter)

/-- Settles O35: the checks in the order of R394, then the judgement of R451 (log entries 62 and 79). -/
theorem fabricWindows : Obligations.FabricWindows := by
  intro s e q u m w f thawed admitted
  refine ⟨fun hhead hid hdst => ?write, fun r inc seq hfind => ⟨judge_stale hfind, fun hinc _ hrun _ => judge_same hfind hinc hrun⟩,
    fun win hclosing hquiet => exec_windowCloseDone_quiet hclosing hquiet⟩
  rw [exec_wwrite_head hhead, routeWrite_here _ hid hdst]
  refine ⟨fun hstate hfrozen => ?_, fun hstate => ?_, fun hopen hthawed hpeers => ?_, fun hadmitted hlen => ?_,
    fun hadmitted hlen => ?_⟩
  · rw [windowWrite_frozen rfl hstate hfrozen]
  · have hnot : w.state ≠ .opened := by rcases hstate with h | ⟨h, -⟩ <;> rw [h] <;> decide
    rw [windowWrite_notOpen rfl hnot (hstate.imp_right And.right)]
  · rw [windowWrite_unlisted rfl hopen hthawed hpeers]
  · obtain ⟨hopen, hthawed, hpeers⟩ := hadmitted
    rw [windowWrite_outside rfl hopen hthawed hpeers hlen]
  · obtain ⟨hopen, hthawed, hpeers⟩ := hadmitted
    rw [windowWrite_admitted rfl hopen hthawed hpeers hlen]
    unfold windowAnswer
    cases judge u f (fbInc m) (fbSeq m) <;> rfl

/-! ### Discovery and identity (R379 to R381) -/

/-- What FHELLO tells of the peer, and the event of a change (R379). -/
theorem fhelloIn_eq (s : State) (e : Nat) (m : List Byte) :
    let b := fbPay m
    let v := initVersion (getLe b 0 1) (getLe b 1 1)
    let w0 := BitVec.ofNat 32 (getLe b 2 2 % 2 ^ 15 + 2 ^ 15 + getLe b 4 1 % 2 ^ 7 * 2 ^ 16 + v * 2 ^ 24)
    let old := getPort s e
    let new : Port := { old with peer0 := w0, peerSerial := BitVec.ofNat 64 (getLe b 8 8), peerGen := BitVec.ofNat 8 (getLe b 5 1) }
    fhelloIn s e m = if w0 = old.peer0 ∧ new.peerSerial = old.peerSerial ∧ new.peerGen = old.peerGen then setPort s e new
      else raiseEv (setPort s e new) 0x5040 0 noFrame
        [(28, 1, e), (29, 1, v), (30, 2, getLe b 2 2), (32, 8, getLe b 8 8), (40, 1, getLe b 4 1), (41, 1, getLe b 5 1)] := rfl

/-- A discovery packet with the ingress port recorded at this hop (R380). -/
def walked (e : Nat) (m : List Byte) : List Byte := if getLe m 33 1 < 8 then putLe m (42 + getLe m 33 1) 1 e else m

/-- The egress port at this hop. -/
def walkNext (e : Nat) (m : List Byte) : Nat := getLe (walked e m) (34 + getLe m 33 1) 1

/-- The route goes on from this hop. -/
def WalkGoes (s : State) (e : Nat) (m : List Byte) : Prop :=
  getLe m 33 1 < getLe (walked e m) 32 1 ∧ getLe m 33 1 < 8 ∧ walkNext e m < 120 ∧ fabUp s (walkNext e m) = true

/-- A discovery packet at the end of its hops. -/
theorem discWalk_end {s : State} {e : Nat} {m : List Byte} (hhops : fbHops (walked e m) = 0) : discWalk s e m =
    if fbType (walked e m) = 2 then discBack s e 3 (walked e m) (discInfo s) 0 else idAssignHere s e (walked e m) := if_pos hhops

section
variable {s : State} {e : Nat} {m : List Byte} (htype : fbType m = 4)
include htype

/-- ID_ASSIGN at the end of its hops names a module that has no engine ID. -/
theorem walkEnd_unassigned (hid : engId s = 0x7FFF) :
    (if fbType m = 2 then discBack s e 3 m (discInfo s) 0 else idAssignHere s e m) =
      discBack (setEngId s (getLe (fbPay m) 18 2) e) e 5 m (leBytes 2 (engId (setEngId s (getLe (fbPay m) 18 2) e))) 0 := by
  rw [if_neg (by omega), idAssignHere, if_neg (by simp [assigned_eq_false_iff.mpr hid])]

/-- A module with an engine ID answers it. -/
theorem walkEnd_assigned (hid : engId s ≠ 0x7FFF) :
    (if fbType m = 2 then discBack s e 3 m (discInfo s) 0 else idAssignHere s e m) =
      discBack s e 5 m (leBytes 2 (engId s)) 0x0202 := by
  rw [if_neg (by omega), idAssignHere, if_pos (assigned_iff.mpr hid)]

end

theorem discWalk_goes {s : State} {e : Nat} {m : List Byte} (hhops : fbHops (walked e m) ≠ 0) (hgoes : WalkGoes s e m) :
    discWalk s e m = fabOut s e (walkNext e m)
      (putLe (putLe (walked e m) 33 1 (getLe m 33 1 + 1)) 8 1 (fbHops (walked e m) - 1)) :=
  (if_neg hhops).trans (if_pos hgoes)

theorem discWalk_stops {s : State} {e : Nat} {m : List Byte} (hhops : fbHops (walked e m) ≠ 0) (hstops : ¬ WalkGoes s e m) :
    discWalk s e m = discBack s e 3 (walked e m) (discInfo s) 0x0705 :=
  (if_neg hhops).trans (if_neg hstops)

/-- An answer ends the command at its origin. -/
theorem discReturn_origin {s : State} {e : Nat} {m : List Byte} {cmd : CmdRef} {addr : DWord} {since : Nat} (hhop : getLe m 33 1 = 0)
    (hwork : s.works.discovery = some (cmd, addr, since)) :
    discReturn s e m = finish (hostWrite { s with works := { s.works with discovery := none } } cmd.port addr.toNat (fbPay m))
      cmd (fbStatus m) [] := by
  refine (if_pos hhop).trans ?_
  simp only [discDone, hwork]

/-- An answer goes back elsewhere. -/
theorem discReturn_back {s : State} {e : Nat} {m : List Byte} (hhop : getLe m 33 1 ≠ 0) (hroute : getLe m 33 1 < 8)
    (hout : getLe m (42 + getLe m 33 1) 1 < 120) (hup : fabUp s (getLe m (42 + getLe m 33 1) 1) = true) :
    discReturn s e m = fabOut s e (getLe m (42 + getLe m 33 1) 1)
      (putLe (putLe m 33 1 (getLe m 33 1 - 1)) 8 1 (fbHops m - 1)) :=
  (if_neg hhop).trans (if_pos ⟨hroute, hout, hup⟩)

theorem exec_discoveryTimeout_waiting {s : State} {p : HostPort} {cmd : CmdRef} {addr : DWord} {since : Nat}
    (hwork : s.works.discovery = some (cmd, addr, since)) (hport : cmd.port = p) :
    exec (.discoveryTimeout p) s = .next (finish { s with works := { s.works with discovery := none } } cmd 0x0601 []) := by
  simp only [exec, execDiscoveryTimeout, hwork, hport, if_true]

/-- Settles O36: the row takes its packet; the walk and the answers by their hop (log entries 61 and 77). -/
theorem fabricDiscovery : Obligations.FabricDiscovery := by
  intro s e q u m b i wk next goes passed
  refine ⟨fun w0 hhead hw0 => ?fhello, fun hup => congrArg _ (if_pos hup), fun hhead => ?discReq, fun hhead => ?idAssign,
    fun r hr hhead => ?answer, fun p cmd addr since hwork hport => exec_discoveryTimeout_waiting hwork hport⟩
  case fhello =>
    intro new
    subst hw0
    rw [exec_fhello_head hhead, fhelloIn_eq]
  case discReq =>
    rw [exec_discReq_head hhead]
    exact ⟨fun hhops => congrArg _ (congrArg (pfcCheck · e.val) (discWalk_end hhops)),
      fun hhops hgoes => congrArg _ (congrArg (pfcCheck · e.val) (discWalk_goes hhops hgoes)),
      fun hhops hstops => congrArg _ (congrArg (pfcCheck · e.val) (discWalk_stops hhops hstops))⟩
  case idAssign =>
    rw [exec_idAssign_head hhead]
    refine ⟨fun hhops htype hid => congrArg _ (congrArg (pfcCheck · e.val) ?_),
      fun hhops htype hid => congrArg _ (congrArg (pfcCheck · e.val) ?_),
      fun hhops hgoes => congrArg _ (congrArg (pfcCheck · e.val) (discWalk_goes hhops hgoes))⟩
    · exact (discWalk_end hhops).trans (walkEnd_unassigned htype hid)
    · exact (discWalk_end hhops).trans (walkEnd_assigned htype hid)
  case answer =>
    rw [exec_discReturn_head hr hhead]
    exact ⟨fun cmd addr since hhop hwork => congrArg _ (congrArg (pfcCheck · e.val) (discReturn_origin hhop hwork)),
      fun hhop hroute hout hup => congrArg _ (congrArg (pfcCheck · e.val) (discReturn_back hhop hroute hout hup))⟩

end Sys2Proof.Machine
end

section
/-! SUPPORT. Orders on the engine ID (R382): the fabric unit stands through events, packets and completions. -/

namespace Sys2Proof.Machine

open Sys2Proof

/-! ### What leaves the fabric unit as it stands -/

section
variable (s : State) (p : HostPort)

@[simp] theorem fireVector_fabric (v : Nat) : (fireVector s p v).fabric = s.fabric := by
  unfold fireVector
  dsimp only
  split <;> simp

@[simp] theorem writeCpl_fabric (rcd : List Byte) : (writeCpl s p rcd).fabric = s.fabric := by
  unfold writeCpl
  dsimp only
  split <;> simp

@[simp] theorem writeEvt_fabric (rcd : List Byte) : (writeEvt s p rcd).fabric = s.fabric := by
  unfold writeEvt
  dsimp only
  split <;> simp

@[simp] theorem postEvent_fabric (rcd : List Byte) : (postEvent s p rcd).fabric = s.fabric := by
  simp only [postEvent, apply_ite State.fabric, writeEvt_fabric, setHost_fabric, ite_self]

@[simp] theorem raiseEv_fabric (code sev : Nat) (f : EvFrame) (detail : List (Nat × Nat × Nat)) :
    (raiseEv s code sev f detail).fabric = s.fabric := by
  cases hs : f.slate <;> simp only [raiseEv, hs, apply_ite State.fabric, postEvent_fabric, ite_self]

@[simp] theorem postCpl_fabric (rcd : List Byte) : (postCpl s p rcd).fabric = s.fabric := by
  simp only [postCpl, apply_ite State.fabric, writeCpl_fabric, setHeldCpl_fabric, ite_self]

@[simp] theorem noteCmd_fabric (r : CmdRef) (st : Nat) (final : Bool) : (noteCmd s r st final).fabric = s.fabric := by
  simp only [noteCmd, apply_ite State.fabric, setHost_fabric, setSlate_fabric, ite_self]

theorem foldl_postCpl_fabric (l : List (CmdRef × List Byte)) :
    (l.foldl (fun s c => postCpl s c.1.port c.2) s).fabric = s.fabric := by
  induction l generalizing s with
  | nil => rfl
  | cons c l ih => exact (ih _).trans (postCpl_fabric _ _ _)

@[simp] theorem flushLate_fabric : (flushLate s).fabric = s.fabric := foldl_postCpl_fabric _ _

@[simp] theorem complete_fabric (r : CmdRef) (st : Nat) (final : Bool) (replays : Nat) (res : List (Nat × Nat × Nat)) :
    (complete s r st final replays res).fabric = s.fabric := by
  simp only [complete, apply_ite State.fabric, flushLate_fabric, postCpl_fabric, noteCmd_fabric, ite_self]

@[simp] theorem finish_fabric (r : CmdRef) (st : Nat) (res : List (Nat × Nat × Nat)) : (finish s r st res).fabric = s.fabric :=
  complete_fabric ..

/-! Packets of a Vexaz link -/

theorem pump_fabric (e cls fuel : Nat) : (pump s e cls fuel).fabric = s.fabric := by
  induction fuel generalizing s with
  | zero => rfl
  | succ fuel ih =>
    simp only [pump]
    repeat' split
    all_goals try rfl
    exact ih _

@[simp] theorem fabSend_fabric (e : Nat) (m : List Byte) : (fabSend s e m).fabric = s.fabric := by
  unfold fabSend
  split
  · exact pump_fabric _ _ _ _
  · rfl

@[simp] theorem sendFhello_fabric (e : Nat) : (sendFhello s e).fabric = s.fabric := by
  unfold sendFhello
  split
  · exact fabSend_fabric _ _ _
  · rfl

theorem foldl_sendFhello_fabric (l : List Nat) : (l.foldl sendFhello s).fabric = s.fabric := by
  induction l generalizing s with
  | nil => rfl
  | cons e l ih => exact (ih _).trans (sendFhello_fabric _ _)

end

/-! ### The engine ID and what keeps it (R382) -/

theorem setEngId_engId (s : State) {id from0 : Nat} (hid : id < 2 ^ 15) : engId (setEngId s id from0) = id := by
  unfold engId setEngId fhelloAll
  rw [foldl_sendFhello_fabric, raiseEv_fabric]
  exact Nat.mod_eq_of_lt hid

theorem idBusy_iff (s : State) : idBusy s = true ↔
    (∃ w ∈ s.fabric.windows, w.2.state = .opened ∨ w.2.state = .closing) ∨ ∃ q ∈ s.ports, q.2.outWrites ≠ [] := by
  have hstate : ∀ x : WinState, x ≠ .free ↔ x = .opened ∨ x = .closing := by intro x; cases x <;> simp
  simp [idBusy, hstate]

section
variable {t : State} {r : CmdRec} {id : Nat} {ref : CmdRef} (hrsv : rsvOk r discFields = true) (hid : id = 0x7FFF ∨ id ≤ 20479)
include hrsv hid

theorem localBody_busy (hbusy : idBusy t = true) : localBody r id ref t = finish t ref 0x0301 [] :=
  (if_neg (by simp [hrsv]; omega)).trans (if_pos hbusy)

theorem localBody_free (hbusy : idBusy t ≠ true) :
    localBody r id ref t = finish (setEngId (accept t ref []) id 0xFF) ref 0 [] ∧ engId (localBody r id ref t) = id := by
  have hbody : localBody r id ref t = finish (setEngId (accept t ref []) id 0xFF) ref 0 [] :=
    (if_neg (by simp [hrsv]; omega)).trans (if_neg hbusy)
  refine ⟨hbody, ?_⟩
  rw [hbody, engId, finish_fabric]
  exact setEngId_engId _ (by omega)

end

/-- Settles O49: BUSY is asked before the ID changes, and the value 0x7FFF is CLEAR_LOCAL's alone. -/
theorem engineIdOrders : Obligations.EngineIdOrders := by
  intro s t p r ref busy hrsv
  have hbusy : idBusy t = true ↔ busy := idBusy_iff t
  constructor
  · intro htaken hid
    rw [exec_setLocal_taken htaken, if_neg (by omega)]
    exact ⟨fun hfree => ⟨_, rfl, localBody_free hrsv (.inr hid) (mt hbusy.mp hfree)⟩,
      fun h => congrArg _ (localBody_busy hrsv (.inr hid) (hbusy.mpr h))⟩
  · intro htaken
    rw [exec_clearLocal_taken htaken]
    exact ⟨fun hfree => ⟨_, rfl, localBody_free hrsv (.inl rfl) (mt hbusy.mp hfree)⟩,
      fun h => congrArg _ (localBody_busy hrsv (.inl rfl) (hbusy.mpr h))⟩

end Sys2Proof.Machine
end

section
/-! SUPPORT. Records of a host port's rings (R411, R415, R417, R419). -/

namespace Sys2Proof.Machine

open Sys2Proof

/-! ### A vector fires: memory and rings of the port stay -/

section
variable (s : State) (p : HostPort) (v : Nat)

theorem fireVector_port_kept : (getHost (fireVector s p v) p).mem = (getHost s p).mem ∧
    (getHost (fireVector s p v) p).cpl = (getHost s p).cpl ∧ (getHost (fireVector s p v) p).evt = (getHost s p).evt := by
  unfold fireVector
  dsimp only
  split
  · simp
  · cases p <;> exact ⟨rfl, rfl, rfl⟩

@[simp] theorem fireVector_mem : (getHost (fireVector s p v) p).mem = (getHost s p).mem := (fireVector_port_kept s p v).1

@[simp] theorem fireVector_cpl : (getHost (fireVector s p v) p).cpl = (getHost s p).cpl := (fireVector_port_kept s p v).2.1

@[simp] theorem fireVector_evt : (getHost (fireVector s p v) p).evt = (getHost s p).evt := (fireVector_port_kept s p v).2.2

end

/-! ### One record -/

/-- The moderation of a ring's vector moves none of its pointers. -/
theorem ringSignal_pointers (modr : Word) (t : Nat) (r : Ring) (force : Bool) :
    (ringSignal modr t r force).1.head = r.head ∧ (ringSignal modr t r force).1.tail = r.tail ∧
      (ringSignal modr t r force).1.seq = r.seq := by
  unfold ringSignal
  dsimp only
  split <;> exact ⟨rfl, rfl, rfl⟩

/-- Where the next record of a ring stands in host memory. -/
def ringAt (r : Ring) : Nat := r.base.toNat / 64 * 64 + r.head.toNat % 2 ^ r.log2

/-- The ring `new` and the memory `mem` after `rcd` was written to the ring `r` of a port with the memory `old`. -/
def RecordStands (old mem : Ram) (r new : Ring) (rcd : List Byte) : Prop :=
  new.head = r.head + 64 ∧ new.tail = r.tail ∧ new.seq = r.seq + 1 ∧ ramBytes mem (ringAt r) 64 = rcd
    ∧ ∀ x, x < ringAt r ∨ ringAt r + 64 ≤ x → ramByte mem x = ramByte old x

theorem recordStands_written {h : HPort} {r : Ring} {rcd : List Byte} (modr : Word) (t : Nat) (force : Bool) (hwf : h.mem.wf = true)
    (hlen : rcd.length = 64) (hshadow : r.shadow = 0) :
    RecordStands h.mem (ringWrite h r rcd).1.mem r (ringSignal modr t (ringWrite h r rcd).2 force).1 rcd := by
  obtain ⟨hhead, htail, hseq⟩ := ringSignal_pointers modr t (ringWrite h r rcd).2 force
  have hmem : (ringWrite h r rcd).1.mem = ramPutBytes h.mem (ringAt r) rcd := if_pos hshadow
  refine ⟨hhead, htail, hseq, ?_, fun x hx => ?_⟩
  · rw [hmem, ← hlen, ramBytes_putBytes_self _ _ hwf]
  · rw [hmem, ramByte_putBytes_other _ _ (hlen ▸ hx)]

theorem length_putLe {bs : List Byte} {off n : Nat} (v : Nat) (h : off + n ≤ bs.length) : (putLe bs off n v).length = bs.length := by
  simp only [putLe, List.length_append, List.length_take, List.length_drop, length_leBytes]
  omega

section
variable {s : State} {p : HostPort} {rcd : List Byte} (hlen : rcd.length = 64) (hwf : (getHost s p).mem.wf = true)
include hlen hwf

theorem writeCpl_stands (hshadow : (getHost s p).cpl.shadow = 0) :
    RecordStands (getHost s p).mem (getHost (writeCpl s p rcd) p).mem (getHost s p).cpl (getHost (writeCpl s p rcd) p).cpl
      (putLe rcd 4 4 (getHost s p).cpl.seq.toNat) := by
  have hstands := recordStands_written (r := (getHost s p).cpl) (getHost s p).irqMod (now s) false hwf
    ((length_putLe (off := 4) (n := 4) (getHost s p).cpl.seq.toNat (by omega)).trans hlen) hshadow
  unfold writeCpl
  dsimp only
  split
  · rw [fireVector_mem, fireVector_cpl, getHost_setHost_self]
    exact hstands
  · rw [getHost_setHost_self]
    exact hstands

theorem writeEvt_stands (hshadow : (getHost s p).evt.shadow = 0) :
    RecordStands (getHost s p).mem (getHost (writeEvt s p rcd) p).mem (getHost s p).evt (getHost (writeEvt s p rcd) p).evt
      (putLe rcd 24 4 (getHost s p).evt.seq.toNat) := by
  have hstands := recordStands_written (r := (getHost s p).evt) (getHost s p).irqMod (now s)
    (decide (getLe rcd 2 1 = 3)) hwf
    ((length_putLe (off := 24) (n := 4) (getHost s p).evt.seq.toNat (by omega)).trans hlen) hshadow
  unfold writeEvt
  dsimp only
  split
  · rw [fireVector_mem, fireVector_evt, getHost_setHost_self]
    exact hstands
  · rw [getHost_setHost_self]
    exact hstands

end

/-! ### Room for a record, or none -/

section
variable {s : State} {p : HostPort} {rcd : List Byte}

theorem postCpl_open (hheld : heldCpl s p = []) (hopen : ringOpen (getHost s p) (getHost s p).cpl = true) :
    postCpl s p rcd = writeCpl s p rcd := if_pos (by simp [hheld, hopen])

theorem postCpl_held (h : heldCpl s p ≠ [] ∨ ringOpen (getHost s p) (getHost s p).cpl = false) :
    postCpl s p rcd = setHeldCpl s p (heldCpl s p ++ [rcd]) :=
  if_neg (by rcases h with h | h <;> simp [h])

theorem postEvent_open (hheld : (getHost s p).holding = []) (hdropped : (getHost s p).dropped = 0)
    (hopen : ringOpen (getHost s p) (getHost s p).evt = true) : postEvent s p rcd = writeEvt s p rcd :=
  if_pos (by simp [hheld, hdropped, hopen])

section
variable (hshut : ringOpen (getHost s p) (getHost s p).evt = false) (hbeat : getLe rcd 0 2 ≠ 0xB000)
include hshut hbeat

theorem postEvent_held (hroom : (getHost s p).holding.length < 256) :
    postEvent s p rcd = setHost s p { getHost s p with holding := (getHost s p).holding ++ [rcd] } :=
  (if_neg (by simp [hshut])).trans ((if_neg hbeat).trans (if_pos hroom))

theorem postEvent_dropped (hfull : 256 ≤ (getHost s p).holding.length) :
    postEvent s p rcd = setHost s p { getHost s p with
      evtLost := satAdd 0xFFFFFFFF (getHost s p).evtLost 1, dropped := (getHost s p).dropped + 1 } :=
  (if_neg (by simp [hshut])).trans ((if_neg hbeat).trans (if_neg (Nat.not_lt.mpr hfull)))

end
end

/-- Settles O38: a record in the ring by `recordStands_written`, held or dropped by the test that fails. -/
theorem ringRecords : Obligations.RingRecords := by
  intro s p rcd hlen hwf h at_
  refine ⟨fun hheld hopen hshadow => ?_, fun h => postCpl_held h, fun hheld hdropped hopen hshadow => ?_,
    fun hshut hbeat hroom => postEvent_held hshut hbeat hroom, fun hshut hbeat hfull => postEvent_dropped hshut hbeat hfull⟩
  · rw [postCpl_open hheld hopen]
    exact writeCpl_stands hlen hwf hshadow
  · rw [postEvent_open hheld hdropped hopen]
    exact writeEvt_stands hlen hwf hshadow

end Sys2Proof.Machine
end

section
/-! SUPPORT. The orders in which a command record is judged (R411, R414, R416, R420 to R425, R428). -/

namespace Sys2Proof.Machine

open Sys2Proof

/-! ### Orders 1 to 4 (R423) -/

section
variable {s : State} {p : HostPort} {r : CmdRec} {m : CmdSpec}

theorem headerBad_eq_false_iff : headerBad s p r = false ↔
    r.hdrType = 1 ∧ r.len = 56 ∧ r.seq = (getHost s p).cmd.seq ∧ r.scopeRsv = 0 ∧ r.rsv = 0 := by
  simp [headerBad, and_assoc]

/-- A record of another command than HELLO is of the session's version exactly where it names it. -/
theorem versionBad_eq_false_iff (hhello : m.opcode ≠ 1) :
    versionBad s p m r = false ↔ (getHost s p).session = some (r.ifMajor.toNat, r.ifMinor.toNat) := by
  cases hsession : (getHost s p).session with
  | none => simp [versionBad, hsession, hhello]
  | some v =>
    obtain ⟨major, minor⟩ := v
    simp [versionBad, hsession, hhello]

theorem opcodeBad_unlisted (h : opcodes.contains m.opcode = false) : opcodeBad s p m = true := by
  rw [opcodeBad, h]
  rfl

variable (body : CmdRef → State → State)

theorem mailboxAs_waits (h : cmdReady s p m.opcode r = false) : mailboxAs m p r body s = s :=
  if_neg (by simp [h])

variable (hready : cmdReady s p m.opcode r = true)
include hready

theorem mailboxAs_header (h : headerBad s p r = true) :
    mailboxAs m p r body s = ringViolation (consumeCmd s p) p 1 0 (getHost s p).cmd.tail.toNat :=
  (if_pos hready).trans (if_pos h)

variable (hheader : headerBad s p r = false)
include hheader

theorem mailboxAs_version (h : versionBad (consumeCmd s p) p m r = true) :
    mailboxAs m p r body s = turnAway (consumeCmd s p) (refOf m.opcode p r) 0x0102 [] :=
  (if_pos hready).trans ((if_neg (ne_true_of_eq_false hheader)).trans (if_pos h))

variable (hversion : versionBad (consumeCmd s p) p m r = false)
include hversion

theorem mailboxAs_opcode (h : opcodeBad (consumeCmd s p) p m = true) :
    mailboxAs m p r body s = turnAway (consumeCmd s p) (refOf m.opcode p r) 0x0101 [] :=
  (if_pos hready).trans ((if_neg (ne_true_of_eq_false hheader)).trans
    ((if_neg (ne_true_of_eq_false hversion)).trans (if_pos h)))

variable (hopcode : opcodeBad (consumeCmd s p) p m = false)
include hopcode

theorem mailboxAs_buffer (h : bufferBad m r = true) :
    mailboxAs m p r body s = turnAway (consumeCmd s p) (refOf m.opcode p r) 0x0103 [] :=
  (if_pos hready).trans ((if_neg (ne_true_of_eq_false hheader)).trans
    ((if_neg (ne_true_of_eq_false hversion)).trans ((if_neg (ne_true_of_eq_false hopcode)).trans (if_pos h))))

end

/-! ### Orders 5 to 8 -/

section
variable {s : State} {p : HostPort} {r : CmdRec} {m : CmdSpec} (body : CmdRef → State → State)

/-- A consumed record of the row's own opcode goes on to the later orders. -/
theorem mailbox_consumed (h : CmdConsumed s m p r) : mailbox m p r body s = judgeCmd m p r body (consumeCmd s p) := by
  obtain ⟨hmine, hready, hheader, hversion, hopcode, hbuffer⟩ := h
  rw [mailbox_own body hmine]
  simp only [mailboxAs, hready, hheader, hversion, hopcode, hbuffer, if_true, if_false, Bool.false_eq_true]

/-- The test of `judgeCmd` for a command that no space holds, in the terms of `Unsequenced`. -/
theorem judgeCmd_first_iff : (m.opcode = 1 ∨ (m.opcode == 0x0201 &&
      !(((getSlate s r.slate.toNat).mode == .opened || (getSlate s r.slate.toNat).mode == .running)
        && (getSlate s r.slate.toNat).owner == p)) = true) ↔
    m.opcode = 1 ∨ m.opcode = 0x0201 ∧
      ¬ (((getSlate s r.slate.toNat).mode = .opened ∨ (getSlate s r.slate.toNat).mode = .running)
        ∧ (getSlate s r.slate.toNat).owner = p) := by
  simp only [Bool.and_eq_true, Bool.not_eq_true', ← Bool.not_eq_true, beq_iff_eq, Bool.or_eq_true]

/-- The answer to a command in sequence, once the CSEQ is consumed: its own work, or the status of orders 6 to 8. -/
def inSequence (m : CmdSpec) (p : HostPort) (r : CmdRec) (body : CmdRef → State → State) (s : State) : Nat → State
  | 0 => body (refOf m.opcode p r) s
  | st => finish s (refOf m.opcode p r) st []

/-- The answer to a sequenced command by how its CSEQ is judged (R421). -/
def cseqAnswer (m : CmdSpec) (p : HostPort) (r : CmdRec) (body : CmdRef → State → State) (s : State) : Nat → State
  | 0 => inSequence m p r body (seqAdvance s p m r) (laterStatus (seqAdvance s p m r) p m r)
  | 1 => duplicate s (refOf m.opcode p r) (seqSpace s p m r).2
  | 2 => turnAway s (refOf m.opcode p r) 0x0502 []
  | _ =>
    if m.perSlate then hostFreeze s p (refOf m.opcode p r) r.slate.toNat (seqSpace s p m r).1
    else duplicate s (refOf m.opcode p r) []

theorem inSequence_refused {st : Nat} (h : st ≠ 0) : inSequence m p r body s st = finish s (refOf m.opcode p r) st [] := by
  cases st with
  | zero => exact absurd rfl h
  | succ st => rfl

variable (hspace : ¬ Unsequenced s m p r)
include hspace

theorem judgeCmd_free (hfree : slateFree s m r = true) : judgeCmd m p r body s = turnAway s (refOf m.opcode p r) 0x0402 [] := by
  have hfirst := mt judgeCmd_first_iff.mp fun h => hspace (h.elim .inl fun h => .inr (.inl h))
  have hstatus : m.opcode ≠ 0x0203 := fun h => hspace (.inr (.inr ⟨h, hfree⟩))
  exact (if_neg hfirst).trans ((if_pos hfree).trans (if_neg hstatus))

/-- A sequenced command is judged by its CSEQ. -/
theorem judgeCmd_sequenced (hspaced : slateFree s m r = false) :
    judgeCmd m p r body s = cseqAnswer m p r body s (seqJudge (seqSpace s p m r).1 r.cseq) := by
  have hfirst := mt judgeCmd_first_iff.mp fun h => hspace (h.elim .inl fun h => .inr (.inl h))
  refine (if_neg hfirst).trans ((if_neg (ne_true_of_eq_false hspaced)).trans ?_)
  rfl

end

/-! ### The judgement of a CSEQ (R421) -/

theorem seqJudge_same (c : Word) : seqJudge c c = 0 := by simp [seqJudge]

section
variable {next c : Word}

theorem seqJudge_duplicate (h : 2 ^ 32 - 256 ≤ (c - next).toNat) : seqJudge next c = 1 :=
  (if_neg (by omega)).trans (if_pos h)

theorem seqJudge_gap (hne : c ≠ next) (h : (c - next).toNat ≤ 2 ^ 31) : seqJudge next c = 2 := by
  have hd : (c - next).toNat ≠ 0 := by bv_omega
  exact (if_neg hd).trans ((if_neg (by omega)).trans (if_pos h))

theorem seqJudge_stale (hlow : 2 ^ 31 < (c - next).toNat) (hhigh : (c - next).toNat < 2 ^ 32 - 256) : seqJudge next c = 3 :=
  (if_neg (by omega)).trans ((if_neg (by omega)).trans (if_neg (by omega)))

end

/-- Settles O42: order by order, each with those before it passed (log entries 10 and 31). -/
theorem mailboxOrders : Obligations.MailboxOrders := by
  intro s i p r m hrow u ref h headerOk sp sequenced mine
  obtain ⟨body, hexec⟩ := exec_mailRow hrow
  rw [hexec]
  have own : mine → mailbox m p r body s = mailboxAs m p r body s := mailbox_own body
  have header : headerOk → headerBad s p r = false := headerBad_eq_false_iff.mpr
  have judged : sequenced → mailbox m p r body s = cseqAnswer m p r body u (seqJudge sp.1 r.cseq) :=
    fun ⟨hcons, hspace, hspaced⟩ => (mailbox_consumed body hcons).trans (judgeCmd_sequenced body hspace hspaced)
  refine ⟨fun hmine hwait => ?wait, fun hother hlisted => ?other, fun hother hunlisted hready hheader hsession => ?unlisted,
    fun hmine hready hheader => ?header, fun hmine hready hheader hhello hsession => ?version,
    fun hmine hready hheader hversion hopcode => ?opcode, fun hmine hready hheader hversion hopcode hbuffer => ?buffer,
    fun hcons hspace hfree => ?free, fun hseq hd => ?duplicate, fun hseq hne hd => ?gap, fun hseq hlow hhigh => ?stale,
    fun hseq hnext => ?later⟩
  case wait => rw [own hmine, mailboxAs_waits body hwait]
  case other => rw [mailbox_other body hother hlisted]
  case unlisted =>
    have hhello : r.opcode.toNat ≠ 1 := by
      intro h
      rw [h] at hunlisted
      exact absurd hunlisted (by decide)
    rw [mailbox_unlisted body hother hunlisted,
      mailboxAs_opcode (m := { m with opcode := r.opcode.toNat }) body hready (header hheader)
        ((versionBad_eq_false_iff hhello).mpr hsession) (opcodeBad_unlisted hunlisted)]
  case header => rw [own hmine, mailboxAs_header body hready (eq_true_of_ne_false (mt headerBad_eq_false_iff.mp hheader))]
  case version =>
    rw [own hmine, mailboxAs_version body hready (header hheader)
      (eq_true_of_ne_false (mt (versionBad_eq_false_iff hhello).mp hsession))]
  case opcode => rw [own hmine, mailboxAs_opcode body hready (header hheader) hversion hopcode]
  case buffer => rw [own hmine, mailboxAs_buffer body hready (header hheader) hversion hopcode hbuffer]
  case free => rw [mailbox_consumed body hcons, judgeCmd_free body hspace hfree]
  case duplicate => rw [judged hseq, seqJudge_duplicate hd, cseqAnswer]
  case gap => rw [judged hseq, seqJudge_gap hne hd, cseqAnswer]
  case stale =>
    rw [judged hseq, seqJudge_stale hlow hhigh]
    rfl
  case later =>
    intro t hlater
    rw [judged hseq, hnext, seqJudge_same, cseqAnswer, inSequence_refused body hlater]

end Sys2Proof.Machine
end

section
/-! SUPPORT. Registers of the host rings, interrupt moderation and the links of the host ports (R411, R412, R415, R428, R430, R431,
R434). -/

namespace Sys2Proof.Machine

open Sys2Proof

section
variable {s : State} {p : HostPort} {v : Word}

/-! ### HEAD and TAIL (R411, R428) -/

theorem exec_cmdDoorbell_inside (hsize : (v - (getHost s p).cmd.tail).toNat ≤ 2 ^ (getHost s p).cmd.log2)
    (halign : (v - (getHost s p).cmd.tail).toNat % 64 = 0) :
    exec (.cmdDoorbell p v) s = .next (setHost s p { getHost s p with cmd := { (getHost s p).cmd with head := v } }) := by
  have hin : ¬ ringSize (getHost s p).cmd < (v - (getHost s p).cmd.tail).toNat := Nat.not_lt.mpr hsize
  refine congrArg _ (if_neg ?_)
  simp only [hin, halign, ne_eq, not_true_eq_false, decide_false, Bool.or_self, Bool.and_false, Bool.false_eq_true, not_false_eq_true]

theorem exec_cplTail_inside (h : ((getHost s p).cpl.head - v).toNat < 2 ^ 31) : exec (.cplTail p v) s =
    .next (flushCpl (setHost s p { getHost s p with cpl := { (getHost s p).cpl with tail := v } }) p) := by
  have hin : tailPast (getHost s p).cpl v = false := decide_eq_false (Nat.not_le.mpr h)
  exact congrArg _ (if_neg (by simp [hin]))

theorem exec_evtTail_inside (h : ((getHost s p).evt.head - v).toNat < 2 ^ 31) :
    exec (.evtTail p v) s = .next (setHost s p { getHost s p with evt := { (getHost s p).evt with tail := v } }) := by
  have hin : tailPast (getHost s p).evt v = false := decide_eq_false (Nat.not_le.mpr h)
  exact congrArg _ (if_neg (by simp [hin]))

theorem exec_cmdDoorbell_violation (hen : (getHost s p).cmd.en = true) (hrun : (getHost s p).cmd.stop = false)
    (hbad : 2 ^ (getHost s p).cmd.log2 < (v - (getHost s p).cmd.tail).toNat ∨ (v - (getHost s p).cmd.tail).toNat % 64 ≠ 0) :
    exec (.cmdDoorbell p v) s = .next (ringViolation
      (setHost s p { getHost s p with cmd := { (getHost s p).cmd with head := v } }) p 2 0 v.toNat) := by
  change ringSize (getHost s p).cmd < _ ∨ _ at hbad
  refine congrArg _ (if_pos ?_)
  simpa only [hen, hrun, Bool.not_false, Bool.true_and, Bool.or_eq_true, decide_eq_true_eq] using hbad

theorem exec_cplTail_violation (hen : (getHost s p).cpl.en = true) (hrun : (getHost s p).cpl.stop = false)
    (hpast : 2 ^ 31 ≤ ((getHost s p).cpl.head - v).toNat) : exec (.cplTail p v) s = .next (ringViolation
      (setHost s p { getHost s p with cpl := { (getHost s p).cpl with tail := v } }) p 3 1 v.toNat) :=
  congrArg _ (if_pos (by simpa [hen, hrun, tailPast] using hpast))

theorem exec_evtTail_violation (hen : (getHost s p).evt.en = true) (hrun : (getHost s p).evt.stop = false)
    (hpast : 2 ^ 31 ≤ ((getHost s p).evt.head - v).toNat) : exec (.evtTail p v) s = .next (ringViolation
      (setHost s p { getHost s p with evt := { (getHost s p).evt with tail := v } }) p 3 2 v.toNat) :=
  congrArg _ (if_pos (by simpa [hen, hrun, tailPast] using hpast))

/-! ### RING_CTRL (R412) -/

/-- A ring that is enabled and stays so keeps everything. -/
theorem ringCtrl_stays {r : Ring} (log2 : Nat) (hen : r.en = true) : ringCtrl r true log2 = r := by simp [ringCtrl, hen]

theorem ringCtrl_starts {r : Ring} {log2 : Nat} (hen : r.en = false) (hlow : 7 ≤ log2) (hhigh : log2 ≤ 18) :
    ringCtrl r true log2 = { r with log2 := log2, en := true, head := 0, tail := 0, seq := 0, unsignalled := 0 } := by
  have hsize : ¬ (log2 < 7 ∨ 18 < log2) := by omega
  simp [ringCtrl, hsize, hen]

theorem ringCtrl_ends {r : Ring} (log2 : Nat) (hen : r.en = true) : ringCtrl r false log2 = { r with en := false, stop := false } := by
  simp [ringCtrl, hen]

section
variable (hcpl : (getHost s p).cpl.en = true) (hevt : (getHost s p).evt.en = true) (h1 : v.getLsbD 1 = true) (h2 : v.getLsbD 2 = true)
include hcpl hevt h1 h2

/-- The write reaches the command ring alone where the others are enabled and stay so. -/
theorem ringCtrlWrite_cmd : ringCtrlWrite (getHost s p) v =
    { getHost s p with cmd := ringCtrl (getHost s p).cmd (v.getLsbD 0) (bits v.toNat 8 5) } := by
  simp only [ringCtrlWrite, h1, h2, ringCtrl_stays _ hcpl, ringCtrl_stays _ hevt]

theorem exec_ringEnable_cmd (hcmd : (getHost s p).cmd.en = false) (h0 : v.getLsbD 0 = true) (hlow : 7 ≤ bits v.toNat 8 5)
    (hhigh : bits v.toNat 8 5 ≤ 18) : exec (.ringEnable p v) s = .next (flushCpl (setHost s p { getHost s p with
      cmd := { (getHost s p).cmd with
        log2 := bits v.toNat 8 5, en := true, head := 0, tail := 0, seq := 0, unsignalled := 0 } }) p) := by
  have hrises : ringRises (getHost s p) v = true := by simp only [ringRises, h0, hcmd, Bool.not_false, Bool.true_and, Bool.true_or]
  refine congrArg _ ((if_pos hrises).trans ?_)
  rw [ringCtrlWrite_cmd hcpl hevt h1 h2, h0, ringCtrl_starts hcmd hlow hhigh]

theorem exec_ringDisable_cmd (hcmd : (getHost s p).cmd.en = true) (h0 : v.getLsbD 0 = false) : exec (.ringDisable p v) s =
    .next (flushCpl (setHost s p { getHost s p with cmd := { (getHost s p).cmd with en := false, stop := false } }) p) := by
  have hfalls : ringFalls (getHost s p) v = true := by simp only [ringFalls, h0, hcmd, Bool.not_false, Bool.true_and, Bool.true_or]
  refine congrArg _ ((if_pos hfalls).trans ?_)
  rw [ringCtrlWrite_cmd hcpl hevt h1 h2, h0, ringCtrl_ends _ hcmd]

end

/-! ### Held event records (R434) -/

theorem flushEvt_single {rcd : List Byte} (hheld : (getHost s p).holding = [rcd])
    (hopen : ringOpen (getHost s p) (getHost s p).evt = true) :
    flushEvt s p = writeEvt (setHost s p { getHost s p with holding := [] }) p rcd := by
  simp [flushEvt, hheld, hopen]

theorem reportLost_none (h : (getHost s p).dropped = 0) : reportLost s p = s := if_neg (by simp [h])

/-! ### Links (R430, R431) -/

theorem pciLost_eq (c : PciConf) (cause : LinkCause) :
    pciLost c cause = if cause = .busMaster then { c with busMaster := false } else .reset := by cases cause <;> rfl

theorem exec_hostLinkUp_fast {rate : LinkRate} {width : Fin 5} (hpower : s.powered = true)
    (hwidth : width.val = 1 ∨ width.val = 2 ∨ width.val = 4) (hrate : 8 ≤ rateNo rate) :
    exec (.hostLinkUp p rate width) s = .next (flushCpl
      (raiseEv (setHost s p { getHost s p with
          linkUp := true, rate := rateNo rate, width := width.val, pci := { (getHost s p).pci with busMaster := true } })
        0x6001 1 noFrame [(28, 1, portNo p), (29, 1, 2), (30, 1, rateNo rate), (31, 1, width.val)]) p) := by
  refine congrArg _ ((if_pos ⟨hpower, hwidth⟩).trans ?_)
  simp only [hrate, decide_true, if_true]

end

/-- Settles O39: each register and timer by its test (log entries 40 and 103). -/
theorem hostRings : Obligations.HostRings := by
  intro s p v h d headed cplTailed evtTailed
  refine ⟨exec_cmdDoorbell_inside, exec_cmdDoorbell_violation, exec_cplTail_inside, exec_cplTail_violation, exec_evtTail_inside,
    exec_evtTail_violation, fun hcmd h0 h1 h2 hlow hhigh hcpl hevt => ?enable,
    fun hcmd hcpl hevt h0 h1 h2 => exec_ringDisable_cmd hcpl hevt h1 h2 hcmd h0, fun hmod => ⟨fun hun => ?cpl, fun hun => ?evt⟩,
    fun rcd hheld hdropped hopen hnone => ?flush, fun c hwidth => ?loss,
    fun rate width hpower hwidth hrate => exec_hostLinkUp_fast hpower hwidth hrate, fun t => rfl⟩
  case enable => exact exec_ringEnable_cmd hcpl hevt (h1.trans hcpl) (h2.trans hevt) hcmd h0 hlow hhigh
  case cpl => exact congrArg _ ((if_neg hmod).trans (if_neg hun))
  case evt => exact congrArg _ ((if_neg hmod).trans (if_neg hun))
  case flush => exact congrArg _ ((congrArg (reportLost · p) (flushEvt_single hheld hopen)).trans (reportLost_none hnone))
  case loss =>
    refine congrArg _ ((if_neg hwidth).trans ?_)
    rw [pciLost_eq]

end Sys2Proof.Machine
end

section
/-! SUPPORT. Accesses of the host aperture, HELLO and module authority (R407 to R410, R420, R421, R426). -/

namespace Sys2Proof.Machine

open Sys2Proof

/-! ### Byte enables (R409) -/

/-- One byte of a word is written where its enable is set. -/
def putLane (w : Nat) (be : BitVec 4) (v : Word) (m : Ram) (i : Nat) : Ram :=
  if be.getLsbD i then ramPutByte m (4 * w + i) (BitVec.ofNat 8 (bits v.toNat (8 * i) 8)) else m

section
variable {m : Ram} {w : Nat} {be : BitVec 4} {v : Word} (hwf : m.wf = true)

theorem putLane_other {i x : Nat} (h : x ≠ 4 * w + i) : ramByte (putLane w be v m i) x = ramByte m x := by
  unfold putLane
  split
  · exact ramByte_putByte_other m _ h
  · rfl

include hwf

theorem putLane_wf (i : Nat) : (putLane w be v m i).wf = true := by
  unfold putLane
  split
  · exact Ram.wf_putByte _ _ hwf
  · exact hwf

theorem putLane_self (i : Nat) : ramByte (putLane w be v m i) (4 * w + i) =
    if be.getLsbD i then BitVec.ofNat 8 (v.toNat / 2 ^ (8 * i)) else ramByte m (4 * w + i) := by
  have hbyte : BitVec.ofNat 8 (bits v.toNat (8 * i) 8) = BitVec.ofNat 8 (v.toNat / 2 ^ (8 * i)) :=
    BitVec.eq_of_toNat_eq (Nat.mod_mod _ _)
  unfold putLane
  split
  · rw [ramByte_putByte_self _ _ hwf, hbyte]
  · rfl

/-- Lanes written in turn: each byte of the word is its lane's, and every other byte stays. -/
theorem foldl_putLane (l : List Nat) (hl : l.Nodup) :
    (∀ i ∈ l, ramByte (l.foldl (putLane w be v) m) (4 * w + i) =
      if be.getLsbD i then BitVec.ofNat 8 (v.toNat / 2 ^ (8 * i)) else ramByte m (4 * w + i))
    ∧ ∀ x, (∀ i ∈ l, x ≠ 4 * w + i) → ramByte (l.foldl (putLane w be v) m) x = ramByte m x := by
  induction l generalizing m with
  | nil => exact ⟨fun i h => absurd h List.not_mem_nil, fun x _ => rfl⟩
  | cons j l ih =>
    obtain ⟨hj, hl⟩ := List.nodup_cons.mp hl
    obtain ⟨hin, hout⟩ := ih (putLane_wf (w := w) (be := be) (v := v) hwf j) hl
    refine ⟨fun i hi => ?_, fun x hx => ?_⟩
    · rcases List.mem_cons.mp hi with rfl | hi
      · exact (hout _ fun k hk h => hj (by rwa [show i = k by omega])).trans (putLane_self hwf i)
      · have hne : 4 * w + i ≠ 4 * w + j := fun h => hj (by rwa [show j = i by omega])
        exact (hin i hi).trans (by rw [putLane_other hne])
    · exact (hout x fun i hi => hx i (List.mem_cons_of_mem _ hi)).trans (putLane_other (hx j List.mem_cons_self))

theorem ramByte_ramPutLanes :
    (∀ i, i < 4 → ramByte (ramPutLanes m w be v) (4 * w + i) =
      if be.getLsbD i then BitVec.ofNat 8 (v.toNat / 2 ^ (8 * i)) else ramByte m (4 * w + i))
    ∧ ∀ x, x < 4 * w ∨ 4 * w + 4 ≤ x → ramByte (ramPutLanes m w be v) x = ramByte m x := by
  obtain ⟨hin, hout⟩ := foldl_putLane (w := w) (be := be) (v := v) hwf (List.range 4) List.nodup_range
  refine ⟨fun i hi => hin i (List.mem_range.mpr hi), fun x hx => hout x fun i hi => ?_⟩
  have := List.mem_range.mp hi
  omega

end

/-! ### Accesses (R409, R410) -/

section
variable {s : State} {p : HostPort} {off : Nat} {be : BitVec 4} {v : Word} (hserved : aperServed s p off = true)
include hserved

theorem exec_aperture_nothing (h : aperWord s p off = none) :
    exec (.apertureRead p off) s = .next (emit (aperMiss s p off false) (.readData p 0xFFFFFFFF false))
      ∧ exec (.apertureWrite p off be v) s = .next (aperMiss s p off true) := by
  simp only [exec, execApertureRead, execApertureWrite, hserved, h, if_true, and_self]

variable {sp t w : Nat} (h : aperWord s p off = some (sp, t, w))
include h

theorem exec_apertureRead_mapped : exec (.apertureRead p off) s = .next (aperRead s p sp t w) := by
  simp only [exec, execApertureRead, hserved, h, if_true]

theorem exec_apertureWrite_mapped : exec (.apertureWrite p off be v) s = .next (aperWrite s p sp t w be v) := by
  simp only [exec, execApertureWrite, hserved, h, if_true]

end

/-- Settles O41: the word behind the offset, then the space it lies in (log entry 43). -/
theorem apertureAccesses : Obligations.ApertureAccesses := by
  intro s p off t w be v hserved
  refine ⟨exec_aperture_nothing hserved, fun h => ?scratchpad, fun h => ?clusterMemory, fun h => ?vault,
    fun m hwf => ramByte_ramPutLanes hwf⟩
  all_goals rw [exec_apertureRead_mapped hserved h, exec_apertureWrite_mapped hserved h]
  case scratchpad =>
    exact ⟨fun hgood => congrArg _ (if_pos hgood), fun hbad => congrArg _ (if_neg hbad), rfl⟩
  case clusterMemory => exact ⟨fun hgood => congrArg _ (if_pos hgood), rfl⟩
  case vault => exact ⟨rfl, rfl⟩

/-! ### HELLO and authority (R420, R426) -/

/-- The version chosen lies within both ranges, and no version of both is higher. -/
theorem chooseVersion_highest {t : State} {lo hi v : Nat × Nat} (h : chooseVersion t lo hi = some v) :
    verNo lo ≤ verNo v ∧ verNo v ≤ verNo hi ∧ verNo t.boot.ifLo ≤ verNo v ∧ verNo v ≤ verNo t.boot.ifHi
      ∧ ∀ w, verNo w ≤ verNo hi → verNo w ≤ verNo t.boot.ifHi → verNo w ≤ verNo v := by
  by_cases htop : verNo hi ≤ verNo t.boot.ifHi
  · simp only [chooseVersion, if_pos htop, Option.ite_none_right_eq_some, Option.some.injEq] at h
    obtain ⟨⟨hlo, hown⟩, rfl⟩ := h
    exact ⟨hlo, le_rfl, hown, htop, fun w hw _ => hw⟩
  · simp only [chooseVersion, if_neg htop, Option.ite_none_right_eq_some, Option.some.injEq] at h
    obtain ⟨⟨hlo, hown⟩, rfl⟩ := h
    exact ⟨hlo, by omega, hown, le_rfl, fun w _ hw => hw⟩

section
variable {t : State} {p : HostPort} {r : CmdRec} {ref : CmdRef}

theorem helloBody_meets {v : Nat × Nat} (hrsv : rsvOk r [(36, 0, 32)] = true)
    (hchosen : chooseVersion (endSession t p 4) (pb r 37 1, pb r 36 1) (pb r 39 1, pb r 38 1) = some v) :
    helloBody p r ref t =
      let u := endSession t p 4
      finish (setHost u p { getHost u p with session := some v, nextCseq := ref.cseq + 1 }) ref 0
        [(24, 1, v.2), (25, 1, v.1), (26, 1, u.boot.ifLo.2), (27, 1, u.boot.ifLo.1), (28, 1, u.boot.ifHi.2),
          (29, 1, u.boot.ifHi.1)] := by
  simp only [helloBody, hrsv, hchosen, if_true, setHost_boot]

theorem helloBody_apart (hrsv : rsvOk r [(36, 0, 32)] = true)
    (hchosen : chooseVersion (endSession t p 4) (pb r 37 1, pb r 36 1) (pb r 39 1, pb r 38 1) = none) :
    helloBody p r ref t =
      let u := endSession t p 4
      finish u ref 0x0102 [(26, 1, u.boot.ifLo.2), (27, 1, u.boot.ifLo.1), (28, 1, u.boot.ifHi.2), (29, 1, u.boot.ifHi.1)] := by
  simp only [helloBody, hrsv, hchosen, if_true]

section
variable (hrsv : rsvOk r [] = true)
include hrsv

theorem claimBody_none (h : t.authority = none) : claimBody p r ref t =
    finish (raiseEv { t with authority := some p } 0x6030 0 noFrame [(28, 1, portNo p), (29, 1, portNo p), (30, 1, 1)]) ref 0 [] := by
  simp only [claimBody, hrsv, h, Bool.true_eq_false, if_false, authorityEv]

theorem claimBody_held {q : HostPort} (h : t.authority = some q) :
    claimBody p r ref t = if q = p then finish t ref 0 [] else finish t ref 0x0202 [(24, 1, portNo q)] := by
  simp only [claimBody, hrsv, h, Bool.true_eq_false, if_false]

theorem releaseBody_holder (h : t.authority = some p) : releaseBody p r ref t =
    finish (raiseEv { t with authority := none } 0x6030 0 noFrame [(28, 1, portNo p), (29, 1, 2), (30, 1, 2)]) ref 0 [] := by
  simp only [releaseBody, hrsv, h, Bool.true_eq_false, if_false, if_true, loseAuthority, authorityEv]

theorem releaseBody_other (h : t.authority ≠ some p) : releaseBody p r ref t = finish t ref 0x0201 [] := by
  simp only [releaseBody, hrsv, h, Bool.true_eq_false, if_false]

end
end

/-- Settles O43: HELLO by the ranges, authority by its holder (log entry 39). -/
theorem sessionCommands : Obligations.SessionCommands := by
  intro s t p r ref u range
  have hother : otherPort p ≠ p := by cases p <;> decide
  refine ⟨fun h => ?hello, fun lo hi v => chooseVersion_highest, fun h hrsv => ?claim, fun h hrsv => ?release⟩
  case hello =>
    rw [exec_hello_taken h]
    exact ⟨fun v hrsv hchosen => congrArg _ (helloBody_meets hrsv hchosen),
      fun hrsv hchosen => congrArg _ (helloBody_apart hrsv hchosen)⟩
  case claim =>
    rw [exec_claimAuthority_taken h]
    exact ⟨fun hnone => congrArg _ (claimBody_none hrsv hnone), fun hmine => congrArg _ ((claimBody_held hrsv hmine).trans (if_pos rfl)),
      fun hother' => congrArg _ ((claimBody_held hrsv hother').trans (if_neg hother))⟩
  case release =>
    rw [exec_releaseAuthority_taken h]
    exact ⟨fun hmine => congrArg _ (releaseBody_holder hrsv hmine), fun hnot => congrArg _ (releaseBody_other hrsv hnot)⟩

end Sys2Proof.Machine
end

section
/-! SUPPORT. SPDM key exchange (R405; log entry 25), and where the statement on SPDM departs from it. -/

namespace Sys2Proof.Machine

open Sys2Proof

section
variable (s : State) (p : HostPort)

@[simp] theorem getSpdm_setSpdm (v : Spdm) : getSpdm (setSpdm s p v) p = v := by cases p <;> rfl

@[simp] theorem getSpdm_emit (e : Emission) : getSpdm (emit s e) p = getSpdm s p := by cases p <;> rfl

/-- The nonce is drawn from the port's counter before the session is set up. -/
theorem getSpdm_drawNonce (n : Nat) :
    getSpdm (drawNonce s p n).2 p = { getSpdm s p with nonceCtr := (getSpdm s p).nonceCtr + 1 } := getSpdm_setSpdm _ _ _

theorem setSpdm_drawNonce (n ctr : Nat) (v : Spdm) :
    setSpdm { (drawNonce s p n).2 with freeCtr := ctr } p v = setSpdm { s with freeCtr := ctr } p v := by cases p <;> rfl

end

/-- KEY_EXCHANGE where it is allowed: the responder's half of the session ID is the nonce counter after the draw. -/
theorem exec_keyExchange_accepted {s : State} {p : HostPort} {m : List Byte} (hlink : (getHost s p).width ≠ 0)
    (hpower : s.powered = true) (hver : getLe m 0 1 = 0x13) (hcode : spdmCode m = 0xE4) (hphase : (getSpdm s p).phase = 3)
    (hlen : 138 ≤ m.length) (hp2 : spdmP2 m = 0) (hsum : summaryOk (spdmP1 m) = true) :
    ∃ b y : List Byte, exec (.keyExchange p m) s = .next (emit (setSpdm { s with freeCtr := s.freeCtr + 1 } p
      { getSpdm s p with
        nonceCtr := (getSpdm s p).nonceCtr + 1, phase := 4, keyUpdates := 0, measMsgs := y
        session := getLe m 4 2 + ((getSpdm s p).nonceCtr + 1) % 2 ^ 16 * 2 ^ 16 }) (.spdm p b)) := by
  change (getHost s p).spdm.phase = 3 at hphase
  have hrow : spdmRequest 0xE4 3 5 138 p m s (keyExchange p m) = keyExchange p m s := by
    simp only [spdmRequest, hlink, hpower, hver, hcode, hphase, Nat.not_lt.mpr hlen, ne_eq, not_true_eq_false, or_self, if_false,
      Bool.true_eq_false, Nat.lt_irrefl, show ¬ 5 < 3 by decide]
  have hexec : exec (.keyExchange p m) s = .next (keyExchange p m s) := congrArg _ hrow
  have hturn : ¬ (getSpdm s p).phase ≠ 3 := not_not_intro hphase
  have hform : ¬ (spdmP2 m ≠ 0 ∨ summaryOk (spdmP1 m) = false) := by simp [hp2, hsum]
  rw [hexec, keyExchange, if_neg hturn, if_neg hform]
  simp only [getSpdm_drawNonce, setSpdm_drawNonce, spdmSend]
  exact ⟨_, _, rfl⟩

/-! ### The statement -/

/-- Port A with a link, powered, its negotiation finished. -/
def negotiated : State :=
  { State.reset with powered := true, portA := { HPort.reset with width := 1, spdm := { Spdm.none with phase := 3 } } }

/-- A KEY_EXCHANGE of 138 bytes: requester session ID 0, no measurement summary. -/
def keyExchangeMsg : List Byte := [0x13, 0xE4, 0, 0] ++ List.replicate 134 0

theorem length_keyExchangeMsg : keyExchangeMsg.length = 138 := by simp [keyExchangeMsg]

/-- Refutes O57: the responder's half of the session ID is the nonce counter after the draw of the response's random value, where the
statement has it before. At a counter of 0 the session is 2^16 (`exec_keyExchange_accepted`), not 0. -/
theorem not_spdmSteps : ¬ Obligations.SpdmSteps := by
  intro h
  obtain ⟨-, hver⟩ := h negotiated .A keyExchangeMsg (by decide) rfl
  obtain ⟨-, -, -, -, -, -, -, hkey, -⟩ := hver rfl
  obtain ⟨b, y, hstated⟩ := hkey rfl rfl length_keyExchangeMsg.ge rfl rfl
  obtain ⟨b', y', hmodel⟩ := exec_keyExchange_accepted (s := negotiated) (p := .A) (m := keyExchangeMsg) (by decide) rfl rfl rfl rfl
    length_keyExchangeMsg.ge rfl rfl
  have hstates := Host.Outcome.next.inj (hmodel.symm.trans hstated)
  have hsession := congrArg (fun u => (getSpdm u .A).session) hstates
  simp only [getSpdm_emit, getSpdm_setSpdm] at hsession
  exact absurd hsession (by decide)

end Sys2Proof.Machine
end

section
/-! SUPPORT. SLATE_CUT of a slate with a queued run (R418, R458), where the statement on slate commands departs from the model. -/

namespace Sys2Proof.Machine

open Sys2Proof

/-- A SLATE_CUT that passes its checks begins the cut of a slate that is not CUTTING; the completions whose turn has come follow,
for a run that the cut gives up holds back no ACCEPTED any more (R418). -/
theorem exec_slateCut_begins {s t : State} {p : HostPort} {r : CmdRec} {ref : CmdRef} (h : RowTaken s (.slateCut p r) t ref)
    (hrsv : rsvOk r [(36, 0, 32), (40, 0, 1), (44, 0, 64)] = true) (hdl : pb r 36 4 ≤ 1000000)
    (hdailies : pbit r 40 0 = true → pb r 44 8 ≠ 0) (hmode : (getSlate t r.slate.toNat).mode ≠ .cutting) :
    exec (.slateCut p r) s = .next (flushLate (cutBegin (accept t ref []) r.slate.toNat
      { cmd := ref, also := [], dl := cutDl r, dailies := if pbit r 40 0 then some (pb r 44 8) else none, step := 2, owed := []
        fenced := 0, discarded := 0 })) := by
  have hform : ¬ (rsvOk r [(36, 0, 32), (40, 0, 1), (44, 0, 64)] = false ∨ 1000000 < pb r 36 4 ∨
      (pbit r 40 0 = true ∧ pb r 44 8 = 0)) := by
    rintro (h | h | ⟨hwrite, hnone⟩)
    · exact ne_true_of_eq_false h hrsv
    · exact absurd h (Nat.not_lt.mpr hdl)
    · exact hdailies hwrite hnone
  rw [exec_slateCut_taken h]
  exact congrArg _ ((if_neg hform).trans (if_neg hmode))

/-! ### A cut that lets an ACCEPTED go -/

/-- A SLATE_CUT of slate 5 with CSEQ 7, and the commands it and a SCENE_RUN before it name. -/
def cutRec : CmdRec :=
  { hdrType := 1, len := 56, seq := 0, opcode := 0x0202, slate := 5, modul := false, scopeRsv := 0, cseq := 7, ifMinor := 1
    ifMajor := 3, rsv := 0, dataAddr := 0, dataLen := 0, param := 0, buffer := none }

def cutRef : CmdRef := ⟨.A, 0x0202, 5, 7⟩

def queuedRef : CmdRef := ⟨.A, 0x0302, 5, 6⟩

/-- Firmware runs, port A takes records in session 3.1, and slate 5 of port A is OPEN with a SCENE_RUN queued at CSEQ 6. -/
def queuedBeforeCut : State :=
  { State.reset with
    portA := { HPort.reset with
      linkUp := true, session := some (3, 1), cmd := { Ring.reset with en := true, head := 64 }
      cpl := { Ring.reset with en := true, log2 := 8 } }
    boot := { State.reset.boot with fw := .running, ready := true }
    slates := [(5, { Slate.reset with mode := .opened, owner := .A, nextCseq := 7 })]
    queuedRuns := [newScene [] 3 0 [5] .inPlace queuedRef] }

/-- The state in which the cut's own work begins. -/
def cutTaken : State := seqAdvance (consumeCmd queuedBeforeCut .A) .A (ownerSpec 0x0202 0) cutRec

theorem rowTaken_cut : RowTaken queuedBeforeCut (.slateCut .A cutRec) cutTaken cutRef := by
  refine ⟨.A, cutRec, ownerSpec 0x0202 0, rfl, ⟨?_, .inr ⟨?_, ?_, ?_, rfl, ?_⟩⟩, rfl⟩
  · unfold CmdConsumed
    decide
  · unfold Unsequenced
    decide
  · decide
  · decide
  · decide

/-- The cut as it begins. -/
def cutBegun : State := cutBegin (accept cutTaken cutRef []) 5
  { cmd := cutRef, also := [], dl := 1000, dailies := none, step := 2, owed := [], fenced := 0, discarded := 0 }

theorem late_cutBegun : cutBegun.works.late.length = 1 := by decide

theorem late_flushed : (flushLate cutBegun).works.late.length = 0 := by decide

/-- Refutes O44: the ACCEPTED of a SLATE_CUT waits for that of a SCENE_RUN queued before it, and the cut gives that run up, so the
model posts the ACCEPTED in the same step (`exec_slateCut_begins`); the statement leaves it waiting. -/
theorem not_slateCommands : ¬ Obligations.SlateCommands := by
  intro h
  obtain ⟨-, -, -, -, -, hcut⟩ := h queuedBeforeCut cutTaken .A cutRec cutRef
  obtain ⟨-, hstated⟩ := hcut rowTaken_cut (by decide) (by decide) (by decide)
  have hmodel := exec_slateCut_begins rowTaken_cut (by decide) (by decide) (by decide) (by decide)
  have hstates : flushLate cutBegun = cutBegun := Host.Outcome.next.inj (hmodel.symm.trans (hstated (by decide)))
  have hlate := congrArg (fun u => u.works.late.length) hstates
  exact absurd (late_flushed.symm.trans (hlate.trans late_cutBegun)) (by decide)

end Sys2Proof.Machine
end

section
/-! SUPPORT. The end of a scrub (R461, R463), where the statement on the steps of a cut departs from the model. -/

namespace Sys2Proof.Machine

open Sys2Proof

/-- The slate is cut up to its scrub, which is complete. -/
def scrubbed (s : State) (n : Nat) : State :=
  let u := growSlate s n
  discardSlate ((getSlate u n).ranges.foldl scrubRange (scrubCores u n)) n

/-- What follows the scrub of a slate whose cut is `c`, with `v` as the slate it was. -/
def scrubTold (s : State) (n us : Nat) (v : Slate) (c : Cut) : State :=
  let gone := completeGone s n c.owed
  let told := raiseEv gone.1 0x7002 0 ⟨none, some n, none⟩
    [(28, 4, gone.2), (32, 4, c.fenced), (36, 4, c.discarded), (40, 4, us)]
  setSlate ((c.cmd :: c.also).foldl (fun t q => finish t q 0
      [(24, 4, gone.2), (28, 4, c.fenced), (32, 4, c.discarded), (36, 4, us), (40, 8, v.energy.toNat)]) told) n
    { Slate.reset with inc := v.inc, incKnown := v.incKnown, hgen := v.hgen, runNext := v.runNext }

/-- The scrub frees the cores of the slate before its ranges, and counts its energy (log entry 59). -/
theorem exec_scrubDone_ends {s : State} {sl : SlateId} {us : Word} {c d : Cut} (hcut : cutAt s sl.val 5 = some c)
    (hquiet : (getSlate s sl.val).ranges.any (vaultWaits s) = false) (hd : (getSlate (scrubbed s sl.val) sl.val).cut = some d) :
    exec (.scrubDone sl us) s =
      .next (scrubTold (scrubbed s sl.val) sl.val us.toNat (getSlate (growSlate s sl.val) sl.val) d) := by
  have hvault : ¬ (getSlate s sl.val).ranges.any (vaultWaits s) = true := ne_true_of_eq_false hquiet
  refine congrArg Host.Outcome.next ?_
  unfold scrubbed at hd
  dsimp only at hd
  simp only [scrubEnd, hcut, if_neg hvault, hd]
  rfl

/-! ### A scrub that frees a core -/

/-- The cut of slate 0 at its scrub. -/
def scrubCut : Cut :=
  { cmd := ⟨.A, 0x0202, 0, 7⟩, also := [], dl := 1000, dailies := none, step := 5, owed := [], fenced := 0, discarded := 0 }

/-- Slate 0 of port A is at the scrub of its cut, and core 0 still holds LOCAL memory of it. -/
def atScrub : State :=
  { State.reset with
    slates := [(0, { Slate.reset with mode := .scrubbing, owner := .A, cut := some scrubCut })]
    cores := [(0, { Core.reset with localOwner := some 0 })] }

theorem cores_scrubTold_scrubbed :
    (scrubTold (scrubbed atScrub 0) 0 0 (getSlate (growSlate atScrub 0) 0) scrubCut).cores.length = 0 := by decide +kernel

theorem cores_scrubTold_discarded : (scrubTold (discardSlate atScrub 0) 0 0 (getSlate atScrub 0) scrubCut).cores.length = 1 := by
  decide +kernel

/-- Refutes O45: the scrub frees the cores of the slate (`exec_scrubDone_ends`), and the statement's end of it leaves them, here core 0,
whose LOCAL memory stays with slate 0. -/
theorem not_cutSteps : ¬ Obligations.CutSteps := by
  intro h
  obtain ⟨-, -, -, -, hend, -⟩ := h atScrub 0 0 scrubCut
  have hstated : exec (.scrubDone 0 0) atScrub = .next (scrubTold (discardSlate atScrub 0) 0 0 (getSlate atScrub 0) scrubCut) :=
    hend (discardSlate atScrub 0) scrubCut rfl rfl rfl rfl
  have hmodel : exec (.scrubDone 0 0) atScrub =
      .next (scrubTold (scrubbed atScrub 0) 0 0 (getSlate (growSlate atScrub 0) 0) scrubCut) :=
    exec_scrubDone_ends (c := scrubCut) rfl rfl rfl
  have hcores := congrArg (fun u => u.cores.length) (Host.Outcome.next.inj (hmodel.symm.trans hstated))
  exact absurd (cores_scrubTold_scrubbed.symm.trans (hcores.trans cores_scrubTold_discarded)) (by decide)

end Sys2Proof.Machine
end

section
/-! SUPPORT. Selection, loss and return of the reference, and HOLD (R502, R505, R507 to R512). -/

namespace Sys2Proof.Machine

open Sys2Proof

/-! ### Selection (R505) -/

/-- A selection is refused: an unlisted source, or REFREC of a port that does not exist, was removed, or has no link outside HOLD. -/
theorem clockSelectBody_form_iff {t : State} {r : CmdRec} (hrsv : rsvOk r [(36, 0, 8), (37, 0, 8)] = true) :
    (rsvOk r [(36, 0, 8), (37, 0, 8)] = false ∨ 1 < pb r 36 1 ∨
      (decide (pb r 36 1 = 1) && (decide (119 < pb r 37 1) || removedPort t (pb r 37 1)
        || (!t.clock.hold && decide ((getPort t (pb r 37 1)).link ≠ .up)))) = true) ↔
    1 < pb r 36 1 ∨ pb r 36 1 = 1 ∧
      (119 < pb r 37 1 ∨ removedPort t (pb r 37 1) = true ∨ t.clock.hold = false ∧ (getPort t (pb r 37 1)).link ≠ .up) := by
  simp only [hrsv, Bool.true_eq_false, false_or, Bool.and_eq_true, Bool.or_eq_true, decide_eq_true_eq, Bool.not_eq_true', or_assoc]

section
variable {t : State} {r : CmdRec} (ref : CmdRef) (hrsv : rsvOk r [(36, 0, 8), (37, 0, 8)] = true)
include hrsv

theorem clockSelectBody_begins (hform : pb r 36 1 = 0 ∨ pb r 36 1 = 1 ∧ pb r 37 1 ≤ 119 ∧ removedPort t (pb r 37 1) = false
      ∧ (t.clock.hold = true ∨ (getPort t (pb r 37 1)).link = .up)) :
    clockSelectBody r ref t = selectBegin (accept t ref []) ⟨decide (pb r 36 1 = 1), pb r 37 1, some ref⟩ := by
  refine if_neg ((clockSelectBody_form_iff hrsv).not.mpr ?_)
  rcases hform with hloc | ⟨hrec, hport, hthere, hlink⟩
  · omega
  · rintro (h | ⟨-, h | h | ⟨hrun, hdown⟩⟩)
    · omega
    · omega
    · exact ne_true_of_eq_false hthere h
    · exact hlink.elim (ne_true_of_eq_false hrun) hdown

theorem clockSelectBody_refused (hform : 1 < pb r 36 1 ∨ pb r 36 1 = 1 ∧
      (119 < pb r 37 1 ∨ removedPort t (pb r 37 1) = true ∨ t.clock.hold = false ∧ (getPort t (pb r 37 1)).link ≠ .up)) :
    clockSelectBody r ref t = finish t ref 0x0103 [] := if_pos ((clockSelectBody_form_iff hrsv).mpr hform)

end

theorem exec_clockSelectTimeout_command {s : State} {w : ClockSelect CmdRef} {rest : List (ClockSelect CmdRef)} {k : CmdRef}
    (hwork : s.works.clock = w :: rest) (hcmd : w.cmd = some k) : exec .clockSelectTimeout s =
      .next (selectReady (finish { s with works := { s.works with clock := rest } } k 0x0601 [])) := by
  simp only [exec, execClockSelectTimeout, hwork, hcmd]

/-! ### Units (R502) -/

section
variable {s : State} {u : ClockUnit}

theorem exec_unit_absent (h : unitCounts s u = false) : exec (.oscQualified u) s = .next s ∧ exec (.oscNotStable u) s = .next s :=
  ⟨congrArg _ (if_neg (ne_true_of_eq_false h)), congrArg _ (if_neg (ne_true_of_eq_false h))⟩

variable (hcounts : unitCounts s u = true)
include hcounts

/-- A unit that is no reference ungates, and nothing else follows. -/
theorem exec_oscQualified_unit (hrec : u ≠ .refrec) (hloc : u ≠ .refloc) :
    exec (.oscQualified u) s = .next (unitEnd s (unitKey u) false) := by
  refine congrArg _ ((if_pos hcounts).trans ?_)
  cases u with
  | refrec => exact absurd rfl hrec
  | refloc => exact absurd rfl hloc
  | node => rfl
  | island => rfl
  | inject => rfl
  | frame => rfl

theorem exec_oscQualified_refrec (hrec : u = .refrec) :
    exec (.oscQualified u) s = .next (sourceQualified (unitEnd s (unitKey u) false) true) := by
  subst hrec
  exact congrArg _ (if_pos hcounts)

theorem exec_oscQualified_refloc (hloc : u = .refloc) :
    exec (.oscQualified u) s = .next (sourceQualified (unitEnd s (unitKey u) false) false) := by
  subst hloc
  exact congrArg _ (if_pos hcounts)

/-- The count that 0x8004 reports is a free value. -/
theorem exec_oscNotStable_unit (hrec : u ≠ .refrec) (hloc : u ≠ .refloc) : exec (.oscNotStable u) s =
    .next (raiseEv (unitEnd { s with freeCtr := s.freeCtr + 3 } (unitKey u) true) 0x8004 2 noFrame
      [(28, 2, (unitNo s u).1), (30, 1, (unitNo s u).2), (32, 4, (Config.freeValue (s.freeCtr + 2) : BitVec 14).toNat)]) := by
  refine congrArg _ ((if_pos hcounts).trans ?_)
  cases u with
  | refrec => exact absurd rfl hrec
  | refloc => exact absurd rfl hloc
  | node => rfl
  | island => rfl
  | inject => rfl
  | frame => rfl

end

/-! ### Loss, return and lock (R507 to R512) -/

section
variable {s : State} {cause : RefCause}

theorem exec_refLost_real (hpower : s.powered = true) (hcause : refCauseOk s cause = true) :
    exec (.refLost cause) s = .next (if s.clock.hold then sourceGone s else enterHold s (refCauseNo cause)) :=
  congrArg _ (if_pos (by simp [hpower, hcause]))

theorem exec_refReturn_waiting (hhold : s.clock.hold = true) (hway : s.clock.engaged = none) (hwork : s.works.clock = [])
    (hcount : s.clock.qualifying = false) :
    let v := unitRestart s (sourceUnit s.clock.refrec)
    exec .refReturn s = .next { v with clock := { v.clock with qualifying := true } } :=
  congrArg _ (if_pos (by simp [hhold, hway, hwork, hcount]))

theorem exec_meshLock_hold {way : WayOut} (hhold : s.clock.hold = true) (hway : s.clock.engaged = some way) :
    exec .meshLock s = .next (leaveHold s way) := by
  simp only [exec, execMeshLock, hhold, hway]

theorem exec_meshLock_free (hhold : s.clock.hold = false) (hunit : unitOk s (sourceUnit s.clock.refrec) = true) :
    exec .meshLock s = .next { s with clock := { s.clock with locked := true } } := by
  simp only [exec, execMeshLock, hhold, hunit, if_true]

theorem exec_reflocFailed_unselected (hpower : s.powered = true) (hrec : s.clock.refrec = true) : exec .reflocFailed s =
    .next (raiseEv (unitRestart { s with clock := { s.clock with reflocOk := false, reflocFailed := true } } (sourceUnit false))
      0x8005 2 noFrame [(28, 1, 0)]) := by
  refine congrArg _ ((if_pos hpower).trans ?_)
  simp [hrec, bitAt]

end

/-- Settles O54: each command, unit and signal of the reference by its test (log entries 68 to 70). -/
theorem clockSteps : Obligations.ClockSteps := by
  intro s t p r ref u cause e c
  refine ⟨fun h hrsv => ?select, fun w rest k hwork hcmd => exec_clockSelectTimeout_command hwork hcmd,
    fun hcounts => ⟨exec_oscQualified_unit hcounts, exec_oscQualified_refrec hcounts, exec_oscQualified_refloc hcounts,
      fun hrec hloc => ⟨_, exec_oscNotStable_unit hcounts hrec hloc⟩⟩,
    exec_unit_absent, fun hpower hcause => ?lost, exec_refReturn_waiting,
    fun way hhold hway => exec_meshLock_hold hhold hway, exec_meshLock_free, exec_reflocFailed_unselected⟩
  case select =>
    rw [exec_clockSourceSelect_taken h]
    exact ⟨fun hform => congrArg _ (clockSelectBody_begins ref hrsv hform),
      fun hform => congrArg _ (clockSelectBody_refused ref hrsv hform)⟩
  case lost =>
    rw [exec_refLost_real hpower hcause]
    exact ⟨fun hrun => congrArg _ (if_neg (ne_true_of_eq_false hrun)), fun hhold => congrArg _ (if_pos hhold)⟩

end Sys2Proof.Machine
end

section
/-! SUPPORT. Sideband pins, the monitoring target and JTAG (R578 to R580, R582, R584). -/

namespace Sys2Proof.Machine

open Sys2Proof

/-! ### SB_ASSIGN (R582) -/

section
variable {t : State} {p : HostPort} {r : CmdRec} {ref : CmdRef}

theorem sbBody_refused (h : sbBad t r = true) : sbBody p r ref t = finish t ref 0x0103 [] := if_pos h

variable (hform : sbBad t r = false)
include hform

theorem sbBody_claimed (h : sbClaimed t r = true) : sbBody p r ref t = finish t ref 0x0302 [] :=
  (if_neg (ne_true_of_eq_false hform)).trans (if_pos h)

/-- Function 0 frees the pin; no other pin can hold it. -/
theorem sbBody_freed (hfunc : pb r 37 1 = 0) : sbBody p r ref t = finish (setPin t (pb r 36 1) Pin.reset) ref 0
    [(24, 1, (getPin t (pb r 36 1)).func), (25, 1, (getPin t (pb r 36 1)).block), (26, 1, 0xFF)] := by
  have hfree : sbClaimed t r = false := by simp [sbClaimed, hfunc]
  refine (if_neg (ne_true_of_eq_false hform)).trans ((if_neg (ne_true_of_eq_false hfree)).trans ?_)
  simp only [hfunc, if_true]
  rfl

/-- A function other than stream pause out has no further effect. -/
theorem sbBody_assigned (hfree : sbClaimed t r = false) (hfunc : 1 < pb r 37 1) :
    sbBody p r ref t = finish (setPin t (pb r 36 1) (sbPin t p r)) ref 0
      [(24, 1, (getPin t (pb r 36 1)).func), (25, 1, (getPin t (pb r 36 1)).block), (26, 1, (sbPin t p r).timer.getD 0xFF)] := by
  have hgiven : pb r 37 1 ≠ 0 := by omega
  have hpause : (sbPin t p r).func ≠ 1 := show pb r 37 1 ≠ 1 by omega
  refine (if_neg (ne_true_of_eq_false hform)).trans ((if_neg (ne_true_of_eq_false hfree)).trans ?_)
  simp only [if_neg hgiven, if_neg hpause]

end

/-! ### Pins (R582, R584) -/

section
variable {s : State} {pin : SbPin} {level : Bool}

theorem exec_fadeReq (hfunc : (getPin s pin.val).func = 5) :
    exec (if level = true then Instr.fadeReqInAssert pin else Instr.fadeReqInRelease pin) s = .next (pinEdge s pin.val level) := by
  cases level
  · exact congrArg _ (if_pos hfunc)
  · exact congrArg _ (if_pos hfunc)

theorem pinEdge_same {n : Nat} (h : (getPin s n).level = level) :
    pinEdge s n level = setPin s n { getPin s n with level := level } := if_pos h

theorem pinEdge_changes {n : Nat} (h : (getPin s n).level ≠ level) :
    let u := setPin s n { getPin s n with level := level }
    pinEdge s n level = if pinBusy u n then setPin u n { getPin u n with waiting := true } else pinOrder u n := if_neg h

end

/-! ### JTAG (R580) -/

/-- The instruction that JTAG has after the code `v`: one of kind 3 without debug scope bit 0 is BYPASS. -/
theorem exec_jtagInstruction_powered {s : State} {v : Byte} (hpower : s.powered = true) : exec (.jtagInstruction v) s =
    let u := { s with jtagIr := if jtagKind v = 3 ∧ s.boot.scopes.getLsbD 0 = false then 0xFF else v }
    .next (if jtagKind v = 2 then emit u (.jtag (idcode s)) else u) := congrArg _ (if_pos hpower)

/-- Settles O55: SB_ASSIGN by its tests, each pin by its function (log entry 76). -/
theorem sidebandSteps : Obligations.SidebandSteps := by
  intro s t p r ref pin v a level n old
  refine ⟨fun h => ?assign, fun hfunc => ?pulseOut, fun hfunc => congrArg _ (if_pos hfunc), fun hfunc => ?fade, fun hpower => ?monitor⟩
  case assign =>
    rw [exec_sbAssign_taken h]
    exact ⟨fun hbad => congrArg _ (sbBody_refused hbad), fun hform hclaimed => congrArg _ (sbBody_claimed hform hclaimed),
      fun hform hfunc => congrArg _ (sbBody_freed hform hfunc),
      fun hform hfree hfunc => congrArg _ (sbBody_assigned hform hfree hfunc)⟩
  case pulseOut =>
    cases hhold : s.clock.hold
    · exact congrArg _ (if_pos ⟨hfunc, hhold⟩)
    · exact congrArg _ (if_neg fun ⟨_, hrun⟩ => ne_true_of_eq_false hrun hhold)
  case fade =>
    intro u x
    rw [show exec x s = _ from exec_fadeReq hfunc]
    refine ⟨fun hsame => congrArg _ (pinEdge_same hsame), fun hchange hidle => congrArg _ ((pinEdge_changes hchange).trans ?_),
      fun hchange hbusy => congrArg _ ((pinEdge_changes hchange).trans (if_pos hbusy))⟩
    exact if_neg (ne_true_of_eq_false hidle)
  case monitor =>
    rw [exec_jtagInstruction_powered hpower]
    refine ⟨congrArg _ (if_pos hpower), congrArg _ (if_pos hpower), congrArg _ (if_pos hpower), fun hkind => ?common,
      fun hkind hscope => ?bypass, fun hkind => ?idcode⟩
    case common =>
      have hgiven : ¬ (jtagKind v = 3 ∧ s.boot.scopes.getLsbD 0 = false) := fun ⟨hkind', hscope⟩ =>
        hkind.elim (by omega) fun h => h.elim (by omega) fun h => ne_true_of_eq_false hscope h.2
      have hcode : jtagKind v ≠ 2 := by omega
      simp only [if_neg hgiven, if_neg hcode]
    case bypass => simp only [hkind, hscope, and_self, if_true, show ¬ 3 = 2 by decide, if_false]
    case idcode => simp only [hkind, if_true, show ¬ 2 = 3 by decide, false_and, if_false]

end Sys2Proof.Machine
end

section
/-! SUPPORT. Events of power, rails, coolant and temperature (R519, R523, R526, R529 to R534, R544). -/

namespace Sys2Proof.Machine

open Sys2Proof

/-! ### Lease and budget (R526, R530) -/

theorem exec_leaseExpired_running {s : State} {until_ : Nat} (h : s.power.lease = some until_) :
    let fb := (getPolicy s 4).armed
    let new := if fb then getLe (getPolicy s 4).args 0 4 else s.power.budget
    exec .leaseExpired s = .next (raiseEv
      { s with power := { s.power with budget := new, lease := none, fallback := s.power.fallback || fb } }
      0x9030 2 noFrame [(28, 4, s.power.budget), (32, 4, new), (36, 1, bitAt fb 0)]) := by
  simp only [exec, execLeaseExpired, leaseOut, h]

theorem exec_budgetUnmet_slowest {s : State} {mw : Word} (hslow : allSlowest s = true) (hover : (ceiling s).1 * 1000 < mw.toNat) :
    exec (.budgetUnmet mw) s = .next (raiseEv { s with power := { s.power with pSt := mw.toNat / 1000 } } 0x9031 2 noFrame
      [(28, 4, (ceiling s).1), (32, 4, mw.toNat / 1000)]) :=
  congrArg _ (if_pos ⟨hslow, hover⟩)

/-! ### Droop (R531) -/

section
variable {s : State} {f : FrameId} {mv : Word16} (hrun : (getFrame s (frKey f)).stretched = false)
  (hlow : (mv.toNat : Int) ≤ stopMilliVolts s (frKey f) (getFrame s (frKey f)).stop.toNat - 30)
include hrun hlow

theorem droop_starts : ¬ ((getFrame s (frKey f)).stretched || !decide ((mv.toNat : Int) ≤ stopMilliVolts s (frKey f)
    (getFrame s (frKey f)).stop.toNat - 30)) = true := by simp [hrun, hlow]

variable (hframe : frameOk s (frKey f) = true)
include hframe

theorem exec_droopDetect_first (hnone : (getFrame s (frKey f)).droopEvent = none) :
    let fr := getFrame s (frKey f)
    exec (.droopDetect f mv) s = .next (raiseEv
      (setFrame s (frKey f) { fr with stretched := true, droops := satAdd 0xFFFFFFFF fr.droops 1, droopEvent := some (now s) })
      0x9020 1 noFrame [(28, 1, frKey f), (29, 1, fr.stop.toNat), (32, 4, 0)]) := by
  refine congrArg _ ((if_pos hframe).trans ((if_neg (droop_starts hrun hlow)).trans ?_))
  simp only [hnone, if_true]

/-- A further droop within a second is counted and not reported. -/
theorem exec_droopDetect_again {x : Nat} (hsome : (getFrame s (frKey f)).droopEvent = some x) (hsoon : now s < x + 1000000000) :
    let fr := getFrame s (frKey f)
    exec (.droopDetect f mv) s =
      .next (setFrame s (frKey f) { fr with stretched := true, droops := satAdd 0xFFFFFFFF fr.droops 1 }) := by
  refine congrArg _ ((if_pos hframe).trans ((if_neg (droop_starts hrun hlow)).trans ?_))
  simp only [hsome, decide_eq_false (Nat.not_le.mpr hsoon), Bool.false_eq_true, if_false]

end

/-! ### Samples (R532 to R534, R544) -/

/-- A sample sets SOFT by its two thresholds, and tells of the change. -/
theorem softSample_eq (s : State) (cl : Nat) (t : Int) :
    let c := getCl s cl
    let soft := decide (95 ≤ t) || (c.therm.getLsbD 8 && decide (93 ≤ t))
    let u := setCl s cl { c with therm := BitVec.ofNat 32 (codeOf 8 t + bitAt soft 8 + c.therm.toNat / 2 ^ 9 * 2 ^ 9) }
    let detail := [(28, 2, targetOfCl cl), (30, 1, codeOf 8 t)]
    softSample s cl t = if soft = true ∧ c.therm.getLsbD 8 = false then raiseEv u 0x9010 1 noFrame detail
      else if soft = false ∧ c.therm.getLsbD 8 = true then raiseEv u 0x9012 0 noFrame detail else u := by
  intro c soft u detail
  have hrises : (soft && !c.therm.getLsbD 8) = true ↔ soft = true ∧ c.therm.getLsbD 8 = false := by simp
  have hfalls : (c.therm.getLsbD 8 && !soft) = true ↔ soft = false ∧ c.therm.getLsbD 8 = true := by simp [and_comm]
  exact if_congr hrises rfl (if_congr hfalls rfl rfl)

theorem exec_coolantSample_good {s : State} {cs : CoolantSample} (hflow : 720 ≤ cs.flow.toNat) (hin : cs.tIn.toInt ≤ 32)
    (hstep : ¬ (s.boot.fw = .loading ∧ s.boot.step = 6)) :
    exec (.coolantSample cs) s = .next { s with coolantOk := true, power := { s.power with
      flow := cs.flow.toNat, tIn := cs.tIn.toNat, tOut := cs.tOut.toNat
      pQ := 76000 * min 800 cs.flow.toNat * min 15 (45 - cs.tIn.toInt).toNat / (800 * 15) } } := by
  have hgood : (decide (720 ≤ cs.flow.toNat) && decide (cs.tIn.toInt ≤ 32)) = true := by simp [hflow, hin]
  simp only [exec, execCoolantSample, coolantIn, hgood, true_and, if_neg hstep, Bool.not_true, Bool.false_and, Bool.false_eq_true,
    if_false, coolantLimit]

/-- Settles O51: each measurement by its thresholds (log entry 63). -/
theorem powerEvents : Obligations.PowerEvents := by
  intro s f k mw mv cs raw fr w
  refine ⟨fun hframe => congrArg _ (if_pos hframe), fun until_ h => exec_leaseExpired_running h, exec_budgetUnmet_slowest,
    fun hframe hrun hlow => ⟨exec_droopDetect_first hrun hlow hframe, fun x => exec_droopDetect_again hrun hlow hframe⟩,
    fun hstretched => congrArg _ (if_pos hstretched), ?sample, exec_coolantSample_good, fun mv => ⟨rfl, rfl⟩⟩
  case sample =>
    intro t c soft u detail v hthere
    have hsoft : softSample s (clKey k) t = v := softSample_eq s (clKey k) t
    have hrow : exec (.logicSensorSample k raw) s = .next (logicSample s (clKey k) t) :=
      congrArg _ (if_neg (ne_true_of_eq_false hthere))
    rw [hrow, logicSample, hsoft]

end Sys2Proof.Machine
end

section
/-! SUPPORT. Commands of faults and recovery: policies, fences, dailies and resets (R472, R486, R489, R602). -/

namespace Sys2Proof.Machine

open Sys2Proof

section
variable {t : State} {p : HostPort} {r : CmdRec} {ref : CmdRef}

/-! ### Fences (R602) -/

section
variable (htarget : fenceTarget t r = true)
include htarget

theorem fenceBody_idle (h : inScene (accept t ref []) (pb r 40 4) = false) :
    fenceBody r ref t = finish (fenceCore (accept t ref []) (pb r 40 4)) ref 0 [] := by
  refine (if_pos htarget).trans ?_
  simp only [h, Bool.false_eq_true, if_false]

theorem fenceBody_inScene (h : inScene (accept t ref []) (pb r 40 4) = true) :
    fenceBody r ref t =
      let u := accept t ref []
      finish (faultHalt u ⟨0, 1, some (pb r 40 4), (sheetSlate (getCore u (pb r 40 4))).toList, (getCore u (pb r 40 4)).scene⟩)
        ref 0 [] := by
  refine (if_pos htarget).trans ?_
  simp only [h, if_true]

end

/-- A core that can be given back: it was fenced in service and is good. -/
theorem unfenceBody_form_iff {c : Core} : (fenceTarget t r = false ∨ c.mode ≠ .fenced ∨ c.fencedInService = false ∨
      goodCore t (pb r 40 4) = false) ↔
    ¬ (fenceTarget t r = true ∧ c.mode = .fenced ∧ c.fencedInService = true ∧ goodCore t (pb r 40 4) = true) := by
  simp only [not_and_or, Bool.not_eq_true, ne_eq]

/-! ### Dailies (R486) -/

/-- The test of DAILIES_COLLECT, for a record whose fields are in range: the area holds the image. -/
theorem dailiesBody_form_iff (size : Nat) (hrsv : rsvOk r [(36, 0, 8), (40, 0, 24), (48, 0, 64), (56, 0, 32)] = true)
    (hkind : pb r 36 1 ≤ 1) (hrect : pb r 40 4 = 0 ∨ rectWordOk (pb r 40 4) = true) (haddr : pb r 48 8 ≠ 0) :
    (rsvOk r [(36, 0, 8), (40, 0, 24), (48, 0, 64), (56, 0, 32)] = false ∨ 1 < pb r 36 1 ∨
      (pb r 40 4 ≠ 0 ∧ rectWordOk (pb r 40 4) = false) ∨ pb r 48 8 = 0 ∨ pb r 56 4 < size) ↔ pb r 56 4 < size := by
  have hform : ¬ (pb r 40 4 ≠ 0 ∧ rectWordOk (pb r 40 4) = false) := fun ⟨hsome, hbad⟩ =>
    hrect.elim hsome (ne_true_of_eq_false hbad)
  simp only [hrsv, Bool.true_eq_false, Nat.not_lt.mpr hkind, hform, haddr, false_or]

/-! ### RESET (R489) -/

/-- The module domain has no cores of its own to wait for. -/
theorem domainCores_module (k : Nat) : domainCores 5 k = [] := rfl

section
variable (hrsv : rsvOk r [(36, 0, 8), (37, 0, 8), (40, 0, 32)] = true) (hdomain : pb r 36 1 ≤ 5)
  (hmode : (if pb r 36 1 = 5 then pb r 37 1 else 0) ≤ 1) (htarget : targetOk t (pb r 36 1) (pb r 40 4) = true)
include hrsv hdomain hmode htarget

theorem resetBody_form : ¬ (rsvOk r [(36, 0, 8), (37, 0, 8), (40, 0, 32)] = false ∨ 5 < resetDomain r ∨
    1 < (if resetDomain r = 5 then pb r 37 1 else 0) ∨ targetOk t (resetDomain r) (resetTarget r) = false) := by
  rintro (h | h | h | h)
  · exact ne_true_of_eq_false h hrsv
  · exact absurd h (Nat.not_lt.mpr hdomain)
  · exact absurd h (Nat.not_lt.mpr hmode)
  · exact ne_true_of_eq_false h htarget

theorem resetBody_running (h : ∃ c ∈ domainCores (pb r 36 1) (pb r 40 4), (getCore t c).mode = .running) :
    resetBody r ref t = finish t ref 0x0301 [] :=
  (if_neg (resetBody_form hrsv hdomain hmode htarget)).trans
    (if_pos (by simpa only [List.any_eq_true, decide_eq_true_eq, resetDomain, resetTarget] using h))

/-- A RESET of a domain whose cores all stand still. -/
theorem resetBody_starts (h : ∀ c ∈ domainCores (pb r 36 1) (pb r 40 4), (getCore t c).mode ≠ .running) :
    let d := pb r 36 1
    let mode := if d = 5 then pb r 37 1 else 0
    let u := domainReset (accept t ref []) d mode (pb r 40 4)
    let w : ResetWork := { cmd := some ref, domain := d, mode := mode, target := pb r 40 4, since := now t }
    let v := if d = 5 then { w with since := 0, cmd := if mode = 1 then none else some ref } else w
    resetBody r ref t = { u with works := { u.works with resets := u.works.resets ++ [v] } } := by
  have hstill : ¬ ((domainCores (pb r 36 1) (pb r 40 4)).any fun k => decide ((getCore t k).mode = .running)) = true := by
    simpa only [List.any_eq_true, decide_eq_true_eq, not_exists, not_and] using h
  exact (if_neg (resetBody_form hrsv hdomain hmode htarget)).trans (if_neg hstill)

theorem resetBody_part (h : ∀ c ∈ domainCores (pb r 36 1) (pb r 40 4), (getCore t c).mode ≠ .running) (hpart : pb r 36 1 < 5) :
    let u := domainReset (accept t ref []) (pb r 36 1) 0 (pb r 40 4)
    resetBody r ref t = { u with works := { u.works with
      resets := u.works.resets ++ [{ cmd := some ref, domain := pb r 36 1, mode := 0, target := pb r 40 4, since := now t }] } } := by
  have hne : pb r 36 1 ≠ 5 := by omega
  refine (resetBody_starts hrsv hdomain hmode htarget h).trans ?_
  simp only [if_neg hne]

theorem resetBody_module (hmodule : pb r 36 1 = 5) :
    let mode := if pb r 36 1 = 5 then pb r 37 1 else 0
    let u := if mode = 1 then moduleCold (accept t ref []) else moduleWarm (accept t ref [])
    resetBody r ref t = { u with works := { u.works with resets := u.works.resets ++
      [{ cmd := if mode = 1 then none else some ref, domain := 5, mode := mode, target := pb r 40 4, since := 0 }] } } := by
  have hstill : ∀ c ∈ domainCores (pb r 36 1) (pb r 40 4), (getCore t c).mode ≠ .running := by
    rw [hmodule, domainCores_module]
    exact fun c hc => absurd hc List.not_mem_nil
  refine (resetBody_starts hrsv hdomain hmode htarget hstill).trans ?_
  simp only [hmodule, if_true]
  rfl

end
end

/-- Settles O52: each command by its tests (log entries 44, 46, 52 and 54). -/
theorem recoveryCommands : Obligations.RecoveryCommands := by
  intro s t p r ref code k
  refine ⟨fun h => ?policy, fun h => ?fence, fun h => ?unfence, fun h hrsv hkind hrect haddr => ?dailies,
    fun h hrsv hdomain hmode htarget => ?reset⟩
  case policy =>
    rw [exec_policySet_taken h]
    exact ⟨fun hgood => congrArg _ (if_neg (ne_true_of_eq_false hgood)), fun hbad => congrArg _ (if_pos hbad)⟩
  case fence =>
    rw [exec_fenceCore_taken h]
    exact ⟨fun htarget hidle => congrArg _ (fenceBody_idle htarget hidle), fun htarget hin => congrArg _ (fenceBody_inScene htarget hin),
      fun hnone => congrArg _ (if_neg (ne_true_of_eq_false hnone))⟩
  case unfence =>
    rw [exec_unfenceCore_taken h]
    exact ⟨fun hable => congrArg _ (if_neg fun hform => unfenceBody_form_iff.mp hform hable),
      fun hnot => congrArg _ (if_pos (unfenceBody_form_iff.mpr hnot))⟩
  case dailies =>
    rw [exec_dailiesCollect_taken h]
    intro a
    have hform := dailiesBody_form_iff (imageSize a) hrsv hkind hrect haddr
    exact ⟨fun hroom => congrArg _ (if_neg (hform.not.mpr (Nat.not_lt.mpr hroom))),
      fun hsmall => congrArg _ (if_pos (hform.mpr hsmall))⟩
  case reset =>
    rw [exec_reset_taken h]
    exact ⟨fun hstill hpart => congrArg _ (resetBody_part hrsv hdomain hmode htarget hstill hpart),
      fun hmodule => congrArg _ (resetBody_module hrsv hdomain hmode htarget hmodule),
      fun hrun => congrArg _ (resetBody_running hrsv hdomain hmode htarget hrun)⟩

end Sys2Proof.Machine
end

section
/-! SUPPORT. Events of faults and recovery: dailies, resets, fault halts, hangs, heartbeat and watchdog (R475, R483 to R487, R489,
R493, R494). -/

namespace Sys2Proof.Machine

open Sys2Proof

/-! ### Dailies written (R487) -/

/-- The oldest image, of no cut and no hang, is written and told. -/
theorem exec_dailiesWritten_plain {s : State} {w : DailiesWork} {rest : List DailiesWork} (hwork : s.works.dailies = w :: rest)
    (hcut : w.cut = none) (hhang : w.hang = none) :
    let u := raiseEv (hostWrite { s with works := { s.works with dailies := rest } } w.port w.addr.toNat w.image) 0xB002 0 noFrame
      [(28, 1, portNo w.port), (29, 1, 1), (32, 4, w.cores), (36, 8, w.image.length), (44, 8, w.addr.toNat)]
    exec .dailiesWritten s = .next (w.cmd.elim u fun ref => finish u ref 0 []) := by
  cases hcmd : w.cmd <;> simp only [exec, execDailiesWritten, dailiesDone, dailiesEnd, hwork, hcut, hhang, hcmd, List.erase_cons_head,
    Option.isSome_none, Bool.false_eq_true, if_false, Option.elim_none, Option.elim_some]

/-! ### A reset completes (R489) -/

section
variable (s : State) (cl d t : Nat)

theorem now_clusterReady : now (clusterReady s cl) = now s := by
  unfold clusterReady vaultWake
  dsimp only
  repeat' split
  all_goals rfl

theorem now_foldl_clusterReady (l : List Nat) : now (l.foldl clusterReady s) = now s := by
  induction l generalizing s with
  | nil => rfl
  | cons cl l ih => exact (ih _).trans (now_clusterReady s cl)

/-- A domain comes back in no time. -/
theorem now_domainReady : now (domainReady s d t) = now s := by
  unfold domainReady
  split
  · exact now_clusterReady s _
  · exact now_foldl_clusterReady s _
  · rfl

end

theorem exec_resetDone_command {s : State} {w : ResetWork} {rest : List ResetWork} {ref : CmdRef} (hwork : s.works.resets = w :: rest)
    (hcmd : w.cmd = some ref) (hready : w.domain < 4 ∨ s.boot.ready = true) :
    exec .resetDone s = .next (finish (raiseEv (domainReady { s with works := { s.works with resets := rest } } w.domain w.target)
      0xB040 1 noFrame [(28, 1, w.domain), (29, 1, w.mode), (32, 4, w.target), (36, 4, (now s - w.since) / 1000)]) ref 0 []) := by
  have hend : resetsDone s = resetEnd s w := by
    by_cases hpart : w.domain < 4
    · simp only [resetsDone, hwork, if_neg (Nat.not_le.mpr hpart), hcmd, Option.isSome_some, if_true]
    · simp only [resetsDone, hwork, if_pos (Nat.not_lt.mp hpart), hready.resolve_left hpart, if_true]
  refine (congrArg Host.Outcome.next hend).trans ?_
  simp only [resetEnd, hwork, hcmd, List.erase_cons_head, now_domainReady]
  rfl

/-! ### Fault halts (R475) -/

section
variable {s : State} {d : Detection}

theorem faultHalt_slates (h : (d.slates.filter fun n => (getSlate s n).mode != .free) ≠ []) :
    faultHalt s d = (d.slates.filter fun n => (getSlate s n).mode != .free).foldl (fun u n => faultHaltSlate u d n) s := by
  unfold faultHalt
  split
  case h_1 hnone => exact absurd hnone h
  case h_2 => rfl

theorem faultHalt_core {k : Nat} (h : (d.slates.filter fun n => (getSlate s n).mode != .free) = []) (hcls : d.cls = 1)
    (hcore : d.core = some k) : faultHalt s d = fenceCore s k := by
  simp only [faultHalt, h, hcore, hcls, if_true]

theorem exec_faultHalt_oldest {rest : List Detection} (h : s.detections = d :: rest) :
    exec .faultHalt s = .next (faultHalt { s with detections := rest } d) := by
  simp only [exec, execFaultHalt, h]

end

/-! ### Hangs (R483 to R485) -/

section
variable {s : State} {sc : SceneId} {x : Scene}

/-- What follows the declaration of a hung scene that is no suspect of a recovery. -/
theorem exec_hangDeclared_alone
    (hfind : s.scenes.find? (fun x => x.sbn == sc.sbn.val && x.idx == sc.idx.val && (x.phase == .running || x.phase == .ended)
      && !x.hung && !x.progress) = some x) (harmed : (getPolicy s 7).armed = true)
    (hsuspect : suspectOf (setScene s { x with hung := true }) { x with hung := true } = none) :
    let y := { x with hung := true }
    let u := setScene s y
    exec (.hangDeclared sc) s = .next (if hangRecovers u y then hangRecover (hangEvent u y 1) y else hangEvent u y 0) := by
  simp only [exec, execHangDeclared, hangDeclare, hfind, harmed, hsuspect, Bool.true_eq_false, if_false, Option.isSome_none,
    Bool.false_eq_true]

theorem exec_hangCoreResetTimeout_escalates {c : CoreId} {w : ResetWork}
    (hfind : s.works.resets.find? (fun w => w.cmd.isNone && w.domain == 0 && w.target == coreKey c) = some w)
    (hhang : s.hangs.any (fun h => h.resetting.contains (coreKey c)) = true) :
    let u := clusterReset s (clOf (coreKey c))
    exec (.hangCoreResetTimeout c) s = .next { u with works := { u.works with resets := u.works.resets.map fun v =>
      if v = w then { v with domain := 1, target := targetOfCl (clOf (coreKey c)), since := now u } else v } } := by
  simp only [exec, execHangCoreResetTimeout, coreEscalate, hfind, hhang, if_true]

variable {n : SlateId} {h : HangWork} (hfind : s.hangs.find? (fun h => h.current == some n.val) = some h)
include hfind

theorem exec_hangSuspectEnded_closed (hscene : suspectScene s h n.val = none) :
    exec (.hangSuspectEnded n) s = .next (hangGoOn (setHang s h fun y => { y with current := none }) h) := by
  simp only [exec, execHangSuspectEnded, suspectEnded, hfind, hscene]

theorem exec_hangSuspectEnded_runs (hscene : suspectScene s h n.val = some x) :
    exec (.hangSuspectEnded n) s = .next (if x.hung then hangGuilty s h x n.val else s) := by
  simp only [exec, execHangSuspectEnded, suspectEnded, hfind, hscene]

end

/-! ### Heartbeat (R493) -/

/-- The heartbeat count, the cores and the slates, which an event leaves as they are. -/
def beatParts (s : State) : Word × SMap Core × SMap Slate := (s.heartbeat, s.cores, s.slates)

section
variable (s : State) (p : HostPort) (rcd : List Byte)

theorem beatParts_setHost (h : HPort) : beatParts (setHost s p h) = beatParts s := by cases p <;> rfl

theorem beatParts_fireVector (v : Nat) : beatParts (fireVector s p v) = beatParts s := by
  unfold fireVector
  dsimp only
  split
  · exact beatParts_setHost s p _
  · rfl

theorem beatParts_writeEvt : beatParts (writeEvt s p rcd) = beatParts s := by
  unfold writeEvt
  dsimp only
  split
  · exact (beatParts_fireVector _ p _).trans (beatParts_setHost s p _)
  · exact beatParts_setHost s p _

theorem beatParts_beatTo : beatParts (beatTo s p rcd) = beatParts s := by
  simp only [beatTo, postEvent, apply_ite beatParts, beatParts_writeEvt, beatParts_setHost, ite_self]

end

theorem beat_counts (s : State) :
    (beat s).heartbeat = s.heartbeat + 1 ∧ (beat s).cores = s.cores ∧ (beat s).slates = s.slates := by
  have hparts : beatParts (beat s) = beatParts { s with heartbeat := s.heartbeat + 1 } :=
    (beatParts_beatTo _ _ _).trans (beatParts_beatTo _ _ _)
  simpa only [beatParts, Prod.mk.injEq] using hparts

/-- Settles O53: the oldest work, detection or scene in hand goes on as its case has it (log entries 55 to 57). -/
theorem recoveryEvents : Obligations.RecoveryEvents := by
  intro s sc c n
  refine ⟨fun w rest hwork hcut hhang => ?dailies, fun w rest ref => exec_resetDone_command, fun d rest hdet => ?halt, rfl,
    fun x hfind harmed => ?declared, fun w => exec_hangCoreResetTimeout_escalates,
    fun h hfind => ⟨exec_hangSuspectEnded_closed hfind, fun x hscene hhung => ?guilty, fun x hscene hruns => ?runs⟩,
    fun hfw => ⟨⟨beat s, congrArg _ (if_neg hfw), beat_counts s⟩, congrArg _ (if_neg hfw)⟩,
    fun hrom => ⟨congrArg _ (if_pos hrom), congrArg _ (if_pos hrom)⟩⟩
  case dailies =>
    rw [exec_dailiesWritten_plain hwork hcut hhang]
    refine ⟨fun hnone => ?_, fun ref hsome => ?_⟩
    · rw [hnone, Option.elim_none]
    · rw [hsome, Option.elim_some]
  case halt =>
    rw [exec_faultHalt_oldest hdet]
    exact ⟨fun hsome => congrArg _ (faultHalt_slates hsome), fun k hnone hcls hcore => congrArg _ (faultHalt_core hnone hcls hcore)⟩
  case declared =>
    intro y u hsuspect
    rw [exec_hangDeclared_alone hfind harmed hsuspect]
    exact ⟨fun hrecovers => congrArg _ (if_pos hrecovers), fun hnot => congrArg _ (if_neg (ne_true_of_eq_false hnot))⟩
  case guilty =>
    rw [exec_hangSuspectEnded_runs hfind hscene]
    exact congrArg _ (if_pos hhung)
  case runs =>
    rw [exec_hangSuspectEnded_runs hfind hscene]
    exact congrArg _ (if_neg (ne_true_of_eq_false hruns))

end Sys2Proof.Machine
end

section
/-! SUPPORT. Start-up: images, calibration, BIST, the floor plan, debug unlock and the main feed (R454, R547, R550 to R552, R555 to
R559, R561, R565, R570). -/

namespace Sys2Proof.Machine

open Sys2Proof

/-! ### Images (R550 to R552) -/

section
variable {t : State} {r : CmdRec} {ref : CmdRef}

theorem fwLoadBody_asks (hrom : t.boot.fw = .rom) (hnone : t.boot.load = none) (hrsv : rsvOk r [(36, 0, 1), (40, 0, 32)] = true)
    (hwait : pb r 40 4 ≤ 60000) :
    let u := accept t ref []
    fwLoadBody r ref t = { u with boot := { u.boot with load := some (ref, pbit r 36 0, r.dataLen.toNat, pb r 40 4) } } := by
  have hfree : ¬ (t.boot.fw ≠ .rom ∨ t.boot.load.isSome = true) := by simp [hrom, hnone]
  have hform : ¬ (rsvOk r [(36, 0, 1), (40, 0, 32)] = false ∨ 60000 < pb r 40 4) := by simp [hrsv, hwait]
  exact (if_neg hfree).trans (if_neg hform)

theorem fwLoadBody_late (hrun : t.boot.fw ≠ .rom) : fwLoadBody r ref t = finish t ref 0x0301 [] := if_pos (.inl hrun)

end

section
variable {s : State} {b : List Byte} {k : CmdRef} {commit : Bool} {len wait : Nat}
  (hload : s.boot.load = some (k, commit, len, wait)) (hrom : s.boot.fw = .rom)
include hload hrom

theorem imageRead_good (h : imageReason s b len = 0) : imageRead s k.port b = handover s k commit wait b := by
  simp only [imageRead, hload, hrom, h, ne_eq, not_true_eq_false, or_self, if_false]

theorem imageRead_bad (h : imageReason s b len ≠ 0) : imageRead s k.port b =
    finish { s with boot := { s.boot with load := none } } k 0x0103 [(24, 1, imageReason s b len)] := by
  simp only [imageRead, hload, hrom, ne_eq, not_true_eq_false, or_self, if_false]

end

/-! ### BIST (R557, R558) -/

section
variable {s : State} (x : BistResult)

/-- The module as BIST leaves it, before the guarantees of R558 are tested. -/
def bistDone (s : State) (x : BistResult) : State := bistEvent { s with floor := bistPlan s x } x

theorem bistEnd_good (hoff : (disabledCls (bistDone s x)).length ≤ 24)
    (hgood : guaranteed (bistDone s x) ≤ goodCount (bistDone s x) - fencedCount (bistDone s x)) :
    bistEnd s x = moduleReady (startMesh (startVaults (fenceBad (bistDone s x)))) 1 :=
  if_neg fun h => h.elim (Nat.not_lt.mpr hoff) (Nat.not_lt.mpr hgood)

theorem bistEnd_short (h : 24 < (disabledCls (bistDone s x)).length ∨
      goodCount (bistDone s x) - fencedCount (bistDone s x) < guaranteed (bistDone s x)) :
    bistEnd s x = bringupFailed { bistDone s x with boot := { (bistDone s x).boot with step := 9 } } 2 9
      (goodCount (bistDone s x)) (disabledCls (bistDone s x)).length := if_pos h

end

theorem exec_fastPathDone_ends {s : State} (hfw : s.boot.fw = .loading) (hstep : s.boot.step = 7) :
    exec .fastPathDone s = .next (fastEnd s) := by
  simp only [exec, execFastPathDone, hfw, hstep, and_self, if_true]

/-! ### Calibration and the floor plan (R559, R561) -/

section
variable {t : State} {p : HostPort} {r : CmdRec} {ref : CmdRef}

theorem calBody_applies (hrsv : rsvOk r [(36, 0, 1)] = true) (halign : (bufBytes r).length % 8 = 0)
    (hsome : 0 < (bufBytes r).length / 8) (hmax : (bufBytes r).length / 8 ≤ 8192)
    (hentries : ∀ i < (bufBytes r).length / 8, calEntryOk t (bufBytes r) i = true) :
    let d := bufBytes r
    let n := d.length / 8
    let es := (List.range n).map (calEntry d)
    let changed := (es.filter fun e => decide (calValue e ≠ e.2.2)).length
    let u := if pbit r 36 0 then { t with boot := { t.boot with overlayV := [], overlayS := [], overlayL := [] } } else t
    calBody r ref t = calWaitEnd (raiseEv
      (finish (extendMeas (es.foldl calApply u) 3 (Config.sha512 d)) ref 0 [(24, 4, n), (28, 4, changed)])
      0xA002 0 noFrame [(28, 4, n), (32, 4, changed), (36, 1, bitAt (pbit r 36 0) 0)]) := by
  have hall : (List.range ((bufBytes r).length / 8)).all (calEntryOk t (bufBytes r)) = true :=
    List.all_eq_true.mpr fun i hi => hentries i (List.mem_range.mp hi)
  refine if_neg ?_
  rintro (h | h | h | h | h)
  · exact ne_true_of_eq_false h hrsv
  · exact h halign
  · exact absurd h (Nat.ne_of_gt hsome)
  · exact absurd h (Nat.not_lt.mpr hmax)
  · exact ne_true_of_eq_false h hall

theorem floorplanBody_written (hrsv : rsvOk r [(40, 0, 64), (48, 0, 32)] = true) (haddr : pb r 40 8 ≠ 0) (hroom : 86948 ≤ pb r 48 4) :
    floorplanBody p r ref t = finish (hostWrite t p (pb r 40 8) (fpImage t)) ref 0 [] := by
  refine if_neg ?_
  rintro (h | h | h)
  · exact ne_true_of_eq_false h hrsv
  · exact absurd h (Nat.not_lt.mpr hroom)
  · exact haddr h

theorem floorplanBody_small (hsmall : pb r 48 4 < 86948) : floorplanBody p r ref t = finish t ref 0x0103 [] :=
  if_pos (.inr (.inl hsmall))

/-! ### Debug unlock (R565) -/

theorem length_exactly (n : Nat) (b : List Byte) : (exactly n b).length = n := by simp [exactly]

theorem debugNonce_drawn (hrsv : rsvOk r [(36, 0, 8)] = true) (hphase : pb r 36 1 = 0) :
    let d := exactly 32 (Config.nonce t.freeCtr)
    debugNonce r ref t = finish { t with freeCtr := t.freeCtr + 1, boot := { t.boot with nonce := some (d, now t) } } ref 0
      [(24, 32, leNat d), (56, 8, t.otp.serial.toNat)] := by
  have hform : ¬ (rsvOk r [(36, 0, 8)] = false ∨ pb r 36 1 ≠ 0) := by simp [hrsv, hphase]
  rw [debugNonce, if_neg hform]

theorem debugGrant_none (h : t.boot.nonce = none) : debugGrant p r ref t = finish t ref 0x0103 [] := by
  simp only [debugGrant, h]

section
variable {d : List Byte} {at0 : Nat} (hnonce : t.boot.nonce = some (d, at0))
include hnonce

theorem debugGrant_good (hgood : grantOk t r (d, at0) = true) :
    let u := extendMeas { t with boot := { t.boot with nonce := none } } 4 (Config.sha512 (grantRecord t d (pb r 37 1)))
    let v := { u with boot := { u.boot with scopes := u.boot.scopes ||| BitVec.ofNat 3 (pb r 37 1) } }
    debugGrant p r ref t =
      finish (raiseEv v 0xA030 1 noFrame [(28, 1, pb r 37 1), (29, 1, v.boot.scopes.toNat), (30, 1, portNo p)]) ref 0 [] := by
  simp only [debugGrant, hnonce, hgood, if_true]
  rfl

theorem debugGrant_bad (hbad : grantOk t r (d, at0) = false) :
    debugGrant p r ref t = finish { t with boot := { t.boot with nonce := none } } ref 0x0103 [] := by
  simp only [debugGrant, hnonce, hbad, Bool.false_eq_true, if_false]

end
end

/-- Settles O56: each step of start-up by its tests (log entries 48, 50 and 67). -/
theorem bootSteps : Obligations.BootSteps := by
  intro s t p r ref b x
  refine ⟨fun h => ?load, fun k commit len wait hload hport hrom => ?handover,
    fun hfw hstep => congrArg _ (if_pos ⟨hfw, hstep⟩), fun hfw hstep => ?bist, fun hfw hstep => ?fast,
    fun h => ?cal, fun h hrsv haddr => ?floorplan, fun h hrsv hphase => ?nonce, fun h => ?grant, rfl, rfl, fun hen hoff => ?ramp⟩
  case load =>
    rw [exec_fwLoad_taken h]
    exact ⟨fun hrom hnone hrsv hwait => congrArg _ (fwLoadBody_asks hrom hnone hrsv hwait),
      fun hrun => congrArg _ (fwLoadBody_late hrun)⟩
  case handover =>
    subst hport
    exact ⟨fun hgood => congrArg _ (imageRead_good hload hrom hgood), fun hbad => congrArg _ (imageRead_bad hload hrom hbad)⟩
  case bist =>
    have hrow : exec (.bistComplete x) s = .next (bistEnd s x) := congrArg _ (if_pos ⟨hfw, hstep⟩)
    rw [hrow]
    exact ⟨fun hoff hgood => congrArg _ (bistEnd_good x hoff hgood), fun hshort => congrArg _ (bistEnd_short x hshort)⟩
  case fast => rw [exec_fastPathDone_ends hfw hstep, fastEnd]
  case cal =>
    rw [exec_calLoad_taken h]
    exact fun hrsv halign hsome hmax hentries => congrArg _ (calBody_applies hrsv halign hsome hmax hentries)
  case floorplan =>
    rw [exec_floorplanRead_taken h]
    exact ⟨fun hroom => congrArg _ (floorplanBody_written hrsv haddr hroom), fun hsmall => congrArg _ (floorplanBody_small hsmall)⟩
  case nonce =>
    rw [exec_debugUnlockNonce_taken h]
    exact ⟨_, length_exactly 32 _, congrArg _ (debugNonce_drawn hrsv hphase)⟩
  case grant =>
    rw [exec_debugUnlockGrant_taken h]
    exact ⟨fun d at0 hnonce hgood => congrArg _ (debugGrant_good hnonce hgood),
      fun d at0 hnonce hbad => congrArg _ (debugGrant_bad hnonce hbad), fun hnone => congrArg _ (debugGrant_none hnone)⟩
  case ramp => exact congrArg _ (if_pos (by simp [hen, hoff]))

end Sys2Proof.Machine
end
